-- ==== Sys2Proof/Word.lean ====
section
/-! DEFINITION. The words Efkar's manual speaks of: identifiers, addresses, times, lines, and the sparse table every
addressed store of the block is held in. -/

namespace Sys2Proof

/-- An agent ID, 0 to 62; 63 is Efkar's internal service agent (R8). -/
abbrev Agent := BitVec 6
/-- A partition number (R334). -/
abbrev PartId := BitVec 6
/-- A partition's generation (R68). -/
abbrev Gen := BitVec 8
/-- An agent's tag for a request (R41). -/
abbrev ATag := BitVec 12
/-- A line address, PA[51:6] (R41). -/
abbrev LineAddr := BitVec 46
/-- The 64 bytes of a line, byte b in bits [8b+7:8b] (R38). -/
abbrev Line := BitVec 512
/-- A count of the time base (R162). -/
abbrev Tk := BitVec 48

/-- A sparse store: pairs of an address and a value, addresses rising, no value equal to the one an unlisted address
reads as. `Tab.get` and `Tab.set` of Machine/Table.lean are the only readers and writers. -/
abbrev Tab (α : Type) := List (Nat × α)

end Sys2Proof
end

