-- ==== Sys2Proof/Syntax.lean ====
section
/-! DEFINITION. The commands of Efkar: one constructor of `Instr` for each row of the table of operations and events.
Operands are the fields of the flit that arrives, the unit the happening belongs to, and what the surroundings
determine (a read's error, a PHY's answer, a PIN's level). -/

namespace Sys2Proof

/-- The REQ opcodes (R50). -/
inductive ReqOp where
  | rdShd | rdOwn | rdCur | upgr | wrFull | wrPart | evClean | evDirty | atom | lockAcq | lockRel
  | qEnq | qDeq | qWatch | resv | condWr | drainO | drainE | hint
  deriving DecidableEq, Repr

/-- The fields of a REQ flit besides its opcode and CRC (R41). -/
structure ReqArgs where
  src  : Agent
  part : PartId
  gen  : Gen
  atag : ATag
  pa   : LineAddr
  arg  : BitVec 29
  deriving DecidableEq, Repr

/-- The fields of an RSP flit besides its opcode, RSVD bit and CRC (R47). -/
structure RspArgs where
  src   : Agent
  dst   : Agent
  part  : PartId
  gen   : Gen
  atag  : ATag
  stat  : BitVec 3
  grant : BitVec 3
  loc   : BitVec 46
  info  : BitVec 16
  deriving DecidableEq, Repr

/-- The fields of a DAT flit besides its opcode, DIR and CRC (R49). -/
structure DatArgs where
  agt   : Agent
  id    : BitVec 18
  gen   : Gen
  cmp   : Bool
  stat  : BitVec 3
  grant : BitVec 3
  data  : Line
  deriving DecidableEq, Repr

/-- How a CSR access reaches the block: by a port's request or by the maintenance path (R407, R408). -/
inductive CsrPath where
  | port (p : Fin 24)
  | maint
  deriving DecidableEq, Repr

/-- The six channels of a port's link layer (R431). -/
inductive PortChan where
  | req | rspi | dati | snp | rspo | dato
  deriving DecidableEq, Repr

/-- A link between routers: network, output direction and position of the sending router (NOC_LINKLOG). Or the crossing by which an
endpoint sends into a network or takes from it (R438); endpoints are numbered slices, ports, controllers, CSR block, fault
collector. -/
inductive LinkId where
  | hop (net : Fin 4) (dir : Fin 4) (x : Fin 8) (y : Fin 6)
  | cross (net : Fin 4) (e : Fin 59) (out : Bool)
  deriving DecidableEq, Repr

/-- What a channel of a port shows with its `vld` or `rply` (R431): a sequence number and the bits of a flit. -/
structure LinkFlit where
  seq  : BitVec 5
  bits : BitVec 576
  deriving DecidableEq, Repr

/-- The commands. The docstring of each names the row's rule. -/
inductive Instr where
  /-- RDSHD, R105 -/  | rdshd (p : Fin 24) (f : ReqArgs)
  /-- RDOWN, R106 -/  | rdown (p : Fin 24) (f : ReqArgs)
  /-- RDCUR, R107 -/  | rdcur (p : Fin 24) (f : ReqArgs)
  /-- UPGR, R109 -/   | upgr (p : Fin 24) (f : ReqArgs)
  /-- WRFULL, R110 -/ | wrfull (p : Fin 24) (f : ReqArgs)
  /-- WRPART, R111 -/ | wrpart (p : Fin 24) (f : ReqArgs)
  /-- EVCLEAN, R113 -/ | evclean (p : Fin 24) (f : ReqArgs)
  /-- EVDIRTY, R114 -/ | evdirty (p : Fin 24) (f : ReqArgs)
  /-- ATOM, R330 -/   | atom (p : Fin 24) (f : ReqArgs)
  /-- LOCKACQ, R314 -/ | lockacq (p : Fin 24) (f : ReqArgs)
  /-- LOCKREL, R315 -/ | lockrel (p : Fin 24) (f : ReqArgs)
  /-- QENQ, R323 -/   | qenq (p : Fin 24) (f : ReqArgs)
  /-- QDEQ, R324 -/   | qdeq (p : Fin 24) (f : ReqArgs)
  /-- QWATCH, R325 -/ | qwatch (p : Fin 24) (f : ReqArgs)
  /-- RESV, R331 -/   | resv (p : Fin 24) (f : ReqArgs)
  /-- CONDWR, R157 -/ | condwr (p : Fin 24) (f : ReqArgs)
  /-- DRAINO, R120 -/ | draino (p : Fin 24) (f : ReqArgs)
  /-- DRAINE, R120 -/ | draine (p : Fin 24) (f : ReqArgs)
  /-- HINT, R121 -/   | hint (p : Fin 24) (f : ReqArgs)
  /-- REGULATOR_REFILL, R299: one tk at the bucket of partition q, class c of port p -/
  | regulatorRefill (p : Fin 24) (q : PartId) (c : Bool)
  /-- ARBITER_GRANT, R303: one sc of the slice's arbiter -/ | arbiterGrant (s : Fin 17)
  /-- REENTRY, R32 -/ | reentry (s : Fin 17)
  /-- ACTIVATION, R184; `mism` says that the two copies of the lane disagree (R205) -/
  | activation (s : Fin 17) (lane : Fin 4) (mism : Bool)
  /-- LANE_RETRY, R205 -/ | laneRetry (s : Fin 17) (lane : Fin 4) (mism : Bool)
  /-- SERVICE_COMMIT, R309 -/ | serviceCommit (s : Fin 17)
  /-- MEM_EVENT, R201 -/ | memEvent (s : Fin 17)
  /-- RSPI, R199 -/ | rspi (p : Fin 24) (f : RspArgs)
  /-- RSPS, R199 -/ | rsps (p : Fin 24) (f : RspArgs)
  /-- RSPFWDS, R199 -/ | rspfwds (p : Fin 24) (f : RspArgs)
  /-- RSPFWDI, R199 -/ | rspfwdi (p : Fin 24) (f : RspArgs)
  /-- RSPEVPEND, R116 -/ | rspevpend (p : Fin 24) (f : RspArgs)
  /-- COMPACK, R63 -/ | compack (p : Fin 24) (f : RspArgs)
  /-- DATDIRTY, R101 -/ | datdirty (p : Fin 24) (f : DatArgs)
  /-- DATWR, R43 -/ | datwr (p : Fin 24) (f : DatArgs)
  /-- FORWARDED_DAT, R39: DIR 0, any DAT opcode -/ | forwardedDat (p : Fin 24) (opc : BitVec 5) (f : DatArgs)
  /-- SNOOP_CREDIT, R434 -/ | snoopCredit (p : Fin 24)
  /-- SNOOP_EGRESS_SEND, R246 -/ | snoopEgressSend (p : Fin 24)
  /-- CREDIT_RETURN_PULSE, R433 -/ | creditReturnPulse (p : Fin 24)
  /-- DRAIN_REPORT, R119 -/ | drainReport (s : Fin 17)
  /-- SNOOP_DEADLINE_EXPIRY, R65 -/ | snoopDeadlineExpiry (p : Fin 24) (a : Agent)
  /-- SNOOP_EXPIRY_REPORT, R122 -/ | snoopExpiryReport (s : Fin 17)
  /-- COMPACK_ALLOWANCE_EXPIRY, R177 -/ | compackAllowanceExpiry (p : Fin 24) (a : Agent)
  /-- TMO_EXPIRY, R124 -/ | tmoExpiry (s : Fin 17) (tid : BitVec 13)
  /-- QUEUED_DEADLINE, R126 -/ | queuedDeadline (s : Fin 17) (tid : BitVec 13)
  /-- INGRESS_DEADLINE, R306 -/ | ingressDeadline (s : Fin 17) (r : Fin 26)
  /-- TRACKER_WATCHDOG, R169 -/ | trackerWatchdog (s : Fin 17) (tid : BitVec 13)
  /-- COMPANION_TIMEOUT, R44 -/ | companionTimeout (p : Fin 24) (src : Agent) (atag : ATag)
  /-- ORPHAN_DATWR_TIMEOUT, R44 -/ | orphanDatwrTimeout (p : Fin 24) (src : Agent) (atag : ATag)
  /-- STALE_RECORD_DEADLINE, R116 -/ | staleRecordDeadline (s : Fin 17) (a : Agent) (atag : ATag)
  /-- RESERVATION_LIFE_EXPIRY, R156 -/ | reservationLifeExpiry (s : Fin 17) (a : Agent)
  /-- WMB_AGE_EXPIRY, R247 -/ | wmbAgeExpiry (s : Fin 17)
  /-- WMB_ISSUE, R247 -/ | wmbIssue (s : Fin 17)
  /-- WMB_ENTRY_ACCEPTED, R247 -/ | wmbEntryAccepted (s : Fin 17)
  /-- DRAM_COMMAND_ISSUE, R267: one dc of the channel -/ | dramCommandIssue (n : Fin 16)
  /-- DRAM_READ_COMPLETE, R280 -/ | dramReadComplete (n : Fin 16) (err : BitVec 640)
  /-- REFRESH_DUE, R272 -/ | refreshDue (n : Fin 16) (r : Fin 4)
  /-- REFRESH_IDLE_MAKEUP, R272 -/ | refreshIdleMakeup (n : Fin 16) (r : Fin 4)
  /-- MR4_POLL, R274: bit r of `hot` is rank r's report -/ | mr4Poll (n : Fin 16) (hot : BitVec 4)
  /-- ALERT, R282; `ok` says that the replay succeeds -/ | alert (n : Fin 16) (r : Fin 4) (ok : Bool)
  /-- PANIC_LEVEL_CHANGE, R271 -/ | panicLevelChange (p : Fin 24) (lvl : BitVec 4)
  /-- RESYNC_COPY_LINE, R287 -/ | resyncCopyLine (n : Fin 16)
  /-- MSC_DRAIN_END, R251 -/ | mscDrainEnd (s : Fin 17)
  /-- MSC_INIT_DONE, R253 -/ | mscInitDone (s : Fin 17)
  /-- CORR_EVENT, R351 -/ | corrEvent (src : BitVec 7)
  /-- UNCOR_EVENT, R351 -/ | uncorEvent (src : BitVec 7)
  /-- EVAC_SET_STEP, R365 -/ | evacSetStep
  /-- EVAC_FINAL_STEP, R367 -/ | evacFinalStep
  /-- TAKEOVER_COPY_DONE, R368 -/ | takeoverCopyDone
  /-- RETURN_COMPLETE, R370 -/ | returnComplete
  /-- BROADCAST_SET_COMPLETE, R389 -/ | broadcastSetComplete
  /-- FREEZE_DRAIN_COMPLETE, R341 -/ | freezeDrainComplete (q : PartId)
  /-- PARTITION_RESET_DRAIN_COMPLETE, R342 -/ | partitionResetDrainComplete (q : PartId)
  /-- DISABLE_DRAIN_COMPLETE, R387 -/ | disableDrainComplete
  /-- HEARTBEAT_TICK, R354 -/ | heartbeatTick
  /-- CRC_PASS_END, R422 -/ | crcPassEnd (page : Fin 64)
  /-- CRCV_STALE_SECOND, R423 -/ | crcvStaleSecond (page : Fin 64)
  /-- POSTED_WRITE_APPLY, R415; islands are numbered as fault sources (R349) -/ | postedWriteApply (isl : Fin 57)
  /-- POWER_STAT_CHANGE, R448 -/ | powerStatChange (k : Fin 50) (st : BitVec 2)
  /-- POWER_STAT_MISMATCH, R448 -/ | powerStatMismatch (k : Fin 50)
  /-- DOMAIN_READY, R18 -/ | domainReady (s : Fin 17)
  /-- AUTO_SLEEP, R403 -/ | autoSleep (s : Fin 17)
  /-- NOC_LINK_REPLAY, R297; `again` says that the replay fails -/ | nocLinkReplay (l : LinkId) (again : Bool)
  /-- LANE_TEST_DONE, R298: the number of wires found failing -/ | laneTestDone (l : LinkId) (bad : Nat)
  /-- PORT_LINK_REPLAY_REQUEST, R431: on a channel of the agents a flit that comes in, which is
  replayed unless its CRC is good and its number the expected one; on a channel of Efkar `seq` is `ack`, the last number taken in order -/
  | portLinkReplayRequest (p : Fin 24) (c : PortChan) (f : LinkFlit)
  /-- PORT_LINK_ACK, R431 -/ | portLinkAck (p : Fin 24) (c : PortChan) (seq : BitVec 5)
  /-- FUSE_WORD_ACK, R445 -/ | fuseWordAck (w : BitVec 32)
  /-- FUSE_ACK_TIMEOUT, R445 -/ | fuseAckTimeout
  /-- INIT_PROGRAM_DONE, R383 -/ | initProgramDone (s : Fin 17) (arr : Fin 10)
  /-- TRAINING_DONE, R275 -/ | trainingDone (n : Fin 16)
  /-- DELAY_DONE, R442; `pass` says that every read at the code matches -/ | delayDone (n : Fin 16) (pass : Bool)
  /-- DELAY_DONE_LATE, R442 -/ | delayDoneLate (n : Fin 16)
  /-- GRAMMAR_CHECK_DONE, R209 -/ | grammarCheckDone (s : Fin 17) (bank : Bool)
  /-- LOAD_IMAGE_READ_DONE, R223 -/ | loadImageReadDone
  /-- BIST_DONE, R454: the failing words, array and word number; the 16 spare words of an array follow its words -/
  | bistDone (fails : List (Fin 10 × Nat))
  /-- WARM_ENTRY_COMPLETE, R395 -/ | warmEntryComplete
  /-- COLD_RESET_ASSERT, R394 -/ | coldResetAssert
  /-- COLD_RESET_RELEASE, R381 -/ | coldResetRelease
  /-- WARM_RESET_ASSERT, R395 -/ | warmResetAssert
  /-- WARM_RESET_RELEASE, R381 -/ | warmResetRelease
  /-- COMMIT, R465 -/ | commit (seq : BitVec 8)
  /-- ENABLE, R385 -/ | enable (seq : BitVec 8)
  /-- DISABLE, R387 -/ | disable (seq : BitVec 8)
  /-- LOAD, R225 -/ | load (seq : BitVec 8)
  /-- LOAD_ABORT, R227 -/ | loadAbort (seq : BitVec 8)
  /-- SWITCH, R230 -/ | switchBank (s : Fin 17) (seq : BitVec 8)
  /-- SUKCLR, R98 -/ | sukclr (s : Fin 17) (seq : BitVec 8)
  /-- SUKCLR_ABORT, R379 -/ | sukclrAbort (s : Fin 17) (seq : BitVec 8)
  /-- MSC_ENABLE, R252 -/ | mscEnable (s : Fin 17) (seq : BitVec 8)
  /-- MSC_DISABLE, R251 -/ | mscDisable (s : Fin 17) (seq : BitVec 8)
  /-- MSC_ABORT, R255 -/ | mscAbort (s : Fin 17) (seq : BitVec 8)
  /-- TRAIN, R275 -/ | train (n : Fin 16) (seq : BitVec 8)
  /-- TRAIN_ABORT, R379 -/ | trainAbort (n : Fin 16) (seq : BitVec 8)
  /-- RESYNC, R287 -/ | resync (n : Fin 16) (seq : BitVec 8)
  /-- RESYNC_ABORT, R287 -/ | resyncAbort (n : Fin 16) (seq : BitVec 8)
  /-- QDESC_WRITE, R328 -/ | qdescWrite (seq : BitVec 8) (home : Fin 16) (idx : BitVec 9)
  /-- QDESC_READ, R328 -/ | qdescRead (seq : BitVec 8) (home : Fin 16) (idx : BitVec 9)
  /-- QDESC_CLEAR, R328 -/ | qdescClear (seq : BitVec 8) (home : Fin 16) (idx : BitVec 9)
  /-- FREEZE, R341 -/ | freeze (seq : BitVec 8) (q : PartId)
  /-- THAW, R340 -/ | thaw (seq : BitVec 8) (q : PartId)
  /-- SAVE, R343 -/ | save (seq : BitVec 8) (q : PartId)
  /-- RESTORE, R344 -/ | restore (seq : BitVec 8) (q : PartId)
  /-- PARTITION_RESET, R342 -/ | partitionReset (seq : BitVec 8) (q : PartId)
  /-- PARTITION_ABORT, R345 -/ | partitionAbort (seq : BitVec 8)
  /-- FENCE, R352 -/ | fence (seq : BitVec 8) (src : BitVec 7)
  /-- ACK, R353 -/ | ack (seq : BitVec 8) (src : BitVec 7)
  /-- EVAC, R363 -/ | evac (seq : BitVec 8) (home : Fin 16) (dest : BitVec 5)
  /-- RETURN, R370 -/ | returnHome (seq : BitVec 8) (home : Fin 16) (dest : BitVec 5)
  /-- MOVE_ABORT, R372 -/ | moveAbort (seq : BitVec 8)
  /-- BROADCAST_SET, R389 -/ | broadcastSet (seq : BitVec 8) (all : Bool) (home : Fin 16)
  /-- BROADCAST_CLEAR, R390 -/ | broadcastClear (seq : BitVec 8) (all : Bool) (home : Fin 16)
  /-- BROADCAST_ABORT, R390 -/ | broadcastAbort (seq : BitVec 8)
  /-- SLEEP, R401 -/ | sleep (s : Fin 17) (seq : BitVec 8)
  /-- SLEEPC, R401 -/ | sleepc (s : Fin 17) (seq : BitVec 8)
  /-- OFF, R401 -/ | powerOff (s : Fin 17) (seq : BitVec 8)
  /-- WAKE, R402 -/ | wake (s : Fin 17) (seq : BitVec 8)
  /-- SLICE_RESET, R397 -/ | sliceReset (s : Fin 17) (seq : BitVec 8)
  /-- PORT_RESET, R398 -/ | portReset (p : Fin 24) (seq : BitVec 8)
  /-- PORT_RESET_ABORT, R398 -/ | portResetAbort (p : Fin 24) (seq : BitVec 8)
  /-- CHANNEL_RESET, R399 -/ | channelReset (n : Fin 16) (seq : BitVec 8)
  /-- CHANNEL_RESET_ABORT, R399 -/ | channelResetAbort (n : Fin 16) (seq : BitVec 8)
  /-- LIVETEST_START, R458 -/ | livetestStart (seq : BitVec 8) (s dest : BitVec 5) (back : Bool)
  /-- LIVETEST_ABORT, R460 -/ | livetestAbort (seq : BitVec 8)
  /-- REMAPRD, R455 -/ | remaprd (seq : BitVec 8) (s : BitVec 5) (arr : BitVec 4)
  /-- REMAPWR, R456 -/ | remapwr (seq : BitVec 8) (s : BitVec 5) (arr : BitVec 4)
  /-- INJ, R457 -/ | inj (seq : BitVec 8) (s : BitVec 5) (arr : BitVec 4)
  /-- TRREAD, R462 -/ | trread (seq : BitVec 8) (s : BitVec 5)
  /-- TRCLR, R461 -/ | trclr (seq : BitVec 8) (s : BitVec 5)
  /-- PCCLR, R463 -/ | pcclr (mask : BitVec 8)
  /-- LOG_POP, R374 -/ | logPop
  /-- LOST_WRITE_CLEAR, R361 -/ | lostWriteClear
  /-- ELOG_CLEAR, R283 -/ | elogClear (n : Fin 16)
  /-- CRCREF_WRITE, R422 -/ | crcrefWrite (page : Fin 64) (v : BitVec 32)
  /-- MAILBOX_TRIGGER_READ, R414; `word` is the word index of the trigger -/
  | mailboxTriggerRead (path : CsrPath) (page : Fin 64) (word : BitVec 8)
  /-- ALIAS_ACCESS, R419; `wr` is the bit written, none for a read -/
  | aliasAccess (path : CsrPath) (page : Fin 64) (word : BitVec 8) (bit : Fin 32) (wr : Option Bool)
  /-- CSR_WRITE, R412 -/ | csrWrite (path : CsrPath) (page : Fin 64) (word : BitVec 8) (v : BitVec 32)
  /-- CSR_INSTRUMENT_UPDATE, R453: the 60-bit data register -/ | csrInstrumentUpdate (dr : BitVec 60)
  /-- WS_BYPASS, R452 -/ | wsBypass
  /-- WS_EXTEST, R452 -/ | wsExtest
  /-- WS_INTEST, R452 -/ | wsIntest
  /-- WS_CLAMP, R452 -/ | wsClamp
  /-- LEDGER_SWEEP_DONE, R316 -/ | ledgerSweepDone (s : Fin 17)
  /-- WATERMARK_BROADCAST_ARRIVAL, R365 -/ | watermarkBroadcastArrival (p : Fin 24)
  /-- EVAC_MARKER_ARRIVAL, R365 -/ | evacMarkerArrival (p : Fin 24)
  /-- EVAC_RELEASE_ARRIVAL, R365 -/ | evacReleaseArrival
  /-- SCRUB_PASS_DUE, R373 -/ | scrubPassDue (s : Fin 17)
  /-- DFI_INIT_COMPLETE, R275 -/ | dfiInitComplete (n : Fin 16)
  deriving DecidableEq, Repr

end Sys2Proof
end

