-- ==== Sys2Proof/Config.lean ====
section
/-! DEFINITION. What a delivery's build fixes (R451), at the values the manual gives for the reference build, and the
free values the manual leaves open. -/

namespace Sys2Proof.Config

/-- Floor-plan identifier of the reference build (R451). -/
def fpid : Nat := 0x0001

/-- Reset value of GLB_APBASE.BASE in the reference build (R405, R451). -/
def apBase : Nat := 0x3FFFFFFF

/-- Reset values of the twelve fields of DCH_TIM0-2, register by register from bits 31:24 down (file 11). -/
def timReset : List Nat := [64, 64, 62, 64, 40, 30, 120, 128, 32, 8, 20, 128]

/-- FREE VALUE. The minimum JESD79-5 gives a timing field at DDR5-8000 (R261); the manual gives no figure, only that
its reset values are for DDR5-8000, so no minimum exceeds them (log entry 8). -/
opaque jedecMin8000 : (f : Fin 12) → Fin (timReset.getD f.val 0 + 1)

/-- FREE VALUE. The minimum JESD79-5 gives a timing field at a speed code below DDR5-8000 (R261; log entry 8). -/
opaque jedecMin : Nat → Fin 12 → Fin 256

/-- FREE VALUE. What a full training leaves in a training line (R277): the manual says the line is overwritten and
not with what (log entry 6). -/
opaque trainPattern : Nat → Line

/-- FREE VALUE. The data of a line written as poisoned, and of a flit sent with STAT POISON that reads no line: the manual
gives the mark and no data (log entry 14). -/
opaque poisonFill : Nat → Line

/-- FREE VALUE. The OWNER a RESTORE gives a lock record whose RANK names no member of the partition: the manual states none
(log entry 30). -/
opaque strayOwner : BitVec 6 → Agent

/-- FREE VALUE. What a (72, 64) SECDED codeword with three or more bits flipped decodes to: 0 clean, 1 to 72 the bit after correction,
otherwise uncorrectable. The manual names the code and not its matrix (R279, log entry 65). -/
opaque secdedMany : BitVec 72 → BitVec 8

/-! ### The floor plan (R290, R291) -/

/-- FREE VALUE. The router, column and row, of each endpoint: slices, ports, channel controllers, the CSR block and the fault collector
in this order. The manual names four of them (log entry 9). -/
opaque floorPlan : Nat → Fin 8 × Fin 6

/-- FREE VALUE. The local port of its router at which each endpoint attaches (log entry 9). -/
opaque localPort : Nat → Fin 3

/-- FREE VALUE. The places of the grid without a pair of links: to the right of a router, or, when the flag is set, above it
(log entry 9). -/
opaque holePlan : Bool → Nat → Nat → Bool

/-- Router of endpoint `k`: ports 3 and 4 at (2,5), port 6 at (3,5), slice 10 at (2,4) (R290). -/
def router (k : Nat) : Nat × Nat :=
  if k = 20 ∨ k = 21 then (2, 5) else if k = 23 then (3, 5) else if k = 10 then (2, 4)
  else ((floorPlan k).1.val, (floorPlan k).2.val)

/-- A hole to the right of a router, or above it: none between x = 3 and x = 4, none between y = 2 and y = 3 (R291), and none between
the routers (2,4) and (2,5), which are one hop apart (R290). -/
def hole (up : Bool) (x y : Nat) : Bool :=
  if up then (if y = 2 ∨ (x = 2 ∧ y = 4) then false else holePlan up x y) else if x = 3 then false else holePlan up x y

/-- FREE VALUE. Whether an entry of the write merging buffer cannot be read correctly when its slice is fenced (R362 step 4; log entry 82). -/
opaque wmbUnreadable : Nat → Bool

/-- FREE VALUE. What the boundary cells of the four outputs of R449 drive in WS_EXTEST and WS_CLAMP (R452): what was loaded last, through
a serial port that no command of the table shifts (log entry 83). -/
opaque boundaryCell : Nat → Bool

end Sys2Proof.Config
end

