-- ==== Sys2Proof/Machine/Table.lean ====
section
/-! DEFINITION. The sparse store behind every addressed array of the block (R9, R17, R85, R234, R405): one reader and
one writer, over pairs whose addresses rise and whose values differ from what an unlisted address reads as. -/

namespace Sys2Proof.Machine

/-- The value at address `k`; an unlisted address reads as `d`. -/
def tabGet {α : Type} (d : α) : Tab α → Nat → α
  | [], _ => d
  | (j, v) :: t, k => if j = k then v else tabGet d t k

/-- Address `k` takes no entry. -/
def tabErase {α : Type} : Tab α → Nat → Tab α
  | [], _ => []
  | (j, v) :: t, k => if j = k then tabErase t k else (j, v) :: tabErase t k

/-- Address `k` takes the entry `v`, whatever `v` is. -/
def tabPut {α : Type} : Tab α → Nat → α → Tab α
  | [], k, v => [(k, v)]
  | (j, w) :: t, k, v =>
    if j = k then (k, v) :: t else if k < j then (k, v) :: (j, w) :: t else (j, w) :: tabPut t k v

/-- Address `k` takes the value `v`; the value an unlisted address reads as leaves no entry behind. -/
def tabSet {α : Type} [DecidableEq α] (d : α) (t : Tab α) (k : Nat) (v : α) : Tab α :=
  if v = d then tabErase t k else tabPut t k v

/-- Addresses rise, and all of them are above `lo`. -/
def tabSorted {α : Type} (lo : Option Nat) : Tab α → Bool
  | [] => true
  | (j, _) :: t => (match lo with | none => true | some l => decide (l < j)) && tabSorted (some j) t

/-- The canonical form: addresses rise and no entry equals what its address reads as when unlisted. -/
def tabWf {α : Type} [DecidableEq α] (d : Nat → α) (t : Tab α) : Bool :=
  tabSorted none t && t.all fun e => e.2 != d e.1

end Sys2Proof.Machine
end

