-- ==== Sys2Proof/Machine/State.lean ====
section
/-! DEFINITION. The state of Efkar as plain data: the queue of waiting commands, the time base, and every register,
buffer, table, counter, mode and pin the manual gives the block, unit by unit. -/

namespace Sys2Proof.Machine

/-- Why a step could stop. Efkar completes every request it has accepted and does not hang (R4), so no command raises
a fault. -/
inductive Fault where
  /-- Raised by no command: the manual gives every command an effect. Safe: a stop hides behaviour and invents none. -/
  | noSuchHappening
  deriving DecidableEq, Repr

/-- Why a command has no meaning. -/
inductive Refusal where
  /-- Raised by an arm of `exec` whose meaning is not written. Safe: a stop hides behaviour and invents none. -/
  | notModelled (mnemonic : String)
  deriving DecidableEq, Repr

/-! ### Messages -/

/-- The SNP opcodes (R53). -/
inductive SnpOp where
  | snpShd | snpOwn | snpFwdShd | snpFwdOwn | snpCur | snpInv | snpBack | qNotify
  deriving DecidableEq, Repr

/-- The RSP opcodes (R53). -/
inductive RspOp where
  | rspI | rspS | rspFwdS | rspFwdI | rspEvPend | comp | compAck | retry | err
  deriving DecidableEq, Repr

/-- The DAT opcodes (R53). -/
inductive DatOp where
  | datShd | datExc | datDirty | datWr | datCur
  deriving DecidableEq, Repr

/-- The status field (R52). -/
inductive Status where
  | ok | busy | orphaned | failed | poison | timeout | fenced | stalegen
  deriving DecidableEq, Repr

/-- The states that GRANT encodes (R48). -/
inductive Grant where
  | i | s | f | e | m
  deriving DecidableEq, Repr

/-- An SNP flit without its CRC (R46). -/
structure SnpFlit where
  op : SnpOp
  dst : Agent
  slice : BitVec 5
  tid : BitVec 13
  rag : Agent
  ratag : ATag
  rpart : PartId
  rgen : Gen
  pa : LineAddr
  deriving DecidableEq, Repr

/-- A flit on its way to an agent, without its CRC (R46, R47, R49). -/
inductive Flit where
  | snp (f : SnpFlit)
  | rsp (op : RspOp) (f : RspArgs)
  | dat (op : DatOp) (f : DatArgs)
  deriving DecidableEq, Repr

/-- A line with its poison mark. -/
structure PLine where
  data : Line
  pois : Bool
  deriving DecidableEq, Repr

/-- Who makes a request on a slice: an agent, or one of the happenings of Efkar's own that run as agent 63 (R8, R328). -/
inductive Kind where
  | req (op : ReqOp)
  | backInv
  | qdesc (op : BitVec 2) (idx : BitVec 9) (seq : BitVec 8) (val : BitVec 128)
  /-- a lock record of a RESTORE (R344): state, reason, owner, partition -/
  | lockRec (held : Bool) (why : BitVec 2) (owner : Agent) (part : PartId)
  /-- a queue of a RESTORE (R344): partition, entries in their order, WMARK -/
  | queueRec (part : PartId) (entries : List PLine) (wmark : BitVec 16)
  deriving DecidableEq, Repr

/-- A request past the checks of the network interface (R35), on its way to its first pass. -/
structure Req where
  kind : Kind
  a : ReqArgs
  /-- the port that carries the subject; none for agent 63 -/
  port : Option (Fin 24)
  home : Fin 16
  /-- region kind, true for DET (R30) -/
  rk : Bool
  /-- the tk at which the deadline starts (R163, R165) -/
  adm : Tk
  /-- the companion's data (R43) -/
  cd : Option PLine
  /-- number of the counted write at its port (R119), 0 for none -/
  wid : Nat
  /-- the request has been forwarded between slices (R25) -/
  fwd : Bool
  deriving DecidableEq, Repr

/-! ### Directory and memory-side arrays of a slice -/

/-- A directory state with its holders, in the combinations R82 permits. `sf ps k` records pointer k as forwarder. -/
inductive Dir where
  | un
  | shp (ps : List Agent)
  | shc (grp : BitVec 16)
  | sf (ps : List Agent) (k : Nat)
  | ex (o : Agent)
  | uk
  deriving DecidableEq, Repr

/-- A way of the snoop filter (R79): its tag and its entry. -/
structure SfWay where
  tag : BitVec 32
  dir : Dir
  deriving DecidableEq, Repr

/-- The ST field of an MSC tag word (R234). -/
inductive MscSt where
  | inval | valid | poisoned | pending
  deriving DecidableEq, Repr

/-- A way of the memory-side cache (R234). -/
structure MscWay where
  tag : BitVec 35
  epoch : BitVec 4
  st : MscSt
  data : Line
  deriving DecidableEq, Repr

/-- What a write merging buffer entry or a channel access is for: a line, or a line of a queue ring held by its
channel line address (R322). -/
inductive MemAddr where
  | line (pa : LineAddr)
  | ring (home : Fin 16) (cla : Nat)
  deriving DecidableEq, Repr

/-- A counted write as its port knows it (R119). -/
structure WId where
  port : Fin 24
  wid : Nat
  deriving DecidableEq, Repr

/-- An entry of the write merging buffer that is not FREE (R244). -/
structure WmbEnt where
  id : Nat
  addr : MemAddr
  home : Fin 16
  l : PLine
  /-- the tk at which it was allocated -/
  age : Tk
  writes : List WId
  issued : Bool
  /-- entry was HELD or ISSUED when a running DISABLE was committed (R251) -/
  drain : Bool
  /-- its age limit has passed (R247) -/
  due : Bool
  /-- a fetch matches it: none, an ordinary one, a DET one (R247) -/
  want : BitVec 2
  /-- controllers of a mirrored pair that it has been sent to, and that have accepted it (R248): own channel, partner -/
  sent : BitVec 2
  acc : BitVec 2
  deriving DecidableEq, Repr

/-- A write-through on its way to the write merging buffer (R245). -/
structure WrReq where
  addr : MemAddr
  home : Fin 16
  l : PLine
  writes : List WId
  /-- the transaction whose MEM event it raises; none raises none -/
  tid : Option Nat
  /-- the answer-area line it waits in (R246): agent -/
  area : Option Agent
  /-- a miss may allocate in the MSC (R237): a `WTHRU`, a `MERGE` or a `DatDirty` -/
  alloc : Bool
  /-- it is a write of R139, which ends reservations when it is serialised (R156) -/
  ser : Bool
  deriving DecidableEq, Repr

/-- What a fetch serves. -/
inductive FetchFor where
  | trk (tid : Nat)
  /-- its transaction has retired: the line fills the MSC alone (R239) -/
  | fill
  /-- discarded when it returns (R101) -/
  | dead
  | prefetch (set way : Nat)
  | refetch (tid : Nat)
  | svc (tid : Nat)
  /-- a resync reads the line in order to copy it (R287) -/
  | copy
  deriving DecidableEq, Repr

/-- A fetch for the channel (R250, R264). -/
structure FetchReq where
  slice : Fin 17
  fetchFor : FetchFor
  addr : MemAddr
  home : Fin 16
  det : Bool
  /-- the primary copy could not be read, and the mirror copy is to be (R285) -/
  mir : Bool
  /-- a write of the line has been issued since the primary copy was read (R281, R285) -/
  past : Bool
  deriving DecidableEq, Repr

/-- The status of a MEM event (R197). -/
inductive MemStat where
  | ok | poison | fenced
  deriving DecidableEq, Repr

/-- A completed memory action whose MEM event is not yet raised (R201). -/
structure MemAct where
  tid : Nat
  stat : MemStat
  /-- the fetched line; none for a write, and for a fetch that the MSC served -/
  l : Option PLine
  /-- the action is a fetch -/
  fetch : Bool
  deriving DecidableEq, Repr

/-! ### The tracker -/

/-- Where a transaction stands. -/
inductive TStat where
  /-- in its line's blocked-line queue (R29, R126) -/
  | queued
  /-- may re-enter the pipeline: from the blocked-line queue or the set-retry queue (R32) -/
  | eligible
  /-- in the set-retry queue (R89); `reserve` says that only the back-invalidation reserve is missing -/
  | setRetry (reserve : Bool)
  /-- an activation is ready (R184); `again` marks a retry of it (R205) -/
  | ready (again : Bool)
  /-- parked at a WAIT (R192, R201) -/
  | parked (msg mem tmo svc q : Bool) (tpc : BitVec 10)
  /-- waits for the service unit without a verb (R328) -/
  | atSvc
  /-- a member of the opener's read-combining group (R117) -/
  | joined (opener : Nat)
  /-- Efkar's own transaction waiting for answers (R91) -/
  | awaiting
  /-- the reader of an MSC data word that could not be read waits for its line (R256); `again` as in `ready` -/
  | refetch (again : Bool)
  /-- retired, but its entry holds a stale-eviction record (R116) -/
  | record
  deriving DecidableEq, Repr

/-- The place a data handle names (R190). -/
inductive Loc where
  | none | mscWay (set way : Nat) | slot | wmb | area
  deriving DecidableEq, Repr

/-- A data handle with the line it names (R190). -/
structure Handle where
  loc : Loc
  l : PLine
  deriving DecidableEq, Repr

/-- An agent whose answer a transaction awaits (R466). -/
structure Await where
  ag : Agent
  op : SnpOp
  /-- the snoop named no requester (R77) -/
  anon : Bool
  /-- the snoop is ready on the agent's port -/
  ready : Bool
  /-- the RSP is outstanding; a `DatDirty` that the RSP has announced is outstanding; a `DatDirty` has arrived before its RSP -/
  rsp : Bool
  dat : Bool
  got : Bool
  deriving DecidableEq, Repr

/-- A read-combining group at its opener (R117, R118). -/
structure Group where
  isOpen : Bool
  maxJoin : Nat
  /-- joined members, tracker entries in the order of joining -/
  members : List Nat
  /-- members whose CompAck is owed -/
  owed : List Nat
  /-- the fetched line, where the opener's data came by a forwarded flit and the fetch serves the joined members alone -/
  line : Option PLine
  deriving DecidableEq, Repr

/-- The general fields of a tracker entry that the X slot writes, and the flags (R187, R189). -/
structure TRegs where
  f0 : BitVec 16
  f1 : BitVec 16
  f2 : BitVec 16
  f3 : BitVec 16
  f4 : BitVec 16
  f5 : BitVec 16
  ack : BitVec 8
  fl : BitVec 4
  ca : Bool
  ukm : Bool
  dd : Bool
  mh : Bool
  cf : Bool
  deriving DecidableEq, Repr

/-- What the message unit and the event scheduler keep (R187, R201). -/
structure TMsg where
  gr : Grant
  la : BitVec 3
  li : Bool
  ms : BitVec 2
  ev : BitVec 2
  latch : Bool
  /-- the last answer forwarded the data to the subject: its completion is the `Comp` with FWD = 1 -/
  fwdd : Bool
  /-- MEM events not consumed, oldest first, each with the mark of a fetch's -/
  memEv : List (MemStat × Bool)
  /-- TMO has woken the transaction (R193) -/
  tmo : Bool
  /-- the service result has arrived and no WAIT has taken it -/
  svc : Bool
  svcStat : Status
  svcLine : Option PLine
  deriving DecidableEq, Repr

/-- The state beside the entry that microcode cannot read (R188), and what the snoops are owed. -/
structure THid where
  /-- the deadline expiry, and the expiries by each deadline register as they stood at the first pass (R165) -/
  expiry : Tk
  exps : List Tk
  cs : Bool
  absorbed : List (Agent × ATag)
  await : List Await
  /-- agents reported as holders by the answers so far, with the state reported (R467) -/
  holders : List (Agent × Grant)
  dh : Option Handle
  mscHit : Bool
  /-- the fetch outstanding is to be discarded when it returns (R101) -/
  fetchDead : Bool
  fetching : Bool
  dirWritten : Bool
  /-- the verb has sent a counted snoop to more than the pointers (AV armed, R194) -/
  armed : Bool
  grp : Option Group
  /-- the companion's data credit has been returned (R58) -/
  cdDone : Bool
  /-- the verb has written its line through; the channel of that write was lost (R114, R197) -/
  wrote : Bool
  wroteLost : Bool
  /-- the snoop-filter victim or the entry of a home without a snoop filter: no directory write leaves the tracker -/
  noDir : Bool
  deriving DecidableEq, Repr

/-- A bound tracker entry (R187, R188). -/
structure Trk where
  r : Req
  stat : TStat
  /-- the entry is the open transaction of its line (R125) -/
  opens : Bool
  /-- order of first passes (R185) -/
  age : Nat
  we : Dir
  way : BitVec 4
  wv : Bool
  pc : BitVec 11
  dlr : BitVec 3
  x : TRegs
  m : TMsg
  h : THid
  deriving DecidableEq, Repr

/-- A stale-eviction record (R116, R131). -/
structure StaleRec where
  ag : Agent
  atag : ATag
  /-- the line of its verb, by which a move finds it (R365, R368) -/
  pa : LineAddr
  clean : Bool
  dl : Tk
  /-- the tracker entry it lives in when the reserve had none free -/
  place : Option Nat
  deriving DecidableEq, Repr

/-! ### Services of a slice -/

/-- The ledger states (R312). -/
inductive LockSt where
  | held | orphaned
  deriving DecidableEq, Repr

/-- A ledger entry that is not FREE (R312). -/
structure Lock where
  st : LockSt
  tag : BitVec 36
  owner : Agent
  part : PartId
  gen : Gen
  why : BitVec 2
  deriving DecidableEq, Repr

/-- A reservation register that holds a reservation (R154). -/
structure Resv where
  ag : Agent
  home : Fin 16
  granule : LineAddr
  gran : Bool
  part : PartId
  gen : Gen
  /-- the tk at which it was set, and its lifetime -/
  at' : Tk
  life : Nat
  deriving DecidableEq, Repr

/-! ### Results of commands -/

/-- RES of a command status register. -/
inductive Res where
  | nothing | completed | aborted | running
  deriving DecidableEq, Repr

/-- A command status register (R376 to R379): result, the sequence number it refers to, the flags. -/
structure CmdSt where
  res : Res
  rseq : BitVec 8
  refused : Bool
  cmdref : Bool
  cause : BitVec 8
  /-- an abort that waits for the end of a command without abort point (R379): its SEQ -/
  held : Option (BitVec 8)
  deriving DecidableEq, Repr

/-- All of it zero, as at reset. -/
def CmdSt.zero : CmdSt := ⟨.nothing, 0, false, false, 0, none⟩

/-! ### Ports -/

/-- Efkar's sending side of a link channel (R429, R431): the next number, the flits not acknowledged, those not yet sent, the
flits, new or sent again, that have still to be driven on the channel, and what `vld`, `flit` and `seq` drive in this pc. -/
structure LinkTx where
  next : BitVec 5
  unacked : List (BitVec 5 × Flit)
  waiting : List Flit
  wire : List (BitVec 5 × Flit)
  pin : Option (BitVec 5 × Flit)
  deriving DecidableEq, Repr

/-- Efkar's receiving side of a link channel (R429, R431, R432): the last number taken in order, which is `ack`, a replay is awaited,
`rply` in this pc, and the run of bad CRCs on one flit. -/
structure LinkRx where
  last : BitVec 5
  waitReplay : Bool
  rply : Bool
  badRun : Nat
  deriving DecidableEq, Repr

/-- Why a REQ flit is held at the network interface (R35). -/
inductive Hold where
  /-- its companion has not arrived (R44) -/
  | companion
  /-- its partition is FREEZING, FROZEN or RESETTING (R340) -/
  | partition
  /-- it waits for a token, a home credit or its turn (check 11, R134) -/
  | admission
  deriving DecidableEq, Repr

/-- A REQ flit held at the network interface. -/
structure Held where
  op : ReqOp
  a : ReqArgs
  cd : Option PLine
  /-- the tk edge at or after its arrival -/
  at' : Tk
  why : Hold
  /-- its wait at an empty bucket has been counted (R300) -/
  counted : Bool
  deriving DecidableEq, Repr

/-- A companion that waits for its request (R44). -/
structure Orphan where
  src : Agent
  part : PartId
  atag : ATag
  l : PLine
  at' : Tk
  deriving DecidableEq, Repr

/-- A snoop at its destination port, until its answer-area line is freed (R246, R65). -/
structure EgSnp where
  f : SnpFlit
  det : Bool
  /-- order of first passes of its transaction -/
  age : Nat
  /-- its transaction has retired, and the deadline of the answer still runs (R65) -/
  gone : Bool
  /-- it holds a line of the answer area -/
  area : Bool
  /-- the expiry of its snoop deadline, from when it is ready -/
  dl : Option Tk
  sent : Bool
  rspIn : Bool
  datIn : Bool
  /-- the answer forwards data, and the forwarded flit has passed the port (R56, R65) -/
  fwdNeed : Bool
  fwdIn : Bool
  /-- the answer is `RspEvPend`, which a `DatDirty` belongs to (R56) -/
  evNeed : Bool
  reported : Bool
  deriving DecidableEq, Repr

/-- A counted write at its port (R119). -/
structure WriteRec where
  wid : Nat
  ag : Agent
  completed : Bool
  drained : Bool
  fenced : Bool
  deriving DecidableEq, Repr

/-- A drain whose condition the port watches (R120). -/
structure DrainRec where
  ag : Agent
  atag : ATag
  /-- slice and tracker entry of the drain, once it has made its first pass -/
  place : Option (Fin 17 × Nat)
  evict : Bool
  waits : List Nat
  fenced : Bool
  deriving DecidableEq, Repr

/-- A completion that reached its port on a DET virtual channel, until its `CompAck` has passed (R295), with the allowance of R177. -/
structure AckTimer where
  ag : Agent
  part : PartId
  atag : ATag
  gen : Gen
  pa : LineAddr
  /-- the agent is in the DET class, and the allowance counts -/
  timed : Bool
  /-- the completion, or the forwarded flit that belongs to it, has still to be offered on the port's channel -/
  needComp : Bool
  needDat : Bool
  dl : Option Tk
  deriving DecidableEq, Repr

/-- The copy of the home route table's moving part at a network interface (R24). -/
structure Route where
  active : Bool
  home : Fin 16
  dest : BitVec 5
  wm : BitVec 15
  deriving DecidableEq, Repr

/-- The credits of a port (R58, R59, R433). -/
structure PortCred where
  rissued : Tab (BitVec 15)
  dissued : Tab (BitVec 9)
  /-- pulses due, in the order they fell due: partition and number -/
  reqDue : List (PartId × Nat)
  datDue : List (PartId × Nat)
  /-- the pulse on `clp_crd_req`, `clp_crd_dat` in this pc -/
  reqPulse : Option PartId
  datPulse : Option PartId
  deriving DecidableEq, Repr

/-- The link layer of a port (R431). -/
structure PortLink where
  snp : LinkTx
  rspo : LinkTx
  dato : LinkTx
  req : LinkRx
  rspi : LinkRx
  dati : LinkRx
  deriving DecidableEq, Repr

/-- A port and its network interface. -/
structure Port where
  up : Bool
  link : PortLink
  held : List Held
  orphans : List Orphan
  /-- requests completed with `Err` whose companion, if one arrives, is discarded (R54) -/
  errDat : List (Agent × ATag)
  /-- those completed with `Err` 0x01, whose opcode does not tell whether a companion belongs to them (R54) -/
  errAny : List (Agent × ATag)
  cred : PortCred
  snpCred : Nat
  egress : List EgSnp
  writes : List WriteRec
  nextWid : Nat
  drains : List DrainRec
  acks : List AckTimer
  /-- fenced agents whose first discarded flit has been counted (R355) -/
  discarded : List Agent
  panicLvl : BitVec 4
  panic : Bool
  /-- bucket levels in hundredths, key 2 x partition + class (R299) -/
  buckets : Tab Nat
  route : Route
  /-- the release of a forwarded marker of the running set step is still to be sent (R365 step 5) -/
  marker : Bool
  rst : CmdSt
  /-- a port reset waits for the sweeps (R398 step 2) -/
  resetting : Bool
  deriving DecidableEq, Repr

/-! ### Slices -/

/-- States of the MSC (R251). -/
inductive MscMode where
  | off | init | on | drain
  deriving DecidableEq, Repr

/-- The command side of the MSC (R251 to R255). -/
structure MscCtl where
  mode : MscMode
  epoch : BitVec 4
  st : CmdSt
  deriving DecidableEq, Repr

/-- A power state (R400). -/
inductive Pwr where
  | on | ret | off
  deriving DecidableEq, Repr

/-- The domains of a slice (R400); `c` reads as `b` for slice 16. -/
structure Domains where
  a : Pwr
  b : Pwr
  c : Pwr
  deriving DecidableEq, Repr

/-- An ingress queue of a slice (R302, R366): the direct and the forwarded lane with the sc of arrival of each request;
what exceeds their 8 places waits in the network. -/
structure Ingress where
  direct : List (Req × Nat)
  fwd : List (Req × Nat)
  deriving DecidableEq, Repr

/-- The input arbiter (R303, R304). -/
structure Arb where
  /-- slice cycles since Enable -/
  sc : Nat
  /-- grants since the last longest-waiter grant -/
  sinceLw : Nat
  carried : Option Nat
  deriving DecidableEq, Repr

/-- A service operation that waits for its commit (R309), or one at its commit that waits for a ring access. -/
structure SvcOp where
  tid : Nat
  /-- slice whose transaction it is (R367) -/
  src : Fin 17
  /-- OPC and F0 as sent to the unit (R195) -/
  opc : BitVec 5
  f0 : BitVec 16
  deriving DecidableEq, Repr

/-- The microcode of a slice (R203, R209, R230). -/
structure Ucode where
  /-- clauses that differ from the base grammar's, key 1024 x bank + address -/
  words : Tab (BitVec 128)
  valid : BitVec 2
  active : Bool
  st : CmdSt
  gcRule : BitVec 6
  gcVte : BitVec 9
  gcClause : BitVec 10
  gcStep : BitVec 6
  /-- a bank whose check is due (R209), and what waits for it -/
  due : BitVec 2
  deriving DecidableEq, Repr

/-- A remap entry (R455). -/
structure Remap where
  v : Bool
  ret : Bool
  word : BitVec 18
  deriving DecidableEq, Repr

/-- A trace record (R461). -/
structure TraceRec where
  time : BitVec 32
  kind : BitVec 6
  ag : Agent
  pa : LineAddr
  tid : BitVec 13
  opc : BitVec 5
  state : BitVec 3
  pc : BitVec 11
  deriving DecidableEq, Repr

/-- The trace buffer (R461): records in the order written, oldest first, and how it stands. -/
structure Trace where
  recs : List TraceRec
  wptr : BitVec 12
  wrapped : Bool
  stopped : Bool
  /-- records left after the trigger -/
  post : Option Nat
  /-- records written in this sc -/
  inSc : Nat
  deriving DecidableEq, Repr

/-- A report on its way to a port: these writes have drained, or were fenced (R119). -/
structure DrainRep where
  w : WId
  fenced : Bool
  deriving DecidableEq, Repr

/-- A snoop-expiry report on its way to the slice (R65). -/
structure ExpRep where
  tid : Nat
  /-- order of first passes of the transaction, by which a later user of the entry is told from it -/
  age : Nat
  ag : Agent
  deriving DecidableEq, Repr

/-- The arrays of a slice. -/
structure Arrays where
  /-- key 16 x set + way -/
  sf : Tab SfWay
  /-- replacement words: SUK and tree (R86) -/
  repl : Tab (BitVec 16)
  /-- key 12 x set + way -/
  msc : Tab MscWay
  /-- ways whose tag word could not be read while a data handle reserved them (R256), numbered as those of `msc` -/
  tagLost : List Nat
  /-- rotating pointers (R238): parity above the four bits -/
  mscPtr : Tab (BitVec 5)
  /-- key 16 x set + way -/
  ledger : Tab (Option Lock)
  /-- ledger sets treated as full (R312) -/
  ledgerBad : List (BitVec 6)
  desc : Tab (BitVec 128)
  /-- injected errors not yet met (R457): array, word, mask -/
  inj : List (Fin 10 × BitVec 18 × BitVec 8)
  /-- key 16 x array + entry -/
  remap : Tab Remap
  init : BitVec 10
  deriving DecidableEq, Repr

/-- The memory side of a slice. -/
structure MemSide where
  ctl : MscCtl
  wmb : List WmbEnt
  nextWmb : Nat
  wtWait : List WrReq
  fetchHold : List FetchReq
  /-- fetches that wait for a read-queue entry (R264) -/
  fetchWait : List FetchReq
  memq : List MemAct
  drainRep : List DrainRep
  fencedLog : BitVec 8
  deriving DecidableEq, Repr

/-- Sweeps that run in a slice. -/
structure Sweeps where
  /-- SUKCLR: next set (R98) -/
  suk : Option Nat
  sfSt : CmdSt
  /-- presence sweep: agents and, set by set, where it began and how many are left (R357) -/
  presAgents : List Agent
  presNext : Nat
  presLeft : Nat
  /-- ledger sweeps to be finished (R316) -/
  ledgerAgents : List Agent
  /-- scrubber: visits left in the pass that is due (R373), the next set -/
  scrubLeft : Nat
  scrubNext : Nat
  scrubAt : Tk
  /-- the sc at which the request for the next visit reached requester 24 -/
  bgAt : Nat
  deriving DecidableEq, Repr

/-- Control of a slice from the network island. -/
structure SlcCtl where
  fn : CmdSt
  dom : Domains
  /-- domains asked to come ON and not yet there (R402), and those whose init programs must run -/
  waking : Bool
  fromOff : Bool
  /-- woke from RET, so it returns there when idle (R403) -/
  autoRet : Bool
  idleSince : Option Tk
  /-- a slice reset runs its init programs (R397) -/
  resetting : Bool
  /-- a slice reset waits until the slice is in no move and holds no retained service state -/
  resetWait : Bool
  testing : Bool
  /-- a WAKE has asked domain C, which was OFF, to come ON (R402) -/
  wakeC : Bool
  /-- passed its start-up check, and its last LIVETEST or reset (R363, R386) -/
  sound : Bool
  /-- retained service state of this home lies here (R370) -/
  retained : Option (Fin 16)
  deriving DecidableEq, Repr

/-- A physical slice. -/
structure Slice where
  trk : Tab (Option Trk)
  recs : List StaleRec
  ar : Arrays
  mem : MemSide
  ingress : Tab Ingress
  wakeHold : List (Nat × Req)
  arb : Arb
  /-- first mismatches, bit l for lane l (SLC_ENGSTAT.LMM) -/
  lmm : BitVec 4
  svcq : List SvcOp
  /-- CODE that the last ABORT reported with its microcode fault (R193) -/
  abortCode : Option (BitVec 8)
  resv : List Resv
  uc : Ucode
  sw : Sweeps
  ctl : SlcCtl
  trace : Trace
  expRep : List ExpRep
  deriving DecidableEq, Repr

/-! ### DRAM channels -/

/-- A queued read (R264). -/
structure RdEnt where
  id : Nat
  f : FetchReq
  /-- reads the mirror half (R284) -/
  mirror : Bool
  cla : Nat
  arr : Nat
  prefetch : Bool
  /-- class taken at its first command (R271) -/
  cls : Option Nat
  /-- the writes of the line that were queued when it came (R268) -/
  after : List Nat
  /-- the line, once its read command has been issued -/
  got : Option PLine
  /-- a write of the line has been issued since (R281) -/
  past : Bool
  deriving DecidableEq, Repr

/-- A queued write (R264). -/
structure WrEnt where
  id : Nat
  cla : Nat
  addr : MemAddr
  l : PLine
  arr : Nat
  /-- a queued read matches it (R268) -/
  raised : Bool
  /-- correction writeback or repair (R281, R285) -/
  corr : Bool
  /-- copy write of a resync (R287) -/
  copy : Bool
  deriving DecidableEq, Repr

/-- A bank (R266): its open row and the dc of its last activate, read, write and precharge. -/
structure Bank where
  row : Option Nat
  act : Nat
  rd : Nat
  wr : Nat
  pre : Nat
  deriving DecidableEq, Repr

/-- A rank's refresh side (R269, R272 to R274). -/
structure Rank where
  /-- refreshes postponed -/
  owed : Nat
  /-- refreshes that have fallen due and are neither sent nor postponed -/
  due : Nat
  /-- they are in class 1 -/
  cls1 : Bool
  /-- the owed ones are made up in an idle time -/
  makeup : Bool
  /-- the dc at which the next falls due -/
  dueAt : Nat
  /-- dc until which a refresh occupies the rank -/
  busy : Nat
  selfRef : Bool
  lastFetch : Nat
  deriving DecidableEq, Repr

/-- A command of the DRAM interface (R266, R272). -/
inductive DfiOp where
  | activate | precharge | prechargeAll | read | write | refresh
  deriving DecidableEq, Repr

/-- What a channel drives on its DRAM interface in a dc (R440): the command, the rank whose chip select it raises, the subchannel whose
signals carry it, bank, row or column, and the line of a write burst. -/
structure DfiCmd where
  op : DfiOp
  rank : Nat
  sub : Nat
  bank : Nat
  addr : Nat
  l : Option PLine
  deriving DecidableEq, Repr

/-- The phase of a training (R275, R277). -/
inductive TrnPhase where
  | idle | dfi | read | write | latched
  deriving DecidableEq, Repr

/-- The result for a lane (DCH_TRNRES). -/
structure TrnRes where
  rctr : BitVec 7
  rwid : BitVec 7
  wctr : BitVec 7
  wwid : BitVec 7
  deriving DecidableEq, Repr

/-- The training of a channel. -/
structure Training where
  st : CmdSt
  phase : TrnPhase
  full : Bool
  rank : Nat
  lane : Nat
  code : Nat
  /-- codes at which the lane passed, lowest first, of the sweep step under way: key 128 x lane + code -/
  passed : List Nat
  /-- codes failed for every lane of the step (R442) -/
  lateCodes : List Nat
  res : Tab (Option TrnRes)
  valid : Bool
  fail : Bool
  failRank : BitVec 4
  deriving DecidableEq, Repr

/-- The delay sideband (R442). -/
structure DlyPins where
  vld : Bool
  rank : BitVec 2
  lane : BitVec 4
  wr : Bool
  code : BitVec 7
  deriving DecidableEq, Repr

/-- The error log (R283). -/
structure ELog where
  vld : Bool
  ovf : Bool
  ty : BitVec 2
  dev : BitVec 4
  rank : BitVec 2
  sub : Bool
  pa : LineAddr
  deriving DecidableEq, Repr

/-- Mirror states (DCH_MIRSTAT). -/
inductive MirSt where
  | none | mirrored | partner | resync
  deriving DecidableEq, Repr

/-- The copy of one line by a resync: its read is queued or in flight, its line waits for a place in the write queue, its write is
queued, or it is done. -/
inductive CopyPhase where
  | reading | got (l : PLine) | writing | done
  deriving DecidableEq, Repr

/-- A line under copy: where it goes, how far it is, and whether a write of the line has been accepted meanwhile (R287). -/
structure CopyLine where
  dst : Nat
  phase : CopyPhase
  stale : Bool
  deriving DecidableEq, Repr

/-- The mirror side of a channel (R284 to R287). -/
structure Mirror where
  st : CmdSt
  mode : MirSt
  /-- lines copied -/
  wm : Nat
  copy : Option CopyLine
  deriving DecidableEq, Repr

/-- A channel controller. -/
structure Chan where
  dc : Nat
  rq : List RdEnt
  wq : List WrEnt
  nextId : Nat
  drainMode : Bool
  inflight : List RdEnt
  banks : Tab Bank
  ranks : Tab Rank
  /-- the dc of the last activates of each rank and subchannel, latest first: key 2 x rank + sub -/
  acts : Tab (List Nat)
  /-- halved refresh intervals are in use -/
  hot : Bool
  /-- what the last poll of MR4 found, and its dc (R274) -/
  hotNext : Bool
  polled : Nat
  /-- the ranks are refreshed: a training has ended, or they have left self-refresh (R274) -/
  refOn : Bool
  trn : Training
  dly : DlyPins
  initStart : Bool
  elog : ELog
  mir : Mirror
  rst : CmdSt
  resetting : Bool
  /-- replays in a row that have failed, by rank (R282) -/
  replays : Tab Nat
  /-- the command on the interface in the latest dc (R440) -/
  dfi : Option DfiCmd
  /-- line and subchannel of the last command to each rank, for the log of an alert (R283) -/
  lastCmd : Tab (LineAddr × Bool)
  /-- lost-write table (R361) -/
  lost : List MemAddr
  /-- every line was written poisoned by a channel reset (R399): lines not listed read as poisoned -/
  blank : Bool
  deriving DecidableEq, Repr

/-! ### The network island -/

/-- A fault source (R349, R351, R353). -/
structure Src where
  count : Nat
  ws : Tk
  severe : Bool
  corrOnly : Bool
  fenced : Bool
  acked : Bool
  /-- its action has begun and keeps everyone else served (R353) -/
  masked : Bool
  corr : BitVec 8
  uncor : BitVec 8
  seq : BitVec 8
  deriving DecidableEq, Repr

/-- A fault-log entry (R374). -/
structure LogEnt where
  ty : BitVec 8
  src : BitVec 7
  ag : Agent
  part : PartId
  pa : LineAddr
  time : Tk
  deriving DecidableEq, Repr

/-- Kinds of move (FLT_MOVE.KIND). -/
inductive MoveKind where
  | none | evac | takeover | ret | buddy | ltMove | ltBack
  deriving DecidableEq, Repr

/-- Where a running move stands. -/
inductive MovePhase where
  /-- the destination is prepared: domains, MSC, bank copy (R364) -/
  | prepare
  /-- set k is held at the source (R365 steps 1 and 2) -/
  | hold (k : Nat)
  /-- set k has moved; the broadcast, the markers and the release are on their way (R365 steps 4 to 7) -/
  | spread (k : Nat)
  /-- the last set has moved (R367) -/
  | final
  /-- the copy of a takeover or a return (R368, R370) -/
  | copy
  deriving DecidableEq, Repr

/-- A move that runs (R363 to R370). -/
structure Move where
  kind : MoveKind
  home : Fin 16
  src : Fin 17
  dst : Fin 17
  phase : MovePhase
  /-- the bank copy into the destination has been checked (R232) -/
  checked : Bool
  cmd : Bool
  /-- ports whose copy of the table or whose marker is outstanding (R365) -/
  tell : List (Fin 24)
  mark : List (Fin 24)
  /-- requests forwarded in this set step, and those that have made their first pass at the destination -/
  sent : Nat
  passed : Nat
  released : Bool
  deriving DecidableEq, Repr

/-- The fault collector. -/
structure Flt where
  src : Tab Src
  log : List LogEnt
  cmd : CmdSt
  lastKind : MoveKind
  lastRb : Bool
  lastSrc : BitVec 5
  lastHome : BitVec 4
  lastDest : BitVec 5
  run : Option Move
  alive : Bool
  stopped : Bool
  /-- sources that became severe in the command under way and whose action has still to start (R352) -/
  due : List Nat
  deriving DecidableEq, Repr

/-- Partition states (R339). -/
inductive PState where
  | run | freezing | frozen | resetting
  deriving DecidableEq, Repr

/-- A partition's part of the table that no write sets. -/
structure Part where
  st : PState
  gen : Gen
  /-- the running reset came from FROZEN -/
  wasFrozen : Bool
  stale : BitVec 8
  errPart : BitVec 8
  seq : BitVec 8
  deriving DecidableEq, Repr

/-- Lines that an engine of agent 63 reads with `RdCur` (R225, R344): the first, how many, and those that have come back; a
line read with a status other than OK counts as poisoned. -/
structure Reads where
  base : LineAddr
  count : Nat
  got : Tab (Option PLine)
  deriving DecidableEq, Repr

/-- What a running SAVE or RESTORE does (R343, R344). -/
inductive ParJob where
  | none
  /-- a SAVE writes line `k` of its image, then the lines after it, and the true header last; `wrote` says that line `k` has been
  written, `stop` that an abort has come: no line is written after it (R343, R345) -/
  | save (base : LineAddr) (k : Nat) (rest : List PLine) (header : Line) (wrote stop : Bool)
  /-- the true header is being written, or has been -/
  | saveHeader (done : Bool)
  | checkHeader (r : Reads)
  | checkBody (r : Reads)
  /-- records that have still to be applied -/
  | apply (left : Nat)
  deriving DecidableEq, Repr

/-- The partition table and its commands. -/
structure Par where
  parts : Tab Part
  /-- home credits in use, key (home x 64 + partition) x 2 + class (R60) -/
  used : Tab Nat
  cmd : CmdSt
  running : Option PartId
  skip : BitVec 8
  job : ParJob
  deriving DecidableEq, Repr

/-- GLB_CMDSTAT.STATE (R381). -/
inductive Stt where
  | reset | fuse | init | train | load | ready | committed | enabled | disabling
  deriving DecidableEq, Repr

/-- Where a LOAD stands (R225). -/
inductive LdPhase where
  | idle
  /-- entries whose PC lies in a target bank have still to retire (R226) -/
  | waiting
  /-- the image is being read -/
  | reading
  /-- the checks of the selected banks run -/
  | checking
  deriving DecidableEq, Repr

/-- A LOAD (R225 to R229). -/
structure Load where
  st : CmdSt
  phase : LdPhase
  sel : BitVec 17
  fail : BitVec 17
  ver : BitVec 32
  rollback : BitVec 32
  /-- slices whose check has still to end -/
  left : BitVec 17
  /-- refusal codes reported, slice by slice -/
  codes : Tab (BitVec 8)
  rd : Reads
  deriving DecidableEq, Repr

/-- The fuse bundle as read (R427, R445). -/
structure Fuse where
  words : Tab (BitVec 32)
  idx : Nat
  /-- the time base edge from which the 50 tk of the requested word count -/
  req : Tk
  late : Bool
  done : Bool
  ok : Bool
  deriving DecidableEq, Repr

/-- BROADCAST (R389, R390). -/
structure Bcast where
  homes : BitVec 16
  all : Bool
  st : CmdSt
  /-- homes being swept, each with its next set -/
  sweep : List (Fin 16 × Nat)
  clearAll : Bool
  clearHome : Option (Fin 16)
  deriving DecidableEq, Repr

/-- Start-up, modes and the block's commands. -/
structure Glb where
  stt : Stt
  cmd : CmdSt
  coldLow : Bool
  warmLow : Bool
  warmEntry : Bool
  /-- this start-up follows a warm reset (R277, R381) -/
  wasWarm : Bool
  everEnabled : Bool
  fuse : Fuse
  det : Bool
  bc : Bcast
  ld : Load
  /-- serving slice of each home, none when no slice serves it: key home, default home itself (R5) -/
  slice : Tab (Option (Fin 17))
  deg : BitVec 16
  route : Route
  /-- homes whose admission is held by a move (R368, R370) -/
  admHold : BitVec 16
  /-- the layout fields as the last Enable ran them (R387) -/
  layout : List (BitVec 32)
  /-- the copy of the slot table and priorities that a buddy uses for the home it serves (R424), key 32 x home + word -/
  slotCopy : Tab (BitVec 32)
  deriving DecidableEq, Repr

/-- An endpoint of the network (file 12). -/
inductive EndPt where
  | slice (i : Fin 17)
  | port (p : Fin 24)
  | chan (n : Fin 16)
  | csr
  | flt
  deriving DecidableEq, Repr

/-- A message on the four networks (R19, R291), with what its receiver is told of it. -/
inductive NetMsg where
  /-- REQ: a request on its way to a slice, with its requester -/
  | req (i : Fin 17) (rq : Nat) (r : Req)
  /-- REQ: a fetch on its way to the controller of another number (R296) -/
  | fetch (n : Fin 16) (f : FetchReq)
  /-- SNP, with the order of first passes of its transaction -/
  | snp (f : SnpFlit) (det : Bool) (age : Nat)
  /-- RSP: a completion without data -/
  | rsp (op : RspOp) (a : ReqArgs) (st : Status) (gr : Grant) (info : BitVec 16) (rk : Bool)
  /-- DAT: a completion with data -/
  | dat (op : DatOp) (a : ReqArgs) (pois : Bool) (gr : Grant) (d : Line) (rk : Bool)
  /-- RSP: a snoop answer, with its data-follows mark, and whether it came after its deadline -/
  | answer (p : Fin 24) (op : RspOp) (f : RspArgs) (follows late : Bool)
  /-- RSP: a `CompAck` -/
  | ack (p : Fin 24) (f : RspArgs)
  /-- DAT: a `DatDirty`, with the partition of the snoop that it answers -/
  | dirty (p : Fin 24) (f : DatArgs) (q : PartId)
  /-- DAT: data from one agent to another -/
  | fwd (op : DatOp) (f : DatArgs) (det : Bool)
  /-- DAT: a write entry on its way to the controller of another number, or of the partner (R296) -/
  | write (i : Fin 17) (id : Nat) (n : Fin 16) (mir : Bool)
  /-- DAT: a read return from the controller of another number -/
  | ret (f : FetchReq) (l : PLine)
  /-- RSP: a snoop-expiry report (R65) -/
  | expiry (i : Fin 17) (r : ExpRep)
  /-- RSP: a report of a drained write (R119) -/
  | drained (r : DrainRep)
  /-- REQ: a request of a port that the CSR block serves (R20); its completion, with a line or without -/
  | csr (p : Fin 24) (h : Held)
  | csrEnd (p : Fin 24) (h : Held) (st : Status) (d : Option Line)
  deriving DecidableEq, Repr

/-- A flit on the network: its destination, its virtual channel and the sideband it carries to the next router (R291 to R293). -/
structure NetFlit where
  msg : NetMsg
  net : Fin 4
  src : EndPt
  dst : EndPt
  vc : BitVec 2
  side : BitVec 8
  deriving DecidableEq, Repr

/-- Links of the network (R297, R298): replays that failed in a row, and spare wires used. -/
structure LinkSt where
  fails : Nat
  spares : Nat
  failed : Bool
  deriving DecidableEq, Repr

/-- The network. -/
structure Noc where
  links : Tab LinkSt
  /-- the virtual channels at the router inputs, oldest flit first: key (((net x 6 + y) x 8 + x) x 7 + input) x 4 + VC (R292) -/
  bufs : Tab (List NetFlit)
  /-- flits that wait at their endpoint for a place at their router -/
  wait : List NetFlit
  /-- the input that each router output served last, for the DET and the normal virtual channels (R294) -/
  turn : Tab Nat
  /-- the failed link recorded: network, direction, y, x -/
  logged : Option (BitVec 2 × BitVec 3 × BitVec 3 × BitVec 3)
  deriving DecidableEq, Repr

/-- LIVETEST phases (R459). -/
inductive LtPhase where
  | none | move | test | back
  deriving DecidableEq, Repr

/-- LIVETEST and the array commands. -/
structure Tst where
  lt : CmdSt
  phase : LtPhase
  pass : Bool
  repaired : BitVec 4
  failArr : BitVec 10
  ltSlice : BitVec 5
  ltDest : BitVec 5
  ltBack : Bool
  ltHome : Option (Fin 16)
  ltAborted : Bool
  /-- the BIST of the TEST phase has ended, or an abort has stopped it (R459, R460) -/
  ltRan : Bool
  acmd : CmdSt
  wrapped : Bool
  stopped : Bool
  wptr : BitVec 12
  ares : BitVec 128
  /-- TST_AOPND as written, latched at acceptance -/
  aopnd : BitVec 32
  aopndL : BitVec 32
  /-- performance counters (R463) -/
  pc : Tab (BitVec 48)
  /-- wrapper instruction register (R452) -/
  wir : BitVec 3
  /-- CSR instrument: data and status (R453) -/
  insData : BitVec 32
  insStat : BitVec 2
  deriving DecidableEq, Repr

/-- A posted write that its island has not applied (R415). -/
structure Posted where
  isl : Nat
  page : Nat
  word : Nat
  v : BitVec 32
  /-- a single-bit write of the alias region: the bit -/
  bit : Option (Fin 32)
  applied : Bool
  /-- a pass that began before it took effect has ended since -/
  passSeen : Bool
  deriving DecidableEq, Repr

/-- Who waits for a word of a BUSY island: a request of a port, a direct access, or the CSR instrument (R408, R417, R453). -/
inductive CsrReader where
  | port (p : Fin 24) (h : Held)
  | direct (path : CsrPath)
  | instrument
  deriving DecidableEq, Repr

/-- A read that waits in the CSR block, and its byte offset. -/
structure CsrWait where
  who : CsrReader
  off : Nat
  deriving DecidableEq, Repr

/-- The CSR block. -/
structure Csr where
  posted : List Posted
  /-- running CRC of each page, as the latest pass gave it (R421, R422); key page -/
  rcrc : Tab (BitVec 32)
  crcv : Tab Bool
  /-- the comparison starts with the pass after the one under way (R422) -/
  crcWait : Tab Bool
  staleAt : Tab Tk
  /-- snapshots: access path, trigger key, words from the trigger upward (R414) -/
  snaps : List (CsrPath × Nat × List (BitVec 32))
  /-- MODEL'S OWN: the word returned by the latest direct access, and whether it was refused (log entry 7) -/
  resp : Option (BitVec 32 × Bool)
  /-- reads that wait until their island is not BUSY, oldest first (R417) -/
  reads : List CsrWait
  deriving DecidableEq, Repr

/-- The pins of the always-on island (R448, R449). -/
structure Pins where
  alive : Bool
  faultN : Bool
  irqFlt : Bool
  irqCmd : Bool
  /-- states the power controller reports, and states that Efkar requests (R448), key domain; unlisted ON -/
  pdStat : Tab Pwr
  pdMode : Tab Pwr
  /-- since when the reported state has differed from the requested one, where that is not yet reported (R448), key domain -/
  pdSince : Tab (Option Tk)
  deriving DecidableEq, Repr

/-- The state of Efkar. -/
structure State where
  /-- commands that wait, first in, first out -/
  pending : List Instr
  now : Tk
  /-- MODEL'S OWN: how often the time base has wrapped (R164, log entry 11) -/
  wraps : Nat
  /-- MODEL'S OWN: index of the next free value (log entry 6) -/
  freeCtr : Nat
  /-- MODEL'S OWN: number of the next first pass of any slice, the age of R185 (log entry 18) -/
  passNo : Nat
  glb : Glb
  /-- ST, LV and SQ words, key 256 x page + word (R405) -/
  regs : Tab (BitVec 32)
  ports : Vector Port 24
  slices : Vector Slice 17
  chans : Vector Chan 16
  /-- contents of the DRAM: key 16 x channel line address + channel (R260, R280) -/
  dram : Tab PLine
  noc : Noc
  flt : Flt
  par : Par
  svc : CmdSt
  tst : Tst
  csr : Csr
  pins : Pins
  deriving DecidableEq, Repr

/-! ### The machine right after reset -/

/-- A channel of a port's link layer as it begins (R431, R435). -/
def LinkTx.zero : LinkTx := ⟨0, [], [], [], none⟩

/-- Nothing received: the acknowledgement reads 0x1F (R429). -/
def LinkRx.zero : LinkRx := ⟨0x1F, false, false, 0⟩

/-- The link layer of a port whose link is down (R435). -/
def PortLink.zero : PortLink := ⟨.zero, .zero, .zero, .zero, .zero, .zero⟩

/-- The route table as every copy holds it at reset (R24, GLB_EVACWM). -/
def Route.zero : Route := ⟨false, 0, 0x10, 0⟩

/-- No credit issued, due or offered (R429, R435). -/
def PortCred.zero : PortCred := ⟨[], [], [], [], none, none⟩

/-- A port at reset (R429). -/
def Port.zero : Port where
  up := false
  link := .zero
  held := []
  orphans := []
  errDat := []
  errAny := []
  cred := .zero
  snpCred := 0
  egress := []
  writes := []
  nextWid := 1
  drains := []
  acks := []
  discarded := []
  panicLvl := 0
  panic := false
  buckets := []
  route := .zero
  marker := false
  rst := .zero
  resetting := false

/-- The arrays of a slice with nothing in them (R394); no INIT bit is set (R383). -/
def Arrays.zero : Arrays := ⟨[], [], [], [], [], [], [], [], [], [], 0⟩

/-- The memory side at reset: MSC OFF with EPOCH 0 (R255), every merging-buffer entry FREE. -/
def MemSide.zero : MemSide := ⟨⟨.off, 0, .zero⟩, [], 0, [], [], [], [], [], 0⟩

/-- Both banks hold the base grammar and are VALID, bank 0 is active (SLC_UCSTAT, R228). -/
def Ucode.zero : Ucode := ⟨[], 0b11, false, .zero, 0, 0, 0, 0, 0⟩

/-- No sweep runs. -/
def Sweeps.zero : Sweeps := ⟨none, .zero, [], 0, 0, [], 0, 0, 0, 0⟩

/-- Control of a slice at reset: every domain ON (SLC_FNSTAT), nothing retained. -/
def SlcCtl.zero : SlcCtl where
  fn := .zero
  dom := ⟨.on, .on, .on⟩
  waking := false
  fromOff := false
  autoRet := false
  idleSince := none
  resetting := false
  resetWait := false
  testing := false
  wakeC := false
  sound := true
  retained := none

/-- A slice at reset. -/
def Slice.zero : Slice where
  trk := []
  recs := []
  ar := .zero
  mem := .zero
  ingress := []
  wakeHold := []
  arb := ⟨0, 0, none⟩
  lmm := 0
  svcq := []
  abortCode := none
  resv := []
  uc := .zero
  sw := .zero
  ctl := .zero
  trace := ⟨[], 0, false, false, none, 0⟩
  expRep := []

/-- No training has run (DCH_TRNSTAT, DCH_TRNRES). -/
def Training.zero : Training := ⟨.zero, .idle, false, 0, 0, 0, [], [], [], false, false, 0⟩

/-- A channel at reset; DEV of the error log is 0xF (DCH_ELOG1). -/
def Chan.zero : Chan where
  dc := 0
  rq := []
  wq := []
  nextId := 0
  drainMode := false
  inflight := []
  banks := []
  ranks := []
  acts := []
  hot := false
  hotNext := false
  polled := 0
  refOn := false
  trn := .zero
  dly := ⟨false, 0, 0, false, 0⟩
  initStart := false
  elog := ⟨false, false, 0, 0xF, 0, false, 0⟩
  mir := ⟨.zero, .none, 0, none⟩
  rst := .zero
  resetting := false
  replays := []
  dfi := none
  lastCmd := []
  lost := []
  blank := false

/-- A fault source at reset. -/
def Src.zero : Src := ⟨0, 0, false, true, false, false, false, 0, 0, 0⟩

/-- A partition at reset: RUN, generation 0 (PAR_CFGq). -/
def Part.zero : Part := ⟨.run, 0, false, 0, 0, 0⟩

/-- The machine right after reset: `efk_rst_cold_n` is held low from power-up (R447), STATE is RESET (R381), and every
unit is as a cold reset leaves it (R394). -/
def State.reset : State where
  pending := []
  now := 0
  wraps := 0
  freeCtr := 0
  passNo := 0
  glb :=
    { stt := .reset, cmd := .zero, coldLow := true, warmLow := false, warmEntry := false, wasWarm := false
      everEnabled := false, fuse := ⟨[], 0, 0, false, false, false⟩, det := false
      bc := ⟨0, false, .zero, [], false, none⟩
      ld := ⟨.zero, .idle, 0, 0, 0, 0, 0, [], ⟨0, 0, []⟩⟩
      slice := [], deg := 0, route := .zero, admHold := 0, layout := [], slotCopy := [] }
  regs := []
  ports := Vector.replicate 24 .zero
  slices := Vector.replicate 17 .zero
  chans := Vector.replicate 16 .zero
  dram := []
  noc := ⟨[], [], [], [], none⟩
  flt :=
    { src := [], log := [], cmd := .zero, lastKind := .none, lastRb := false, lastSrc := 0, lastHome := 0
      lastDest := 0, run := none, alive := false, stopped := false, due := [] }
  par := ⟨[], [], .zero, none, 0, .none⟩
  svc := .zero
  tst :=
    { lt := .zero, phase := .none, pass := false, repaired := 0, failArr := 0, ltSlice := 0, ltDest := 0
      ltBack := false, ltHome := none, ltAborted := false, ltRan := false, acmd := .zero, wrapped := false, stopped := false
      wptr := 0, ares := 0, aopnd := 0, aopndL := 0, pc := [], wir := 0, insData := 0, insStat := 0 }
  csr := ⟨[], [], [], [], [], [], none, []⟩
  pins := ⟨false, true, false, false, [], [], []⟩

end Sys2Proof.Machine
end

