-- ==== Sys2Proof/Machine/Regs.lean ====
section
/-! DEFINITION. The register map (R405, R406, R410): for each page and word its fields with their kinds and reset values,
as the register tables of the manual list them. Bits that no field lists are RSVD: they read zero and ignore writes. -/

namespace Sys2Proof.Machine

/-- The kinds of R12. -/
inductive FieldKind where
  | st | lv | sq | mb | ro | wo
  deriving DecidableEq, Repr

/-- A field: its highest and lowest bit, its kind, its reset value. -/
structure Field where
  hi : Nat
  lo : Nat
  kind : FieldKind
  rst : Nat
  deriving DecidableEq, Repr

/-- The pages (R406). -/
inductive Page where
  | glb
  | slc (s : Nat)
  | dch (n : Nat)
  | prt (p : Nat)
  | noc | flt | par | svc | idf | tst
  deriving DecidableEq, Repr

/-- The page with number `n`, 0 to 63 (R406). -/
def pageOf (n : Nat) : Page :=
  if n = 0 then .glb
  else if n ≤ 17 then .slc (n - 1)
  else if n ≤ 33 then .dch (n - 18)
  else if n ≤ 57 then .prt (n - 34)
  else if n = 58 then .noc
  else if n = 59 then .flt
  else if n = 60 then .par
  else if n = 61 then .svc
  else if n = 62 then .idf
  else .tst

/-- SEQ and OP of a command register (R376). -/
def cmdFields (opHi : Nat) (more : List Field) : List Field :=
  ⟨31, 24, .wo, 0⟩ :: more ++ [⟨opHi, 0, .wo, 0⟩]

/-- RES and RSEQ of a command status register (R376). -/
def statFields (more : List Field) : List Field :=
  ⟨31, 30, .ro, 0⟩ :: ⟨29, 22, .ro, 0⟩ :: more

/-- A register of a sequence number and three 8-bit counts. -/
def sqFields : List Field := [⟨31, 24, .sq, 0⟩, ⟨23, 16, .sq, 0⟩, ⟨15, 8, .sq, 0⟩, ⟨7, 0, .sq, 0⟩]

/-- One field over the whole word. -/
def wordField (k : FieldKind) (rst : Nat) : List Field := [⟨31, 0, k, rst⟩]

/-- GLB page: the register at offset `o`. -/
def glbFields (o : Nat) : List Field :=
  if 0x100 ≤ o ∧ o < 0x110 then wordField .st ([0x00404011, 0x00808022, 0x01010044, 0x02020088].getD ((o - 0x100) / 4) 0)
  else if 0x130 ≤ o ∧ o < 0x140 then wordField .ro 0
  else if 0x180 ≤ o ∧ o < 0x200 then
    (if o % 16 = 0 then [⟨31, 31, .st, 0⟩, ⟨30, 0, .st, 0⟩]
     else if o % 16 = 4 then [⟨30, 0, .st, 0⟩]
     else if o % 16 = 8 then
       [⟨31, 31, .st, 0⟩, ⟨29, 24, .st, 0⟩, ⟨23, 23, .st, 0⟩, ⟨21, 16, .st, 0⟩, ⟨15, 15, .st, 0⟩, ⟨13, 8, .st, 0⟩,
        ⟨7, 7, .st, 0⟩, ⟨5, 0, .st, 0⟩]
     else [])
  else match o with
  | 0x010 => [⟨29, 0, .st, Config.apBase⟩]
  | 0x014 => sqFields
  | 0x018 => wordField .ro 0
  | 0x01C => [⟨24, 0, .ro, 0⟩]
  | 0x020 => cmdFields 1 []
  | 0x024 => statFields [⟨21, 21, .ro, 0⟩, ⟨20, 20, .ro, 0⟩, ⟨19, 16, .ro, 0⟩, ⟨7, 0, .ro, 0⟩]
  | 0x028 => [⟨31, 24, .sq, 0⟩, ⟨23, 16, .sq, 0⟩, ⟨5, 0, .sq, 0⟩]
  | 0x02C => [⟨31, 31, .ro, 0⟩, ⟨30, 30, .ro, 0⟩, ⟨29, 25, .ro, 0⟩, ⟨6, 0, .ro, 0⟩]
  | 0x030 => cmdFields 1 [⟨20, 20, .wo, 0⟩, ⟨19, 16, .wo, 0⟩]
  | 0x034 => statFields [⟨21, 21, .ro, 0⟩, ⟨20, 20, .ro, 0⟩, ⟨15, 0, .ro, 0⟩]
  | 0x038 => [⟨0, 0, .lv, 0⟩]
  | 0x110 => wordField .st 1
  | 0x114 => wordField .st 2
  | 0x118 => [⟨15, 12, .st, 0⟩, ⟨11, 8, .st, 0⟩, ⟨7, 4, .st, 0⟩, ⟨3, 0, .st, 0⟩]
  | 0x120 => [⟨21, 0, .st, 0⟩]
  | 0x124 => [⟨21, 0, .st, 0x3FFFFF⟩]
  | 0x140 => [⟨31, 31, .ro, 0⟩, ⟨28, 24, .ro, 0x10⟩, ⟨19, 16, .ro, 0⟩, ⟨14, 0, .ro, 0⟩]
  | 0x150 => wordField .st 0xFFFFFFFF
  | 0x154 => [⟨31, 31, .ro, 0⟩, ⟨30, 0, .st, 0x7FFFFFFF⟩]
  | 0x160 => wordField .mb 0
  | 0x164 => [⟨31, 31, .ro, 0⟩, ⟨15, 0, .mb, 0⟩]
  | 0x170 => [⟨31, 31, .st, 0⟩, ⟨15, 0, .st, 0⟩]
  | 0x174 => [⟨15, 0, .lv, 600⟩]
  | 0x178 => sqFields
  | 0x200 => cmdFields 1 []
  | 0x204 => [⟨31, 6, .lv, 0⟩]
  | 0x208 => [⟨19, 0, .lv, 0⟩]
  | 0x20C => [⟨16, 0, .lv, 0⟩]
  | 0x210 => statFields [⟨21, 21, .ro, 0⟩, ⟨7, 0, .ro, 0⟩]
  | 0x214 => [⟨16, 0, .ro, 0⟩]
  | 0x218 => wordField .ro 0
  | 0x220 => [⟨29, 25, .st, 1⟩, ⟨24, 20, .st, 0⟩, ⟨19, 15, .st, 3⟩, ⟨14, 10, .st, 2⟩, ⟨9, 5, .st, 1⟩, ⟨4, 0, .st, 0⟩]
  | _ => []

/-- A slot table word (SLC_SLOTk). -/
def slotFields : List Field :=
  [⟨31, 31, .lv, 0⟩, ⟨28, 24, .lv, 0⟩, ⟨23, 23, .lv, 0⟩, ⟨20, 16, .lv, 0⟩, ⟨15, 15, .lv, 0⟩, ⟨12, 8, .lv, 0⟩,
   ⟨7, 7, .lv, 0⟩, ⟨4, 0, .lv, 0⟩]

/-- A background priority word (SLC_PRIOk): `n` requesters. -/
def prioFields (n : Nat) : List Field := (List.range n).reverse.map fun j => ⟨4 * j + 2, 4 * j, .lv, 0⟩

/-- SLC pages: the register at offset `o`. -/
def slcFields (o : Nat) : List Field :=
  if 0x240 ≤ o ∧ o < 0x260 then [⟨16, 0, .lv, if o = 0x244 then 1000 else 5000⟩]
  else if 0x300 ≤ o ∧ o < 0x340 then slotFields
  else match o with
  | 0x100 => cmdFields 2 []
  | 0x104 => statFields [⟨21, 21, .ro, 0⟩, ⟨20, 16, .ro, 0⟩, ⟨5, 4, .ro, 0⟩, ⟨3, 2, .ro, 0⟩, ⟨1, 0, .ro, 0⟩]
  | 0x108 => [⟨9, 0, .ro, 0⟩]
  | 0x10C => [⟨31, 31, .lv, 0⟩, ⟨15, 0, .lv, 100⟩]
  | 0x200 => [⟨8, 0, .st, 32⟩]
  | 0x204 => cmdFields 1 []
  | 0x208 => statFields [⟨14, 0, .ro, 0⟩]
  | 0x20C => sqFields
  | 0x210 => sqFields
  | 0x214 => [⟨2, 0, .lv, 7⟩]
  | 0x218 => [⟨29, 16, .ro, 0⟩, ⟨13, 0, .ro, 0⟩]
  | 0x21C => sqFields
  | 0x220 => [⟨15, 0, .lv, 1000⟩]
  | 0x224 => sqFields
  | 0x260 => sqFields
  | 0x264 => [⟨31, 28, .ro, 0⟩, ⟨27, 14, .ro, 0⟩, ⟨13, 0, .ro, 0⟩]
  | 0x280 => cmdFields 1 []
  | 0x284 => statFields [⟨21, 21, .ro, 0⟩, ⟨19, 18, .ro, 3⟩, ⟨17, 17, .ro, 0⟩, ⟨13, 0, .ro, 0⟩]
  | 0x288 => [⟨31, 26, .ro, 0⟩, ⟨25, 17, .ro, 0⟩, ⟨16, 7, .ro, 0⟩, ⟨5, 0, .ro, 0⟩]
  | 0x2A0 => [⟨13, 8, .lv, 32⟩, ⟨3, 3, .lv, 1⟩, ⟨1, 0, .lv, 1⟩]
  | 0x2A4 => cmdFields 1 []
  | 0x2A8 => statFields [⟨21, 20, .ro, 0⟩, ⟨19, 19, .ro, 0⟩, ⟨18, 15, .ro, 0⟩, ⟨14, 0, .ro, 0⟩]
  | 0x2AC => sqFields
  | 0x2B0 => [⟨23, 16, .lv, 64⟩, ⟨9, 0, .lv, 50⟩]
  | 0x2B4 => [⟨23, 16, .ro, 0⟩, ⟨15, 8, .ro, 0⟩, ⟨7, 0, .ro, 0⟩]
  | 0x340 => prioFields 8
  | 0x344 => prioFields 8
  | 0x348 => prioFields 8
  | 0x34C => prioFields 2
  | 0x350 => [⟨6, 0, .lv, 16⟩]
  | 0x354 => sqFields
  | _ => []

/-- A timing word: four fields of kind ST (file 11, DCH_TIM0 to DCH_TIM2). -/
def timFields (k : Nat) : List Field :=
  (List.range 4).map fun j => ⟨31 - 8 * j, 24 - 8 * j, .st, Config.timReset.getD (4 * k + j) 0⟩

/-- DCH pages: the register at offset `o`. -/
def dchFields (o : Nat) : List Field :=
  if 0x110 ≤ o ∧ o < 0x130 then [⟨16, 0, .st, 2 ^ ((o - 0x110) / 4)⟩]
  else if 0x130 ≤ o ∧ o < 0x150 then [⟨31, 31, .st, 0⟩, ⟨16, 0, .st, 0⟩]
  else match o with
  | 0x010 => cmdFields 1 []
  | 0x014 => statFields [⟨0, 0, .ro, 0⟩]
  | 0x100 => [⟨31, 31, .st, 0⟩, ⟨11, 10, .st, 0⟩, ⟨9, 8, .st, 1⟩, ⟨6, 6, .st, 0⟩, ⟨5, 4, .st, 2⟩, ⟨2, 0, .st, 4⟩]
  | 0x104 => timFields 0
  | 0x108 => timFields 1
  | 0x10C => timFields 2
  | 0x150 => [⟨31, 24, .lv, 200⟩, ⟨18, 16, .lv, 4⟩, ⟨14, 8, .lv, 48⟩, ⟨5, 0, .lv, 16⟩]
  | 0x154 => [⟨31, 28, .st, 8⟩, ⟨27, 16, .st, 100⟩, ⟨15, 0, .st, 3900⟩]
  | 0x158 => [⟨31, 31, .ro, 0⟩, ⟨30, 30, .ro, 0⟩, ⟨15, 0, .ro, 0⟩]
  | 0x160 => [⟨14, 8, .st, 32⟩, ⟨6, 0, .st, 16⟩]
  | 0x164 => cmdFields 1 []
  | 0x168 => statFields [⟨21, 21, .ro, 0⟩, ⟨3, 0, .ro, 0⟩]
  | 0x16C => [⟨5, 4, .lv, 0⟩, ⟨3, 0, .lv, 0⟩]
  | 0x170 => [⟨31, 31, .mb, 0⟩, ⟨27, 21, .mb, 0⟩, ⟨20, 14, .mb, 0⟩, ⟨13, 7, .mb, 0⟩, ⟨6, 0, .mb, 0⟩]
  | 0x180 => [⟨31, 24, .sq, 0⟩, ⟨23, 18, .sq, 0⟩, ⟨17, 12, .sq, 0⟩, ⟨11, 6, .sq, 0⟩, ⟨5, 0, .sq, 0⟩]
  | 0x184 => wordField .mb 0
  | 0x188 => [⟨31, 31, .mb, 0⟩, ⟨30, 30, .mb, 0⟩, ⟨29, 28, .mb, 0⟩, ⟨27, 24, .mb, 0xF⟩, ⟨23, 22, .mb, 0⟩,
      ⟨21, 21, .mb, 0⟩, ⟨13, 0, .mb, 0⟩]
  | 0x18C => wordField .wo 0
  | 0x190 => cmdFields 1 []
  | 0x194 => statFields [⟨21, 20, .ro, 0⟩, ⟨19, 0, .ro, 0⟩]
  | _ => []

/-- The agents that port `p` carries (file 00). -/
def agentCount (p : Nat) : Nat := if p < 16 then 2 else if p = 23 then 3 else 4

/-- PRT page of port `p`: the register at offset `o`. -/
def prtFields (p o : Nat) : List Field :=
  if 0x040 ≤ o ∧ o < 0x050 then
    (if (o - 0x040) / 4 < agentCount p then [⟨30, 30, .lv, 0⟩, ⟨15, 0, .lv, 200⟩] else [])
  else if 0x060 ≤ o ∧ o < 0x080 then (if (o - 0x060) / 8 < agentCount p then wordField .lv 0 else [])
  else if 0x100 ≤ o ∧ o < 0x200 then [⟨24, 16, .lv, 0⟩, ⟨14, 0, .lv, 0⟩]
  else if 0x200 ≤ o ∧ o < 0x300 then [⟨24, 16, .ro, 0⟩, ⟨14, 0, .ro, 0⟩]
  else match o with
  | 0x010 => cmdFields 1 []
  | 0x014 => statFields [⟨0, 0, .ro, 0⟩]
  | 0x300 => if 16 ≤ p ∧ p ≤ 19 then [⟨31, 31, .ro, 0⟩, ⟨11, 8, .lv, 12⟩, ⟨3, 0, .lv, 8⟩] else []
  | _ => []

/-- NOC page. -/
def nocFields (o : Nat) : List Field :=
  if 0x100 ≤ o ∧ o < 0x300 then [⟨31, 31, .lv, 0⟩, ⟨27, 16, .lv, 0⟩, ⟨9, 0, .lv, 16⟩]
  else match o with
  | 0x010 => sqFields
  | 0x014 => [⟨31, 31, .mb, 0⟩, ⟨13, 12, .mb, 0⟩, ⟨11, 9, .mb, 0⟩, ⟨8, 6, .mb, 0⟩, ⟨5, 3, .mb, 0⟩]
  | 0x018 => [⟨16, 0, .ro, 0⟩]
  | 0x01C => [⟨31, 24, .sq, 0⟩, ⟨15, 8, .sq, 0⟩, ⟨7, 0, .sq, 0⟩]
  | _ => []

/-- FLT page. -/
def fltFields (o : Nat) : List Field :=
  if 0x110 ≤ o ∧ o < 0x140 then wordField .ro 0
  else if 0x170 ≤ o ∧ o < 0x180 then wordField .mb 0
  else match o with
  | 0x100 => [⟨31, 24, .lv, 4⟩, ⟨23, 0, .lv, 1000000⟩]
  | 0x104 => [⟨7, 6, .lv, 1⟩, ⟨5, 4, .lv, 1⟩, ⟨3, 2, .lv, 1⟩, ⟨1, 0, .lv, 1⟩]
  | 0x108 => [⟨11, 0, .lv, 500⟩]
  | 0x140 => [⟨6, 0, .lv, 0⟩]
  | 0x144 => [⟨31, 24, .sq, 0⟩, ⟨23, 16, .sq, 0⟩, ⟨15, 8, .sq, 0⟩, ⟨7, 0, .ro, 0⟩]
  | 0x148 => [⟨16, 0, .ro, 0⟩]
  | 0x150 => cmdFields 2 [⟨22, 16, .wo, 0⟩, ⟨15, 11, .wo, 0⟩]
  | 0x154 => statFields [⟨21, 21, .ro, 0⟩, ⟨7, 0, .ro, 0⟩]
  | 0x158 => [⟨31, 29, .ro, 0⟩, ⟨28, 28, .ro, 0⟩, ⟨27, 23, .ro, 0⟩, ⟨22, 19, .ro, 0⟩, ⟨18, 14, .ro, 0⟩]
  | 0x15C => [⟨31, 31, .ro, 0⟩, ⟨30, 30, .ro, 0⟩, ⟨29, 29, .ro, 0⟩, ⟨6, 0, .ro, 0⟩]
  | 0x160 => [⟨31, 24, .sq, 0⟩, ⟨23, 16, .sq, 0⟩, ⟨15, 15, .ro, 0⟩, ⟨8, 0, .ro, 0⟩]
  | 0x180 => wordField .wo 0
  | 0x184 => [⟨12, 9, .lv, 0⟩, ⟨8, 0, .lv, 0⟩]
  | 0x188 => [⟨8, 0, .ro, 0⟩]
  | 0x18C => wordField .mb 0
  | 0x190 => [⟨31, 31, .mb, 0⟩, ⟨13, 0, .mb, 0⟩]
  | 0x194 => wordField .wo 0
  | _ => []

/-- PAR page. -/
def parFields (o : Nat) : List Field :=
  if o < 0x100 then [⟨31, 31, .lv, 0⟩, ⟨30, 30, .lv, 0⟩, ⟨29, 29, .lv, 0⟩, ⟨25, 24, .ro, 0⟩, ⟨7, 0, .ro, 0⟩]
  else if o < 0x200 then [⟨25, 16, .lv, 0⟩, ⟨13, 0, .lv, 0⟩]
  else if o < 0x300 then [⟨26, 16, .lv, 0⟩, ⟨9, 0, .lv, 0⟩]
  else match o with
  | 0x300 => cmdFields 2 [⟨21, 16, .wo, 0⟩]
  | 0x304 => statFields [⟨21, 21, .ro, 0⟩, ⟨20, 20, .ro, 0⟩, ⟨15, 8, .ro, 0⟩, ⟨7, 0, .ro, 0⟩]
  | 0x308 => [⟨31, 6, .lv, 0⟩]
  | 0x30C => [⟨19, 0, .lv, 0⟩]
  | 0x310 => [⟨23, 0, .lv, 0⟩]
  | 0x314 => [⟨5, 0, .lv, 0⟩]
  | 0x318 => [⟨31, 24, .sq, 0⟩, ⟨23, 16, .sq, 0⟩, ⟨15, 8, .sq, 0⟩]
  | _ => []

/-- SVC page. -/
def svcFields (o : Nat) : List Field :=
  if 0x120 ≤ o ∧ o < 0x130 then wordField .lv 0
  else match o with
  | 0x100 => [⟨31, 19, .st, 0⟩, ⟨0, 0, .st, 0⟩]
  | 0x104 => [⟨19, 0, .st, 0⟩]
  | 0x110 => cmdFields 1 [⟨23, 20, .wo, 0⟩, ⟨19, 11, .wo, 0⟩]
  | 0x130 => statFields [⟨21, 21, .ro, 0⟩, ⟨7, 0, .ro, 0⟩]
  | 0x140 => sqFields
  | _ => []

/-- IDF page. -/
def idfFields (o : Nat) : List Field :=
  if 0x120 ≤ o ∧ o < 0x150 then wordField .ro 0
  else if 0x180 ≤ o ∧ o < 0x1C0 then wordField .ro 0
  else match o with
  | 0x100 => [⟨31, 16, .ro, 0xC016⟩, ⟨15, 12, .ro, 2⟩, ⟨11, 8, .ro, 1⟩, ⟨7, 0, .ro, 0⟩]
  | 0x104 => [⟨31, 16, .ro, Config.fpid⟩]
  | 0x108 => [⟨31, 31, .ro, 0⟩, ⟨30, 30, .ro, 0⟩, ⟨29, 29, .ro, 0⟩]
  | 0x10C => [⟨23, 0, .ro, 0⟩]
  | 0x110 => [⟨10, 4, .ro, 0⟩, ⟨3, 3, .ro, 0⟩, ⟨2, 2, .ro, 0⟩, ⟨1, 1, .ro, 0⟩, ⟨0, 0, .ro, 0⟩]
  | 0x114 => wordField .ro 0
  | _ => []

/-- TST page. -/
def tstFields (o : Nat) : List Field :=
  if 0x120 ≤ o ∧ o < 0x130 then wordField .ro 0
  else if 0x180 ≤ o ∧ o < 0x1A0 then [⟨31, 31, .lv, 0⟩, ⟨12, 8, .lv, 0⟩, ⟨5, 0, .lv, 0⟩]
  else if 0x1C0 ≤ o ∧ o < 0x200 then (if o % 8 = 0 then wordField .mb 0 else [⟨15, 0, .mb, 0⟩])
  else match o with
  | 0x100 => cmdFields 1 [⟨20, 16, .wo, 0⟩, ⟨15, 11, .wo, 0⟩, ⟨10, 10, .wo, 0⟩]
  | 0x104 => statFields [⟨21, 21, .ro, 0⟩, ⟨20, 19, .ro, 0⟩, ⟨18, 18, .ro, 0⟩, ⟨17, 14, .ro, 0⟩, ⟨13, 10, .ro, 0⟩,
      ⟨9, 0, .ro, 0⟩]
  | 0x110 => cmdFields 2 [⟨20, 16, .wo, 0⟩, ⟨15, 12, .wo, 0⟩]
  | 0x114 => [⟨31, 24, .wo, 0⟩, ⟨23, 20, .wo, 0⟩, ⟨19, 19, .wo, 0⟩, ⟨17, 0, .wo, 0⟩]
  | 0x118 => statFields [⟨21, 21, .ro, 0⟩, ⟨20, 18, .ro, 0⟩, ⟨13, 13, .ro, 0⟩, ⟨12, 12, .ro, 0⟩, ⟨11, 0, .ro, 0⟩]
  | 0x140 => [⟨31, 31, .lv, 0⟩, ⟨30, 29, .lv, 0⟩, ⟨28, 23, .lv, 0⟩, ⟨22, 20, .lv, 0⟩, ⟨16, 0, .lv, 0⟩]
  | 0x144 => [⟨31, 31, .lv, 0⟩, ⟨30, 25, .lv, 0⟩, ⟨24, 12, .lv, 0⟩, ⟨11, 0, .lv, 0⟩]
  | 0x148 => [⟨12, 0, .lv, 0⟩]
  | 0x14C => [⟨31, 24, .sq, 0⟩, ⟨23, 0, .sq, 0⟩]
  | 0x200 => [⟨7, 0, .wo, 0⟩]
  | _ => []

/-- TYPE and INST of a page (file 17, ID). -/
def pageId (p : Page) : Nat :=
  match p with
  | .glb => 0x01000000
  | .slc s => 0x02000000 + s * 0x10000
  | .dch n => 0x03000000 + n * 0x10000
  | .prt n => 0x04000000 + n * 0x10000
  | .noc => 0x05000000
  | .flt => 0x06000000
  | .par => 0x07000000
  | .svc => 0x08000000
  | .idf => 0x09000000
  | .tst => 0x0A000000

/-- The common block (file 17). -/
def commonFields (o : Nat) : List Field :=
  match o with
  | 0x3F0 => [⟨31, 24, .ro, 0⟩, ⟨23, 16, .ro, 0⟩]
  | 0x3F4 => [⟨31, 24, .sq, 0⟩, ⟨23, 23, .ro, 0⟩, ⟨22, 22, .ro, 0⟩, ⟨21, 21, .ro, 0⟩, ⟨16, 16, .sq, 0⟩,
      ⟨15, 15, .sq, 0⟩, ⟨14, 14, .sq, 0⟩, ⟨13, 13, .sq, 0⟩, ⟨7, 0, .sq, 0⟩]
  | 0x3F8 => wordField .ro 0
  | 0x3FC => wordField .lv 0
  | _ => []

/-- The fields of word `w` (0 to 255) of page number `n` (R406); empty where no register is assigned. -/
def regFields (n w : Nat) : List Field :=
  let o := 4 * w
  if 0x3C0 ≤ o then commonFields o
  else match pageOf n with
  | .glb => glbFields o
  | .slc _ => slcFields o
  | .dch _ => dchFields o
  | .prt p => prtFields p o
  | .noc => nocFields o
  | .flt => fltFields o
  | .par => parFields o
  | .svc => svcFields o
  | .idf => idfFields o
  | .tst => tstFields o

/-- The bits of a field as a mask. -/
def Field.mask (f : Field) : BitVec 32 := BitVec.ofNat 32 ((2 ^ (f.hi - f.lo + 1) - 1) <<< f.lo)

/-- Its reset value in place. -/
def Field.resetBits (f : Field) : BitVec 32 := BitVec.ofNat 32 (f.rst <<< f.lo)

/-- Its value in the word `v`. -/
def Field.val (f : Field) (v : BitVec 32) : Nat := (v.toNat >>> f.lo) % 2 ^ (f.hi - f.lo + 1)

/-- The bits of the fields of the kinds `p` accepts. -/
def kindMask (fs : List Field) (p : FieldKind → Bool) : BitVec 32 :=
  fs.foldl (fun m f => if p f.kind then m ||| f.mask else m) 0

/-- The reset value of a word. -/
def resetWord (fs : List Field) : BitVec 32 := fs.foldl (fun m f => m ||| f.resetBits) 0

/-- Kinds whose value a write sets or an event changes, and that `State.regs` holds: ST, LV, SQ. -/
def FieldKind.stored : FieldKind → Bool
  | .st => true | .lv => true | .sq => true | .mb => false | .ro => false | .wo => false

/-- What an unlisted word of `State.regs` reads as: the reset values of its ST, LV and SQ fields. -/
def regReset (key : Nat) : BitVec 32 :=
  let fs := regFields (key / 256) (key % 256)
  resetWord fs &&& kindMask fs FieldKind.stored

/-- The stored part of a register word. -/
def State.reg (s : State) (n w : Nat) : BitVec 32 := tabGet (regReset (256 * n + w)) s.regs (256 * n + w)

/-- Store the ST, LV and SQ part of a register word. -/
def State.setReg (s : State) (n w : Nat) (v : BitVec 32) : State :=
  { s with regs := tabSet (regReset (256 * n + w)) s.regs (256 * n + w) v }

/-- The field in bits `hi` down to `lo` of the register at offset `o` of page `n`. -/
def State.fld (s : State) (n o hi lo : Nat) : Nat := ((s.reg n (o / 4)).toNat >>> lo) % 2 ^ (hi - lo + 1)

/-- One bit of the register at offset `o` of page `n`. -/
def State.flag (s : State) (n o b : Nat) : Bool := s.fld n o b b == 1

/-- Page numbers (R406). -/
def slcPage (i : Fin 17) : Nat := i.val + 1
/-- Page of channel controller n (R406). -/
def dchPage (n : Fin 16) : Nat := n.val + 18
/-- Page of port p (R406). -/
def prtPage (p : Fin 24) : Nat := p.val + 34

/-- An event adds 1 to the counter in bits `hi` down to `lo` of a register with SQ fields, saturating, and advances its
SEQ by 1 when the counter changed (R413). SEQ lies in bits 31:24. -/
def State.bump (s : State) (n o hi lo : Nat) : State :=
  let v := s.fld n o hi lo
  if v = 2 ^ (hi - lo + 1) - 1 then s
  else
    let w := s.reg n (o / 4)
    let seq := (w.extractLsb' 24 8 + 1).zeroExtend 32 <<< 24
    s.setReg n (o / 4) (((w + BitVec.ofNat 32 (2 ^ lo)) &&& 0x00FFFFFF) ||| seq)

/-- Values that a field of an SLC page takes (R378). -/
def slcOk (o lo v : Nat) : Bool :=
  if o = 0x10C then lo != 0 || decide (1 ≤ v)
  else if o = 0x200 then decide (8 ≤ v) && decide (v ≤ 256)
  else if o = 0x220 then decide (10 ≤ v)
  else if 0x240 ≤ o ∧ o < 0x260 then decide (100 ≤ v) && decide (v ≤ 100000)
  else if o = 0x2A0 then lo != 0 || decide (v ≤ 2)
  else if o = 0x2B0 then (if lo = 16 then decide (v ≤ 127) else decide (1 ≤ v) && decide (v ≤ 1000))
  else if 0x300 ≤ o ∧ o < 0x340 then decide (v ≤ 25)
  else if o = 0x350 then decide (4 ≤ v) && decide (v ≤ 64)
  else true

end Sys2Proof.Machine
end

