-- ==== Sys2Proof/Machine/AddrMap.lean ====
section
/-! DEFINITION. Where an address leads: aperture, homed range, DET region, home, set, tag, channel line address and DRAM
coordinates (R20 to R25, R85, R234, R260 to R263, R405), and which agent belongs to which port (file 00). -/

namespace Sys2Proof.Machine

/-- Parity of a number's bits, of which the lowest `n` count. -/
def parityN : Nat → Nat → Bool
  | 0, _ => false
  | n + 1, v => xor (v.testBit n) (parityN n v)

/-- Parity of PA[37:6] AND a mask register; bit k of the mask selects PA[k+6] (R21). -/
def maskParity (pa : LineAddr) (mask : BitVec 32) : Bool := parityN 32 ((pa.toNat % 2 ^ 32) &&& mask.toNat)

/-- The port that carries agent `a`, 0 to 62 (file 00); 63 lies on no port (R8). -/
def portOfNat (a : Nat) : Nat :=
  if a < 32 then a / 2 else if a < 48 then 16 + (a - 32) / 4 else 20 + (a - 48) / 4

/-- The port of an agent, none for 63. -/
def portOf (a : Agent) : Option (Fin 24) :=
  if h : a.toNat < 63 then
    some ⟨portOfNat a.toNat, by unfold portOfNat; split <;> (try split) <;> omega⟩
  else none

/-- First agent of a port (file 00). -/
def firstAgent (p : Fin 24) : Nat :=
  if p.val < 16 then 2 * p.val else if p.val < 20 then 4 * (p.val - 16) + 32 else 4 * (p.val - 20) + 48

/-- The agents a port carries. -/
def agentsOf (p : Fin 24) : List Agent := (List.range (agentCount p)).map fun j => BitVec.ofNat 6 (firstAgent p + j)

/-- Local index of an agent at its port. -/
def localIdx (p : Fin 24) (a : Agent) : Nat := a.toNat - firstAgent p

/-- Port p carries agent a (R39). -/
def carries (p : Fin 24) (a : Agent) : Bool := portOf a == some p

/-- Snoop-filter set: PA[19:6] XOR PA[33:20] (R85). -/
def sfSet (pa : LineAddr) : Nat := (pa.extractLsb' 0 14 ^^^ pa.extractLsb' 14 14).toNat

/-- Directory TAG: PA[51:20] (R85). -/
def sfTag (pa : LineAddr) : BitVec 32 := pa.extractLsb' 14 32

/-- The line that a tag names in a set: set and TAG determine PA[51:6] (R85). -/
def sfLine (set : Nat) (tag : BitVec 32) : LineAddr := tag ++ (BitVec.ofNat 14 set ^^^ tag.extractLsb' 0 14)

/-- MSC set: PA[16:6] XOR PA[27:17] (R234). -/
def mscSet (pa : LineAddr) : Nat := (pa.extractLsb' 0 11 ^^^ pa.extractLsb' 11 11).toNat

/-- MSC tag: PA[51:17] (R234). -/
def mscTag (pa : LineAddr) : BitVec 35 := pa.extractLsb' 11 35

/-- GLB_HASHMASKi (R21). -/
def State.hashMask (s : State) (i : Nat) : BitVec 32 := s.reg 0 (0x40 + i)
/-- GLB_DETMASKj (R21). -/
def State.detMask (s : State) (j : Nat) : BitVec 32 := s.reg 0 (0x44 + j)

/-- The home the hash gives a line outside every DET region (R21). -/
def hashHome (m0 m1 m2 m3 : BitVec 32) (pa : LineAddr) : Fin 16 :=
  let b (m : BitVec 32) : Nat := (maskParity pa m).toNat
  Fin.ofNat 16 (8 * b m3 + 4 * b m2 + 2 * b m1 + b m0)

/-- The DET index of a line: 2 x parity with GLB_DETMASK1 + parity with GLB_DETMASK0 (R21). -/
def detIndex (m0 m1 : BitVec 32) (pa : LineAddr) : Nat :=
  2 * (maskParity pa m1).toNat + (maskParity pa m0).toNat

/-- GLB_DETMAP entry d (R21). -/
def State.detMap (s : State) (d : Nat) : Fin 16 := Fin.ofNat 16 (s.fld 0 0x118 (4 * d + 3) (4 * d))

/-- DET region r is enabled: EN, while GLB_DETCFG.ENABLE is 1 (R171). -/
def State.rgnOn (s : State) (r : Nat) : Bool := s.flag 0 0x170 31 && s.flag 0 (0x180 + 16 * r) 31

/-- BASE and LIMIT of region r, PA[51:21]. -/
def State.rgnBase (s : State) (r : Nat) : Nat := s.fld 0 (0x180 + 16 * r) 30 0
/-- LIMIT of region r. -/
def State.rgnLimit (s : State) (r : Nat) : Nat := s.fld 0 (0x184 + 16 * r) 30 0

/-- The enabled DET region in which a line lies. -/
def State.detRgn (s : State) (pa : LineAddr) : Option Nat :=
  (List.range 8).find? fun r =>
    s.rgnOn r && decide (s.rgnBase r ≤ pa.toNat / 2 ^ 15) && decide (pa.toNat / 2 ^ 15 ≤ s.rgnLimit r)

/-- The VALID agents of a region (GLB_DETRGNr_AGT). -/
def State.rgnAgents (s : State) (r : Nat) : List Agent :=
  (List.range 4).filterMap fun j =>
    if s.flag 0 (0x188 + 16 * r) (8 * j + 7) then
      some (BitVec.ofNat 6 (s.fld 0 (0x188 + 16 * r) (8 * j + 5) (8 * j))) else none

/-- The home of a line (R21). -/
def State.homeOf (s : State) (pa : LineAddr) : Fin 16 :=
  match s.detRgn pa with
  | some _ => s.detMap (detIndex (s.detMask 0) (s.detMask 1) pa)
  | none => hashHome (s.hashMask 0) (s.hashMask 1) (s.hashMask 2) (s.hashMask 3) pa

/-- The line lies in the homed range (R20). -/
def State.homed (s : State) (pa : LineAddr) : Bool :=
  decide (s.fld 0 0x120 21 0 ≤ pa.toNat / 2 ^ 24) && decide (pa.toNat / 2 ^ 24 ≤ s.fld 0 0x124 21 0)

/-- The line lies in the CSR aperture (R405). -/
def State.inAperture (s : State) (pa : LineAddr) : Bool := pa.toNat / 2 ^ 16 == s.fld 0 0x010 29 0

/-- Delete bit `n` of a number and move the higher bits down. -/
def dropBit (n v : Nat) : Nat := (v / 2 ^ (n + 1)) * 2 ^ n + v % 2 ^ n

/-- Delete several bits, whatever their order: the highest first. -/
def dropBits (ns : List Nat) (v : Nat) : Nat := (ns.mergeSort (fun a b => b ≤ a)).foldl (fun v n => dropBit n v) v

/-- N0 to N3 of GLB_CHDROP. -/
def State.chDrop (s : State) : List Nat := (List.range 4).map fun k => s.fld 0 0x220 (5 * k + 4) (5 * k)

/-- Channel line address of a line outside every DET region (R260). -/
def claNormal (base : Nat) (drop : List Nat) (pa : LineAddr) : Nat := dropBits drop (pa.toNat - base * 2 ^ 24)

/-- Channel line address of a line (R260, R263). -/
def State.claOf (s : State) (pa : LineAddr) : Nat :=
  match s.detRgn pa with
  | none => claNormal (s.fld 0 0x120 21 0) s.chDrop pa
  | some r =>
    let d := detIndex (s.detMask 0) (s.detMask 1) pa
    let h := s.detMap d
    let o := pa.toNat - s.rgnBase r * 2 ^ 15
    let o' := dropBits [s.fld 0 0x220 24 20, s.fld 0 0x220 29 25] o
    let size := (s.rgnLimit r - s.rgnBase r + 1) * 2 ^ 15
    let k := ((List.range d).filter fun j => s.detMap j == h).length
    s.fld (dchPage h) (0x130 + 4 * r) 16 0 * 2 ^ 15 + k * (size / 4) + o'

/-- DRAM coordinates of a channel line address (R262). -/
structure Coord where
  col : Nat
  sub : Nat
  ba : Nat
  bg : Nat
  rank : Nat
  row : Nat
  deriving DecidableEq, Repr

/-- The split of R262: `x8` devices, `rb` rank bits, the eight hash masks. -/
def coordOf (x8 : Bool) (rb : Nat) (xm : Nat → Nat) (cla : Nat) : Coord :=
  let cl := if x8 then 6 else 7
  let row := cla / 2 ^ (cl + 6 + rb)
  let hb (pos k : Nat) : Nat := (xor (cla.testBit pos) (parityN 17 (row &&& xm k))).toNat
  { col := (cla % 2 ^ cl) * 16
    sub := hb cl 0
    ba := hb (cl + 1) 1 + 2 * hb (cl + 2) 2
    bg := hb (cl + 3) 3 + 2 * hb (cl + 4) 4 + 4 * hb (cl + 5) 5
    rank := (if 1 ≤ rb then hb (cl + 6) 6 else 0) + (if 2 ≤ rb then 2 * hb (cl + 7) 7 else 0)
    row := row }

/-- Ranks of a channel (DCH_CFG.RANKS). -/
def State.ranks (s : State) (n : Fin 16) : Nat := 2 ^ s.fld (dchPage n) 0x100 9 8

/-- Coordinates of a line of channel n. -/
def State.coord (s : State) (n : Fin 16) (cla : Nat) : Coord :=
  coordOf (s.flag (dchPage n) 0x100 6) (s.fld (dchPage n) 0x100 9 8)
    (fun k => s.fld (dchPage n) (0x110 + 4 * k) 16 0) cla

/-- Rows per bank of a density (R259). -/
def rowsOf (dens : Nat) : Nat := if dens = 0 then 65536 else if dens = 1 then 98304 else 131072

/-- Capacity of a channel in lines (R259): rows x columns of lines x subchannels x banks x ranks. -/
def State.capacity (s : State) (n : Fin 16) : Nat :=
  let cl := if s.flag (dchPage n) 0x100 6 then 64 else 128
  rowsOf (s.fld (dchPage n) 0x100 5 4) * cl * 2 * 32 * s.ranks n

/-- The channel of an access and its line address there. -/
def State.memCla (s : State) : MemAddr → Nat
  | .line pa => s.claOf pa
  | .ring _ cla => cla

/-- The other channel of a pair (R6). -/
def buddy (n : Fin 16) : Fin 16 := Fin.ofNat 16 (n.val ^^^ 1)

/-- Put a bit into a number at position `n`, the higher bits moving up. -/
def insBit (n : Nat) (b : Bool) (v : Nat) : Nat := (v / 2 ^ n) * 2 ^ (n + 1) + b.toNat * 2 ^ n + v % 2 ^ n

/-- Every number that dropping the bits `ns` turns into `v`. -/
def insBits (ns : List Nat) (v : Nat) : List Nat :=
  (ns.mergeSort (fun a b => a ≤ b)).foldl (fun vs n => vs.flatMap fun v => [insBit n false v, insBit n true v]) [v]

/-- The line of a home that has a channel line address (R260, R263). -/
def State.lineOfCla (s : State) (h : Fin 16) (c : Nat) : Option LineAddr :=
  let normal := (insBits s.chDrop c).map fun v => v + s.fld 0 0x120 21 0 * 2 ^ 24
  let det := ((List.range 8).filter s.rgnOn).flatMap fun r =>
    let size := (s.rgnLimit r - s.rgnBase r + 1) * 2 ^ 15
    (List.range 4).flatMap fun k =>
      let top := s.fld (dchPage h) (0x130 + 4 * r) 16 0 * 2 ^ 15 + k * (size / 4)
      if c < top then []
      else (insBits [s.fld 0 0x220 24 20, s.fld 0 0x220 29 25] (c - top)).map fun v => v + s.rgnBase r * 2 ^ 15
  ((normal ++ det).map (BitVec.ofNat 46)).find? fun pa => s.homed pa && s.homeOf pa == h && s.claOf pa == c

end Sys2Proof.Machine
end

