-- ==== Sys2Proof/Machine/Dir.lean ====
section
/-! DEFINITION. Directory entries: their 24 bits (R79, R82), whom they cover (R80), and how a verb changes them
(R83, R88, R103, R104, R356, R467). -/

namespace Sys2Proof.Machine

/-- The group bit that covers an agent (file 03). -/
def groupOf (a : Agent) : Nat := a.toNat / 4

/-- The group mask of a list of agents. -/
def groupsOf (as : List Agent) : BitVec 16 := as.foldl (fun g a => g ||| BitVec.ofNat 16 (2 ^ groupOf a)) 0

/-- The agents of the set groups; 63 is no agent (R8). -/
def groupAgents (g : BitVec 16) : List Agent :=
  (List.range 63).filterMap fun n => if g.getLsbD (n / 4) then some (BitVec.ofNat 6 n) else none

/-- Agent IDs 0 to 62. -/
def allAgents : List Agent := (List.range 63).map (BitVec.ofNat 6)

/-- The three pointers, 63 where empty (R82). -/
def Dir.ptr (d : Dir) (k : Nat) : Agent :=
  match d with
  | .shp ps => ps.getD k 63
  | .sf ps _ => ps.getD k 63
  | .ex o => if k = 0 then o else 63
  | _ => 63

/-- The pointers that name an agent. -/
def Dir.ptrs : Dir → List Agent
  | .shp ps => ps
  | .sf ps _ => ps
  | .ex o => [o]
  | _ => []

/-- The STATE field (R79). -/
def Dir.code : Dir → BitVec 3
  | .un => 0 | .shp _ => 1 | .shc _ => 1 | .sf _ _ => 2 | .ex _ => 3 | .uk => 4

/-- Coarse form (FMT = 1). -/
def Dir.coarse : Dir → Bool
  | .shc _ => true
  | _ => false

/-- The recorded forwarder of an SF entry. -/
def Dir.fwdr : Dir → Option Agent
  | .sf ps k => ps[k]?
  | _ => none

/-- Bits [23:0] of an entry (file 03, The directory entry). -/
def Dir.enc (d : Dir) : BitVec 24 :=
  let fwd : BitVec 2 := match d with | .sf _ k => BitVec.ofNat 2 k | _ => 0
  let low : BitVec 18 := match d with
    | .shc g => g.zeroExtend 18
    | .un => 0x3FFFF
    | _ => d.ptr 2 ++ d.ptr 1 ++ d.ptr 0
  d.code ++ (if d.coarse then 1#1 else 0#1) ++ fwd ++ low

/-- Distinct agents other than 63, filled from PTR0 upward: the pointers of 18 bits, none when the filling is barred. -/
def ptrsOf (v : BitVec 18) : Option (List Agent) :=
  let p0 := v.extractLsb' 0 6
  let p1 := v.extractLsb' 6 6
  let p2 := v.extractLsb' 12 6
  if p0 = 63 then (if p1 = 63 ∧ p2 = 63 then some [] else none)
  else if p1 = 63 then (if p2 = 63 then some [p0] else none)
  else if p1 = p0 then none
  else if p2 = 63 then some [p0, p1]
  else if p2 = p0 ∨ p2 = p1 then none
  else some [p0, p1, p2]

/-- The entry that 24 bits hold; none for a combination R82 bars or a reserved STATE (R79). A way with STATE UN is empty
whatever its other bits hold. -/
def Dir.dec (v : BitVec 24) : Option Dir :=
  let st := v.extractLsb' 21 3
  let fmt := v.getLsbD 20
  let fwd := (v.extractLsb' 18 2).toNat
  let low := v.extractLsb' 0 18
  if st = 0 then some .un
  else if fmt then
    (if st = 1 ∧ fwd = 0 ∧ low.toNat < 65536 ∧ low ≠ 0 then some (.shc (low.extractLsb' 0 16)) else none)
  else match ptrsOf low with
    | none => none
    | some ps =>
      if st = 1 then (if ps ≠ [] ∧ fwd = 0 then some (.shp ps) else none)
      else if st = 2 then (if 2 ≤ ps.length ∧ fwd < ps.length then some (.sf ps fwd) else none)
      else if st = 3 then (match ps with | [o] => if fwd = 0 then some (.ex o) else none | _ => none)
      else if st = 4 then (if ps = [] ∧ fwd = 0 then some .uk else none)
      else none

/-- Distinct agents in a list, none of them 63. -/
def distinctAgents : List Agent → Bool
  | [] => true
  | a :: as => a != 63 && !as.contains a && distinctAgents as

/-- The combinations R82 permits. -/
def Dir.ok : Dir → Bool
  | .un => true
  | .shp ps => !ps.isEmpty && decide (ps.length ≤ 3) && distinctAgents ps
  | .shc g => g != 0
  | .sf ps k => decide (2 ≤ ps.length) && decide (ps.length ≤ 3) && distinctAgents ps && decide (k < ps.length)
  | .ex o => o != 63
  | .uk => true

/-- The entry names agent `a` in a pointer (condition SNAMED). -/
def Dir.names (d : Dir) (a : Agent) : Bool := d.ptrs.contains a

/-- The entry covers agent `a`: a pointer, a group bit, or UK (R80). -/
def Dir.covers (d : Dir) (a : Agent) : Bool :=
  match d with
  | .uk => true
  | .shc g => g.getLsbD (groupOf a)
  | d => d.names a

/-- A pointer-form entry of the agents that remain, without a forwarder. -/
def Dir.ofPtrs : List Agent → Dir
  | [] => .un
  | ps => .shp ps

/-- Position of an agent in a list. -/
def posOf (a : Agent) : List Agent → Nat
  | [] => 0
  | b :: bs => if b = a then 0 else posOf a bs + 1

/-- Remove an agent (R83, R103): the pointers are compacted keeping their order, FWD moves with its pointer, an SF entry
left with one pointer or without its forwarder becomes SH, an entry left with none becomes no entry. Coarse and UK entries
stay as they are. -/
def Dir.drop (d : Dir) (a : Agent) : Dir :=
  match d with
  | .shp ps => .ofPtrs (ps.filter (· ≠ a))
  | .sf ps k =>
    let ps' := ps.filter (· ≠ a)
    match ps[k]? with
    | none => .ofPtrs ps'
    | some f =>
      if f = a ∨ ps'.length < 2 then .ofPtrs ps' else .sf ps' (posOf f ps')
  | .ex o => if o = a then .un else d
  | d => d

/-- The shared grant of R104 for subject `s` over what the answers left of the entry. Agent 63 holds no copy, so it is named in none
(R8, R82). -/
def Dir.share (d : Dir) (s : Agent) : Dir × Grant :=
  match d with
  | .shc g => (.shc (g ||| groupsOf [s]), .s)
  | .uk => (.uk, .s)
  | d =>
    let o' := d.ptrs.filter (· ≠ s)
    if s = 63 then (d, .s)
    else if o' = [] then (.ex s, .e)
    else if o'.length ≤ 2 then (.sf (o' ++ [s]) o'.length, .f)
    else (.shc (groupsOf (o' ++ [s])), .s)

/-- The entry of holders that are all in S or F: pointer form up to three, coarse beyond, no forwarder (R467). -/
def Dir.ofHolders (as : List Agent) : Dir :=
  if as = [] then .un else if as.length ≤ 3 then .shp as else .shc (groupsOf as)

/-- The entry built from the answers to a broadcast (R467): `hs` are the holders with the state reported; with `sub` the
subject is granted a copy. Answers the entry, the subject's grant and whether an owner beside another holder was
reported. -/
def Dir.build (hs : List (Agent × Grant)) (sub : Option Agent) : Dir × Grant × Bool :=
  let owners := hs.filter fun h => h.2 == .e || h.2 == .m
  match sub with
  | none =>
    match hs, owners with
    | [], _ => (.un, .i, false)
    | [h], [_] => (.ex h.1, .i, false)
    | _, [] => (.ofHolders (hs.map Prod.fst), .i, false)
    | _, _ => (.uk, .i, true)
  | some s =>
    match hs, owners with
    | [], _ => (.ex s, .e, false)
    | _, [] => (.ofHolders (hs.map Prod.fst ++ [s]), .s, false)
    | _, _ => (.uk, .s, true)

/-- A list of agents without repeats: the first place of each stays. -/
def distinctOf : List Agent → List Agent
  | [] => []
  | a :: as => a :: (distinctOf as).filter (· ≠ a)

/-- The entry and the grant of the member that receives F or E when a read-combining group closes (R118): `o'` the other
holders, `r` the opener and the joined `RdShd` members in order. The holders of a coarse entry are not counted, so it stays
coarse. An agent with two reads in the group is one agent: where it is the only one, it is named as SH (R82, log entry 40). -/
def Dir.group (d : Dir) (o' : List Agent) (r : List Agent) : Dir × Grant :=
  match d with
  | .shc g => (.shc (g ||| groupsOf (o' ++ r)), .s)
  | .uk => (.uk, .s)
  | _ =>
    match o', r with
    | [], [a] => (.ex a, .e)
    | _, _ =>
      let all := distinctOf (o' ++ r)
      if all.length = 1 then (.shp all, .s)
      else if 2 ≤ all.length ∧ all.length ≤ 3 then (.sf all (posOf (r.getLastD 63) all), .f)
      else (.shc (groupsOf all), .s)

/-- The states an answer may report after a snoop (R75, R76, R77); `anon` says that the snoop's RAG was 63. An agent forwards only where
the snoop names a requester, and keeps M in `RspS` only where a `SnpCur` names none. -/
def answerOk (anon : Bool) (op : SnpOp) (rsp : RspOp) (g : Grant) : Bool :=
  match rsp with
  | .rspI => g == .i
  | .rspEvPend => g == .i
  | .rspS =>
    match op with
    | .snpShd => g == .s
    | .snpFwdShd => g == .s
    | .snpCur => g == .s || g == .f || g == .e || (anon && g == .m)
    | _ => false
  | .rspFwdS =>
    match op with
    | .snpFwdShd => !anon && g == .s
    | .snpCur => !anon && g == .m
    | _ => false
  | .rspFwdI => (match op with | .snpFwdOwn => !anon && g == .i | _ => false)
  | _ => false

end Sys2Proof.Machine
end

