-- ==== Sys2Proof/Machine/Ops.lean ====
section
/-! DEFINITION. The named operations over the state: one reader and one writer for each unit, the counters and the fault
collector's records (R349 to R351, R374), the results of commands (R376 to R379), and time (R162 to R164). -/

namespace Sys2Proof.Machine

/-! ### Units -/

/-- Port p. -/
def State.port (s : State) (p : Fin 24) : Port := s.ports[p]
/-- Change port p. -/
def State.modPort (s : State) (p : Fin 24) (f : Port → Port) : State := { s with ports := s.ports.set p (f s.ports[p]) }
/-- Slice i. -/
def State.slice (s : State) (i : Fin 17) : Slice := s.slices[i]
/-- Change slice i. -/
def State.modSlice (s : State) (i : Fin 17) (f : Slice → Slice) : State :=
  { s with slices := s.slices.set i (f s.slices[i]) }
/-- Channel n. -/
def State.chan (s : State) (n : Fin 16) : Chan := s.chans[n]
/-- Change channel n. -/
def State.modChan (s : State) (n : Fin 16) (f : Chan → Chan) : State := { s with chans := s.chans.set n (f s.chans[n]) }
/-- Change the network island's start-up and mode state. -/
def State.modGlb (s : State) (f : Glb → Glb) : State := { s with glb := f s.glb }
/-- Change the fault collector. -/
def State.modFlt (s : State) (f : Flt → Flt) : State := { s with flt := f s.flt }
/-- Change the partition table. -/
def State.modPar (s : State) (f : Par → Par) : State := { s with par := f s.par }
/-- Change the test unit. -/
def State.modTst (s : State) (f : Tst → Tst) : State := { s with tst := f s.tst }
/-- Change the CSR block. -/
def State.modCsr (s : State) (f : Csr → Csr) : State := { s with csr := f s.csr }

/-- Apply an operation for every slice, in ascending number. -/
def State.eachSlice (s : State) (f : State → Fin 17 → State) : State := (List.finRange 17).foldl f s
/-- Apply an operation for every port, in ascending number. -/
def State.eachPort (s : State) (f : State → Fin 24 → State) : State := (List.finRange 24).foldl f s
/-- Apply an operation for every channel, in ascending number. -/
def State.eachChan (s : State) (f : State → Fin 16 → State) : State := (List.finRange 16).foldl f s
/-- Apply an operation for every home, in ascending number. -/
def State.eachHome (s : State) (f : State → Fin 16 → State) : State := (List.finRange 16).foldl f s

/-- A tracker entry, if bound. -/
def Slice.ent (x : Slice) (t : Nat) : Option Trk := tabGet none x.trk t
/-- Bind, change or free a tracker entry. -/
def Slice.setEnt (x : Slice) (t : Nat) (e : Option Trk) : Slice := { x with trk := tabSet none x.trk t e }
/-- The tracker entry t of slice i, if bound. -/
def State.ent (s : State) (i : Fin 17) (t : Nat) : Option Trk := (s.slice i).ent t
/-- Bind, change or free tracker entry t of slice i. -/
def State.setEnt (s : State) (i : Fin 17) (t : Nat) (e : Option Trk) : State := s.modSlice i (·.setEnt t e)
/-- Change tracker entry t of slice i where it is bound. -/
def State.modEnt (s : State) (i : Fin 17) (t : Nat) (f : Trk → Trk) : State :=
  match s.ent i t with
  | some e => s.setEnt i t (some (f e))
  | none => s
/-- The bound entries of a slice with their numbers. -/
def Slice.ents (x : Slice) : List (Nat × Trk) := x.trk.filterMap fun e => e.2.map fun t => (e.1, t)

/-- A write of an array word writes good check bits: an injected error of the word is gone (R457). -/
def Arrays.wrote (a : Arrays) (arr : Fin 10) (w : Nat) : Arrays :=
  { a with inj := a.inj.filter fun e => !(e.1 == arr && e.2.1.toNat == w) }

/-- The same for `n` words in a row, from `w` on: the four words of a tracker entry (R188), the eight of an MSC line (R234). -/
def Arrays.wroteRun (a : Arrays) (arr : Fin 10) (w n : Nat) : Arrays :=
  { a with inj := a.inj.filter fun e => !(e.1 == arr && decide (w ≤ e.2.1.toNat) && decide (e.2.1.toNat < w + n)) }

/-- First of the four words of a tracker entry. -/
def trkWord (t : Nat) : Nat := 4 * t
/-- First of the eight data words of an MSC way. -/
def mscWord (set way : Nat) : Nat := 8 * (12 * set + way)

/-- A way of the snoop filter; an empty way is UN (R79). -/
def Slice.sfGet (x : Slice) (set way : Nat) : SfWay := tabGet ⟨0, .un⟩ x.ar.sf (16 * set + way)
/-- Write a way; a way that becomes UN is empty. -/
def Slice.sfSet (x : Slice) (set way : Nat) (w : SfWay) : Slice :=
  { x with ar := { x.ar.wrote 0 (16 * set + way) with
      sf := tabSet ⟨0, .un⟩ x.ar.sf (16 * set + way) (if w.dir = .un then ⟨0, .un⟩ else w) } }
/-- The replacement word of a set (R86). -/
def Slice.replGet (x : Slice) (set : Nat) : BitVec 16 := tabGet 0 x.ar.repl set
/-- Write the replacement word of a set. -/
def Slice.replSet (x : Slice) (set : Nat) (v : BitVec 16) : Slice :=
  { x with ar := { x.ar.wrote 1 set with repl := tabSet 0 x.ar.repl set v } }
/-- The set-unknown mark, bit 15 (R86). -/
def Slice.suk (x : Slice) (set : Nat) : Bool := (x.replGet set).getLsbD 15
/-- Mark a set unknown, or clear the mark. -/
def Slice.setSuk (x : Slice) (set : Nat) (b : Bool) : Slice :=
  x.replSet set (if b then x.replGet set ||| 0x8000 else x.replGet set &&& 0x7FFF)
/-- An MSC way. -/
def Slice.mscGet (x : Slice) (set way : Nat) : MscWay := tabGet ⟨0, 0, .inval, 0⟩ x.ar.msc (12 * set + way)
/-- Write an MSC way; an invalid way keeps nothing. -/
def Slice.mscPut (x : Slice) (set way : Nat) (w : MscWay) : Slice :=
  { x with ar := { (x.ar.wrote 5 (12 * set + way)).wroteRun 6 (mscWord set way) 8 with
      msc := tabSet ⟨0, 0, .inval, 0⟩ x.ar.msc (12 * set + way) (if w.st = .inval then ⟨0, 0, .inval, 0⟩ else w)
      tagLost := x.ar.tagLost.filter (· ≠ 12 * set + way) } }

/-- Result registers of commands. -/
def CmdSt.accept (c : CmdSt) (seq : BitVec 8) : CmdSt := { c with res := .running, rseq := seq, refused := false, cause := 0 }
/-- A command is accepted when its SEQ differs from RSEQ and none is running (R377). -/
def CmdSt.accepts (c : CmdSt) (seq : BitVec 8) : Bool := c.res != .running && seq != c.rseq
/-- The command ends completed; an abort that was held then reads NOTHING with its own SEQ (R379). -/
def CmdSt.complete (c : CmdSt) : CmdSt :=
  match c.held with
  | some q => { c with res := .nothing, rseq := q, held := none }
  | none => { c with res := .completed }
/-- Refused at acceptance: nothing changes, REFUSED, COMPLETED, the cause (R377). -/
def CmdSt.refuse (c : CmdSt) (seq : BitVec 8) (cause : BitVec 8) : CmdSt :=
  { c with res := .completed, rseq := seq, refused := true, cause := cause }
/-- An abort that is not accepted (R377, R379): its SEQ is RSEQ, or another waits for the end of a command without abort point. -/
def CmdSt.ignores (c : CmdSt) (seq : BitVec 8) (can : Bool) : Bool :=
  seq == c.rseq || (c.res == .running && !can && c.held.isSome)
/-- The command ends aborted and RSEQ keeps its SEQ (R379). -/
def CmdSt.abort (c : CmdSt) : CmdSt := { c with res := .aborted, held := none }
/-- An abort that finds no command to end (R379). -/
def CmdSt.nothingAt (c : CmdSt) (seq : BitVec 8) : CmdSt := { c with res := .nothing, rseq := seq }

/-- An abort (R379): `can` says that the command that runs has an abort point still to come. Answers the new status and
whether the command ends aborted. -/
def CmdSt.tryAbort (c : CmdSt) (seq : BitVec 8) (can : Bool) : CmdSt × Bool :=
  if seq = c.rseq then (c, false)
  else if c.res != .running then (c.nothingAt seq, false)
  else if can then (c.abort, true)
  else if c.held.isNone then ({ c with held := some seq }, false) else (c, false)

/-- RES as two bits. -/
def Res.code : Res → BitVec 2
  | .nothing => 0 | .completed => 1 | .aborted => 2 | .running => 3

/-! ### Time -/

/-- The first tk edge at or after a happening between two edges (R163). -/
def State.edge (s : State) : Tk := s.now + 1
/-- Ticks since the time base began, however often it has wrapped (R164). -/
def State.time (s : State) : Nat := s.now.toNat + 2 ^ 48 * s.wraps
/-- `t` ticks after the edge at or after now (R163). -/
def State.after (s : State) (t : Nat) : Tk := s.edge + BitVec.ofNat 48 t
/-- Time `t` has been reached: the difference modulo 2^48 is below 2^47 (R164). Every island reads the count itself (log entry
76). -/
def State.reached (s : State) (t : Tk) : Bool := (s.now - t).toNat < 2 ^ 47
/-- Ticks since `t` (R164). -/
def State.since (s : State) (t : Tk) : Nat := (s.now - t).toNat

/-! ### The fault collector -/

/-- Source numbers (R349). -/
def srcSlice (i : Fin 17) : Nat := i.val
/-- Source of a port. -/
def srcPort (p : Fin 24) : Nat := 17 + p.val
/-- Source of a channel. -/
def srcChan (n : Fin 16) : Nat := 41 + n.val
/-- Source of the network island. -/
def srcNet : Nat := 57
/-- Source of an agent. -/
def srcAgent (a : Agent) : Nat := 64 + a.toNat

/-- A source number that names a unit (R349). -/
def srcOk (n : Nat) : Bool := n ≤ 57 || (64 ≤ n && n ≤ 126)

/-- A fault source. -/
def State.src (s : State) (n : Nat) : Src := tabGet .zero s.flt.src n
/-- Change a fault source. -/
def State.modSrc (s : State) (n : Nat) (f : Src → Src) : State :=
  s.modFlt fun x => { x with src := tabSet .zero x.src n (f (tabGet .zero x.src n)) }

/-- Add an entry to the fault log; a full log drops it and counts it in LOST (R374). -/
def State.logEnt (s : State) (e : LogEnt) : State :=
  if s.flt.log.length < 256 then s.modFlt fun x => { x with log := x.log ++ [e] } else s.bump 59 0x160 23 16

/-- The agent that a source is, held responsible for its events; none is 63. -/
def srcAg (src : Nat) : Agent := if 64 ≤ src ∧ src ≤ 126 then BitVec.ofNat 6 (src - 64) else 63

/-- The entry of an event of a source, with the partition of the transaction and the line concerned where there are any (R374). -/
def State.log (s : State) (ty : BitVec 8) (src : Nat) (part : PartId := 0) (pa : LineAddr := 0) : State :=
  s.logEnt ⟨ty, BitVec.ofNat 7 src, srcAg src, part, pa, s.now⟩

/-- An 8-bit count that saturates. -/
def sat8 (v : BitVec 8) : BitVec 8 := if v = 0xFF then v else v + 1

/-- FLT_SRCSTAT counts an event of a source: CORR or UNCOR, and SEQ when the count changed (R413). -/
def Src.count1 (x : Src) (un : Bool) : Src :=
  if un then (if x.uncor = 0xFF then x else { x with uncor := x.uncor + 1, seq := x.seq + 1 })
  else (if x.corr = 0xFF then x else { x with corr := x.corr + 1, seq := x.seq + 1 })

/-- A source becomes severe (R351): logged, and its action is due (R352). -/
def State.makeSevere (s : State) (n : Nat) : State :=
  if (s.src n).severe then s
  else ((s.modSrc n fun x => { x with severe := true }).log 0x03 n).modFlt fun x => { x with due := x.due ++ [n] }

/-- W of FLT_SEVCFG in ticks. -/
def State.sevWindow (s : State) : Nat := 100 * s.fld 59 0x100 23 0

/-- A CORR event of a source (R351, R374). -/
def State.corrEv (s : State) (n : Nat) (part : PartId := 0) (pa : LineAddr := 0) : State :=
  let x := s.src n
  let fresh := x.count = 0 || s.sevWindow ≤ s.since x.ws
  let cnt := if fresh then 1 else x.count + 1
  let limit := s.fld 59 0x100 31 24
  let s := s.modSrc n fun x => { (x.count1 false) with count := cnt, ws := if fresh then s.now else x.ws }
  let s := if fresh then s.log 0x01 n part pa else s
  if limit ≤ cnt then s.makeSevere n else s

/-- A source that is severe already, and whose slice is being evacuated: an UNCOR event settles the move (R372). -/
def State.uncorLeaves (s : State) (n : Nat) : Bool :=
  (s.src n).severe && match s.flt.run with
    | some m => srcSlice m.src == n && (m.kind == .evac || m.kind == .ltMove || m.kind == .ltBack)
    | none => false

/-- An UNCOR event of a source (R351, R372, R374). -/
def State.uncorEv (s : State) (n : Nat) (part : PartId := 0) (pa : LineAddr := 0) : State :=
  let t := (s.modSrc n fun x => { (x.count1 true) with corrOnly := false }).log 0x02 n part pa
  if s.uncorLeaves n then t.modFlt fun x => { x with due := x.due ++ [n] } else t.makeSevere n

/-- A contract event (R350, R374). -/
def State.contractEv (s : State) (n : Nat) (part : PartId := 0) (pa : LineAddr := 0) : State := s.log 0x0B n part pa

/-- A configuration fault (R14, R350): logged. -/
def State.cfgFault (s : State) (n : Nat) : State := s.log 0x0C n

/-- A protocol fault counted against a port: a CORR event of the port (R350). -/
def State.protPort (s : State) (p : Fin 24) (part : PartId := 0) (pa : LineAddr := 0) : State := s.corrEv (srcPort p) part pa
/-- A fault counted against an agent: a CORR event of the agent (R350). -/
def State.protAgent (s : State) (a : Agent) (part : PartId := 0) (pa : LineAddr := 0) : State :=
  if a = 63 then s else s.corrEv (srcAgent a) part pa

/-- A port is fenced. -/
def State.portFenced (s : State) (p : Fin 24) : Bool := (s.src (srcPort p)).fenced
/-- An agent is fenced, by itself or with its port (R355). -/
def State.agFenced (s : State) (a : Agent) : Bool :=
  (s.src (srcAgent a)).fenced || (match portOf a with | some p => s.portFenced p | none => false)
/-- A channel is fenced (R360). -/
def State.chFenced (s : State) (n : Fin 16) : Bool := (s.src (srcChan n)).fenced
/-- A slice is fenced (R362). -/
def State.slFenced (s : State) (i : Fin 17) : Bool := (s.src (srcSlice i)).fenced

/-- A channel is half of a mirrored pair (DCH_CFG.MIRROR). -/
def State.mirrored (s : State) (n : Fin 16) : Bool := s.flag (dchPage n) 0x100 31
/-- Channel n is fenced and nothing serves in its place: no mirror, or its partner is fenced too (R286, R360). -/
def State.chLost (s : State) (n : Fin 16) : Bool :=
  s.chFenced n && (!s.mirrored n || s.chFenced (buddy n))

/-- A command's RES became COMPLETED or ABORTED: GLB_DONE counts it and names its page, SEQ advancing once when either changes
(file 17, R413). -/
def State.done (s : State) (page : Nat) : State :=
  let v := s.reg 0 0x0A
  let n : BitVec 8 := v.extractLsb' 16 8
  let n' : BitVec 8 := if n = 0xFF then n else n + 1
  let pg : BitVec 6 := BitVec.ofNat 6 page
  if n' = n ∧ v.extractLsb' 0 6 = pg then s
  else s.setReg 0 0x0A ((v.extractLsb' 24 8 + 1) ++ n' ++ (0 : BitVec 10) ++ pg)

/-- The same at the completion of a command that stood as `c`: one whose abort was held reads NOTHING and is not counted
(R379). -/
def State.doneUnless (s : State) (page : Nat) (c : CmdSt) : State := if c.held.isSome then s else s.done page

/-- An event in the common STAT of a page: bit `b` and WORD, SEQ advanced (R411, R413, R418). -/
def State.pageEv (s : State) (page b w : Nat) : State :=
  let v := s.reg page 0xFD
  let v' := (v &&& 0xFFFFFF00) ||| BitVec.ofNat 32 (2 ^ b) ||| BitVec.ofNat 32 w
  let v'' := (v' &&& 0x00FFFFFF) ||| ((v.extractLsb' 24 8 + 1).zeroExtend 32 <<< 24)
  s.setReg page 0xFD (if v' = v then v else v'')

/-- The serving slice of a home (R24, R26); none when no slice serves it. -/
def State.serving (s : State) (h : Fin 16) : Option (Fin 17) := tabGet (some (Fin.ofNat 17 h.val)) s.glb.slice h.val
/-- Name the serving slice of a home. -/
def State.setServing (s : State) (h : Fin 16) (i : Option (Fin 17)) : State :=
  s.modGlb fun g => { g with slice := tabSet (some (Fin.ofNat 17 h.val)) g.slice h.val i }
/-- A home is DEGRADED (R369). -/
def State.degraded (s : State) (h : Fin 16) : Bool := s.glb.deg.getLsbD h.val
/-- A home is in BROADCAST (R389). -/
def State.inBcast (s : State) (h : Fin 16) : Bool := s.glb.bc.all || s.glb.bc.homes.getLsbD h.val
/-- A home is a DET home, while DET mode is set (R170, R388). -/
def State.detHome (s : State) (h : Fin 16) : Bool := s.glb.det && s.flag 0 0x170 h.val
/-- A request is of a DET transaction: its line lies in a DET region of a DET home (R176, R185). -/
def State.detTxn (s : State) (r : Req) : Bool := r.rk && s.detHome r.home
/-- The homes a slice serves, in ascending order. -/
def State.homesOf (s : State) (i : Fin 17) : List (Fin 16) := (List.finRange 16).filter fun h => s.serving h == some i

/-- The slice that the master table names for a line (R24): while an evacuation of its home is active, sets below the
watermark go to the destination. -/
def State.servingSlice (s : State) (h : Fin 16) (pa : LineAddr) : Option (Fin 17) :=
  let r := s.glb.route
  if r.active && r.home == h && decide (sfSet pa < r.wm.toNat) then
    (if hd : r.dest.toNat < 17 then some ⟨r.dest.toNat, hd⟩ else s.serving h)
  else s.serving h

/-- The same by a port's copy of the table (R24, R25). -/
def State.routedSlice (s : State) (p : Fin 24) (h : Fin 16) (pa : LineAddr) : Option (Fin 17) :=
  let r := (s.port p).route
  if r.active && r.home == h && decide (sfSet pa < r.wm.toNat) then
    (if hd : r.dest.toNat < 17 then some ⟨r.dest.toNat, hd⟩ else s.serving h)
  else s.serving h

/-- The slice whose service unit serves the lines of slice `i`: while an evacuation runs, the destination uses the source's
(R367). -/
def State.svcSlice (s : State) (i : Fin 17) : Fin 17 :=
  match s.flt.run with
  | some m => if (m.kind == .evac || m.kind == .ltMove || m.kind == .ltBack) && m.dst == i then m.src else i
  | none => i

/-- The broadcast scope (R97), for a line in a DET region limited to the region's agents (R175). -/
def State.scope (s : State) (pa : LineAddr) : List Agent :=
  let m : Nat := (s.reg 0 0x54).toNat + 2 ^ 32 * (s.reg 0 0x55).toNat
  let all := allAgents.filter fun a => m.testBit a.toNat && !s.agFenced a
  match s.detRgn pa with
  | none => all
  | some r => all.filter fun a => (s.rgnAgents r).contains a

/-- The agents that an entry covers within the scope (R91, R97). -/
def State.covered (s : State) (pa : LineAddr) (d : Dir) : List Agent :=
  let sc := s.scope pa
  match d with
  | .uk => sc
  | .shc g => (groupAgents g).filter sc.contains
  | d => d.ptrs.filter sc.contains

/-- PAR_CFGq.EN (R335), zero for a partition the fuses do not permit (R336). -/
def State.partEn (s : State) (q : PartId) : Bool := s.flag 60 (4 * q.toNat) 31
/-- A partition's part of the table. -/
def State.part (s : State) (q : PartId) : Part := tabGet .zero s.par.parts q.toNat
/-- Change a partition's part of the table. -/
def State.modPart (s : State) (q : PartId) (f : Part → Part) : State :=
  s.modPar fun x => { x with parts := tabSet .zero x.parts q.toNat (f (tabGet .zero x.parts q.toNat)) }
/-- Count a stale message of a partition (PAR_CNT.STALE). -/
def State.staleMsg (s : State) (q : PartId) : State :=
  s.modPart q fun x => if x.stale = 0xFF then x else { x with stale := x.stale + 1, seq := x.seq + 1 }
/-- Agent a is a member of partition q (R335). -/
def State.member (s : State) (a : Agent) (q : PartId) : Bool :=
  s.partEn q && (match portOf a with
    | none => false
    | some p => s.flag (prtPage p) (0x060 + 8 * localIdx p a + 4 * (q.toNat / 32)) (q.toNat % 32))

/-- A free value of 16 bits taken from the manual's silence advances the model's own counter (log entry 6). -/
def State.tickFree (s : State) : State := { s with freeCtr := s.freeCtr + 1 }

end Sys2Proof.Machine
end

