-- ==== Sys2Proof/Machine/Net.lean ====
section
/-! DEFINITION. The four networks (R19, R289 to R299): the grid, the two route orders, the sideband, the virtual channels of the
routers, and the cycle in which every router output sends at most one flit. Where no flit waits and every link is in order,
a message reaches its receiver in the step that sends it. -/

namespace Sys2Proof.Machine

/-! ### Endpoints and routes (R290, R292) -/

/-- Number of an endpoint in the floor plan. -/
def EndPt.num : EndPt → Nat
  | .slice i => i.val | .port p => 17 + p.val | .chan n => 41 + n.val | .csr => 57 | .flt => 58

/-- The router of an endpoint. -/
def EndPt.at' (e : EndPt) : Nat × Nat := Config.router e.num

/-- The numbers from the smaller of two to one below the larger. -/
def between (a b : Nat) : List Nat := (List.range (max a b - min a b)).map (min a b + ·)

/-- The route along x and then along y crosses a hole. -/
def xyBlocked (s d : Nat × Nat) : Bool :=
  ((between s.1 d.1).any fun x => Config.hole false x s.2) || (between s.2 d.2).any fun y => Config.hole true d.1 y

/-- The output of the router `at'` for a flit to router `d` and its local port `loc`: 0 +x, 1 -x, 2 +y, 3 -y, 4 to 6 local. -/
def outputAt (yx : Bool) (at' d : Nat × Nat) (loc : Nat) : Nat :=
  let gx : Option Nat := if at'.1 < d.1 then some 0 else if d.1 < at'.1 then some 1 else none
  let gy : Option Nat := if at'.2 < d.2 then some 2 else if d.2 < at'.2 then some 3 else none
  (if yx then gy.or gx else gx.or gy).getD (4 + loc)

/-- The router that an output leads to. -/
def neighbour (at' : Nat × Nat) (out : Nat) : Nat × Nat :=
  if out = 0 then (at'.1 + 1, at'.2) else if out = 1 then (at'.1 - 1, at'.2)
  else if out = 2 then (at'.1, at'.2 + 1) else (at'.1, at'.2 - 1)

/-- The input at which a flit sent on an output arrives: inputs are numbered by the direction they face. -/
def facing (out : Nat) : Nat := if out % 2 = 0 then out + 1 else out - 1

/-! ### The sideband (R291, R293) -/

/-- Parity of 7 bits. -/
def parity7 (v : BitVec 7) : Bool := (List.range 7).foldl (fun b k => xor b (v.getLsbD k)) false

/-- The sideband: virtual channel, output at the next router, RSVD, parity. R291 gives the widths; the order of the fields and the even
parity in bit 0 are the model's choice (log entry 85). -/
def sideband (vc : BitVec 2) (out : Nat) : BitVec 8 :=
  let v : BitVec 7 := vc ++ BitVec.ofNat 3 out ++ (0 : BitVec 2)
  v ++ (if parity7 v then 1#1 else 0#1)

/-- The output that the sideband names. -/
def NetFlit.out (f : NetFlit) : Nat := (f.side.extractLsb' 3 3).toNat

/-- The check of a router input on the sideband (R297). -/
def NetFlit.sideOk (f : NetFlit) : Bool := f.side == sideband f.vc f.out && f.side.extractLsb' 6 2 == f.vc

/-- The flit as it leaves for router `nxt`, which is to send it on the output that the sideband then names (R293). -/
def NetFlit.towards (f : NetFlit) (nxt : Nat × Nat) : NetFlit :=
  { f with side := sideband f.vc (outputAt (f.vc.getLsbD 0) nxt f.dst.at' (Config.localPort f.dst.num).val) }

/-! ### Messages (R19, R295) -/

/-- The network of a message: REQ 0, SNP 1, RSP 2, DAT 3. -/
def NetMsg.net : NetMsg → Fin 4
  | .req _ _ _ => 0 | .fetch _ _ => 0 | .csr _ _ => 0 | .snp _ _ _ => 1
  | .rsp _ _ _ _ _ _ => 2 | .answer _ _ _ _ _ => 2 | .ack _ _ => 2 | .expiry _ _ => 2 | .drained _ => 2
  | .csrEnd _ _ _ d => if d.isSome then 3 else 2
  | .dat _ _ _ _ _ _ => 3 | .dirty _ _ _ => 3 | .fwd _ _ _ => 3 | .write _ _ _ _ => 3 | .ret _ _ => 3

/-- A flit of a message between two endpoints, on the virtual channel of its class and of the pair's route order (R292, R295). -/
def netFlit (m : NetMsg) (src dst : EndPt) (det : Bool) : NetFlit :=
  let yx := xyBlocked src.at' dst.at'
  let vc : BitVec 2 := (if det then 1#1 else 0#1) ++ (if yx then 1#1 else 0#1)
  (NetFlit.mk m m.net src dst vc 0).towards src.at'

/-! ### The state of the network -/

/-- A link in good order. -/
def LinkSt.zero : LinkSt := ⟨0, 0, false⟩

/-- Key of a link. -/
def linkKey : LinkId → Nat
  | .hop net dir x y => ((net.val * 4 + dir.val) * 8 + x.val) * 6 + y.val
  | .cross net e out => 768 + (net.val * 59 + e.val) * 2 + out.toNat

/-- The source whose events are those of a link: its port for a crossing of a port, otherwise the network island (R298, R438). -/
def linkSrc : LinkId → Nat
  | .hop _ _ _ _ => srcNet
  | .cross _ e _ => if h : 17 ≤ e.val ∧ e.val < 41 then srcPort ⟨e.val - 17, by omega⟩ else srcNet

/-- The crossing by which an endpoint sends into a network, or takes from it (R438). -/
def State.crossing (s : State) (net : Fin 4) (e : EndPt) (out : Bool) : LinkSt :=
  tabGet LinkSt.zero s.noc.links (768 + (net.val * 59 + e.num) * 2 + out.toNat)

/-- How a link stands: `fails` is the number of replays that have failed in a row, 2 while the lane test runs, 3 while the replay
after it is awaited. -/
def State.link (s : State) (l : LinkId) : LinkSt := tabGet .zero s.noc.links (linkKey l)

/-- A link carries flits: it has not failed, and no replay of it is outstanding (R297, R298). -/
def LinkSt.carries (k : LinkSt) : Bool := k.fails == 0 && !k.failed

/-- No flit is on the network, and every link is in order. -/
def State.netClear (s : State) : Bool :=
  s.noc.bufs.isEmpty && s.noc.wait.isEmpty && s.noc.links.all fun e => e.2.carries

/-- Send a message: at once where nothing is in its way, otherwise as a flit. A message that its receiver has no `room` for stays
on the network (R302). -/
def State.carry (s : State) (m : NetMsg) (src dst : EndPt) (det : Bool) (direct : State → State) (room : Bool := true) : State :=
  if room && s.netClear then direct s
  else { s with noc := { s.noc with wait := s.noc.wait ++ [netFlit m src dst det] } }

/-- The flits on the network and before it. -/
def State.netFlits (s : State) : List NetFlit := s.noc.bufs.flatMap Prod.snd ++ s.noc.wait

/-- The requests among them. -/
def State.netReqs (s : State) : List (Fin 17 × Nat × Req) :=
  s.netFlits.filterMap fun f => match f.msg with | .req i rq r => some (i, rq, r) | _ => none

/-- Change every message on the network. -/
def State.netMap (s : State) (f : NetMsg → NetMsg) : State :=
  let g (k : NetFlit) : NetFlit := { k with msg := f k.msg }
  { s with noc := { s.noc with bufs := s.noc.bufs.map fun e => (e.1, e.2.map g), wait := s.noc.wait.map g } }

/-! ### Routers (R292, R294) -/

/-- Key of a router of a network. -/
def routerKey (net : Nat) (at' : Nat × Nat) : Nat := (net * 6 + at'.2) * 8 + at'.1

/-- Key of a virtual channel at an input. -/
def vcKey (net : Nat) (at' : Nat × Nat) (inp vc : Nat) : Nat := (routerKey net at' * 7 + inp) * 4 + vc

/-- A head flit: where it stands. -/
structure NetHead where
  f : NetFlit
  at' : Nat × Nat
  inp : Nat
  vc : Nat
  deriving DecidableEq, Repr

/-- The head flits of every virtual channel. -/
def State.netHeads (s : State) : List NetHead :=
  s.noc.bufs.filterMap fun e => e.2.head?.map fun f =>
    let r := e.1 / 28
    ⟨f, (r % 8, r / 8 % 6), e.1 / 4 % 7, e.1 % 4⟩

/-- A virtual channel has a place for a flit (R292). -/
def State.vcRoom (s : State) (k : Nat) : Bool := decide ((tabGet [] s.noc.bufs k).length < 4)

/-- The flit may leave by its output: the link carries flits and the next router has a credit, or the endpoint takes it (R294). -/
def State.mayLeave (s : State) (room : NetMsg → Bool) (h : NetHead) : Bool :=
  let o := h.f.out
  if o < 4 then
    h.f.sideOk && (tabGet LinkSt.zero s.noc.links (((h.f.net.val * 4 + o) * 8 + h.at'.1) * 6 + h.at'.2)).carries &&
      s.vcRoom (vcKey h.f.net.val (neighbour h.at' o) (facing o) h.vc)
  else (s.crossing h.f.net h.f.dst false).carries && room h.f.msg

/-- Key of the turn of an output among the DET or the normal virtual channels. -/
def turnKey (h : NetHead) : Nat := (routerKey h.f.net.val h.at' * 7 + h.f.out) * 2 + h.vc / 2

/-- Two heads want the same output. -/
def NetHead.meets (a b : NetHead) : Bool := a.f.net == b.f.net && a.at' == b.at' && a.f.out == b.f.out

/-- How far an input is from its turn. -/
def State.turnOf (s : State) (h : NetHead) : Nat := (h.inp + 6 - tabGet 6 s.noc.turn (turnKey h)) % 7

/-- `a` goes before `b` at their output: DET first, then by turn (R294). Of two channels of one class at one input the lower goes first,
by the model's choice (log entry 85). -/
def State.goesBefore (s : State) (a b : NetHead) : Bool :=
  if a.vc / 2 ≠ b.vc / 2 then decide (b.vc / 2 < a.vc / 2)
  else if s.turnOf a ≠ s.turnOf b then decide (s.turnOf a < s.turnOf b)
  else decide (a.vc < b.vc)

/-- The head flits that leave in this cycle. -/
def State.netWinners (s : State) (room : NetMsg → Bool) : List NetHead :=
  let hs := s.netHeads.filter (s.mayLeave room)
  hs.filter fun h => hs.all fun k => k == h || !k.meets h || s.goesBefore h k

/-- A flit leaves: to the next router, or to its endpoint. -/
def State.netMove (s : State) (h : NetHead) : State × List NetMsg :=
  let n := s.noc
  let k := vcKey h.f.net.val h.at' h.inp h.vc
  let bufs := tabSet [] n.bufs k ((tabGet [] n.bufs k).drop 1)
  let turn := tabSet 6 n.turn (turnKey h) h.inp
  if h.f.out < 4 then
    let nxt := neighbour h.at' h.f.out
    let k' := vcKey h.f.net.val nxt (facing h.f.out) h.vc
    ({ s with noc := { n with turn := turn, bufs := tabSet [] bufs k' (tabGet [] bufs k' ++ [h.f.towards nxt]) } }, [])
  else ({ s with noc := { n with turn := turn, bufs := bufs } }, [h.f.msg])

/-- A flit enters its router from its endpoint, in the order of sending, while its virtual channel has a place. -/
def State.netEnter (s : State) (kept : List NetFlit) : List NetFlit → State
  | [] => { s with noc := { s.noc with wait := kept } }
  | f :: fs =>
    let k := vcKey f.net.val f.src.at' (4 + (Config.localPort f.src.num).val) f.vc.toNat
    if s.vcRoom k && (s.crossing f.net f.src true).carries &&
        !(kept.any fun g => g.net == f.net && g.src == f.src && g.vc == f.vc) then
      ({ s with noc := { s.noc with bufs := tabSet [] s.noc.bufs k (tabGet [] s.noc.bufs k ++ [f]) } } : State).netEnter kept fs
    else s.netEnter (kept ++ [f]) fs

/-- One cycle of the networks: what it delivers, and whether anything moved. -/
def State.netCycle (s : State) (room : NetMsg → Bool) : State × List NetMsg × Bool :=
  let ws := s.netWinners room
  let n := s.noc.wait.length
  let (s, out) := ws.foldl (fun (p : State × List NetMsg) h =>
    let q := p.1.netMove h
    (q.1, p.2 ++ q.2)) (s, [])
  let s := s.netEnter [] s.noc.wait
  (s, out, !ws.isEmpty || s.noc.wait.length != n)

end Sys2Proof.Machine
end

