-- ==== Sys2Proof/Machine/Send.lean ====
section
/-! DEFINITION. What leaves Efkar: the link layer's sending side (R431), the egress of a port with its generation and
fence checks (R69, R355), the answer area and the snoop egress (R246), credits (R58, R59, R358, R433), CompAck allowances
(R177), and the records of trace and performance counters (R461, R463). -/

namespace Sys2Proof.Machine

/-! ### Codes of the fields -/

/-- Status code (R52). -/
def Status.code : Status → BitVec 3
  | .ok => 0 | .busy => 1 | .orphaned => 2 | .failed => 3 | .poison => 4 | .timeout => 5 | .fenced => 6 | .stalegen => 7

/-- The status a code names (R52). -/
def statusOf (c : BitVec 3) : Status :=
  if c = 0 then .ok else if c = 1 then .busy else if c = 2 then .orphaned else if c = 3 then .failed
  else if c = 4 then .poison else if c = 5 then .timeout else if c = 6 then .fenced else .stalegen

/-- Grant code (R48). -/
def Grant.code : Grant → BitVec 3
  | .i => 0 | .s => 1 | .f => 2 | .e => 3 | .m => 4

/-- The state a GRANT code names; 0b101 to 0b111 are reserved (R48). -/
def grantOf (c : BitVec 3) : Option Grant :=
  if c = 0 then some .i else if c = 1 then some .s else if c = 2 then some .f else if c = 3 then some .e
  else if c = 4 then some .m else none

/-- REQ opcode encoding (R50). -/
def reqCode : ReqOp → BitVec 5
  | .rdShd => 0x00 | .rdOwn => 0x01 | .rdCur => 0x02 | .upgr => 0x03 | .wrFull => 0x04 | .wrPart => 0x05
  | .evClean => 0x06 | .evDirty => 0x07 | .atom => 0x08 | .lockAcq => 0x09 | .lockRel => 0x0A | .qEnq => 0x0B
  | .qDeq => 0x0C | .qWatch => 0x0D | .resv => 0x0E | .condWr => 0x0F | .drainO => 0x10 | .drainE => 0x11
  | .hint => 0x12

/-- The request an encoding names; 0x13 to 0x1F are reserved (R50). -/
def reqOpOf (c : BitVec 5) : Option ReqOp :=
  [ReqOp.rdShd, .rdOwn, .rdCur, .upgr, .wrFull, .wrPart, .evClean, .evDirty, .atom, .lockAcq, .lockRel, .qEnq,
   .qDeq, .qWatch, .resv, .condWr, .drainO, .drainE, .hint][c.toNat]?

/-- SNP opcode encoding (R53). -/
def SnpOp.code : SnpOp → BitVec 5
  | .snpShd => 0 | .snpOwn => 1 | .snpFwdShd => 2 | .snpFwdOwn => 3 | .snpCur => 4 | .snpInv => 5 | .snpBack => 6
  | .qNotify => 7

/-- The snoop an encoding names (R53). -/
def snpOpOf (c : BitVec 5) : Option SnpOp :=
  [SnpOp.snpShd, .snpOwn, .snpFwdShd, .snpFwdOwn, .snpCur, .snpInv, .snpBack, .qNotify][c.toNat]?

/-- RSP opcode encoding (R53). -/
def RspOp.code : RspOp → BitVec 5
  | .rspI => 0 | .rspS => 1 | .rspFwdS => 2 | .rspFwdI => 3 | .rspEvPend => 4 | .comp => 5 | .compAck => 6
  | .retry => 7 | .err => 8

/-- The response an encoding names (R53). -/
def rspOpOf (c : BitVec 5) : Option RspOp :=
  [RspOp.rspI, .rspS, .rspFwdS, .rspFwdI, .rspEvPend, .comp, .compAck, .retry, .err][c.toNat]?

/-- DAT opcode encoding (R53). -/
def DatOp.code : DatOp → BitVec 5
  | .datShd => 0 | .datExc => 1 | .datDirty => 2 | .datWr => 3 | .datCur => 4

/-- The data opcode an encoding names (R53). -/
def datOpOf (c : BitVec 5) : Option DatOp :=
  [DatOp.datShd, .datExc, .datDirty, .datWr, .datCur][c.toNat]?

/-- The counted writes of the drains (R119). -/
def reqCounted : ReqOp → Bool
  | .wrFull => true | .wrPart => true | .evDirty => true | .atom => true | .condWr => true | .qEnq => true
  | _ => false

/-- The drains. -/
def reqIsDrain : ReqOp → Bool
  | .drainO => true | .drainE => true | _ => false

/-- The evictions (R29). -/
def reqIsEvict : ReqOp → Bool
  | .evClean => true | .evDirty => true | _ => false

/-- Opcode field of a tracker entry; Efkar's own happenings have none and read 0. -/
def Kind.opc : Kind → BitVec 5
  | .req op => reqCode op
  | _ => 0

/-! ### Trace and performance counters -/

/-- Field `k` of TST_PCCFG counts `ev` in slice `i` (R463). -/
def State.pcOn (s : State) (k : Nat) (i : Fin 17) (ev : Nat) : Bool :=
  let o := 0x180 + 4 * k
  s.flag 63 o 31 && s.fld 63 o 5 0 == ev &&
    (s.fld 63 o 12 8 == i.val || (s.fld 63 o 12 8 == 0x1F && !(s.homesOf i).isEmpty)) &&
    (s.slice i).ctl.dom.a == .on

/-- Add `n` events of kind `ev` in slice `i` to the counters (R463). -/
def State.perf (s : State) (i : Fin 17) (ev : Nat) (n : Nat := 1) : State :=
  (List.range 8).foldl (fun s k =>
    if s.pcOn k i ev then
      s.modTst fun x => { x with pc := tabSet 0 x.pc k (tabGet 0 x.pc k + BitVec.ofNat 48 n) }
    else s) s

/-- Write a record into a trace buffer (R461). -/
def Trace.put (t : Trace) (mode : Nat) (trig post : Nat) (r : TraceRec) : Trace :=
  let recs := if 4096 ≤ t.recs.length then t.recs.drop 1 ++ [r] else t.recs ++ [r]
  let wr := t.wrapped || t.wptr == 4095
  let left := match t.post with
    | some n => some (n - 1)
    | none => if mode = 2 ∧ r.kind.toNat = trig then some post else none
  let stop := (mode = 1 && decide (4096 ≤ recs.length)) || (mode = 2 && left == some 0)
  { recs := recs, wptr := t.wptr + 1, wrapped := wr, stopped := stop, post := left, inSc := t.inSc + 1 }

/-- Record an event of a slice, when it is traced and passes the filter; beyond four records in an sc it is dropped and
counted (R461). -/
def State.trace (s : State) (i : Fin 17) (r : TraceRec) : State :=
  let t := (s.slice i).trace
  let pam := s.fld 63 0x144 24 12
  if s.flag 63 0x140 31 && s.flag 63 0x140 i.val && (s.fld 63 0x140 28 23).testBit (r.kind.toNat - 1) && !t.stopped &&
      (!s.flag 63 0x144 31 || s.fld 63 0x144 30 25 == r.ag.toNat) &&
      ((r.pa.toNat % 2 ^ 13) &&& pam) == (s.fld 63 0x148 12 0 &&& pam) then
    if 4 ≤ t.inSc then s.bump 63 0x14C 23 0
    else s.modSlice i fun x =>
      { x with trace := x.trace.put (s.fld 63 0x140 30 29) (s.fld 63 0x140 22 20) (s.fld 63 0x144 11 0) r }
  else s

/-- The record of a transaction's event: kind, agent and opcode of the message or request (R461). -/
def State.traceEnt (s : State) (i : Fin 17) (t : Nat) (e : Trk) (kind : BitVec 6) (ag : Agent) (opc : BitVec 5) : State :=
  s.trace i ⟨s.now.extractLsb' 0 32, kind, ag, e.r.a.pa, BitVec.ofNat 13 t, opc, e.we.code, e.pc⟩

/-- The record of a message that a slice sends for no entry of its own: an opcode, with the agent and the line that it concerns (R461). -/
def State.traceSend (s : State) (i : Fin 17) (ag : Agent) (pa : LineAddr) (opc : BitVec 5) : State :=
  s.trace i ⟨s.now.extractLsb' 0 32, 0x03, ag, pa, 0, opc, 0, 0⟩

/-! ### The link layer as sender -/

/-- Send new flits while fewer than 24 are unacknowledged (R431). -/
def LinkTx.fill (c : LinkTx) : List Flit → LinkTx
  | [] => { c with waiting := [] }
  | f :: fs =>
    if c.unacked.length < 24 then
      ({ c with next := c.next + 1, unacked := c.unacked ++ [(c.next, f)], wire := c.wire ++ [(c.next, f)] } : LinkTx).fill fs
    else { c with waiting := f :: fs }

/-- Offer a flit on a channel. -/
def LinkTx.push (c : LinkTx) (f : Flit) : LinkTx := c.fill (c.waiting ++ [f])

/-- The flits that an acknowledgement frees leave the sender. -/
def LinkTx.freed (c : LinkTx) (n : BitVec 5) : LinkTx :=
  if c.unacked.any (·.1 == n) then
    let un := (c.unacked.dropWhile (·.1 != n)).drop 1
    { c with unacked := un, wire := c.wire.filter fun w => un.any (·.1 == w.1) }
  else c

/-- `ack` frees every flit up to the number it names, when it names one that is unacknowledged (R431). -/
def LinkTx.ackTo (c : LinkTx) (n : BitVec 5) : LinkTx := (c.freed n).fill c.waiting

/-- The agents ask for a replay: what is still unacknowledged is driven again, in its order, before any new flit (R431). -/
def LinkTx.resend (c : LinkTx) (n : BitVec 5) : LinkTx :=
  ({ (c.freed n) with wire := (c.freed n).unacked } : LinkTx).fill c.waiting

/-- One pc of a channel: the next flit is driven (R429). -/
def LinkTx.drive (c : LinkTx) : LinkTx := { c with pin := c.wire.head?, wire := c.wire.drop 1 }

/-- Offer a flit on the channel of its class. -/
def PortLink.send (l : PortLink) (f : Flit) : PortLink :=
  match f with
  | .snp _ => { l with snp := l.snp.push f }
  | .rsp _ _ => { l with rspo := l.rspo.push f }
  | .dat _ _ => { l with dato := l.dato.push f }

/-- The channel of a flit. -/
def PortLink.txOf (l : PortLink) : Flit → LinkTx
  | .snp _ => l.snp | .rsp _ _ => l.rspo | .dat _ _ => l.dato

/-- Of the flits that waited, those that the channel has now sent. -/
def LinkTx.sentOf (c : LinkTx) (offered : List Flit) : List Flit := offered.take (offered.length - c.waiting.length)

/-! ### CompAck allowances (R177) -/

/-- Agent a is in the DET snoop deadline class. -/
def State.detClass (s : State) (p : Fin 24) (a : Agent) : Bool := s.flag (prtPage p) (0x040 + 4 * localIdx p a) 30

/-- A snoop deadline in ticks (R65). -/
def State.snpDl (s : State) (p : Fin 24) (a : Agent) : Nat :=
  if s.detClass p a then 40 else s.fld (prtPage p) (0x040 + 4 * localIdx p a) 15 0

/-- The record of a completion to agent `a`. -/
def AckTimer.isFor (k : AckTimer) (a : Agent) (q : PartId) (t : ATag) (g : Gen) : Bool :=
  k.ag == a && k.part == q && k.atag == t && k.gen == g

/-- A completion that grants a state is on its way to the channel: it came on a DET virtual channel, and the forwarded flit that
`fwd` announces may be there already. -/
def Port.ackNote (x : Port) (timed : Bool) (a : Agent) (q : PartId) (t : ATag) (g : Gen) (pa : LineAddr) (fwd : Bool) : Port :=
  if x.acks.any (·.isFor a q t g) then
    { x with acks := x.acks.map fun k =>
        if k.isFor a q t g then { k with pa := pa, timed := timed, needComp := true, needDat := k.needDat && fwd } else k }
  else { x with acks := x.acks ++ [⟨a, q, t, g, pa, timed, true, fwd, none⟩] }

/-- A flit of a completion is offered for the first time: the allowance runs once all that it waits for has been. -/
def AckTimer.out (k : AckTimer) (dl : Tk) (comp : Bool) : AckTimer :=
  let nc := k.needComp && !comp
  let nd := k.needDat && comp
  { k with needComp := nc, needDat := nd, dl := if nc || nd || !k.timed then k.dl else k.dl.or (some dl) }

/-- A flit for agent `a` is offered on its channel for the first time; `comp` says that it is the completion. -/
def Port.ackOut (x : Port) (dl : Tk) (a : Agent) (q : PartId) (t : ATag) (g : Gen) (comp : Bool) : Port :=
  { x with acks := x.acks.map fun k => if k.isFor a q t g then k.out dl comp else k }

/-- A flit is offered on its channel for the first time. -/
def Port.flitOut (x : Port) (dl : Tk) : Flit → Port
  | .snp _ => x
  | .rsp _ r => x.ackOut dl r.dst r.part r.atag r.gen true
  | .dat _ d => x.ackOut dl d.agt (d.id.extractLsb' 12 6) (d.id.extractLsb' 0 12) d.gen d.cmp

/-- Offer a flit at port p; a port whose link is down sends nothing (R435). -/
def State.offer (s : State) (p : Fin 24) (f : Flit) : State :=
  if (s.port p).up then s.modPort p fun x =>
    let l := x.link.send f
    ((l.txOf f).sentOf ((x.link.txOf f).waiting ++ [f])).foldl (fun x g => x.flitOut (s.after 5) g) { x with link := l }
  else s

/-! ### Completions and data to an agent -/

/-- The egress discards a flit to a fenced agent (R355), and one whose generation is not its partition's (R69), which it
counts. -/
def State.egressCheck (s : State) (a : Agent) (q : PartId) (g : Gen) : State × Bool :=
  if s.agFenced a then (s, false) else if g != (s.part q).gen then (s.staleMsg q, false) else (s, true)

/-- Offer a completion of Efkar to an agent at its port; `owes` says that it grants a state on a DET virtual channel, and `fwd`
that data is forwarded to the agent besides (R177, R295). -/
def State.sendCompFlit (s : State) (a : ReqArgs) (owes fwd : Bool) (f : Flit) : State :=
  match portOf a.src with
  | none => s
  | some p =>
    match s.egressCheck a.src a.part a.gen with
    | (s, false) => s
    | (s, true) =>
      let s := s.modPort p fun x =>
        if owes then x.ackNote (s.detClass p a.src) a.src a.part a.atag a.gen a.pa fwd
        else { x with acks := x.acks.filter fun k => !(k.needComp && k.isFor a.src a.part a.atag a.gen) }
      s.offer p f

/-- Send an RSP flit of Efkar to an agent (R47, R195). -/
def State.sendRsp (s : State) (op : RspOp) (a : ReqArgs) (st : Status) (gr : Grant) (info : BitVec 16) (rk : Bool) :
    State :=
  s.sendCompFlit a (rk && gr != .i && op == .comp) (info.getLsbD 0)
    (.rsp op ⟨63, a.src, a.part, a.gen, a.atag, st.code, gr.code, a.pa, info⟩)

/-- Send a DAT flit with CMP = 1 to the subject (R49, R195). -/
def State.sendDat (s : State) (op : DatOp) (a : ReqArgs) (pois : Bool) (gr : Grant) (d : Line) (rk : Bool) : State :=
  s.sendCompFlit a (rk && gr != .i && !pois) false
    (.dat op ⟨a.src, a.part ++ a.atag, a.gen, true, if pois then Status.poison.code else 0, gr.code, d⟩)

/-! ### Credits (R58, R59, R433) -/

/-- RLIMIT of partition q on port p. -/
def State.rLimit (s : State) (p : Fin 24) (q : PartId) : Nat := s.fld (prtPage p) (0x100 + 4 * q.toNat) 14 0
/-- DLIMIT of partition q on port p. -/
def State.dLimit (s : State) (p : Fin 24) (q : PartId) : Nat := s.fld (prtPage p) (0x100 + 4 * q.toNat) 24 16
/-- RISSUED. -/
def Port.rIss (x : Port) (q : PartId) : BitVec 15 := tabGet 0 x.cred.rissued q.toNat
/-- DISSUED. -/
def Port.dIss (x : Port) (q : PartId) : BitVec 9 := tabGet 0 x.cred.dissued q.toNat
/-- Set RISSUED. -/
def Port.setR (x : Port) (q : PartId) (v : BitVec 15) : Port :=
  { x with cred := { x.cred with rissued := tabSet 0 x.cred.rissued q.toNat v } }
/-- Set DISSUED. -/
def Port.setD (x : Port) (q : PartId) (v : BitVec 9) : Port :=
  { x with cred := { x.cred with dissued := tabSet 0 x.cred.dissued q.toNat v } }
/-- `n` REQ pulses of partition q fall due. -/
def Port.dueR (x : Port) (q : PartId) (n : Nat) : Port :=
  if n = 0 then x else { x with cred := { x.cred with reqDue := x.cred.reqDue ++ [(q, n)] } }
/-- `n` data pulses of partition q fall due. -/
def Port.dueD (x : Port) (q : PartId) (n : Nat) : Port :=
  if n = 0 then x else { x with cred := { x.cred with datDue := x.cred.datDue ++ [(q, n)] } }

/-- Credits are issued after Enable, on a port that is up, for an enabled partition (R59, R335). -/
def State.issuing (s : State) (p : Fin 24) (q : PartId) : Bool := (s.port p).up && s.partEn q

/-- Issue REQ and data credits up to the limits (R59). -/
def State.issue (s : State) (p : Fin 24) (q : PartId) : State :=
  if s.issuing p q then
    let r := s.rLimit p q - ((s.port p).rIss q).toNat
    let d := s.dLimit p q - ((s.port p).dIss q).toNat
    s.modPort p fun x =>
      let x := if r = 0 then x else (x.setR q (x.rIss q + BitVec.ofNat 15 r)).dueR q r
      if d = 0 then x else (x.setD q (x.dIss q + BitVec.ofNat 9 d)).dueD q d
  else s

/-- Issue to every partition of a port. -/
def State.issueAll (s : State) (p : Fin 24) : State := (List.range 64).foldl (fun s q => s.issue p (BitVec.ofNat 6 q)) s

/-- A REQ credit comes back (R58): a pulse while the issued count is at or below the limit, otherwise the count falls. -/
def State.retReq (s : State) (p : Fin 24) (q : PartId) : State :=
  if ((s.port p).rIss q).toNat ≤ s.rLimit p q then s.modPort p (·.dueR q 1)
  else s.modPort p fun x => x.setR q (x.rIss q - 1)

/-- A data credit comes back (R58). -/
def State.retDat (s : State) (p : Fin 24) (q : PartId) : State :=
  if ((s.port p).dIss q).toNat ≤ s.dLimit p q then s.modPort p (·.dueD q 1)
  else s.modPort p fun x => x.setD q (x.dIss q - 1)

/-- The fence reclaims the REQ credit of a discarded flit and issues it again (R358). -/
def State.reclaimReq (s : State) (p : Fin 24) (q : PartId) : State :=
  (s.modPort p fun x => if x.rIss q = 0 then x else x.setR q (x.rIss q - 1)).issue p q

/-- The fence reclaims the data credit of a discarded flit and issues it again (R358). -/
def State.reclaimDat (s : State) (p : Fin 24) (q : PartId) : State :=
  (s.modPort p fun x => if x.dIss q = 0 then x else x.setD q (x.dIss q - 1)).issue p q

/-! ### The answer area and the snoop egress (R246) -/

/-- Lines of the answer area that are bound. -/
def Port.areaUsed (x : Port) : Nat := (x.egress.filter (·.area)).length

/-- The transaction's wait for an agent begins: its snoop is ready (R466). -/
def Trk.markReady (e : Trk) (a : Agent) : Trk :=
  { e with h := { e.h with await := e.h.await.map fun w => if w.ag == a && !w.ready then { w with ready := true } else w } }

/-- A snoop that waits for a line of the answer area. -/
def EgSnp.waitsArea (g : EgSnp) : Bool := !g.area && !g.sent && g.f.op != .qNotify

/-- A snoop takes a line of the answer area: it is ready, and its deadline starts (R65). -/
def State.takeArea (s : State) (p : Fin 24) (g : EgSnp) : State :=
  let dl := s.after (s.snpDl p g.f.dst)
  let s := s.modPort p fun x =>
    { x with egress := x.egress.map fun k => if k == g then { k with area := true, dl := some dl } else k }
  if h : g.f.slice.toNat < 17 then s.modEnt ⟨g.f.slice.toNat, h⟩ g.f.tid.toNat (·.markReady g.f.dst) else s

/-- Every line of the answer area that is free goes to a snoop that waits for one, in their order (R246). -/
def State.bindArea (s : State) (p : Fin 24) : State :=
  let x := s.port p
  ((x.egress.filter EgSnp.waitsArea).take (256 - x.areaUsed)).foldl (fun s g => s.takeArea p g) s

/-- A snoop reaches its destination port's egress (R246). -/
def State.egressSnoop (s : State) (f : SnpFlit) (det : Bool) (age : Nat) : State :=
  match portOf f.dst with
  | none => s
  | some p =>
    (s.modPort p fun x => { x with egress := x.egress ++
      [{ f := f, det := det, age := age, gone := false, area := false, dl := none, sent := false, rspIn := false
         datIn := false, fwdNeed := false, fwdIn := false, evNeed := false, reported := false }] }).bindArea p

/-- Slice i sends a snoop (R195): it goes to the port of its agent on the SNP network. -/
def State.carrySnoop (s : State) (i : Fin 17) (f : SnpFlit) (det : Bool) (age : Nat) : State :=
  match portOf f.dst with
  | none => s
  | some p => s.carry (.snp f det age) (.slice i) (.port p) det fun s => s.egressSnoop f det age

/-- Remove the records of a port's egress that `q` picks, and let the next snoop that waits take the line. -/
def State.freeArea (s : State) (p : Fin 24) (q : EgSnp → Bool) : State :=
  if (s.port p).egress.any q then
    (s.modPort p fun x => { x with egress := x.egress.filter fun g => !q g }).bindArea p
  else s

/-- All that the answer to a snoop owes has arrived at the port (R56, R65): its RSP, the forwarded flit, and the `DatDirty` of a
`RspEvPend`; any other `DatDirty` never follows its RSP (R200). -/
def EgSnp.arrived (g : EgSnp) : Bool := g.rspIn && (!g.fwdNeed || g.fwdIn) && (!g.evNeed || g.datIn)

/-- Nothing more is to come for a snoop, and no line is bound for it. -/
def EgSnp.over (g : EgSnp) : Bool := g.arrived && !g.area

/-- Change the records of a port's egress that `q` picks; those that are over leave, and the next snoop that waits takes a
freed line. -/
def State.modEgress (s : State) (p : Fin 24) (q : EgSnp → Bool) (f : EgSnp → EgSnp) : State :=
  (s.modPort p fun x =>
    { x with egress := (x.egress.map fun g => if q g then f g else g).filter fun g => !g.over }).bindArea p

/-- The snoop of entry t of slice i to agent `a`. -/
def EgSnp.sentTo (g : EgSnp) (a : Agent) (i : Fin 17) (t : Nat) : Bool :=
  g.f.op != .qNotify && g.f.dst == a && g.f.slice.toNat == i.val && g.f.tid.toNat == t

/-- The record of the snoop that an answer of agent `a` answers. -/
def EgSnp.isFor (g : EgSnp) (a : Agent) (i : Fin 17) (t : Nat) : Bool := g.sentTo a i t && !g.gone

/-- A snoop of a retired transaction: its line is free, and it stays known while its answer is outstanding (R65, R246). -/
def EgSnp.retired (g : EgSnp) : EgSnp := { g with gone := true, area := false }

/-- The lines of a retired transaction are freed, and its snoops that were not sent are withdrawn (R246). The deadline of a
snoop whose answer has not arrived runs on at the port (R65, R92). -/
def State.freeAreasOf (s : State) (i : Fin 17) (t : Nat) : State :=
  let mine (g : EgSnp) : Bool := g.f.op != .qNotify && g.f.slice.toNat == i.val && g.f.tid.toNat == t && !g.gone
  s.eachPort fun s p =>
    if (s.port p).egress.any mine then
      (s.modPort p fun x =>
        { x with egress := (x.egress.filter fun g => !mine g || (g.sent && !g.arrived && !g.reported)).map fun g =>
            if mine g then g.retired else g }).bindArea p
    else s

end Sys2Proof.Machine
end

