-- ==== Sys2Proof/Machine/Clause.lean ====
section
/-! DEFINITION. Clauses (R191 to R198): the four slots, their encoding in 128 bits and their decoding, and the entries of the
verb table (R203). -/

namespace Sys2Proof.Machine

/-- The C slot (R192). A reserved operation code is kept as it is; no bank that is VALID holds one (R213). -/
inductive COp where
  | next
  | jmp (tgt : BitVec 10)
  | br (cond : BitVec 6) (neg g : Bool) (tgt : BitVec 10)
  | brx (f : BitVec 4) (p : BitVec 4) (w : BitVec 2) (tgt : BitVec 10)
  | wait (msg mem tmo svc q : Bool) (dlr : BitVec 3) (tpc : BitVec 10)
  | done (blame : BitVec 2)
  | abort (code : BitVec 8)
  | reserved (bits : BitVec 32)
  deriving DecidableEq, Repr

/-- The M slot of a clause that sends (R194). -/
structure Send where
  cls : BitVec 2
  opc : BitVec 5
  tgt : BitVec 4
  fsel : BitVec 3
  cnt : Bool
  cmp : Bool
  stat : BitVec 3
  gsrc : Bool
  grant : BitVec 3
  dsrc : BitVec 2
  fwd : Bool
  anon : Bool
  ifs : Bool
  nxt : Bool
  deriving DecidableEq, Repr

/-- The D slot (R196). -/
structure DAct where
  dop : BitVec 4
  w : Bool
  arg : BitVec 3
  deriving DecidableEq, Repr

/-- The X slot (R198). -/
structure XAct where
  xop : BitVec 4
  dst : BitVec 4
  srca : BitVec 4
  b : Bool
  imm : BitVec 16
  cc : BitVec 3
  deriving DecidableEq, Repr

/-- A clause. -/
structure Clause where
  c : COp
  m : Option Send
  d : DAct
  x : XAct
  deriving DecidableEq, Repr

/-- A bit as a field. -/
def bit1 (b : Bool) : BitVec 1 := if b then 1 else 0

/-- Bits of the C slot. -/
def COp.enc : COp → BitVec 32
  | .next => 0
  | .jmp t => (0x1 : BitVec 4) ++ (0 : BitVec 18) ++ t
  | .br c n g t => (0x2 : BitVec 4) ++ c ++ bit1 n ++ bit1 g ++ (0 : BitVec 10) ++ t
  | .brx f p w t => (0x3 : BitVec 4) ++ f ++ p ++ w ++ (0 : BitVec 8) ++ t
  | .wait m e t s q d p =>
    (0x4 : BitVec 4) ++ bit1 m ++ bit1 e ++ bit1 t ++ bit1 s ++ bit1 q ++ d ++ (0 : BitVec 10) ++ p
  | .done b => (0x5 : BitVec 4) ++ b ++ (0 : BitVec 26)
  | .abort c => (0x6 : BitVec 4) ++ (0 : BitVec 20) ++ c
  | .reserved b => b

/-- The C slot that 32 bits hold. -/
def COp.dec (v : BitVec 32) : COp :=
  let t := v.extractLsb' 0 10
  match (v.extractLsb' 28 4).toNat with
  | 0 => .next
  | 1 => .jmp t
  | 2 => .br (v.extractLsb' 22 6) (v.getLsbD 21) (v.getLsbD 20) t
  | 3 => .brx (v.extractLsb' 24 4) (v.extractLsb' 20 4) (v.extractLsb' 18 2) t
  | 4 => .wait (v.getLsbD 27) (v.getLsbD 26) (v.getLsbD 25) (v.getLsbD 24) (v.getLsbD 23) (v.extractLsb' 20 3) t
  | 5 => .done (v.extractLsb' 26 2)
  | 6 => .abort (v.extractLsb' 0 8)
  | _ => .reserved v

/-- Bits of the M slot. -/
def Send.enc (m : Send) : BitVec 40 :=
  (1 : BitVec 1) ++ m.cls ++ m.opc ++ m.tgt ++ m.fsel ++ bit1 m.cnt ++ bit1 m.cmp ++ m.stat ++ bit1 m.gsrc ++ m.grant ++
    m.dsrc ++ bit1 m.fwd ++ bit1 m.anon ++ bit1 m.ifs ++ bit1 m.nxt ++ (0 : BitVec 10)

/-- The send that 40 bits hold, if V is 1. -/
def Send.dec (v : BitVec 40) : Option Send :=
  if v.getLsbD 39 then
    some { cls := v.extractLsb' 37 2, opc := v.extractLsb' 32 5, tgt := v.extractLsb' 28 4, fsel := v.extractLsb' 25 3
           cnt := v.getLsbD 24, cmp := v.getLsbD 23, stat := v.extractLsb' 20 3, gsrc := v.getLsbD 19
           grant := v.extractLsb' 16 3, dsrc := v.extractLsb' 14 2, fwd := v.getLsbD 13, anon := v.getLsbD 12
           ifs := v.getLsbD 11, nxt := v.getLsbD 10 }
  else none

/-- Bits of the D slot. -/
def DAct.enc (d : DAct) : BitVec 24 := d.dop ++ bit1 d.w ++ d.arg ++ (0 : BitVec 16)

/-- The D slot that 24 bits hold. -/
def DAct.dec (v : BitVec 24) : DAct := ⟨v.extractLsb' 20 4, v.getLsbD 19, v.extractLsb' 16 3⟩

/-- Bits of the X slot. -/
def XAct.enc (x : XAct) : BitVec 32 := x.xop ++ x.dst ++ x.srca ++ bit1 x.b ++ x.imm ++ x.cc

/-- The X slot that 32 bits hold. -/
def XAct.dec (v : BitVec 32) : XAct :=
  ⟨v.extractLsb' 28 4, v.extractLsb' 24 4, v.extractLsb' 20 4, v.getLsbD 19, v.extractLsb' 3 16, v.extractLsb' 0 3⟩

/-- The 128 bits of a clause (R191). -/
def Clause.enc (c : Clause) : BitVec 128 :=
  c.c.enc ++ (match c.m with | some m => m.enc | none => 0) ++ c.d.enc ++ c.x.enc

/-- The clause that 128 bits hold. -/
def Clause.dec (v : BitVec 128) : Clause :=
  ⟨COp.dec (v.extractLsb' 96 32), Send.dec (v.extractLsb' 56 40), DAct.dec (v.extractLsb' 32 24),
   XAct.dec (v.extractLsb' 0 32)⟩

/-- A verb-table entry (R203). -/
structure VtEnt where
  v : Bool
  dlr : BitVec 3
  entry : BitVec 10
  deriving DecidableEq, Repr

/-- Bits of a verb-table entry. -/
def VtEnt.enc (e : VtEnt) : BitVec 32 := bit1 e.v ++ e.dlr ++ (0 : BitVec 18) ++ e.entry

/-- Index of a verb-table entry: 16 x OPC + 2 x STATE + RK (R203). -/
def vtIndex (opc : BitVec 5) (st : BitVec 3) (rk : Bool) : Nat := 16 * opc.toNat + 2 * st.toNat + (if rk then 1 else 0)

/-- Entry `i` in the clause that holds it: bits [32j+31:32j] of clause i / 4, j = i mod 4 (R203). -/
def vtWord (i : Nat) (c : BitVec 128) : BitVec 32 := c.extractLsb' (32 * (i % 4)) 32

/-- The entry that 32 bits hold. -/
def VtEnt.dec (w : BitVec 32) : VtEnt := ⟨w.getLsbD 31, w.extractLsb' 28 3, w.extractLsb' 0 10⟩

end Sys2Proof.Machine
end

