-- ==== Sys2Proof/Machine/BaseGrammar.lean ====
section
/-! DEFINITION. The base grammar (R99 to R124, R308 to R332) as microcode. `RdShd`.UN is the listing of R233; the other verbs
are the model's own clauses for the step tables of the manual, which gives their effect and not their text (log entry 12).
No branch condition of R193 tells a clause that the last answer forwarded the data, so the engine makes the completion of such
a transaction the `Comp` with FWD = 1 (log entry 12). -/

namespace Sys2Proof.Machine

/-! ### Assembling -/

/-- No send. -/
def mNone : Option Send := none
/-- No directory or memory action. -/
def dNop : DAct := ⟨0, false, 0⟩
/-- No arithmetic. -/
def xNop : XAct := ⟨0, 0, 0, false, 0, 0⟩
/-- A clause without arithmetic. -/
def cl (c : COp) (m : Option Send := none) (d : DAct := dNop) : Clause := ⟨c, m, d, xNop⟩

/-- A clause address. -/
def ad (n : Nat) : BitVec 10 := BitVec.ofNat 10 n
/-- Branch conditions (R192). -/
def cDD : BitVec 6 := 5
/-- MH. -/
def cMH : BitVec 6 := 4
/-- ACK = 0. -/
def cAckz : BitVec 6 := 9
/-- The first pass hit the MSC. -/
def cMschit : BitVec 6 := 0xB
/-- A pointer of WE names SUBJ. -/
def cSnamed : BitVec 6 := 0xF
/-- MS = POISON. -/
def cMpois : BitVec 6 := 0x11
/-- MS = FENCED. -/
def cMfence : BitVec 6 := 0x12
/-- The line of the data handle is poisoned. -/
def cDhpois : BitVec 6 := 0x14
/-- WE is SF. -/
def cSsf : BitVec 6 := 0x17
/-- WE is coarse. -/
def cCoarse : BitVec 6 := 0x0E
/-- The compare flag. -/
def cCf : BitVec 6 := 0x08
/-- The MSC is enabled. -/
def cMscen : BitVec 6 := 0x0C
/-- WE is UN. -/
def cSun : BitVec 6 := 0x15
/-- WE is EX. -/
def cSex : BitVec 6 := 0x18

/-- Resolves a label of a body to a clause address. -/
abbrev Lbl := Nat → BitVec 10

/-- A clause of a body with its label, 0 for none. -/
abbrev Item := Nat × (Lbl → Clause)

/-- Position of a label. -/
def lblPos : Nat → List Item → Nat
  | _, [] => 0
  | l, it :: its => if it.1 = l then 0 else lblPos l its + 1

/-- Assemble a body at address `b`: labels below 0x80 are the body's own, others are addresses. -/
def asm (b : Nat) (its : List Item) : List Clause :=
  its.map fun it => it.2 fun l => if l < 0x80 then ad (b + lblPos l its) else ad l

/-- A clause with no target. -/
def it (c : COp) (m : Option Send := none) (d : DAct := dNop) (l : Nat := 0) : Item := (l, fun _ => cl c m d)
/-- Jump. -/
def jmp (tg : Nat) (m : Option Send := none) (d : DAct := dNop) (l : Nat := 0) : Item := (l, fun r => cl (.jmp (r tg)) m d)
/-- Branch when a condition holds. -/
def brc (c : BitVec 6) (tg : Nat) (l : Nat := 0) : Item := (l, fun r => cl (.br c false false (r tg)))
/-- Branch when it holds, without the other slots. -/
def brg (c : BitVec 6) (tg : Nat) (m : Option Send := none) (d : DAct := dNop) (l : Nat := 0) : Item :=
  (l, fun r => cl (.br c false true (r tg)) m d)
/-- Branch when it does not hold, without the other slots. -/
def brn (c : BitVec 6) (tg : Nat) (m : Option Send := none) (d : DAct := dNop) (l : Nat := 0) : Item :=
  (l, fun r => cl (.br c true true (r tg)) m d)
/-- Branch by bits of F1 to `tg`, `tg` + 1, .... -/
def brxF1 (w : BitVec 2) (tg : Nat) (l : Nat := 0) : Item := (l, fun r => cl (.brx 1 0 w (r tg)))
/-- An arithmetic clause. -/
def xCl (xop dst srca : BitVec 4) (b : Bool) (imm : BitVec 16) (cc : BitVec 3 := 0) (l : Nat := 0) : Item :=
  (l, fun _ => ⟨.next, none, dNop, ⟨xop, dst, srca, b, imm, cc⟩⟩)
/-- WAIT MSG TMO with Q. -/
def wAns (tg : Nat) (l : Nat := 0) : Item := (l, fun r => cl (.wait true false true false true 0 (r tg)))
/-- WAIT MSG TMO. -/
def wAck (tg : Nat) (l : Nat := 0) : Item := (l, fun r => cl (.wait true false true false false 0 (r tg)))
/-- WAIT MEM TMO. -/
def wMem (tg : Nat) (d : DAct := dNop) (l : Nat := 0) : Item :=
  (l, fun r => cl (.wait false true true false false 0 (r tg)) none d)
/-- WAIT SVC TMO. -/
def wSvc (tg : Nat) (m : Option Send := none) (l : Nat := 0) : Item :=
  (l, fun r => cl (.wait false false true true false 0 (r tg)) m)

/-- Targets (R194). -/
def tSubj : BitVec 4 := 0
/-- The owner of an EX entry. -/
def tPtr0 : BitVec 4 := 1
/-- The forwarder. -/
def tFwdr : BitVec 4 := 4
/-- O. -/
def tOthers : BitVec 4 := 5
/-- The agent in F1. -/
def tFag : BitVec 4 := 7
/-- The service unit. -/
def tSvcu : BitVec 4 := 9
/-- The group. -/
def tGroup : BitVec 4 := 0xA

/-- A counted snoop. -/
def snp (op : SnpOp) (tgt : BitVec 4) (anon : Bool := false) (fsel : BitVec 3 := 0) : Option Send :=
  some ⟨1, op.code, tgt, fsel, true, false, 0, false, 0, 0, false, anon, false, false⟩
/-- A completing DAT. -/
def datc (op : DatOp) (tgt : BitVec 4) (st : Status) (gsrc : Bool) (g : Grant) (src : BitVec 2) : Option Send :=
  some ⟨3, op.code, tgt, 0, false, true, st.code, gsrc, g.code, src, false, false, false, false⟩
/-- A completing `Comp`. -/
def comp (tgt : BitVec 4) (st : Status) (gsrc : Bool) (g : Grant) (fwd : Bool := false) (ifs : Bool := false) :
    Option Send :=
  some ⟨2, RspOp.comp.code, tgt, if ifs then 1 else 0, false, true, st.code, gsrc, g.code, 0, fwd, false, ifs, false⟩
/-- An operation for the service unit. -/
def svcReq (op : ReqOp) : Option Send :=
  some ⟨0, reqCode op, tSvcu, 0, false, false, 0, false, 0, 0, false, false, false, false⟩

/-- D slots (R196). -/
def dKeep : DAct := ⟨1, true, 0⟩
/-- OWN W. -/
def dOwn : DAct := ⟨2, true, 0⟩
/-- SHARE W. -/
def dShare : DAct := ⟨3, true, 0⟩
/-- DROP SUBJ W. -/
def dDrop : DAct := ⟨4, true, 0⟩
/-- EMPTY W. -/
def dEmpty : DAct := ⟨5, true, 0⟩
/-- UNKN W. -/
def dUnkn : DAct := ⟨6, true, 0⟩
/-- BUILD W. -/
def dBuild : DAct := ⟨7, true, 0⟩
/-- FETCH. -/
def dFetch : DAct := ⟨8, false, 0⟩
/-- WTHRU of the line of the data handle. -/
def dWthruH : DAct := ⟨9, false, 0⟩
/-- WTHRU of the companion data. -/
def dWthruC : DAct := ⟨9, false, 4⟩
/-- WPOIS. -/
def dWpois : DAct := ⟨0xA, false, 0⟩
/-- MERGE. -/
def dMerge : DAct := ⟨0xB, false, 0⟩
/-- OFFER. -/
def dOffer : DAct := ⟨0xC, false, 0⟩
/-- PREF. -/
def dPref : DAct := ⟨0xD, false, 0⟩

/-! ### Bodies

Labels: 1 acknowledgement, 2 miss, 3 late, 4 poisoned, 5 fenced, 6 deadline, 7 all answers in at the deadline, 9 ready, 10 and
up local. -/

/-- A read of a line that no snoop precedes (`RdShd`.UN is the listing of R233): `gsrc` and `g` of the hit's send, and the
directory actions of the hit, of the fetched line, and of a completion that grants nothing. 13 clauses. -/
def bodyRead (op : DatOp) (g : Grant) (gsrc : Bool) (dHit dMiss dBad : DAct) : List Item :=
  [ brn cMschit 2 (datc op tSubj .ok gsrc g 1) dHit
  , wAck 3 1
  , it (.done 0)
  , it .next
  , wMem 6 dFetch 2
  , brc cMfence 5
  , brg cMpois 4 (datc op tGroup .ok true .s 1) dMiss
  , jmp 1
  , it (.done 1) none dNop 3
  , it .next
  , it (.done 0) (datc op tGroup .poison false .i 1) dBad 4
  , it (.done 0) (comp tGroup .fenced false .i) dBad 5
  , it (.done 0) (datc op tGroup .poison false .i 0) dBad 6 ]

/-- The deadline with a snoop unanswered (R123, R124): label 6 is passed; `m` says that an unanswered agent could hold M, `ex` that
it is the one owner of the entry, which could not once it has left the entry (log entry 72). Label 19 ends with the send. -/
def tmoTail (m ex : Bool) (l : Nat) (send : Option Send) : List Item :=
  (if ex then [brc cSun 19 l, it .next none dWpois] else [it .next none (if m then dWpois else dNop) l]) ++
  [ it (.done 2) send dUnkn 19 ]

/-- After the snoops of a verb that grants: wait for the answers and the data, write the entry, send, wait for the CompAck.
`dGood` and `dBad` are the directory writes with and without a grant; `m` and `ex` as in `tmoTail`. -/
def bodyGrant (op : DatOp) (tgt : BitVec 4) (gsrc : Bool) (g : Grant) (dGood dBad : DAct) (m ex : Bool) : List Item :=
  [ wAns 6 11
  , wMem 6
  , brc cDD 9
  , brc cMfence 5
  , brg cDhpois 4 (datc op tgt .ok gsrc g 1) dGood 9
  , wAck 3 1
  , it (.done 0)
  , it (.done 1) none dNop 3
  , it (.done 0) (comp tgt .fenced false .i) dBad 5
  , it (.done 0) (datc op tgt .poison false .i 1) dBad 4
  , brc cAckz 7 6 ] ++ tmoTail m ex 0 (datc op tgt .poison false .i 0) ++
  [ it (.done 0) (datc op tgt .poison false .i 0) dBad 7 ]

/-- After the snoops of a snapshot read: wait for the answers and the data, complete. `mh` asks an M holder again (R108). -/
def bodySnap (mh : Bool) (dGood : DAct) (ex : Bool) : List Item :=
  [ wAns 6 11 ] ++ (if mh then [brc cMH 12] else []) ++
  [ wMem 6 dNop 13
  , brc cDD 9
  , brc cMfence 5
  , brg cDhpois 4 (datc .datCur tSubj .ok false .i 1) dGood 9
  , it (.done 0)
  , it (.done 0) (datc .datCur tSubj .poison false .i 1) dGood 4
  , it (.done 0) (comp tSubj .fenced false .i) dGood 5
  , brc cAckz 7 6 ] ++ tmoTail true ex 0 (datc .datCur tSubj .poison false .i 0) ++
  [ it (.done 0) (datc .datCur tSubj .poison false .i 0) dGood 7 ] ++
  (if mh then
    [ it .next (snp .snpCur tFag false 1) dNop 12
    , wAns 6
    , jmp 13 ] else [])

/-- A snapshot read without a snoop: a pointer naming the subject goes first (R100). -/
def bodyCur : List Item :=
  [ it .next none dDrop
  , brc cMschit 9
  , wMem 6 dFetch
  , brc cMfence 5
  , brg cDhpois 4 (datc .datCur tSubj .ok false .i 1) dNop 9
  , it (.done 0)
  , it (.done 0) (datc .datCur tSubj .poison false .i 1) dNop 4
  , it (.done 0) (comp tSubj .fenced false .i) dNop 5
  , it (.done 0) (datc .datCur tSubj .poison false .i 0) dNop 6 ]

/-- What a write without data owed sends at its deadline. -/
def lateComp : Option Send := comp tSubj .timeout false .i
/-- What an `Atom` sends at its deadline: it owes data (R124). -/
def lateAtom : Option Send := datc .datCur tSubj .poison false .i 0

/-- The write-through of a verb and its completion: `send` completes, `dEnd` is its directory write. Labels: 15 deadline, 16
fenced. -/
def writeTail (d : DAct) (send late : Option Send) (dEnd : DAct) : List Item :=
  [ wMem 15 d
  , brc cMfence 16
  , it (.done 0) send dEnd
  , it (.done 0) (comp tSubj .fenced false .i) dEnd 16
  , it (.done 0) late dEnd 15 ]

/-- The snoops of a write (R110); an owner that is the subject is not snooped, and the verb goes on at `self`. -/
def writeSnoop (op : SnpOp) (tgt : BitVec 4) (self : Option Nat) (d : DAct) : List Item :=
  (match self with | some a => [brc cSnamed a] | none => []) ++ [ it .next (snp op tgt) d, wAns 6 ]

/-- `WrFull` (R110, R111). -/
def wrFull (snoop : List Item) (m ex : Bool) (dEnd : DAct) : List Item :=
  snoop ++ writeTail dWthruC (comp tSubj .ok false .i) lateComp dEnd ++ (if snoop.isEmpty then [] else tmoTail m ex 6 lateComp)

/-- A verb that changes a base line: the snoops, the base line, then `rest`; a base line that is poisoned goes to label 18
(R111, R112, R330). -/
def baseLine (snoop : List Item) (m ex : Bool) (late : Option Send) (rest : List Item) : List Item :=
  (if snoop.isEmpty then [brc cMschit 17, wMem 15 dFetch, brc cMfence 16]
   else snoop ++ [wMem 15, brc cDD 17, brc cMfence 16]) ++
  [ brc cDhpois 18 17 ] ++ rest ++ (if snoop.isEmpty then [] else tmoTail m ex 6 late)

/-- `WrPart` (R111, R112). -/
def wrPart (snoop : List Item) (m ex : Bool) (dEnd : DAct) : List Item :=
  baseLine snoop m ex lateComp (writeTail dMerge (comp tSubj .ok false .i) lateComp dEnd ++
    [ it (.done 0) (comp tSubj .failed false .i) dEnd 18 ])

/-- `Atom` (R330). -/
def atomVerb (snoop : List Item) (m ex : Bool) (dEnd : DAct) : List Item :=
  baseLine snoop m ex lateAtom
    ([ wSvc 15 (svcReq .atom) ] ++ writeTail dWthruH (datc .datCur tSubj .ok false .i 3) lateAtom dEnd ++
    [ wMem 15 dWthruH 18
    , brc cMfence 16
    , it (.done 0) (datc .datCur tSubj .poison false .i 1) dEnd ])

/-- A service request (R308): the completion is built from the result word in F1, whose bit 0 is `Comp` INFO[0]. -/
def svcVerb (op : ReqOp) : List Item :=
  [ wSvc 6 (svcReq op)
  , brxF1 1 10
  , it (.done 0) (comp tSubj .ok false .i false true) dNop 10
  , it (.done 0) (comp tSubj .ok false .i true true)
  , it (.done 0) lateComp dNop 6 ]

/-- `QDeq` (R324): F1[0] says that the service result is an entry, F1[1] that it is poisoned. -/
def qdeqVerb : List Item :=
  [ wSvc 6 (svcReq .qDeq)
  , brxF1 2 10
  , it (.done 0) (comp tSubj .ok false .i false true) dNop 10
  , it (.done 0) (datc .datCur tSubj .ok false .i 3)
  , it (.done 0) (comp tSubj .ok false .i false true)
  , it (.done 0) (datc .datCur tSubj .poison false .i 3)
  , it (.done 0) (comp tSubj .timeout false .i) dNop 6 ]

/-- A drain (R120). -/
def drainVerb : List Item :=
  [ wSvc 6
  , brxF1 1 10
  , it (.done 0) (comp tSubj .ok false .i) dNop 10
  , it (.done 0) (comp tSubj .fenced false .i)
  , it (.done 0) (comp tSubj .timeout false .i) dNop 6 ]

/-- A test of the service unit before the verb proper: F1[0] = 1 goes on with `rest` (R155, R157). -/
def testVerb (op : ReqOp) (st : Status) (ifs : Bool) (late : Option Send) (rest : List Item) : List Item :=
  [ wSvc 6 (svcReq op)
  , brxF1 1 10
  , it (.done 0) (comp tSubj st false .i false ifs) dNop 10 ] ++
  rest ++ [ it (.done 0) late dNop 6 ]

/-- A `Comp` OK that ends the verb. -/
def doneOk : Option Send := comp tSubj .ok false .i

/-- An eviction that changes nothing (R113, R114). -/
def passVerb : List Item := [ it (.done 0) doneOk ]

/-- `EvClean` at SH, SF or EX (R113): a subject that a pointer names is removed; one that a pointer or a group bit covers has its
companion offered. -/
def evCleanVerb : List Item :=
  [ brc cSnamed 10
  , brn cCoarse 12
  , xCl 8 1 8 false 2
  , xCl 8 1 6 true 0x1000
  , xCl 9 0 1 false 1 6
  , brc cCf 13
  , it (.done 0) doneOk dNop 12
  , it .next none dDrop 10
  , it (.done 0) doneOk dOffer 13 ]

/-- `EvDirty` at EX (R114): the owner's line is written through and the way becomes UN; any other is stale. -/
def evDirtyEx : List Item :=
  [ brc cSnamed 10
  , it (.done 0) doneOk
  , it .next none dWthruC 10
  , it (.done 0) doneOk dEmpty ]

/-- `EvDirty` at UK (R114). -/
def evDirtyUk : List Item := [ it .next none dWthruC, it (.done 0) doneOk ]

/-- `Hint` (R121); HKIND lies in F0[15:13]. -/
def hintVerb : List Item :=
  [ brc cSex 10
  , brc cMschit 10
  , brn cMscen 10
  , it .next none dPref
  , (10, fun r => cl (.brx 0 13 1 (r 20)))
  , it (.done 0) doneOk dNop 20
  , it .next (some ⟨0, reqCode .hint, 8, 0, false, false, 0, false, 0, 0, false, false, false, true⟩)
  , it (.done 0) doneOk ]

/-! ### The verbs and where they lie -/

/-- A verb of the store: its address and its clauses. -/
structure Verb where
  at' : Nat
  body : List Item

/-- Branch on WE STATE (conditions 0x15 to 0x19). -/
def brState (k : Nat) (tg : Nat) (l : Nat := 0) : Item := brc (BitVec.ofNat 6 (0x15 + k)) tg l

/-- Address of the verb. -/
def aShdSh : Nat := 0x0CD
/-- Address of the verb. -/
def aShdSf : Nat := 0x0DA
/-- Address of the verb. -/
def aShdEx : Nat := 0x0ED
/-- Address of the verb. -/
def aShdUk : Nat := 0x0FE
/-- Address of the verb. -/
def aOwnUn : Nat := 0x10D
/-- Address of the verb. -/
def aOwnSh : Nat := 0x11A
/-- Address of the verb. -/
def aOwnEx : Nat := 0x129
/-- Address of the verb. -/
def aOwnUk : Nat := 0x13A
/-- Address of the verb. -/
def aCur : Nat := 0x149
/-- Address of the verb. -/
def aCurEx : Nat := 0x152
/-- Address of the verb. -/
def aCurUk : Nat := 0x161
/-- Address of the verb. -/
def aUpgr : Nat := 0x172
/-- Address of the verb. -/
def aUpgrEx : Nat := 0x17A
/-- Address of the verb. -/
def aWfUn : Nat := 0x17E
/-- Address of the verb. -/
def aWfSh : Nat := 0x183
/-- Address of the verb. -/
def aWfEx : Nat := 0x18C
/-- Address of the verb. -/
def aWfUk : Nat := 0x197
/-- Address of the verb. -/
def aWpUn : Nat := 0x1A0
/-- Address of the verb. -/
def aWpSh : Nat := 0x1AA
/-- Address of the verb. -/
def aWpEx : Nat := 0x1B8
/-- Address of the verb. -/
def aWpUk : Nat := 0x1C8
/-- Address of the verb. -/
def aAtUn : Nat := 0x1D6
/-- Address of the verb. -/
def aAtSh : Nat := 0x1E3
/-- Address of the verb. -/
def aAtEx : Nat := 0x1F4
/-- Address of the verb. -/
def aAtUk : Nat := 0x207
/-- Address of the verb. -/
def aCw : Nat := 0x218
/-- Address of the verb. -/
def aResv : Nat := 0x220
/-- Address of the verb. -/
def aResvEx : Nat := 0x227
/-- Address of the verb. -/
def aResvUk : Nat := 0x236
/-- Address of the verb. -/
def aLockAcq : Nat := 0x243
/-- Address of the verb. -/
def aLockRel : Nat := 0x248
/-- Address of the verb. -/
def aQEnq : Nat := 0x24D
/-- Address of the verb. -/
def aQWatch : Nat := 0x252
/-- Address of the verb. -/
def aQDeq : Nat := 0x257
/-- Address of the verb. -/
def aDrain : Nat := 0x25E
/-- Address of the verb. -/
def aPass : Nat := 0x263
/-- Address of the verb. -/
def aEvClean : Nat := 0x264
/-- Address of the verb. -/
def aEvDirty : Nat := 0x26D
/-- Address of the verb. -/
def aEvDirtyUk : Nat := 0x271
/-- Address of the verb. -/
def aHint : Nat := 0x273

/-- The verbs in the order in which they lie in the store. The writing verbs keep a stored UK entry (log entry 69), and `RdShd` of an
agent that the entry names drops it before it looks for a forwarder (log entry 70). -/
def verbs : List Verb :=
  [ ⟨0x0C0, bodyRead .datShd .e false dOwn dShare dEmpty⟩
  , ⟨aShdSh, bodyRead .datShd .s true dShare dShare dDrop⟩
  , ⟨aShdSf, [ brc cSnamed 20, it .next (snp .snpFwdShd tFwdr) dFetch 21 ] ++
      bodyGrant .datShd tGroup true .s dShare dDrop false false ++
      [ it .next none dDrop 20, brc cSsf 21, jmp aShdSh ]⟩
  , ⟨aShdEx, [ brc cSnamed aShdSh, it .next (snp .snpFwdShd tPtr0) dFetch ] ++
      bodyGrant .datShd tGroup true .s dShare dDrop true true⟩
  , ⟨aShdUk, [ it .next (snp .snpShd tOthers) dFetch ] ++ bodyGrant .datShd tGroup true .s dBuild dBuild true false⟩
  , ⟨aOwnUn, bodyRead .datExc .e false dOwn dOwn dEmpty⟩
  , ⟨aOwnSh, [ it .next (snp .snpInv tOthers) dFetch ] ++ bodyGrant .datExc tSubj false .e dOwn dEmpty false false⟩
  , ⟨aOwnEx, [ brc cSnamed aOwnUn, it .next (snp .snpFwdOwn tPtr0) dFetch ] ++
      bodyGrant .datExc tSubj false .e dOwn dEmpty true true⟩
  , ⟨aOwnUk, [ it .next (snp .snpOwn tOthers) dFetch ] ++ bodyGrant .datExc tSubj false .e dOwn dEmpty true false⟩
  , ⟨aCur, bodyCur⟩
  , ⟨aCurEx, [ brc cSnamed aCur, it .next (snp .snpCur tPtr0) dFetch ] ++ bodySnap false dKeep true⟩
  , ⟨aCurUk, [ it .next (snp .snpCur tOthers true) dFetch ] ++ bodySnap true dBuild false⟩
  , ⟨aUpgr, [ brn cSnamed aOwnSh, it .next (snp .snpInv tOthers), wAns 6, jmp 1 (comp tSubj .ok false .e) dOwn
      , wAck 3 1, it (.done 0), it (.done 1) none dNop 3, it (.done 2) lateComp dUnkn 6 ]⟩
  , ⟨aUpgrEx, [ brc cSnamed 10, it .next (snp .snpOwn tPtr0) dFetch, jmp (aOwnEx + 2), jmp (aUpgr + 3) none dNop 10 ]⟩
  , ⟨aWfUn, wrFull [] false false dEmpty⟩
  , ⟨aWfSh, wrFull (writeSnoop .snpInv tOthers none dNop) false false dEmpty⟩
  , ⟨aWfEx, wrFull (writeSnoop .snpOwn tPtr0 (some aWfUn) dNop) true true dEmpty⟩
  , ⟨aWfUk, wrFull (writeSnoop .snpOwn tOthers none dNop) true false dKeep⟩
  , ⟨aWpUn, wrPart [] false false dEmpty⟩
  , ⟨aWpSh, wrPart (writeSnoop .snpInv tOthers none dFetch) false false dEmpty⟩
  , ⟨aWpEx, wrPart (writeSnoop .snpOwn tPtr0 (some aWpUn) dFetch) true true dEmpty⟩
  , ⟨aWpUk, wrPart (writeSnoop .snpOwn tOthers none dFetch) true false dKeep⟩
  , ⟨aAtUn, atomVerb [] false false dEmpty⟩
  , ⟨aAtSh, atomVerb (writeSnoop .snpInv tOthers none dFetch) false false dEmpty⟩
  , ⟨aAtEx, atomVerb (writeSnoop .snpOwn tPtr0 (some aAtUn) dFetch) true true dEmpty⟩
  , ⟨aAtUk, atomVerb (writeSnoop .snpOwn tOthers none dFetch) true false dKeep⟩
  , ⟨aCw, testVerb .condWr .busy false lateComp
      [ brState 0 aWpUn, brState 3 aWpEx, brState 4 aWpUk, jmp aWpSh ]⟩
  , ⟨aResv, testVerb .resv .failed true lateAtom
      [ brState 3 aResvEx, brState 4 aResvUk, jmp aCur ]⟩
  , ⟨aResvEx, [ brc cSnamed aCur, it .next (snp .snpShd tPtr0) dFetch ] ++ bodySnap false dBuild true⟩
  , ⟨aResvUk, [ it .next (snp .snpShd tOthers) dFetch ] ++ bodySnap false dBuild false⟩
  , ⟨aLockAcq, svcVerb .lockAcq⟩
  , ⟨aLockRel, svcVerb .lockRel⟩
  , ⟨aQEnq, svcVerb .qEnq⟩
  , ⟨aQWatch, svcVerb .qWatch⟩
  , ⟨aQDeq, qdeqVerb⟩
  , ⟨aDrain, drainVerb⟩
  , ⟨aPass, passVerb⟩
  , ⟨aEvClean, evCleanVerb⟩
  , ⟨aEvDirty, evDirtyEx⟩
  , ⟨aEvDirtyUk, evDirtyUk⟩
  , ⟨aHint, hintVerb⟩ ]

/-- Clauses of the verbs. -/
def layVerbs (a : Nat) : List Verb → Clause
  | [] => cl .next
  | v :: vs => if v.at' ≤ a ∧ a < v.at' + v.body.length then (asm v.at' v.body).getD (a - v.at') (cl .next) else layVerbs a vs

/-- The verb that an opcode and a directory state select (R99). -/
def verbOf (op : ReqOp) (st : Nat) : Nat :=
  let pick (un sh sf ex uk : Nat) : Nat := match st with | 0 => un | 1 => sh | 2 => sf | 3 => ex | _ => uk
  match op with
  | .rdShd => pick 0x0C0 aShdSh aShdSf aShdEx aShdUk
  | .rdOwn => pick aOwnUn aOwnSh aOwnSh aOwnEx aOwnUk
  | .rdCur => pick aCur aCur aCur aCurEx aCurUk
  | .upgr => pick aOwnUn aUpgr aUpgr aUpgrEx aOwnUk
  | .wrFull => pick aWfUn aWfSh aWfSh aWfEx aWfUk
  | .wrPart => pick aWpUn aWpSh aWpSh aWpEx aWpUk
  | .atom => pick aAtUn aAtSh aAtSh aAtEx aAtUk
  | .condWr => aCw
  | .resv => aResv
  | .lockAcq => aLockAcq
  | .lockRel => aLockRel
  | .qEnq => aQEnq
  | .qWatch => aQWatch
  | .qDeq => aQDeq
  | .drainO => aDrain
  | .drainE => aDrain
  | .evClean => pick aPass aEvClean aEvClean aEvClean aPass
  | .evDirty => pick aPass aPass aPass aEvDirty aEvDirtyUk
  | .hint => aHint

/-- Verb-table entry `i` of the base grammar (R99, R233): every entry that R210 permits is valid. -/
def baseVt (i : Nat) : BitVec 32 :=
  let st := i / 2 % 8
  let rk := i % 2
  match reqOpOf (BitVec.ofNat 5 (i / 16)) with
  | none => 0
  | some op =>
    if 4 < st ∨ (reqIsDrain op ∧ st ≠ 0) then 0
    else VtEnt.enc ⟨true, BitVec.ofNat 3 rk, ad (verbOf op st)⟩

/-- Clause `a` of the base grammar. -/
def baseWord (a : Nat) : BitVec 128 :=
  if a < 0x80 then baseVt (4 * a + 3) ++ baseVt (4 * a + 2) ++ baseVt (4 * a + 1) ++ baseVt (4 * a)
  else Clause.enc (layVerbs a verbs)

end Sys2Proof.Machine
end

