-- ==== Sys2Proof/Machine/Tracker.lean ====
section
/-! DEFINITION. Tracker entries: waking a parked transaction (R201), the completion forms (R51, R124, R126, R166), the
one place where a completion leaves a slice (R182, R195, R119), and the lines, ways and queues that entries hold (R29,
R89, R125, R126). -/

namespace Sys2Proof.Machine

/-! ### Waking (R201) -/

/-- Wake a parked transaction on the first of MSG, MEM, SVC and TMO that its WAIT names and that is ready (R201, R167). EV takes
the codes 0, 1, 2, 3 in that order (log entry 77). -/
def Trk.wake (e : Trk) (tmo : Bool) : Trk :=
  match e.stat with
  | .parked m me t sv q tpc =>
    let go (ev : BitVec 2) (f : Trk → Trk) (pc : BitVec 11) : Trk :=
      let e := f e
      { e with stat := .ready false, pc := pc, m := { e.m with ev := ev } }
    let nextPc := e.pc + 1
    if m && (if q then e.x.ack == 0 else e.m.latch) then
      go 0 (fun e => { e with m := { e.m with latch := false } }) nextPc
    else if me && !e.m.memEv.isEmpty then
      go 1 (fun e => { e with m := { e.m with
        memEv := e.m.memEv.drop 1
        ms := match e.m.memEv.head? with | some (.poison, _) => 1 | some (.fenced, _) => 2 | _ => 0 } }) nextPc
    else if sv && e.m.svc then go 2 (fun e => { e with m := { e.m with svc := false } }) nextPc
    else if t && tmo then go 3 (fun e => { e with m := { e.m with tmo := true } }) (e.pc.extractLsb' 10 1 ++ tpc)
    else e
  | _ => e

/-- The deadline of an entry has been reached. -/
def State.expired (s : State) (e : Trk) : Bool := s.reached e.h.expiry

/-- Give a transaction what has happened to it, and wake it if it waits for that. TMO wakes it only by its own
happening (TMO_EXPIRY). -/
def State.stir (s : State) (i : Fin 17) (t : Nat) (f : Trk → Trk) : State := s.modEnt i t fun e => (f e).wake false

/-! ### Completion forms -/

/-- The DAT opcode of a request whose normal completion carries data (R50). -/
def reqDat : ReqOp → Option DatOp
  | .rdShd => some .datShd
  | .rdOwn => some .datExc
  | .rdCur => some .datCur
  | .atom => some .datCur
  | .resv => some .datCur
  | _ => none

/-- An `Upgr` owes data unless a pointer-form entry names the subject (R109, R124). -/
def Dir.upgrOwes (d : Dir) (s : Agent) : Bool := !d.names s

/-- The completion that R124 gives a transaction not yet completed: a DAT opcode, or none for `Comp` TIMEOUT. `read` says
that its verb has read an entry. -/
def Trk.lateForm (e : Trk) (read : Bool) : Option DatOp :=
  match e.r.kind with
  | .req .upgr => if read && e.we.upgrOwes e.r.a.src then some .datExc else none
  | .req op => reqDat op
  | _ => none

/-! ### Counted writes and drains (R119, R120) -/

/-- A drain's condition holds: none of the writes it counts is left. The port raises SVC in its slice with the result
word: 1 when one of them was fenced. -/
def State.drainCheck (s : State) (p : Fin 24) : State :=
  let ready := (s.port p).drains.filter fun d => d.waits.isEmpty && d.place.isSome
  let s := s.modPort p fun x => { x with drains := x.drains.filter fun d => !(d.waits.isEmpty && d.place.isSome) }
  ready.foldl (fun s d => match d.place with
    | some (i, t) => s.stir i t fun e =>
        { e with x := { e.x with f1 := if d.fenced then 1 else 0 }
                 m := { e.m with svc := true, svcStat := if d.fenced then .fenced else .ok } }
    | none => s) s

/-- Mark a counted write, forget it when it is both completed and drained (log entry 75), and take it off the drains that
it held. -/
def State.writeMark (s : State) (w : WId) (completed drained fenced : Bool) : State :=
  if w.wid = 0 then s else
  let s := s.modPort w.port fun x =>
    let ws := x.writes.map fun r => if r.wid == w.wid then
      { r with completed := r.completed || completed, drained := r.drained || drained, fenced := r.fenced || fenced }
      else r
    let ds := x.drains.map fun d =>
      if d.waits.contains w.wid && (if d.evict then drained else completed) then
        { d with waits := d.waits.filter (· ≠ w.wid), fenced := d.fenced || (d.evict && fenced) }
      else { d with fenced := d.fenced || (d.evict && fenced && d.waits.contains w.wid) }
    { x with writes := ws.filter fun r => !(r.completed && r.drained), drains := ds }
  s.drainCheck w.port

/-- The counted write of a request, if it is one. -/
def Req.wId (r : Req) : Option WId :=
  match r.port with
  | some p => if r.wid = 0 then none else some ⟨p, r.wid⟩
  | none => none

/-- The home reports to the port that a write has drained (R119): the report is on its way. -/
def State.reportDrain (s : State) (i : Fin 17) (w : WId) (fenced : Bool) : State :=
  s.modSlice i fun x => { x with mem := { x.mem with drainRep := x.mem.drainRep ++ [⟨w, fenced⟩] } }

/-! ### The completion -/

/-- A completion of a DET request leaves its slice: an overrun of BOUND is counted and reported (R182). -/
def State.detOver (s : State) (r : Req) : State :=
  if r.rk && r.port.isSome && s.fld 0 0x174 15 0 < s.since r.adm && s.reached r.adm then
    (s.bump 0 0x178 23 16).logEnt ⟨0x0B, BitVec.ofNat 7 srcNet, r.a.src, r.a.part, r.a.pa, s.now⟩
  else s

/-- What a completion says. -/
inductive CompMsg where
  | comp (st : Status) (gr : Grant) (info : BitVec 16)
  | retry
  | err (cause : BitVec 8)
  | dat (op : DatOp) (pois : Bool) (gr : Grant) (d : Line)
  deriving DecidableEq, Repr

/-- The opcode of a completion. -/
def CompMsg.opc : CompMsg → BitVec 5
  | .comp _ _ _ => RspOp.comp.code
  | .retry => RspOp.retry.code
  | .err _ => RspOp.err.code
  | .dat op _ _ _ => op.code

/-- A message of the slice that serves a request leaves for the request's port (R195, R295). -/
def State.toPort (s : State) (r : Req) (m : NetMsg) (f : State → State) : State :=
  match r.port with
  | none => s
  | some p => s.carry m (.slice ((s.servingSlice r.home r.a.pa).getD (Fin.ofNat 17 r.home.val))) (.port p) r.rk f

/-- An RSP completion leaves its slice. -/
def State.slcRsp (s : State) (r : Req) (op : RspOp) (st : Status) (gr : Grant) (info : BitVec 16) : State :=
  s.toPort r (.rsp op r.a st gr info r.rk) fun s => s.sendRsp op r.a st gr info r.rk

/-- Send a completion to a request's subject. Agent 63 consumes its own (R121). -/
def State.sendComp (s : State) (r : Req) (m : CompMsg) : State :=
  match m with
  | .comp st gr info => s.slcRsp r .comp st gr info
  | .retry => s.slcRsp r .retry .ok .i 0
  | .err c => s.slcRsp r .err .ok .i (c.zeroExtend 16)
  | .dat op po gr d => s.toPort r (.dat op r.a po gr d r.rk) fun s => s.sendDat op r.a po gr d r.rk

/-- A counted write has entered a merging buffer, and is still to drain or to be reported (R119). -/
def State.inBuffer (s : State) (w : WId) : Bool :=
  (List.finRange 17).any fun i => let m := (s.slice i).mem
    m.wmb.any (·.writes.contains w) || m.drainRep.any (·.w == w)

/-- A write ended in a way that changes nothing in memory, or that fences it (R119). An `Atom` that completes POISON without its
write-through changed nothing (R124); one whose base line was poisoned has written it (R330). -/
def State.endsWrite (s : State) (w : WId) (m : CompMsg) : Bool × Bool :=
  match m with
  | .comp .ok _ _ => (false, false)
  | .comp .fenced _ _ => (true, true)
  | .dat _ pois _ _ => (pois && !s.inBuffer w, false)
  | _ => (true, false)

/-! ### Completions to agent 63 (R225, R343, R344) -/

/-- ATAG of the load engine's reads, and of the requests of SAVE and RESTORE: the engine, and the SEQ of its command. -/
def tagOf (par : Bool) (seq : BitVec 8) : ATag := (if par then 2#4 else 1#4) ++ seq

/-- A line that was read has come back. -/
def Reads.arrive (r : Reads) (pa : LineAddr) (l : PLine) : Reads :=
  { r with got := tabPut r.got (pa - r.base).toNat (some l) }

/-- Every line has come back. -/
def Reads.all (r : Reads) : Bool := decide (r.count ≤ r.got.length)

/-- A record of a RESTORE has been dealt with; `skip` counts it in PAR_STAT.SKIP. -/
def Par.recDone (x : Par) (skip : Bool) : Par :=
  { x with
    job := match x.job with | .apply n => .apply (n - 1) | j => j
    skip := if skip then sat8 x.skip else x.skip }

/-- A completion reaches the engine of agent 63 that made the request; one of an earlier command is dropped. -/
def State.engineTakes (s : State) (r : Req) (m : CompMsg) : State :=
  let l : PLine := match m with | .dat _ po _ d => ⟨d, po⟩ | _ => ⟨0, true⟩
  if r.a.atag = tagOf false s.glb.ld.st.rseq then
    s.modGlb fun g => { g with ld := { g.ld with rd := g.ld.rd.arrive r.a.pa l } }
  else if r.a.atag = tagOf true s.par.cmd.rseq then
    s.modPar fun x => { x with job := match x.job with
      | .save b k ls h _ stop => .save b k ls h true stop
      | .saveHeader _ => .saveHeader true
      | .checkHeader q => .checkHeader (q.arrive r.a.pa l)
      | .checkBody q => .checkBody (q.arrive r.a.pa l)
      | j => j }
  else s

/-- The one completion of a request at its slice: sent, the counted write marked completed, and a write completed FENCED
logged (R374 TYPE 0x0A). `nothing` says that the write changed nothing in memory, so it is drained as well (R119). A
descriptor command whose transaction ends without its commit ends aborted; the port forgets a drain that ends. -/
def State.complete (s : State) (r : Req) (m : CompMsg) (nothing : Bool := false) : State :=
  let s := match r.kind with
    | .qdesc _ _ _ _ => ({ s with svc := s.svc.abort } : State).done 61
    | .req op =>
      (match r.port with
       | some p => if reqIsDrain op then s.modPort p fun x => { x with drains := x.drains.filter fun d =>
           !(d.ag == r.a.src && d.atag == r.a.atag) } else s
       | none => if op = ReqOp.rdCur ∨ op = ReqOp.wrFull then s.engineTakes r m else s)
    | .backInv => s
    | .lockRec _ _ _ _ => s.modPar (·.recDone true)
    | .queueRec _ _ _ => s.modPar (·.recDone false)
  let s := (s.detOver r).sendComp r m
  match r.wId with
  | none => s
  | some w =>
    let (dr, fe) := s.endsWrite w m
    let s := s.writeMark w true (dr || nothing) fe
    if fe then s.logEnt ⟨0x0A, BitVec.ofNat 7 (srcChan r.home), 63, r.a.part, r.a.pa, s.now⟩ else s

/-- Complete a bound transaction once: nothing is sent when its completion-sent flag is set (R166). -/
def State.completeEnt (s : State) (i : Fin 17) (t : Nat) (m : CompMsg) (nothing : Bool := false) : State :=
  match s.ent i t with
  | none => s
  | some e =>
    if e.h.cs then s
    else
      let s := if e.r.port.isSome then s.traceEnt i t e 0x03 e.r.a.src m.opc else s
      (s.setEnt i t (some { e with h := { e.h with cs := true } })).complete e.r m nothing

/-- Complete the joined members of an entry's group that have no completion yet, each as `f` says (R124, R166). -/
def State.completeMembers (s : State) (i : Fin 17) (e : Trk) (f : Trk → CompMsg) : State :=
  match e.h.grp with
  | none => s
  | some g => g.members.foldl (fun s m => match s.ent i m with
    | some k => s.completeEnt i m (f k)
    | none => s) s

/-- The completion that R124 gives when the deadline ends a transaction. No line was read where it is a DAT with POISON; its data bits
are 0 by the model's choice (R126, log entry 14). -/
def lateMsg (f : Option DatOp) : CompMsg :=
  match f with
  | some op => .dat op true .i 0
  | none => .comp .timeout .i 0

/-! ### Lines, ways and queues -/

/-- The entry that has a line open (R125). -/
def Slice.opener (x : Slice) (pa : LineAddr) : Option (Nat × Trk) :=
  x.ents.find? fun e => e.2.opens && e.2.r.a.pa == pa

/-- The entries that wait in a line's blocked-line queue, oldest first pass first (R29, R126). -/
def Slice.queueOf (x : Slice) (pa : LineAddr) : List (Nat × Trk) :=
  (x.ents.filter fun e => e.2.stat == .queued && e.2.r.a.pa == pa && !e.2.opens).mergeSort
    fun a b => a.2.age ≤ b.2.age

/-- A way is held by an open transaction (R87, R95). -/
def Slice.wayHolder (x : Slice) (set way : Nat) : Option (Nat × Trk) :=
  x.ents.find? fun e => e.2.wv && e.2.way.toNat == way && Sys2Proof.Machine.sfSet e.2.r.a.pa == set

/-- The completion of R124 for an entry whose verb has read an entry, or has not. -/
def Trk.lateMsg (e : Trk) (read : Bool) : CompMsg := Sys2Proof.Machine.lateMsg (e.lateForm read)

/-- Requests that wait in the set-retry queue for a way or a reserve entry, oldest first pass first (R89). Those that a set step
holds have opened no line, and no retirement lets them go (R365 step 1). -/
def Slice.setWaiters (x : Slice) (p : Nat → Bool → Bool) : List (Nat × Trk) :=
  (x.ents.filter fun e => e.2.opens && match e.2.stat with | .setRetry b => p (Sys2Proof.Machine.sfSet e.2.r.a.pa) b | _ => false).mergeSort
    fun a b => a.2.age ≤ b.2.age

/-- Make an entry eligible to re-enter the pipeline (R31, R89). -/
def Slice.makeEligible (x : Slice) (l : List (Nat × Trk)) : Slice :=
  match l with
  | [] => x
  | (t, e) :: _ => x.setEnt t (some { e with stat := .eligible })

/-- The lowest free tracker entry. -/
def freeTid (used : List Nat) : Nat → Nat → Nat
  | 0, t => t
  | n + 1, t => if used.contains t then freeTid used n (t + 1) else t

/-- The tracker entry that the next bind takes. -/
def Slice.nextTid (x : Slice) : Nat := freeTid (x.trk.map Prod.fst) x.trk.length 0

/-- Records that live in the back-invalidation reserve, and back-invalidations (R90, R116). -/
def Slice.reserveUsed (x : Slice) : Nat :=
  (x.ents.filter fun e => e.2.r.kind == .backInv).length + (x.recs.filter fun r => r.place.isNone).length

/-- BIRES of SLC_SFCFG. -/
def State.bires (s : State) (i : Fin 17) : Nat := s.fld (slcPage i) 0x200 8 0

end Sys2Proof.Machine
end

