-- ==== Sys2Proof/Machine/Admit.lean ====
section
/-! DEFINITION. Admission at a port's network interface after the partition check (R35 checks 8 to 11): completion at the
interface, the token buckets (R299), the home credits (R60, R173), the hold of a drain (R134), and the way of an admitted
request into a slice's ingress queue (R301, R302). -/

namespace Sys2Proof.Machine

/-! ### Ingress queues (R302) -/

/-- An ingress queue. -/
def Slice.ing (x : Slice) (rq : Nat) : Ingress := tabGet ⟨[], []⟩ x.ingress rq
/-- Write an ingress queue. -/
def Slice.setIng (x : Slice) (rq : Nat) (g : Ingress) : Slice := { x with ingress := tabSet ⟨[], []⟩ x.ingress rq g }

/-- Domain A or B of a slice is asleep (R301). -/
def Slice.asleep (x : Slice) : Bool := x.ctl.dom.a != .on || x.ctl.dom.b != .on

/-- The requester of a request (R302): its port, or 25 for an agent-63 request from elsewhere. -/
def Req.requester (r : Req) : Nat := match r.port with | some p => p.val | none => 25

/-- A request reaches a slice: held while the slice sleeps, which raises the wake request (R301), otherwise queued. -/
def State.ingressPush (s : State) (i : Fin 17) (rq : Nat) (r : Req) : State :=
  s.modSlice i fun x =>
    if x.asleep then { x with wakeHold := x.wakeHold ++ [(rq, r)], ctl := { x.ctl with waking := true } }
    else
      let g := x.ing rq
      if r.fwd then x.setIng rq { g with fwd := g.fwd ++ [(r, x.arb.sc)] }
      else x.setIng rq { g with direct := g.direct ++ [(r, x.arb.sc)] }

/-- A place is free for a request in its requester's lane: of the ingress queue, or of what the sleeping slice's interface holds
(R301, R302, R366). -/
def Slice.laneRoom (x : Slice) (rq : Nat) (r : Req) : Bool :=
  decide ((if x.asleep then (x.wakeHold.filter fun e => e.1 == rq && e.2.fwd == r.fwd).length
    else if r.fwd then (x.ing rq).fwd.length else (x.ing rq).direct.length) < 8)

/-- Send a request to a slice on the REQ network, where it stays while its queue is full (R302). -/
def State.sendReq (s : State) (src : EndPt) (i : Fin 17) (rq : Nat) (r : Req) : State :=
  s.carry (.req i rq r) src (.slice i) r.rk (fun s => s.ingressPush i rq r) ((s.slice i).laneRoom rq r)

/-! ### Classes, buckets and home credits -/

/-- A drain names no line. -/
def Held.isDrain (h : Held) : Bool := reqIsDrain h.op

/-- A request marked DET at admission (R21, R299). -/
def State.detReq (s : State) (op : ReqOp) (pa : LineAddr) : Bool := !reqIsDrain op && (s.detRgn pa).isSome

/-- NOC_REGq_c offset (R299). -/
def regOff (q : PartId) (c : Bool) : Nat := 0x100 + 8 * q.toNat + (if c then 4 else 0)

/-- Bucket key at a port. -/
def bucketKey (q : PartId) (c : Bool) : Nat := 2 * q.toNat + (if c then 1 else 0)

/-- Level of a bucket in hundredths. -/
def Port.bucket (x : Port) (q : PartId) (c : Bool) : Nat := tabGet 0 x.buckets (bucketKey q c)
/-- Set the level of a bucket. -/
def Port.setBucket (x : Port) (q : PartId) (c : Bool) (v : Nat) : Port :=
  { x with buckets := tabSet 0 x.buckets (bucketKey q c) v }

/-- A regulator that regulates (EN). -/
def State.regulates (s : State) (q : PartId) (c : Bool) : Bool := s.flag 58 (regOff q c) 31
/-- The top of a bucket, DEPTH x 100. -/
def State.bucketTop (s : State) (q : PartId) (c : Bool) : Nat := 100 * s.fld 58 (regOff q c) 9 0

/-- A token is there, or none is needed; with RATE 0 a regulator admits no request (R299, NOC_REGq_c). -/
def State.tokenOk (s : State) (p : Fin 24) (q : PartId) (c : Bool) : Bool :=
  !s.regulates q c || (decide (100 ≤ (s.port p).bucket q c) && s.fld 58 (regOff q c) 27 16 != 0)

/-- Take a token. -/
def State.takeToken (s : State) (p : Fin 24) (q : PartId) (c : Bool) : State :=
  if s.regulates q c then s.modPort p fun x => x.setBucket q c (x.bucket q c - 100) else s

/-- Key of the home credits in use. -/
def credKey (h : Fin 16) (q : PartId) (c : Bool) : Nat := (h.val * 64 + q.toNat) * 2 + (if c then 1 else 0)
/-- Home credits in use (R60). -/
def State.homeUsed (s : State) (h : Fin 16) (q : PartId) (c : Bool) : Nat := tabGet 0 s.par.used (credKey h q c)
/-- Set them. -/
def State.setHomeUsed (s : State) (h : Fin 16) (q : PartId) (c : Bool) (v : Nat) : State :=
  s.modPar fun x => { x with used := tabSet 0 x.used (credKey h q c) v }
/-- PAR_CREDq.HCRED or DHCRED. -/
def State.homeLimit (s : State) (q : PartId) (c : Bool) : Nat :=
  if c then s.fld 60 (0x100 + 4 * q.toNat) 25 16 else s.fld 60 (0x100 + 4 * q.toNat) 13 0

/-- All home credits in use at a home, of one class. -/
def State.usedAt (s : State) (h : Fin 16) (c : Bool) : Nat :=
  (List.range 64).foldl (fun n q => n + s.homeUsed h (BitVec.ofNat 6 q) c) 0

/-- While a buddy serves two homes, admission grants only while it has an unreserved entry that no admitted request is
owed (R369 step 5); for each DET home among them it keeps 512 entries from normal admission (R392 letter b). -/
def State.buddyRoom (s : State) (h : Fin 16) (c : Bool) : Bool :=
  match s.serving h with
  | none => true
  | some i =>
    let hs := s.homesOf i
    if hs.length ≤ 1 then true
    else
      let nrm := hs.foldl (fun n h => n + s.usedAt h false) 0
      let det := hs.foldl (fun n h => n + s.usedAt h true) 0
      let kept := 512 * (hs.filter s.detHome).length
      decide (nrm + (if c then det else max det kept) < 8192 - s.bires i)

/-- A home credit is free (R60). -/
def State.creditOk (s : State) (h : Fin 16) (q : PartId) (c : Bool) : Bool :=
  decide (s.homeUsed h q c < s.homeLimit q c) && s.buddyRoom h c && !s.glb.admHold.getLsbD h.val

/-- A home credit comes back. -/
def State.freeCredit (s : State) (r : Req) : State :=
  match r.port with
  | none => s
  | some _ => s.setHomeUsed r.home r.a.part r.rk (s.homeUsed r.home r.a.part r.rk - 1)

/-- The home a drain is routed to: the subject's number modulo 16, or the next upward that has a serving slice (R120). -/
def State.drainHome (s : State) (a : Agent) : Option (Fin 16) :=
  ((List.range 16).map fun k => Fin.ofNat 16 (a.toNat + k)).find? fun h => (s.serving h).isSome

/-- The home of a request; none when check 10 fails (R35). -/
def State.reqHome (s : State) (op : ReqOp) (a : ReqArgs) : Option (Fin 16) :=
  if reqIsDrain op then s.drainHome a.src
  else if (s.serving (s.homeOf a.pa)).isSome then some (s.homeOf a.pa) else none

/-! ### Completion at the network interface -/

/-- A counted write that completes FENCED for its home is logged (R374). -/
def State.logFenced (s : State) (h : Held) (st : Status) : State :=
  if st = .fenced ∧ reqCounted h.op = true then
    s.logEnt ⟨0x0A, BitVec.ofNat 7 (srcChan (s.homeOf h.a.pa)), 63, h.a.part, h.a.pa, s.now⟩
  else s

/-- Complete a request at the network interface: one RSP, the REQ credit back, and a companion that is there discarded
with its data credit back (R54, R35). -/
def State.niComplete (s : State) (p : Fin 24) (h : Held) (op : RspOp) (st : Status) (info : BitVec 16) : State :=
  let s := ((s.logFenced h st).sendRsp op h.a st .i info false).retReq p h.a.part
  if h.cd.isSome then s.retDat p h.a.part else s

/-- An address fault against a port: a contract event (R20, R172, R350). -/
def State.addrFault (s : State) (p : Fin 24) (h : Held) : State :=
  s.logEnt ⟨0x0B, BitVec.ofNat 7 (srcPort p), h.a.src, h.a.part, h.a.pa, s.now⟩

/-! ### Admission -/

/-- The writes that a drain counts when it is admitted (R119, R120). -/
def Port.drainWaits (x : Port) (a : Agent) (evict : Bool) : List WriteRec :=
  x.writes.filter fun w => w.ag == a && (if evict then !w.drained || w.fenced else !w.completed)

/-- Admit a request: a token and a home credit are taken, its deadline starts (R165), a counted write and a drain are noted
at the port (R119, R120), and it leaves for its slice. -/
def State.admitReq (s : State) (p : Fin 24) (h : Held) (home : Fin 16) : State :=
  let c := s.detReq h.op h.a.pa
  let s := (s.takeToken p h.a.part c).setHomeUsed home h.a.part c (s.homeUsed home h.a.part c + 1)
  let wid := if reqCounted h.op then (s.port p).nextWid else 0
  let s := s.modPort p fun x =>
    if reqCounted h.op then
      { x with nextWid := x.nextWid + 1, writes := x.writes ++ [⟨wid, h.a.src, false, false, false⟩] }
    else if h.isDrain then
      let ev := h.op == .drainE
      let ws := x.drainWaits h.a.src ev
      { x with drains := x.drains ++ [⟨h.a.src, h.a.atag, none, ev,
          (ws.filter fun w => if ev then !w.drained else true).map WriteRec.wid, ws.any fun w => w.drained && w.fenced⟩] }
    else x
  let r : Req := ⟨.req h.op, h.a, some p, home, c, s.edge, h.cd, wid, false⟩
  let dst := if h.isDrain then s.serving home else s.routedSlice p home h.a.pa
  match dst with
  | some i => s.sendReq (.port p) i p.val r
  | none => s

/-- Requests of one port for one line keep their order, but one held for its partition delays none of another (R60, R299, R340); a drain
waits for its agent's earlier REQs (R134). -/
def Held.blockedBy (h : Held) (earlier : List Held) : Bool :=
  if h.isDrain then earlier.any fun k => k.a.src == h.a.src
  else earlier.any fun k => !k.isDrain && k.a.pa == h.a.pa && !(k.why == .partition && k.a.part != h.a.part)

/-- A wait at an empty bucket is counted once (R300, NOC_THRCNT). -/
def State.countWait (s : State) (p : Fin 24) (c : Bool) (h : Held) : State :=
  if c then (s.bump 58 0x01C 15 8).contractEv (srcPort p) h.a.part h.a.pa else s.bump 58 0x01C 7 0

/-- Checks 10 and 11 for a request held at admission: completed FENCED when no slice serves its home, admitted when a token
and a credit are there, left waiting otherwise. The flag says that it has left the interface. -/
def State.tryAdmit (s : State) (p : Fin 24) (h : Held) (earlier : List Held) : State × Option Held :=
  if h.blockedBy earlier then (s, some h)
  else match s.reqHome h.op h.a with
  | none => (s.niComplete p h .comp .fenced 0, none)
  | some home =>
    let c := s.detReq h.op h.a.pa
    if !s.tokenOk p h.a.part c then
      if h.counted || decide (100 ≤ (s.port p).bucket h.a.part c) then (s, some h)
      else (s.countWait p c h, some { h with counted := true })
    else if !s.creditOk home h.a.part c then (s, some h)
    else (s.admitReq p h home, none)

/-- Try the requests that wait at admission at a port, in the order of their arrival; `kept` are those already tried. -/
def State.pumpList (s : State) (p : Fin 24) (kept : List Held) : List Held → State × List Held
  | [] => (s, kept)
  | h :: hs =>
    if h.why = .admission then
      match s.tryAdmit p h kept with
      | (s, some h) => s.pumpList p (kept ++ [h]) hs
      | (s, none) => s.pumpList p kept hs
    else s.pumpList p (kept ++ [h]) hs

/-- Admit what can be admitted at a port. -/
def State.pumpPort (s : State) (p : Fin 24) : State :=
  if (s.port p).held.any (·.why == .admission) then
    let (s, l) := s.pumpList p [] (s.port p).held
    s.modPort p fun x => { x with held := l }
  else s

/-- Admit what can be admitted at every port. -/
def State.pump (s : State) : State := s.eachPort State.pumpPort

/-! ### Checks 8 to 11 -/

/-- Checks 8 to 10 (R35, R20, R172): the state after a completion at the interface, or the request passes. -/
def State.check8to10 (s : State) (p : Fin 24) (h : Held) : State × Bool :=
  if h.isDrain then
    (if (s.drainHome h.a.src).isSome then (s, true) else (s.niComplete p h .comp .fenced 0, false))
  else if !s.homed h.a.pa then ((s.niComplete p h .comp .failed 0).addrFault p h, false)
  else
    let refused := match s.detRgn h.a.pa with
      | none => false
      | some r => !(s.rgnAgents r).contains h.a.src || !s.flag 60 (4 * h.a.part.toNat) 30
    if refused then (((s.niComplete p h .comp .failed 0).addrFault p h).bump 0 0x178 15 8, false)
    else if (s.reqHome h.op h.a).isNone then (s.niComplete p h .comp .fenced 0, false)
    else (s, true)

/-- The place of a request among those that the port holds, in the order of arrival: `old` is how it stood there, if it did, and
`new` what takes its place. -/
def Port.putHeld (x : Port) (old new : Option Held) : Port :=
  match old, new with
  | none, none => x
  | none, some h => { x with held := x.held ++ [h] }
  | some o, none => { x with held := x.held.erase o }
  | some o, some h => { x with held := x.held.replace o h }

/-- A request that has passed check 7 goes through checks 8 to 10 and waits at admission. -/
def State.enterAdmission (s : State) (p : Fin 24) (old : Option Held) (h : Held) : State :=
  match s.check8to10 p h with
  | (s, false) => s.modPort p (·.putHeld old none)
  | (s, true) => (s.modPort p (·.putHeld old (some { h with why := .admission }))).pumpPort p

/-- Bits of ARG that R42 assigns. -/
def argMask (op : ReqOp) : BitVec 29 :=
  match op with
  | .evClean => 0x10000000
  | .wrPart => 0x1FFE0000
  | .condWr => 0x1FFE0000
  | .atom => 0x1FFE0000
  | .resv => 0x10000000
  | .qWatch => 0x10000000
  | .hint => 0x1C000000
  | _ => 0

/-- Whether the request carries a companion (R43). -/
def needsCompanion (op : ReqOp) (arg : BitVec 29) : Bool :=
  match op with
  | .wrFull => true | .wrPart => true | .evDirty => true | .atom => true | .condWr => true | .qEnq => true
  | .evClean => arg.getLsbD 28
  | _ => false

/-- Bytes of an `Atom` field. -/
def atomSize (arg : BitVec 29) : Nat := 2 ^ (arg.extractLsb' 23 2).toNat
/-- First byte of the field. -/
def atomOff (arg : BitVec 29) : Nat := (arg.extractLsb' 17 6).toNat

/-- Check 3 (R54): the cause of an `Err`, if the request is malformed. RSVD bits of ARG are ignored (R40). -/
def State.malformed (s : State) (op : ReqOp) (a : ReqArgs) : Option (BitVec 8) :=
  let bad : Option (BitVec 8) :=
    match op with
    | .wrPart => if 63 < (a.arg.extractLsb' 23 6).toNat + (a.arg.extractLsb' 17 6).toNat then some 0x04 else none
    | .condWr => if 63 < (a.arg.extractLsb' 23 6).toNat + (a.arg.extractLsb' 17 6).toNat then some 0x04 else none
    | .atom =>
      if 8 < (a.arg.extractLsb' 25 4).toNat then some 0x02
      else if atomOff a.arg % atomSize a.arg ≠ 0 then some 0x03 else none
    | .hint => if 1 < (a.arg.extractLsb' 26 3).toNat then some 0x02 else none
    | .drainO => if a.pa = 0 then none else some 0x06
    | .drainE => if a.pa = 0 then none else some 0x06
    | _ => none
  match bad with
  | some c => some c
  | none => if s.member a.src a.part then none else some 0x05

/-- Count an `Err` 0x05 against the partition that the request names (PAR_CNT.ERRPART). -/
def State.errPart (s : State) (q : PartId) : State :=
  s.modPart q fun x => if x.errPart = 0xFF then x else { x with errPart := x.errPart + 1, seq := x.seq + 1 }

end Sys2Proof.Machine
end

