-- ==== Sys2Proof/Machine/ArrayRead.lean ====
section
/-! DEFINITION. Words of the arrays as a read meets them (R84, R86, R347, R457): the error that a word holds, its correction, and the
replacement word of a snoop-filter set. -/

namespace Sys2Proof.Machine

/-- Check bits of a word that INJ can flip (R457): the parity bit of array 1, seven bits of an MSC tag, eight elsewhere. -/
def checkMask (arr : Nat) : BitVec 8 := if arr = 1 then 1 else if arr = 5 then 0x7F else 0xFF

/-- Number of flipped check bits. -/
def flips (m : BitVec 8) : Nat := ((List.range 8).filter m.getLsbD).length

/-- What a read finds. -/
inductive ErrKind where
  | good | corrected | lost
  deriving DecidableEq, Repr

/-- The injected error of a word: one flipped bit is corrected, more cannot be, and the parity of a replacement word corrects
nothing (R84, R86). -/
def Arrays.errOf (a : Arrays) (arr : Fin 10) (w : Nat) : ErrKind :=
  match a.inj.find? fun e => e.1 == arr && e.2.1.toNat == w with
  | none => .good
  | some e =>
    let n := flips (e.2.2 &&& checkMask arr.val)
    if n = 0 then .good else if n = 1 && arr != 1 then .corrected else .lost

/-- The word is written back, or is replaced. -/
def State.errClear (s : State) (i : Fin 17) (arr : Fin 10) (w : Nat) : State :=
  s.modSlice i fun x => { x with ar := x.ar.wrote arr w }

/-- A read of a word; a corrected error is written back and is a CORR event of the slice (R347, R350). -/
def State.readWord (s : State) (i : Fin 17) (arr : Fin 10) (w : Nat) : State × Bool :=
  match (s.slice i).ar.errOf arr w with
  | .good => (s, false)
  | .corrected => ((s.errClear i arr w).corrEv (srcSlice i), false)
  | .lost => (s, true)

/-- `n` words in a row are read, from `w` on: one that is lost loses what they hold. -/
def State.readRun (s : State) (i : Fin 17) (arr : Fin 10) (w n : Nat) : State × Bool :=
  (List.range n).foldl (fun (p : State × Bool) k =>
    let q := p.1.readWord i arr (w + k)
    (q.1, p.2 || q.2)) (s, false)

/-- The replacement word of a set is read (R86). -/
def State.readRepl (s : State) (i : Fin 17) (set : Nat) : State :=
  match s.readWord i 1 set with
  | (s, false) => s
  | (s, true) => (s.modSlice i fun x => x.replSet set 0x8000).corrEv (srcSlice i)

end Sys2Proof.Machine
end

