-- ==== Sys2Proof/Machine/Retire.lean ====
section
/-! DEFINITION. Directory writes and the replacement word (R86, R88, R356), and the retirement of a transaction (R31, R58,
R88, R116, R189): what it frees and whom it lets go on. -/

namespace Sys2Proof.Machine

/-! ### The replacement word (R86) -/

/-- Every node on the path of a way points away from it: `b` levels are left, `n` is the node. -/
def plruTouchFrom : Nat → Nat → Nat → BitVec 16 → BitVec 16
  | 0, _, _, v => v
  | b + 1, n, w, v =>
    let up := w.testBit b
    let v := if up then v &&& ~~~(BitVec.ofNat 16 (2 ^ n)) else v ||| BitVec.ofNat 16 (2 ^ n)
    plruTouchFrom b (2 * n + (if up then 2 else 1)) w v

/-- The entry in way `w` is written or hit. -/
def plruTouch (w : Nat) (v : BitVec 16) : BitVec 16 := plruTouchFrom 4 0 w v

/-- The pseudo-LRU way among the permitted ones: where the half pointed to holds none, the walk takes the other (R174).
`lo` is the first way below the node, `b` the levels left. -/
def plruLeafFrom (ok : Nat → Bool) (v : BitVec 16) : Nat → Nat → Nat → Nat
  | 0, _, lo => lo
  | b + 1, n, lo =>
    let up := v.getLsbD n
    let has (l : Nat) : Bool := (List.range (2 ^ b)).any fun k => ok (l + k)
    let up := if has (if up then lo + 2 ^ b else lo) then up else !up
    plruLeafFrom ok v b (2 * n + (if up then 2 else 1)) (if up then lo + 2 ^ b else lo)

/-- The pseudo-LRU way. -/
def plruLeaf (ok : Nat → Bool) (v : BitVec 16) : Nat := plruLeafFrom ok v 4 0 0

/-- The entry in a way is written or hit: the replacement word is read and written (R86). -/
def State.touch (s : State) (i : Fin 17) (set way : Nat) : State :=
  (s.readRepl i set).modSlice i fun x => x.replSet set (plruTouch way (x.replGet set))

/-- The set-unknown mark of a set is set or cleared: the rest of the word stays as it is read (R86). -/
def State.putSuk (s : State) (i : Fin 17) (set : Nat) (b : Bool) : State := (s.readRepl i set).modSlice i (·.setSuk set b)

/-! ### Directory writes -/

/-- A fenced agent is left out of every entry written (R356). -/
def State.cleanDir (s : State) (d : Dir) : Dir := (d.ptrs.filter s.agFenced).foldl Dir.drop d

/-- Write an entry into the way a transaction holds; no entry frees the way (R88, R196). -/
def State.writeDir (s : State) (i : Fin 17) (t : Nat) : State :=
  match s.ent i t with
  | none => s
  | some e =>
    if e.wv && !e.h.noDir then
      let set := sfSet e.r.a.pa
      ((s.modSlice i (·.sfSet set e.way.toNat ⟨sfTag e.r.a.pa, s.cleanDir e.we⟩)).touch i set e.way.toNat).modEnt i t fun e =>
        { e with h := { e.h with dirWritten := true } }
    else s

/-- Mark the set of a line unknown (R95). -/
def State.markSuk (s : State) (i : Fin 17) (pa : LineAddr) : State := s.putSuk i (sfSet pa) true

/-- The last directory write of a transaction (R88, R95, R189): UK when its flag UKM is set, and the set marked where it
holds no way; otherwise its working entry, whatever changed it and with or without a write before: R88, R95 and R189 say so of single
cases only, and the rest is the model's choice (R196, log entry 84). -/
def State.retireDir (s : State) (i : Fin 17) (t : Nat) : State :=
  match s.ent i t with
  | none => s
  | some e =>
    if e.h.noDir then s
    else if e.x.ukm then
      (if e.wv then (s.modEnt i t fun e => { e with we := .uk }).writeDir i t else s.markSuk i e.r.a.pa)
    else s.writeDir i t

/-! ### What a transaction leaves behind -/

/-- The number under which the service unit of another slice, or of the same, reads a ring line for entry `t` of slice `i`
(R322, R367). -/
def svcKey (i : Fin 17) (t : Nat) : Nat := (i.val + 1) * 32768 + t

/-- The number under which the line of an unreadable MSC word is fetched again for entry `t` (R256). -/
def refetchKey (t : Nat) : Nat := 16384 + t

/-- A fetch of entry `t` of slice `i` goes on without its transaction: its line still fills the MSC (R239), unless the fetch has
been discarded (`dead`, R101). -/
def FetchReq.kill (i : Fin 17) (t : Nat) (dead : Bool) (f : FetchReq) : FetchReq :=
  if f.fetchFor = .svc (svcKey i t) then { f with fetchFor := .dead }
  else if f.slice = i ∧ (f.fetchFor = .trk t ∨ f.fetchFor = .refetch t) then
    { f with fetchFor := if dead then .dead else .fill }
  else f

/-- The same for a fetch or a read return on the network. -/
def NetMsg.kill (i : Fin 17) (t : Nat) (dead : Bool) : NetMsg → NetMsg
  | .fetch n f => .fetch n (f.kill i t dead)
  | .ret f l => .ret (f.kill i t dead) l
  | m => m

/-- What slice-side queues hold for entry `t` of slice `i` when it ends: `own` says that the queues are the slice's own, `keep`
that a write-through of the entry that still waits is performed (the entry has completed OK). -/
def MemSide.drop (i : Fin 17) (t : Nat) (own dead keep : Bool) (m : MemSide) : MemSide :=
  { m with
    fetchHold := m.fetchHold.map (·.kill i t dead)
    fetchWait := m.fetchWait.map (·.kill i t dead)
    memq := m.memq.filter fun a => !(a.tid == svcKey i t || (own && (a.tid == t || a.tid == refetchKey t)))
    wtWait := if own then (m.wtWait.filter fun w => keep || !(w.tid == some t && !w.writes.isEmpty)).map fun w =>
      if w.tid == some t then { w with tid := none } else w
      else m.wtWait }

/-- Detach all that is on its way to entry `t`. A counted write that has not entered the merging buffer is not performed
(R124), but for an eviction's, which is performed in its pass (R113). -/
def State.detach (s : State) (i : Fin 17) (t : Nat) : State :=
  let dead := match s.ent i t with | some e => e.h.fetchDead | none => false
  let keep := match s.ent i t with | some e => e.r.kind == .req .evDirty | none => false
  let drop (s : State) (j : Fin 17) : State := s.modSlice j fun x =>
    { x with svcq := x.svcq.filter fun o => !(o.tid == t && o.src == i), mem := x.mem.drop i t (decide (j = i)) dead keep }
  let s := drop s i
  let s := if s.svcSlice i = i then s else drop s (s.svcSlice i)
  (s.netMap (NetMsg.kill i t dead)).eachChan fun s n => s.modChan n fun c =>
    { c with
      rq := c.rq.map fun r => { r with f := r.f.kill i t dead }
      inflight := c.inflight.map fun r => { r with f := r.f.kill i t dead } }

/-- A companion's data credit goes back once (R58): its data is taken or discarded. -/
def State.cdReturn (s : State) (i : Fin 17) (t : Nat) : State :=
  match s.ent i t with
  | none => s
  | some e =>
    match e.r.cd, e.r.port with
    | some _, some p =>
      if e.h.cdDone then s
      else (s.setEnt i t (some { e with h := { e.h with cdDone := true } })).retDat p e.r.a.part
    | _, _ => s

/-- The REQ credit and the home credit of a request go back (R58, R60). -/
def State.reqReturn (s : State) (r : Req) : State :=
  match r.port with
  | some p => (s.retReq p r.a.part).freeCredit r
  | none => s

/-- An entry is freed; where it holds a stale-eviction record it stays bound for that, and its credits with it (R116). -/
def State.freeEnt (s : State) (i : Fin 17) (t : Nat) : State :=
  match s.ent i t with
  | none => s
  | some e =>
    let s := s.traceEnt i t e 0x05 e.r.a.src e.r.kind.opc
    let s := ((s.freeAreasOf i t).detach i t).cdReturn i t
    if (s.slice i).recs.any fun r => r.place == some t then
      s.modEnt i t fun e => { e with stat := .record, opens := false, wv := false
                                     h := { e.h with dh := none, await := [], grp := none, fetching := false } }
    else (s.setEnt i t none).reqReturn e.r

/-- The next request of a line goes on, unless one that has been let go has not re-entered yet (R31, R135). -/
def Slice.nextOfLine (x : Slice) (pa : LineAddr) : Slice :=
  if x.ents.any fun e => e.2.stat == .eligible && !e.2.opens && e.2.r.a.pa == pa then x else x.makeEligible (x.queueOf pa)

/-- Requests that a retirement lets go on (R31, R89). -/
def Slice.letGo (x : Slice) (e : Trk) : Slice :=
  let set := Sys2Proof.Machine.sfSet e.r.a.pa
  let x := if e.opens then x.nextOfLine e.r.a.pa else x
  let bi := e.r.kind == .backInv
  let x := if e.wv || bi then x.makeEligible (x.setWaiters fun k _ => k == set) else x
  if bi then x.makeEligible (x.setWaiters fun _ b => b) else x

/-- A transaction retires (R31): its group's members end with it, its line's entry is written, its resources go back, and
the next request of its line or set goes on. -/
def State.retire (s : State) (i : Fin 17) (t : Nat) : State :=
  match s.ent i t with
  | none => s
  | some e =>
    let s := match e.h.grp with
      | none => s
      | some g => (g.members).foldl (fun s m => s.freeEnt i m) s
    let s := if e.opens then s.retireDir i t else s
    (s.freeEnt i t).modSlice i (·.letGo e)

/-! ### Stale-eviction records (R116, R131) -/

/-- Clear the records that `q` picks; an entry that lived on for one is freed, and a reserve entry lets a request that waits
for one go on (R89). -/
def State.clearRecs (s : State) (i : Fin 17) (q : StaleRec → Bool) : State :=
  let gone := (s.slice i).recs.filter q
  let s := s.modSlice i fun x => { x with recs := x.recs.filter fun r => !q r }
  gone.foldl (fun s r =>
    match r.place with
    | some t =>
      (match s.ent i t with
       | some e => if e.stat = .record then (s.setEnt i t none).reqReturn e.r else s
       | none => s)
    | none => s.modSlice i fun x => x.makeEligible (x.setWaiters fun _ b => b)) s

/-- Create a record; the reserve houses it while it has an entry free, otherwise the verb's own entry (R116). -/
def State.addRec (s : State) (i : Fin 17) (t : Nat) (a : Agent) (atag : ATag) (clean : Bool) : State :=
  let dl := s.after (match s.ent i t with
    | some e => s.fld (slcPage i) (0x240 + 4 * e.dlr.toNat) 16 0
    | none => 0)
  let pa := match s.ent i t with | some e => e.r.a.pa | none => 0
  s.modSlice i fun x =>
    { x with recs := x.recs ++ [⟨a, atag, pa, clean, dl, if x.reserveUsed < s.bires i then none else some t⟩] }

/-! ### The end by a deadline (R124, R126, R169) -/

/-- The agents held responsible: those whose answer is outstanding, the subject where its CompAck is, or none. -/
def Trk.responsible (e : Trk) : List Agent :=
  let out := (e.h.await.filter fun w => w.rsp || w.dat).map Await.ag
  if out ≠ [] then out
  else if e.h.cs && e.r.port.isSome then [e.r.a.src] else []

/-- Report a transaction ended by its deadline: logged against each agent held responsible, or 63, and one CORR event of
each (R193, R350). The source is the slice. -/
def State.reportLate (s : State) (i : Fin 17) (r : Req) (as : List Agent) : State :=
  let ent (a : Agent) : LogEnt := ⟨0x09, BitVec.ofNat 7 (srcSlice i), a, r.a.part, r.a.pa, s.now⟩
  if as = [] then s.logEnt (ent 63) else as.foldl (fun s a => (s.logEnt (ent a)).protAgent a r.a.part r.a.pa) s

/-- A request that waits in a queue, or in an ingress queue, ends by its deadline or with its agent's fence (R126, R306): the
opcode alone decides the form. -/
def Req.queueForm (r : Req) : Option DatOp :=
  match r.kind with
  | .req .upgr => none
  | .req op => reqDat op
  | _ => none

/-- A request of a generation that a partition reset has ended (R306). -/
def State.oldGen (s : State) (r : Req) : Bool := r.port.isSome && r.a.gen != (s.part r.a.part).gen

/-- A request that has no entry ends (R306): completed, its credits back. The completion of one whose partition has been reset is
discarded at its port and counted there (R69). -/
def State.endUnbound (s : State) (r : Req) : State :=
  let s := (s.complete r (lateMsg r.queueForm) true).reqReturn r
  match r.cd, r.port with
  | some _, some p => s.retDat p r.a.part
  | _, _ => s

/-- Withdraw a request from an ingress queue (R306): completed, its credits back, counted; one that its deadline ends is
logged (R124, R374). -/
def State.withdraw (s : State) (i : Fin 17) (r : Req) (late : Bool) : State :=
  let m := lateMsg r.queueForm
  (((if late then s.reportLate i r [] else s).traceSend i r.a.src r.a.pa m.opc).endUnbound r).bump (slcPage i) 0x354 23 16

/-- The requests that `q` picks leave a requester's queue without a grant (R306), and `f` ends each; a carried grant lapses where the
head leaves that it was for (R307). -/
def State.leaveIngress (s : State) (i : Fin 17) (rq : Nat) (q : Req → Bool) (f : State → Req → State) : State :=
  let g := (s.slice i).ing rq
  let l := g.fwd ++ g.direct
  if l.any fun e => q e.1 then
    let lapse := match l.head? with
      | some e => q e.1
      | none => false
    let s := s.modSlice i fun x =>
      let x := x.setIng rq ⟨g.direct.filter fun e => !q e.1, g.fwd.filter fun e => !q e.1⟩
      { x with arb := { x.arb with carried := if lapse && x.arb.carried == some rq then none else x.arb.carried } }
    (l.filter fun e => q e.1).foldl (fun s e => f s e.1) s
  else s

/-- The requests that `q` picks leave what is held for a sleeping slice (R301), and `f` ends each. -/
def State.leaveHold (s : State) (i : Fin 17) (q : Req → Bool) (f : State → Req → State) : State :=
  let l := (s.slice i).wakeHold.filter fun e => q e.2
  if l.isEmpty then s
  else l.foldl (fun s e => f s e.2) (s.modSlice i fun x => { x with wakeHold := x.wakeHold.filter fun e => !q e.2 })

end Sys2Proof.Machine
end

