-- ==== Sys2Proof/Machine/Memory.lean ====
section
/-! DEFINITION. The memory side of a slice (R234 to R258): the memory-side cache, the write merging buffer, the merging-buffer
check, prefetches, and the way of a fetch or a write to its channel's queues (R247, R248, R264, R265, R284). -/

namespace Sys2Proof.Machine

/-! ### The memory-side cache -/

/-- Hits are served (R251). -/
def MscCtl.hits (m : MscCtl) : Bool := m.mode == .on || m.mode == .drain

/-- The home's lines may use the MSC of the slice; a buddy keeps no MSC line for a DEGRADED home (R369). -/
def State.mscFor (s : State) (home : Fin 16) : Bool := !s.degraded home

/-- A data handle reserves the way (R190). -/
def Slice.mscReserved (x : Slice) (set way : Nat) : Bool :=
  x.ents.any fun e => match e.2.h.dh with | some h => h.loc == .mscWay set way | none => false

/-- An MSC way as an access meets it: one whose tag could not be read is gone once no data handle reserves it (R256). -/
def Slice.mscSee (x : Slice) (set way : Nat) : MscWay :=
  if x.ar.tagLost.contains (12 * set + way) && !x.mscReserved set way then ⟨0, 0, .inval, 0⟩ else x.mscGet set way

/-- The way of a set that holds a line at the current epoch in a state `p` accepts (R235); one whose tag cannot be read holds none
(R256). -/
def Slice.mscWayOf (x : Slice) (pa : LineAddr) (p : MscSt → Bool) : Option Nat :=
  (List.range 12).find? fun w =>
    let m := x.mscGet (mscSet pa) w
    p m.st && m.tag == mscTag pa && m.epoch == x.mem.ctl.epoch && !x.ar.tagLost.contains (12 * mscSet pa + w)

/-- A valid way, clean or poisoned. -/
def MscSt.present : MscSt → Bool
  | .valid => true | .poisoned => true | _ => false

/-- The way that a line hits (R235). -/
def Slice.mscHit (x : Slice) (pa : LineAddr) : Option Nat :=
  if x.mem.ctl.hits then x.mscWayOf pa MscSt.present else none

/-- Even parity of the four bits of a rotating pointer. -/
def ptrParity (p : BitVec 4) : Bool := xor (xor (p.getLsbD 0) (p.getLsbD 1)) (xor (p.getLsbD 2) (p.getLsbD 3))

/-- The rotating pointer of a set; one whose parity fails reads as 0 (R238). -/
def Slice.mscPtr (x : Slice) (set : Nat) : Nat :=
  let v : BitVec 5 := tabGet 0 x.ar.mscPtr set
  let p := v.extractLsb' 0 4
  if ptrParity p = v.getLsbD 4 then p.toNat % 12 else 0

/-- Write a rotating pointer with its parity. -/
def Slice.setMscPtr (x : Slice) (set p : Nat) : Slice :=
  let b := BitVec.ofNat 4 p
  { x with ar := { x.ar with mscPtr := tabSet 0 x.ar.mscPtr set ((if ptrParity b then 1#1 else 0#1) ++ b) } }

/-- The way an allocation takes (R238), and the rotating pointer after it; `repl` allows rule 3. -/
def Slice.mscChoose (x : Slice) (set : Nat) (repl : Bool) : Option (Nat × Option Nat) :=
  let free := (List.range 12).find? fun w => (x.mscSee set w).st == .inval && !x.mscReserved set w
  match free with
  | some w => some (w, none)
  | none =>
    match (List.range 12).find? fun w => (x.mscGet set w).epoch != x.mem.ctl.epoch && !x.mscReserved set w with
    | some w => some (w, none)
    | none =>
      if repl then
        let p := x.mscPtr set
        match ((List.range 12).map fun k => (p + k) % 12).find? fun w =>
            !x.mscReserved set w && (x.mscGet set w).st != .pending with
        | some w => some (w, some ((w + 1) % 12))
        | none => none
      else none

/-- ST of a line. -/
def PLine.mscSt (l : PLine) : MscSt := if l.pois then .poisoned else .valid

/-- Allocate a way for a line; nothing happens where no way qualifies (R238). -/
def Slice.mscAlloc (x : Slice) (pa : LineAddr) (st : MscSt) (d : Line) (repl : Bool := true) : Slice :=
  match x.mscChoose (mscSet pa) repl with
  | none => x
  | some (w, p) =>
    let x := x.mscPut (mscSet pa) w ⟨mscTag pa, x.mem.ctl.epoch, st, d⟩
    match p with
    | some p => x.setMscPtr (mscSet pa) p
    | none => x

/-- What a write-through does in the MSC (R237, R240). -/
def Slice.mscWrite (x : Slice) (walloc : Bool) (pa : LineAddr) (l : PLine) : Slice :=
  if x.mem.ctl.hits then
    match x.mscWayOf pa fun st => st.present || st == .pending with
    | some w => x.mscPut (mscSet pa) w ⟨mscTag pa, x.mem.ctl.epoch, l.mscSt, l.data⟩
    | none => if walloc && x.mem.ctl.mode == .on then x.mscAlloc pa l.mscSt l.data else x
  else x

/-- A demand fetch's fill lands (R239). -/
def Slice.mscFill (x : Slice) (pa : LineAddr) (l : PLine) : Slice :=
  if x.mem.ctl.mode == .on then
    match x.mscWayOf pa fun st => st.present || st == .pending with
    | some w =>
      if (x.mscGet (mscSet pa) w).st == .pending then
        x.mscPut (mscSet pa) w ⟨mscTag pa, x.mem.ctl.epoch, l.mscSt, l.data⟩
      else x
    | none => x.mscAlloc pa l.mscSt l.data
  else x

/-- Ways in fill-pending state (R243). -/
def Slice.pendingWays (x : Slice) : Nat := (x.ar.msc.filter fun e => e.2.st == .pending).length

/-! ### Channels of an access (R26, R284, R286) -/

/-- Where a read of home h's line lies: channel, line address there, mirror half. None when the channel is fenced and
nothing serves in its place. -/
def State.readPlace (s : State) (h : Fin 16) (cla : Nat) : Option (Fin 16 × Nat × Bool) :=
  if !s.chFenced h then some (h, cla, false)
  else if s.mirrored h && !s.chFenced (buddy h) then some (buddy h, s.capacity (buddy h) / 2 + cla, true)
  else none

/-- A channel takes writes: it is not fenced, or a resync has begun (R287). -/
def State.takesWrites (s : State) (n : Fin 16) : Bool := !s.chFenced n || (s.chan n).mir.mode == .resync

/-- The controllers of a write of home h (R248). -/
def State.writePlaces (s : State) (h : Fin 16) (cla : Nat) : List (Fin 16 × Nat × Bool) :=
  (if s.takesWrites h then [(h, cla, false)] else []) ++
  (if s.mirrored h && s.takesWrites (buddy h) then [(buddy h, s.capacity (buddy h) / 2 + cla, true)] else [])

/-! ### Events to a transaction -/

/-- A memory action of a transaction has completed: its MEM event is on its way (R201). -/
def State.memDone (s : State) (i : Fin 17) (t : Nat) (st : MemStat) (l : Option PLine) (fetch : Bool) : State :=
  s.modSlice i fun x => { x with mem := { x.mem with memq := x.mem.memq ++ [⟨t, st, l, fetch⟩] } }

/-! ### Reservations (R156) -/

/-- The granule of a reservation holds a line (R155). -/
def Resv.holds (r : Resv) (pa : LineAddr) : Bool :=
  if r.gran then r.granule.toNat / 4 == pa.toNat / 4 else r.granule == pa

/-- A write to a line is serialised, or E is granted for it: reservations on its granule are lost (R156). -/
def State.killResv (s : State) (i : Fin 17) (pa : LineAddr) : State :=
  s.modSlice (s.svcSlice i) fun x => { x with resv := x.resv.filter fun r => !r.holds pa }

/-! ### The write merging buffer -/

/-- WMB state of R245. -/
def Slice.wmbOf (x : Slice) (a : MemAddr) (home : Fin 16) : List WmbEnt :=
  x.mem.wmb.filter fun w => w.addr == a && w.home == home

/-- A write-through of a line waits for a FREE entry (R245). -/
def Slice.wtHolds (x : Slice) (a : MemAddr) (home : Fin 16) : Bool := x.mem.wtWait.any fun w => w.addr == a && w.home == home

/-- The way in which a line of a home hits the MSC of slice i. A write of the line that waits for the merging buffer is newer than the
way (R140). -/
def State.lineHit (s : State) (i : Fin 17) (home : Fin 16) (pa : LineAddr) : Option Nat :=
  if s.mscFor home && !(s.slice i).wtHolds (.line pa) home then (s.slice i).mscHit pa else none

/-- Which fetches that the merging-buffer check holds match a line: ordinary ones, DET ones (R247). -/
def Slice.wantOf (x : Slice) (a : MemAddr) (home : Fin 16) : BitVec 2 :=
  (x.mem.fetchHold.filter fun f => f.addr == a && f.home == home).foldl (fun v f => v ||| (if f.det then 2 else 1)) 0

/-- Put a write-through into the buffer (R245, R249): none when no entry is FREE. -/
def Slice.wmbPut (x : Slice) (now : Tk) (w : WrReq) : Option Slice :=
  if x.mem.wmb.any fun e => e.addr == w.addr && e.home == w.home && !e.issued then
    some { x with mem := { x.mem with wmb := x.mem.wmb.map fun e =>
      if e.addr == w.addr && e.home == w.home && !e.issued then
        { e with l := w.l, writes := e.writes ++ w.writes } else e } }
  else if x.mem.wmb.length < 128 then
    some { x with mem := { x.mem with
      nextWmb := x.mem.nextWmb + 1
      wmb := x.mem.wmb ++ [⟨x.mem.nextWmb, w.addr, w.home, w.l, now, w.writes, false, false, false, x.wantOf w.addr w.home, 0, 0⟩] } }
  else none

/-- The data handle of a transaction moves to the merging-buffer entry (R190). -/
def Trk.toWmb (e : Trk) (l : PLine) : Trk := { e with h := { e.h with dh := some ⟨.wmb, l⟩ } }

/-- A write-through has entered the buffer: the point of serialisation (R111). Its MSC copy is written, a write of R139 ends the
reservations on its granule (R156), its MEM event is raised, and the answer-area line it waited in is freed. -/
def State.wmbEntered (s : State) (i : Fin 17) (w : WrReq) : State :=
  let s := s.perf i 0x0A
  let s := match w.addr with
    | .line pa =>
      let s := if w.ser then s.killResv i pa else s
      let s := if s.mscFor w.home then s.modSlice i (·.mscWrite (w.alloc && s.flag (slcPage i) 0x2A0 3) pa w.l) else s
      (match w.area with
       | none => s
       | some a =>
         let s := match (s.slice i).opener pa with
           | some (t, e) => if (e.h.dh.map Handle.loc) == some .area then s.modEnt i t (·.toWmb w.l) else s
           | none => s
         (match portOf a with
          | some p => s.modEgress p
              (fun g => g.datIn && g.f.op != .qNotify && g.f.dst == a && g.f.pa == pa && g.f.slice.toNat == i.val)
              fun g => { g with area := false }
          | none => s))
    | .ring _ _ => s
  match w.tid with
  | some t => s.memDone i t .ok none false
  | none => s

/-- The write-throughs that wait enter in order: what a HELD entry takes, and the others while there is room (R245). `kept` are
those that stay. -/
def State.pumpWtFrom (s : State) (i : Fin 17) (kept : List WrReq) : List WrReq → State
  | [] => s.modSlice i fun x => { x with mem := { x.mem with wtWait := kept } }
  | w :: ws =>
    match (s.slice i).wmbPut s.now w with
    | some x => ((s.modSlice i fun _ => x).wmbEntered i w).pumpWtFrom i kept ws
    | none => s.pumpWtFrom i (kept ++ [w]) ws

/-- Let waiting write-throughs enter. -/
def State.pumpWt (s : State) (i : Fin 17) : State := s.pumpWtFrom i [] (s.slice i).mem.wtWait

/-- A write-through enters the buffer at once: a HELD entry of its line takes it, or no other waits and an entry is FREE (R245). -/
def State.wtEnter (s : State) (i : Fin 17) (w : WrReq) : Option State :=
  let x := s.slice i
  if (x.mem.wmb.any fun e => e.addr == w.addr && e.home == w.home && !e.issued) || x.mem.wtWait.isEmpty then
    (x.wmbPut s.now w).map fun x => (s.modSlice i fun _ => x).wmbEntered i w
  else none

/-- A write-through for a fenced channel without a mirror (R197, R248): MEM FENCED; data that no counted write carries is
logged here, a counted write with its completion (R374). A counted write that has completed already is logged here too, and reported
as drained and fenced (R119). -/
def State.wtLost (s : State) (i : Fin 17) (w : WrReq) (part : PartId) : State :=
  let s := match w.tid with
    | some t => s.memDone i t .fenced none false
    | none => s
  let pa := match w.addr with | .line pa => pa | .ring _ _ => 0
  if w.writes = [] ∨ w.tid = none then
    w.writes.foldl (fun s d => s.reportDrain i d true)
      (s.logEnt ⟨0x0A, BitVec.ofNat 7 (srcChan w.home), 63, part, pa, s.now⟩)
  else s

/-- A write-through (R197, R245, R248). -/
def State.writeThrough (s : State) (i : Fin 17) (w : WrReq) (part : PartId) : State :=
  if s.chLost w.home then s.wtLost i w part
  else match s.wtEnter i w with
    | some s => s
    | none => s.modSlice i fun x => { x with mem := { x.mem with wtWait := x.mem.wtWait ++ [w] } }

/-- The next free data for a line written as poisoned (log entry 14). -/
def State.poisonLine (s : State) : State × PLine := (s.tickFree, ⟨Config.poisonFill s.freeCtr, true⟩)

/-- Write a line to memory as poisoned (R123, R196); `tid` is the transaction whose MEM event it raises. -/
def State.writePoison (s : State) (i : Fin 17) (home : Fin 16) (pa : LineAddr) (part : PartId) (tid : Option Nat) : State :=
  let (s, l) := s.poisonLine
  s.writeThrough i ⟨.line pa, home, l, [], tid, none, false, false⟩ part

/-! ### Fetches (R250, R264, R265) -/

/-- A prefetch. -/
def FetchFor.isPref : FetchFor → Bool
  | .prefetch _ _ => true
  | _ => false

/-- A prefetch is dropped: the way that it holds returns to ST 0b00, and it is counted (R243, R265). -/
def State.dropPrefetch (s : State) (i : Fin 17) (set way : Nat) (a : MemAddr) : State :=
  let mine (m : MscWay) : Bool := m.st == .pending && match a with | .line pa => m.tag == mscTag pa | .ring _ _ => false
  let s := s.modSlice i fun x => if mine (x.mscGet set way) then x.mscPut set way ⟨0, 0, .inval, 0⟩ else x
  s.bump (slcPage i) 0x2AC 7 0

/-- A read returns to its slice (R239, R280): the fill, and the MEM event of the transaction. -/
def State.fetchReturn (s : State) (f : FetchReq) (l : PLine) : State :=
  let st : MemStat := if l.pois then .poison else .ok
  match f.fetchFor, f.addr with
  | .prefetch set way, .line pa =>
    let m := (s.slice f.slice).mscGet set way
    if m.st == .pending && m.tag == mscTag pa && (s.slice f.slice).mem.ctl.mode == .on then
      s.modSlice f.slice fun x => x.mscPut set way ⟨mscTag pa, x.mem.ctl.epoch, l.mscSt, l.data⟩
    else s.bump (slcPage f.slice) 0x2AC 7 0
  | .prefetch _ _, .ring _ _ => s
  | .trk t, .line pa =>
    let dead := match s.ent f.slice t with | some e => e.h.fetchDead | none => false
    let s := if !dead && s.mscFor f.home then s.modSlice f.slice (·.mscFill pa l) else s
    s.memDone f.slice t st (some l) true
  | .fill, .line pa => if s.mscFor f.home then s.modSlice f.slice (·.mscFill pa l) else s
  | .fill, .ring _ _ => s
  | .dead, _ => s
  | .trk t, .ring _ _ => s.memDone f.slice t st (some l) true
  | .refetch t, .line pa =>
    let dead := match s.ent f.slice t with | some e => e.h.fetchDead | none => false
    let s := if !dead && s.mscFor f.home then s.modSlice f.slice (·.mscFill pa l) else s
    s.memDone f.slice (refetchKey t) st (some l) true
  | .refetch t, .ring _ _ => s.memDone f.slice (refetchKey t) st (some l) true
  | .svc t, _ => s.memDone f.slice t st (some l) true
  | .copy, _ => s

/-- A fetch ends FENCED (R286, R360). -/
def State.fetchFenced (s : State) (f : FetchReq) : State :=
  match f.fetchFor with
  | .copy => s
  | .trk t => s.memDone f.slice t .fenced none true
  | .fill => s
  | .dead => s
  | .refetch t => s.memDone f.slice (refetchKey t) .fenced none true
  | .svc t => s.memDone f.slice t .fenced none true
  | .prefetch set way => s.dropPrefetch f.slice set way f.addr

/-- The fetches on their way to channel n over the network. -/
def State.netFetches (s : State) (n : Fin 16) : List FetchReq :=
  s.netFlits.filterMap fun f => match f.msg with | .fetch k r => if k = n then some r else none | _ => none

/-- A read-queue entry is free for a fetch (R264). -/
def State.rqRoom (s : State) (n : Fin 16) (det : Bool) : Bool :=
  let q := (s.chan n).rq.map (·.f.det) ++ (s.netFetches n).map FetchReq.det
  decide (q.length < 64) && (det || !s.detHome n || decide ((q.filter fun d => !d).length < 48))

/-- Slice and channel of one number are joined by a memory link; any other pair uses the networks (R296). -/
def State.carryMem (s : State) (i : Fin 17) (n : Fin 16) (out : Bool) (m : NetMsg) (det : Bool) (f : State → State) : State :=
  if i.val = n.val then f s
  else if out then s.carry m (.slice i) (.chan n) det f else s.carry m (.chan n) (.slice i) det f

/-- The slice serves the set of a fetch, or the home whose service unit it is (R26). -/
def State.fetchServed (s : State) (f : FetchReq) : Bool :=
  match f.addr with
  | .line pa => s.servingSlice f.home pa == some f.slice
  | .ring h _ => s.serving h == some f.slice

/-- A fetch that no transaction waits for. -/
def FetchFor.idle : FetchFor → Bool
  | .prefetch _ _ => true | .fill => true | .dead => true | .copy => true | _ => false

/-- A fetch enters a channel's read queue. -/
def Chan.rqPush (c : Chan) (f : FetchReq) (mir : Bool) (cla : Nat) : Chan :=
  { c with
    rq := c.rq ++ [⟨c.nextId, f, mir, cla, c.dc, f.fetchFor.isPref, none, (c.wq.filter fun w => w.cla == cla).map WrEnt.id, none, f.past⟩]
    nextId := c.nextId + 1
    wq := c.wq.map fun w => if w.cla == cla then { w with raised := true } else w }

/-- Channel n takes as many prefetches as DCH_SCHED.PFQ (R265). -/
def State.prefFull (s : State) (n : Fin 16) (f : FetchReq) : Bool :=
  f.fetchFor.isPref && decide (s.fld (dchPage n) 0x150 18 16 ≤ ((s.chan n).rq.filter RdEnt.prefetch).length)

/-- Where a fetch is to be read: from the mirror copy once the primary copy could not be (R285). -/
def State.fetchPlace (s : State) (f : FetchReq) : Option (Fin 16 × Nat × Bool) :=
  if f.mir then
    (if s.chFenced (buddy f.home) then none
     else some (buddy f.home, s.capacity (buddy f.home) / 2 + s.memCla f.addr, true))
  else s.readPlace f.home (s.memCla f.addr)

/-- A fetch ends where no channel can read its line: FENCED (R286), or POISON when the primary copy could not be read and the partner
is fenced meanwhile (R285). -/
def State.fetchNowhere (s : State) (f : FetchReq) : State :=
  if f.mir then
    let (s, l) := s.poisonLine
    s.fetchReturn f l
  else s.fetchFenced f

/-- A fetch reaches the channel that serves it: queued there, or ended where no channel serves, the slice no longer serves its set or the
channel drops it (R26, R265, R286). -/
def State.rqArrive (s : State) (f : FetchReq) : State :=
  if f.fetchFor.idle && !s.fetchServed f then s.fetchFenced f
  else match s.fetchPlace f with
  | none => s.fetchNowhere f
  | some (n, cla, mir) => if s.prefFull n f then s.fetchFenced f else s.modChan n (·.rqPush f mir cla)

/-- A fetch leaves for its channel's read queue, or waits in the slice for an entry, or ends where no channel serves or the slice
no longer serves its set (R26, R264, R265, R268, R286). -/
def State.rqEnter (s : State) (f : FetchReq) : State :=
  if f.fetchFor.idle && !s.fetchServed f then s.fetchFenced f
  else match s.fetchPlace f with
  | none => s.fetchNowhere f
  | some (n, _, _) =>
    if s.prefFull n f then s.fetchFenced f
    else if s.rqRoom n f.det then s.carryMem f.slice n true (.fetch n f) f.det fun s => s.rqArrive f
    else s.modSlice f.slice fun x => { x with mem := { x.mem with fetchWait := x.mem.fetchWait ++ [f] } }

/-- Fetches that wait for a read-queue entry try again, in order. -/
def State.pumpFetch (s : State) (i : Fin 17) : State :=
  let fs := (s.slice i).mem.fetchWait
  fs.foldl State.rqEnter (s.modSlice i fun x => { x with mem := { x.mem with fetchWait := [] } })

/-- The buffer holds a line, or a write-through of it waits for a FREE entry: a fetch of it is held (R140, R250). -/
def Slice.holdsFetch (x : Slice) (f : FetchReq) : Bool := !(x.wmbOf f.addr f.home).isEmpty || x.wtHolds f.addr f.home

/-- A fetch is issued: counted, and checked against the merging buffer (R250). It is held while an entry holds the line, which makes that
entry eligible (R247). -/
def State.fetchCheck (s : State) (f : FetchReq) : State :=
  let s := s.perf f.slice 0x05
  if !(s.slice f.slice).holdsFetch f then s.rqEnter f
  else s.modSlice f.slice fun x =>
    { x with mem := { x.mem with
        fetchHold := x.mem.fetchHold ++ [f]
        wmb := x.mem.wmb.map fun w =>
          if w.addr == f.addr && w.home == f.home then
            { w with want := w.want ||| (if f.det then 2 else 1) } else w } }

/-- Fetches held by the check go on once no entry holds their line. -/
def State.releaseFetches (s : State) (i : Fin 17) : State :=
  let x := s.slice i
  let go := x.mem.fetchHold.filter fun f => !x.holdsFetch f
  let s := s.modSlice i fun x => { x with mem := { x.mem with
    fetchHold := x.mem.fetchHold.filter x.holdsFetch } }
  go.foldl State.rqEnter s

/-- Hand a prefetch of a line to the MSC (R121, R237, R243). -/
def State.prefetch (s : State) (i : Fin 17) (home : Fin 16) (pa : LineAddr) : State :=
  let x := s.slice i
  if !s.mscFor home then s
  else if !(x.mem.ctl.mode == .on) || s.fld (slcPage i) 0x2A0 13 8 ≤ x.pendingWays then s.bump (slcPage i) 0x2AC 7 0
  else if (x.mscWayOf pa fun st => st.present || st == .pending).isSome then s
  else match x.mscChoose (mscSet pa) true with
    | none => s.bump (slcPage i) 0x2AC 7 0
    | some (w, _) =>
      let s := s.modSlice i fun x => x.mscAlloc pa .pending 0
      s.fetchCheck ⟨i, .prefetch (mscSet pa) w, .line pa, home, false, false, false⟩

/-- Send a `Hint` with HKIND 0b000 for a line from agent 63 to the line's home (R121, R242); a line outside the homed range
is not hinted. -/
def State.sendHint (s : State) (src : Fin 17) (pa : LineAddr) : State :=
  if s.homed pa then
    let h := s.homeOf pa
    let s := s.traceSend src 63 pa (reqCode .hint)
    match s.servingSlice h pa with
    | none => s
    | some i =>
      s.sendReq (.slice src) i 25 ⟨.req .hint, ⟨63, 0, 0, 0, pa, 0⟩, none, h, (s.detRgn pa).isSome, s.edge, none, 0, false⟩
  else s

/-- Next-line prefetch (R242). -/
def State.nextLine (s : State) (i : Fin 17) (r : Req) : State :=
  if !r.rk && r.port.isSome && (s.slice i).mem.ctl.mode == .on && s.mscFor r.home &&
      s.flag 60 (4 * r.a.part.toNat) 29 then s.sendHint i (r.a.pa + 1) else s

/-- A transaction's fetch (R101, R235, R250): from the MSC on a hit, otherwise through the merging-buffer check. The flag
says that it missed. -/
def State.startFetch (s : State) (i : Fin 17) (t : Nat) (r : Req) : State × Bool :=
  match s.lineHit i r.home r.a.pa with
  | some w =>
    let m := (s.slice i).mscGet (mscSet r.a.pa) w
    let l : PLine := ⟨m.data, m.st == .poisoned⟩
    let s := s.modEnt i t fun e => { e with h := { e.h with dh := some ⟨.mscWay (mscSet r.a.pa) w, l⟩ } }
    let s := s.modEnt i t fun e => { e with h := { e.h with fetching := true, fetchDead := false } }
    (s.memDone i t (if l.pois then .poison else .ok) none true, false)
  | none =>
    let s := s.modEnt i t fun e => { e with h := { e.h with fetching := true, fetchDead := false } }
    let s := s.nextLine i r
    (s.fetchCheck ⟨i, .trk t, .line r.a.pa, r.home, r.rk, false, false⟩, true)

/-- A clean victim is offered to the MSC (R241): accepted, or declined and counted. -/
def State.offerVictim (s : State) (i : Fin 17) (home : Fin 16) (pa : LineAddr) (l : PLine) : State :=
  let x := s.slice i
  let acc := s.fld (slcPage i) 0x2A0 1 0
  let ok := s.mscFor home && acc != 0 && x.mem.ctl.mode == .on &&
    (x.mscWayOf pa fun st => st.present || st == .pending).isNone &&
    (x.wmbOf (.line pa) home).isEmpty && !x.wtHolds (.line pa) home && (x.mscChoose (mscSet pa) (acc == 2)).isSome
  if ok then s.modSlice i fun x => x.mscAlloc pa l.mscSt l.data (acc == 2) else s.bump (slcPage i) 0x2AC 15 8

/-! ### Draining the buffer (R247, R248) -/

/-- The slice is the source of an evacuation whose set step holds this set (R247, R365). -/
def State.evacHolds (s : State) (i : Fin 17) (home : Fin 16) (set : Nat) : Bool :=
  match s.flt.run with
  | some m =>
    (m.kind == .evac || m.kind == .ltMove || m.kind == .ltBack) && m.src == i && m.home == home &&
      (match m.phase with | .hold k => k == set | _ => false)
  | none => false

/-- A HELD entry is eligible to issue (R247). -/
def State.wmbEligible (s : State) (i : Fin 17) (w : WmbEnt) : Bool :=
  let m := (s.slice i).mem
  !w.issued &&
    (w.due || decide (s.fld (slcPage i) 0x2B0 23 16 < (m.wmb.filter fun e => !e.issued).length) || w.want != 0 ||
      m.ctl.mode == .drain ||
      (match w.addr with | .line pa => s.evacHolds i w.home (sfSet pa) | .ring _ _ => false)) &&
    !(m.wmb.any fun e => e.issued && e.addr == w.addr && e.home == w.home)

/-- The next entry to issue: one that a DET fetch matches, one that a fetch matches, then the oldest (R247). -/
def State.wmbNext (s : State) (i : Fin 17) : Option WmbEnt :=
  let es := (s.slice i).mem.wmb.filter (s.wmbEligible i)
  match es.find? fun w => w.want.getLsbD 1 with
  | some w => some w
  | none =>
    match es.find? fun w => w.want != 0 with
    | some w => some w
    | none => es.head?

/-- Change a merging-buffer entry. -/
def Slice.modWmb (x : Slice) (id : Nat) (f : WmbEnt → WmbEnt) : Slice :=
  { x with mem := { x.mem with wmb := x.mem.wmb.map fun w => if w.id == id then f w else w } }

/-- An entry becomes FREE: every write on its list has drained (R119, R247), held fetches and waiting write-throughs go on. -/
def State.wmbFree (s : State) (i : Fin 17) (w : WmbEnt) (fenced : Bool) : State :=
  let s := s.modSlice i fun x => { x with mem := { x.mem with wmb := x.mem.wmb.filter fun e => e.id != w.id } }
  let s := w.writes.foldl (fun s d => s.reportDrain i d fenced) s
  (s.pumpWt i).releaseFetches i

/-- A write enters a channel's queue (R264, R281): a correction writeback, or a copy write, of the line that waits there is discarded, and
so is the copy of the line that is under way (R287). A read of the line that came in the same dc is behind it (R288). -/
def Chan.wqPush (c : Chan) (cla : Nat) (a : MemAddr) (l : PLine) (corr : Bool) : Chan :=
  let now (r : RdEnt) : Bool := r.cla == cla && r.arr == c.dc && r.cls.isNone
  let copies := c.mir.copy.map fun k =>
    if k.dst = cla ∧ !corr then { k with stale := true, phase := if k.phase = .writing then .done else k.phase } else k
  { c with
    wq := (c.wq.filter fun w => !(w.cla == cla && (w.corr || w.copy))) ++ [⟨c.nextId, cla, a, l, c.dc, c.rq.any now, corr, false⟩]
    rq := c.rq.map fun r => if now r then { r with after := r.after ++ [c.nextId] } else r
    mir := { c.mir with copy := copies }
    nextId := c.nextId + 1 }

/-- The write entries on their way to channel n over the network. -/
def State.netWrites (s : State) (n : Fin 16) : Nat :=
  (s.netFlits.filter fun f => match f.msg with | .write _ _ k _ => k == n | _ => false).length

/-- A controller has a place for a write of a line: an entry is free, and it holds no other write of the line but one that the new one
cancels (R264). -/
def State.wqRoom (s : State) (n : Fin 16) (cla : Nat) : Bool :=
  decide ((s.chan n).wq.length + s.netWrites n < 64) && !((s.chan n).wq.any fun w => w.cla == cla && !w.corr && !w.copy)

/-- The bit of a controller among those of a mirrored pair. -/
def placeBit (mir : Bool) : BitVec 2 := if mir then 2 else 1

/-- An ISSUED entry becomes FREE when every controller of the pair that takes writes has accepted it (R247, R248). -/
def State.wmbSettle (s : State) (i : Fin 17) (id : Nat) : State :=
  match (s.slice i).mem.wmb.find? fun e => e.id == id with
  | none => s
  | some e =>
    if (s.writePlaces e.home (s.memCla e.addr)).all fun pl => e.acc &&& placeBit pl.2.2 != 0 then s.wmbFree i e false else s

/-- An entry reaches a controller, which takes it (R264). -/
def State.wqTake (s : State) (n : Fin 16) (mir : Bool) (i : Fin 17) (id : Nat) : State :=
  match (s.slice i).mem.wmb.find? fun e => e.id == id with
  | none => s
  | some e =>
    let s := match (s.writePlaces e.home (s.memCla e.addr)).find? fun pl => pl.1 == n && pl.2.2 == mir with
      | none => s
      | some pl => (s.modChan n fun c => c.wqPush pl.2.1 e.addr e.l false).modSlice i fun x =>
          x.modWmb id fun e => { e with acc := e.acc ||| placeBit mir }
    s.wmbSettle i id

/-- A line of a DET region, whose messages have RK = 1 (R295). -/
def State.detAddr (s : State) (a : MemAddr) : Bool := match a with | .line pa => (s.detRgn pa).isSome | .ring _ _ => false

/-- Offer an ISSUED entry to the controllers that it has still to be sent to and that have a place for it (R247, R248, R264). -/
def State.wmbOffer (s : State) (i : Fin 17) (w : WmbEnt) : State :=
  let s := (s.writePlaces w.home (s.memCla w.addr)).foldl (fun s (pl : Fin 16 × Nat × Bool) =>
    let there := match (s.slice i).mem.wmb.find? fun e => e.id == w.id with
      | some e => e.sent &&& placeBit pl.2.2 != 0
      | none => true
    if !there && s.wqRoom pl.1 pl.2.1 then
      (s.modSlice i fun x => x.modWmb w.id fun e => { e with sent := e.sent ||| placeBit pl.2.2 }).carryMem i pl.1 true
        (.write i w.id pl.1 pl.2.2) (w.want.getLsbD 1 || s.detAddr w.addr) fun s => s.wqTake pl.1 pl.2.2 i w.id
    else s) s
  s.wmbSettle i w.id

end Sys2Proof.Machine
end

