-- ==== Sys2Proof/Machine/Pipeline.lean ====
section
/-! DEFINITION. The pipeline of a slice: binding an entry (R28, R187), the directory read (R30, R94), snoops (R46, R195), the way
choice and back-invalidation (R87 to R91, R174), read-combining groups (R117), and the absorption of evictions (R128 to
R131). -/

namespace Sys2Proof.Machine

/-! ### Microcode store and verb selection (R203, R204, R231) -/

/-- A clause of a bank: the base grammar's where no load has written another. -/
def Ucode.clause (u : Ucode) (bank : Bool) (a : Nat) : BitVec 128 :=
  tabGet (baseWord a) u.words ((if bank then 1024 else 0) + a)

/-- The verb-table entry of the active bank. -/
def Ucode.vt (u : Ucode) (opc : BitVec 5) (st : BitVec 3) (rk : Bool) : VtEnt :=
  let i := vtIndex opc st rk
  VtEnt.dec (vtWord i (u.clause u.active (i / 4)))

/-- SLC_DLn of a slice (R165). -/
def State.dlReg (s : State) (i : Fin 17) (n : Nat) : Nat := s.fld (slcPage i) (0x240 + 4 * n) 16 0

/-- The deadline register of a request whose verb is not selected yet: that of the entry with STATE UN (log entry 13). -/
def State.queueDlr (s : State) (i : Fin 17) (r : Req) : BitVec 3 := ((s.slice i).uc.vt r.kind.opc 0 r.rk).dlr

/-- The deadline of a request: so many ticks from its admission (R165). -/
def State.deadline (s : State) (i : Fin 17) (r : Req) (dlr : BitVec 3) : Tk :=
  r.adm + BitVec.ofNat 48 (s.dlReg i dlr.toNat)

/-- The deadlines of a request by each of the eight registers. -/
def State.deadlines (s : State) (i : Fin 17) (r : Req) : List Tk :=
  (List.range 8).map fun n => r.adm + BitVec.ofNat 48 (s.dlReg i n)

/-! ### Binding an entry (R187, R188) -/

/-- Registers of a new entry: F0 holds ARG[28:13]. R193 keeps CF until the next CMP and gives no value before the first; the model clears
it (log entry 79). -/
def TRegs.init (r : Req) : TRegs :=
  { f0 := r.a.arg.extractLsb' 13 16, f1 := 0, f2 := 0, f3 := 0, f4 := 0, f5 := 0, ack := 0, fl := 0
    ca := false, ukm := false, dd := false, mh := false, cf := false }

/-- Message-unit fields of a new entry. -/
def TMsg.init : TMsg :=
  { gr := .i, la := 0, li := false, ms := 0, ev := 0, latch := false, fwdd := false, memEv := [], tmo := false, svc := false
    svcStat := .ok, svcLine := none }

/-- Hidden fields of a new entry. -/
def THid.init (exp : Tk) (exps : List Tk) : THid :=
  { expiry := exp, exps := exps, cs := false, absorbed := [], await := [], holders := [], dh := none, mscHit := false, fetchDead := false
    fetching := false, dirWritten := false, armed := false, grp := none, cdDone := false
    wrote := false, wroteLost := false, noDir := false }

/-- A new entry in state `st`. -/
def Trk.init (r : Req) (st : TStat) (age : Nat) (dlr : BitVec 3) (exps : List Tk) : Trk :=
  { r := r, stat := st, opens := false, age := age, we := .un, way := 0, wv := false, pc := 0, dlr := dlr
    x := .init r, m := .init, h := .init (exps.getD dlr.toNat 0) exps }

/-- Bind the lowest free entry to a request (R28). -/
def State.bind (s : State) (i : Fin 17) (r : Req) (st : TStat) : State × Nat :=
  let x := s.slice i
  let dlr := s.queueDlr i r
  let t := x.nextTid
  ({ s.modSlice i fun x =>
      { x.setEnt t (some (.init r st s.passNo dlr (s.deadlines i r))) with ar := x.ar.wroteRun 2 (trkWord t) 4 } with
     passNo := s.passNo + 1 }, t)

/-! ### Reading the directory (R30, R94) -/

/-- The home's lines read UK and keep no entry: DEGRADED or BROADCAST (R94, R369, R389). -/
def State.unkept (s : State) (home : Fin 16) : Bool := s.degraded home || s.inBcast home

/-- The way of a line's entry. -/
def Slice.sfFind (x : Slice) (pa : LineAddr) : Option Nat :=
  (List.range 16).find? fun w =>
    let e := x.sfGet (Sys2Proof.Machine.sfSet pa) w
    e.dir != .un && e.tag == sfTag pa

/-- What a line reads as, and its way. -/
def State.readDir (s : State) (i : Fin 17) (home : Fin 16) (pa : LineAddr) : Dir × Option Nat :=
  if s.unkept home then (.uk, none)
  else
    let x := s.slice i
    match x.sfFind pa with
    | some w => ((x.sfGet (sfSet pa) w).dir, some w)
    | none => (if x.suk (sfSet pa) then .uk else .un, none)

/-! ### Snoops (R46, R195) -/

/-- Send a snoop of a transaction to an agent; `cnt` makes the transaction await it (R466). -/
def State.sendSnoop (s : State) (i : Fin 17) (t : Nat) (op : SnpOp) (a : Agent) (anon cnt : Bool) : State :=
  match s.ent i t with
  | none => s
  | some e =>
    let an := anon || e.r.port.isNone
    let f : SnpFlit :=
      { op := op, dst := a, slice := BitVec.ofNat 5 i.val, tid := BitVec.ofNat 13 t
        rag := if an then 63 else e.r.a.src, ratag := if an then 0 else e.r.a.atag
        rpart := if an then 0 else e.r.a.part, rgen := if an then 0 else e.r.a.gen, pa := e.r.a.pa }
    let s := if cnt then s.modEnt i t fun e =>
        { e with h := { e.h with await := e.h.await.filter (fun w => w.ag != a) ++ [⟨a, op, an, false, true, false, false⟩] } }
      else s
    ((s.perf i 0x06).traceEnt i t e 0x03 a op.code).carrySnoop i f e.r.rk e.age

/-! ### Way choice and back-invalidation (R87 to R91, R174) -/

/-- The ways that a line may use (R174). -/
def State.wayOk (s : State) (home : Fin 16) (rk : Bool) (w : Nat) : Bool :=
  if s.detHome home then (if rk then decide (12 ≤ w) else decide (w < 12)) else true

/-- A way is open: a transaction holds it, or its line is open. -/
def Slice.wayOpen (x : Slice) (set w : Nat) : Bool :=
  (x.wayHolder set w).isSome || (x.opener (sfLine set (x.sfGet set w).tag)).isSome && (x.sfGet set w).dir != .un

/-- The way choice of R87. -/
def Slice.chooseWay (x : Slice) (set : Nat) (ok : Nat → Bool) : Option Nat :=
  let ways := (List.range 16).filter ok
  match ways.find? fun w => (x.sfGet set w).dir == .un && (x.wayHolder set w).isNone with
  | some w => some w
  | none =>
    let l := plruLeaf ok (x.replGet set)
    if !x.wayOpen set l && (x.sfGet set l).dir != .uk then some l
    else match ways.find? fun w => !x.wayOpen set w && (x.sfGet set w).dir != .uk with
    | some w => some w
    | none => ways.find? fun w => !x.wayOpen set w

/-- Start a back-invalidation of a victim line (R90, R91): its entry moves into the tracker, and every agent it covers is
sent `SnpBack`. -/
def State.backInv (s : State) (i : Fin 17) (home : Fin 16) (set way : Nat) : State :=
  let v := (s.slice i).sfGet set way
  let pa := sfLine set v.tag
  let r : Req := ⟨.backInv, ⟨63, 0, 0, 0, pa, 0⟩, none, home, (s.detRgn pa).isSome, s.edge, none, 0, false⟩
  let (s, t) := s.bind i r .awaiting
  let bank := (s.slice i).uc.active
  let s := s.modEnt i t fun e => { e with opens := true, we := v.dir, pc := bit1 bank ++ (0 : BitVec 10) }
  let s := (s.modSlice i fun x => x.sfSet set way ⟨0, .un⟩).perf i 0x07
  let as := s.covered pa v.dir
  let s := as.foldl (fun s a => s.sendSnoop i t .snpBack a false true) s
  if as.isEmpty then s.retire i t else s

/-! ### Read combining (R117) -/

/-- The requests that wait for a line, let go or not, oldest first pass first (R29, R135). -/
def Slice.lineOf (x : Slice) (pa : LineAddr) : List (Nat × Trk) :=
  (x.ents.filter fun e => (e.2.stat == .queued || e.2.stat == .eligible) && e.2.r.a.pa == pa && !e.2.opens).mergeSort
    fun a b => a.2.age ≤ b.2.age

/-- The window of the line's opener takes the head of the blocked-line queue while it is a read and there is room. -/
def State.joinLoop (s : State) (i : Fin 17) (t : Nat) : Nat → State
  | 0 => s
  | n + 1 =>
    match s.ent i t with
    | none => s
    | some e =>
      match e.h.grp with
      | none => s
      | some g =>
        if g.isOpen && decide (g.members.length < g.maxJoin) then
          match ((s.slice i).lineOf e.r.a.pa).head? with
          | none => s
          | some (j, k) =>
            if k.r.kind == .req .rdShd || k.r.kind == .req .rdCur then
              let s := s.modEnt i j fun k => { k with stat := .joined t }
              let s := s.modEnt i t fun e => { e with h := { e.h with
                grp := some { g with members := g.members ++ [j] } } }
              ((s.bump (slcPage i) 0x210 15 8).perf i 0x09).joinLoop i t n
            else s
        else s

/-- A window that is open on a line takes what it may. -/
def State.joinLine (s : State) (i : Fin 17) (pa : LineAddr) : State :=
  match (s.slice i).opener pa with
  | some (t, _) => s.joinLoop i t 7
  | none => s

/-- A request joins its line's blocked-line queue (R29). -/
def State.enqueue (s : State) (i : Fin 17) (t : Nat) : State :=
  match s.ent i t with
  | none => s
  | some e =>
    let s := s.setEnt i t (some { e with stat := .queued })
    ((s.perf i 0x08).traceEnt i t e 0x06 e.r.a.src e.r.kind.opc).joinLine i e.r.a.pa

/-! ### Evictions (R113, R114, R128 to R131) -/

/-- A stale-eviction record that matches an eviction (R116, R131). -/
def Slice.recOf (x : Slice) (r : Req) (clean : Bool) : Bool :=
  x.recs.any fun k => k.ag == r.a.src && k.atag == r.a.atag && k.clean == clean

/-- Clear the record an eviction matches, and count the match. -/
def State.useRec (s : State) (i : Fin 17) (r : Req) (clean : Bool) : State :=
  (s.clearRecs i fun k => k.ag == r.a.src && k.atag == r.a.atag && k.clean == clean).bump (slcPage i) 0x21C 15 8

/-- An eviction of agent `a` is applied to the working entry of an open transaction (R128): `a` leaves O'. -/
def Trk.leave (e : Trk) (a : Agent) : Trk :=
  let m : BitVec 64 := ~~~(BitVec.ofNat 64 (2 ^ a.toNat))
  let av : BitVec 64 := (e.x.f5 ++ e.x.f4 ++ e.x.f3 ++ e.x.f2) &&& m
  let x := if e.h.armed then { e.x with
    f2 := av.extractLsb' 0 16, f3 := av.extractLsb' 16 16, f4 := av.extractLsb' 32 16, f5 := av.extractLsb' 48 16 } else e.x
  { e with we := e.we.drop a, x := x, h := { e.h with holders := e.h.holders.filter fun k => k.1 != a } }

/-- Apply the change to the stored entry again when the verb has written it (R202). -/
def State.rewrite (s : State) (i : Fin 17) (t : Nat) : State :=
  match s.ent i t with
  | some e => if e.h.dirWritten then s.writeDir i t else s
  | none => s

/-- An eviction absorbed during the open transaction: its pair is marked, so that the answer which names it creates no record and
its data is discarded (R116, R129, R130). -/
def Trk.markPair (e : Trk) (a : Agent) (g : ATag) : Trk :=
  { e with h := { e.h with absorbed := e.h.absorbed ++ [(a, g)] } }

/-- The fetch outstanding is replaced: what returns is discarded (R101), and its MEM event is raised now, with the status of what
takes its place (log entry 60). -/
def Trk.replaceFetch (e : Trk) (st : MemStat) : Trk :=
  if e.h.fetching && !e.h.fetchDead then
    { e with m := { e.m with memEv := e.m.memEv ++ [(st, true)] }, h := { e.h with fetchDead := true } }
  else e

/-- The read-combining window of an entry closes (R117). -/
def Trk.shutWindow (e : Trk) : Trk :=
  { e with h := { e.h with grp := e.h.grp.map fun g => { g with isOpen := false } } }

/-- The group's line: its opener's data came by a forwarded flit, and the joined members are served from this (R118). -/
def Trk.setGroupLine (e : Trk) (l : Option PLine) : Trk :=
  { e with h := { e.h with grp := e.h.grp.map fun g => { g with line := l } } }

/-- A `DatDirty`, or an absorbed `EvDirty`, becomes the data of an open transaction in place of the fetch (R101, R129); where the
subject's data has been forwarded to it, it serves the joined members alone (R118). -/
def Trk.takeDirty (e : Trk) (l : PLine) (loc : Loc) : Trk :=
  let e := { e with x := { e.x with dd := true } }
  if e.m.fwdd then ((e.replaceFetch .ok).shutWindow).setGroupLine (some l)
  else
    let e := (e.replaceFetch (if l.pois then .poison else .ok)).shutWindow
    { e with h := { e.h with dh := some ⟨loc, l⟩ } }

/-- A window without members leaves no group behind when it closes (R118). -/
def Trk.trimGroup (e : Trk) : Trk :=
  match e.h.grp with
  | some g => if !g.isOpen && g.members.isEmpty && g.owed.isEmpty then { e with h := { e.h with grp := none } } else e
  | none => e

/-- The write-through of an absorbed eviction, which no transaction awaits; it completes FENCED where the channel is lost
(R114, R129). -/
def State.evictWrite (s : State) (i : Fin 17) (r : Req) (l : PLine) : State × Status :=
  if s.chLost r.home then (s, .fenced)
  else (s.writeThrough i ⟨.line r.a.pa, r.home, l, r.wId.toList, none, none, true, true⟩ r.a.part, .ok)

/-- An eviction owner's line is written through: by the EX row and the UK rows of R114. -/
def Dir.takesEvict (d : Dir) (a : Agent) : Bool :=
  match d with
  | .uk => true
  | .ex o => o == a
  | _ => false

/-- An `EvDirty` is discarded as stale (R114). -/
def State.countStale (s : State) (i : Fin 17) : State := s.bump (slcPage i) 0x210 23 16

/-- The one completion of an absorbed eviction, and its own entry's end (R128 step 4); `nothing` says that it changed nothing in
memory. -/
def State.endAbsorbed (s : State) (i : Fin 17) (t : Nat) (st : Status) (nothing : Bool) : State :=
  (s.completeEnt i t (.comp st .i 0) nothing).freeEnt i t

/-- What an absorbed eviction does to the open transaction: its pair is marked, the agent leaves O', and `l` is data that
serves as a `DatDirty` (R128 to R130). -/
def Trk.absorbs (e : Trk) (a : Agent) (g : ATag) (l : Option PLine) : Trk :=
  let e := (e.markPair a g).leave a
  match l with
  | some l => if e.r.kind == .req .wrFull then e else (e.takeDirty l .wmb).trimGroup
  | none => e

/-- An eviction that meets an open line is absorbed (R128 to R131): entry `n` is the eviction's own for the pass, entry `t` the
open transaction's. -/
def State.absorb (s : State) (i : Fin 17) (r : Req) (dirty : Bool) (n t : Nat) (e : Trk) : State :=
  let s := (s.bump (slcPage i) 0x21C 23 16).traceEnt i n e 0x06 r.a.src r.kind.opc
  let a := r.a.src
  let old := (s.slice i).recOf r (!dirty)
  let s := if old then s.useRec i r (!dirty) else s
  match dirty, old, r.cd with
  | true, false, some l =>
    if e.we.takesEvict a then
      let (s, st) := s.evictWrite i r l
      ((s.stir i t (·.absorbs a r.a.atag (some l))).rewrite i t).endAbsorbed i n st false
    else (((s.stir i t (·.absorbs a r.a.atag none)).rewrite i t).countStale i).endAbsorbed i n .ok true
  | true, true, _ => ((s.modEnt i t (·.markPair a r.a.atag)).countStale i).endAbsorbed i n .ok true
  | true, false, none => (s.countStale i).endAbsorbed i n .ok true
  | false, _, _ => ((s.stir i t (·.absorbs a r.a.atag none)).rewrite i t).endAbsorbed i n .ok false

end Sys2Proof.Machine
end

