-- ==== Sys2Proof/Machine/Grammar.lean ====
section
/-! DEFINITION. The Grammar Check (R209 to R219): encodings, the verb table, and every path of every valid entry. -/

namespace Sys2Proof.Machine

/-! ### Encodings (R191 to R198, R210) -/

/-- Bits `hi` down to `lo` are zero. -/
def zeroBits {n : Nat} (v : BitVec n) (hi lo : Nat) : Bool := (v.toNat >>> lo) % 2 ^ (hi - lo + 1) == 0

/-- A condition that R193 defines. -/
def condOk (c : BitVec 6) : Bool := decide (c.toNat ≤ 0x1C)

/-- A C slot holds no reserved encoding. -/
def cSlotOk (v : BitVec 32) : Bool :=
  match COp.dec v with
  | .next => zeroBits v 27 0
  | .jmp _ => zeroBits v 27 10
  | .br c _ _ _ => condOk c && zeroBits v 19 10
  | .brx f p w _ => decide (f.toNat ≤ 7) && w != 0 && decide (p.toNat + w.toNat ≤ 16) && zeroBits v 17 10
  | .wait _ _ _ _ _ _ _ => zeroBits v 19 10
  | .done _ => zeroBits v 25 0
  | .abort _ => zeroBits v 27 8
  | .reserved _ => false

/-- An M slot holds no reserved encoding. -/
def mSlotOk (v : BitVec 40) : Bool :=
  zeroBits v 9 0 &&
    (match Send.dec v with
     | none => true
     | some m =>
       (if m.cls = 0 then (reqOpOf m.opc).isSome else if m.cls = 1 then (snpOpOf m.opc).isSome
        else if m.cls = 2 then (rspOpOf m.opc).isSome else (datOpOf m.opc).isSome) &&
       decide (m.tgt.toNat ≤ 0xA) && decide (m.grant.toNat ≤ 4))

/-- A D slot holds no reserved encoding: W goes with DOP 1 to 7, ARG with DROP (0 to 4) and WTHRU (bit 2) (R196; log entry 53). -/
def dSlotOk (v : BitVec 24) : Bool :=
  let d := DAct.dec v
  let dop := d.dop.toNat
  decide (dop ≤ 0xD) && zeroBits v 15 0 && (!d.w || decide (1 ≤ dop ∧ dop ≤ 7)) &&
    (if dop = 4 then decide (d.arg.toNat ≤ 4) else if dop = 9 then d.arg.extractLsb' 0 2 == 0 else d.arg == 0)

/-- An X slot holds no reserved encoding. -/
def xSlotOk (v : BitVec 32) : Bool :=
  let x := XAct.dec v
  let op := x.xop.toNat
  decide (op ≤ 0xA) &&
    (if op = 0 ∨ op = 0xA then true else if op = 9 then x.dst == 0 else decide (x.dst.toNat ≤ 5)) &&
    (if op = 0xA then x.imm.extractLsb' 4 4 == 0 && x.imm.extractLsb' 12 4 == 0
     else if x.b then x.imm.extractLsb' 0 12 == 0 else true)

/-- A clause holds no reserved encoding. -/
def clauseOk (v : BitVec 128) : Bool :=
  cSlotOk (v.extractLsb' 96 32) && mSlotOk (v.extractLsb' 56 40) && dSlotOk (v.extractLsb' 32 24) && xSlotOk (v.extractLsb' 0 32)

/-- The encoding of a word of a bank: a clause, or below 0x080 four verb-table entries, whose RSVD bits are zero (R203, R213). -/
def bankWordOk (k : Nat) (v : BitVec 128) : Bool :=
  if k < 0x080 then (List.range 4).all fun j => zeroBits (vtWord j v) 27 10 else clauseOk v

/-- A verb-table entry keeps R210. -/
def vtOk (i : Nat) (w : BitVec 32) : Bool :=
  let e := VtEnt.dec w
  let opc := i / 16
  let st := i % 16 / 2
  if e.v then
    decide (0x080 ≤ e.entry.toNat) && zeroBits w 27 10 && decide (st ≤ 4) && decide (opc ≤ 0x12) &&
      !((opc = 0x10 || opc = 0x11) && st != 0)
  else true

/-! ### Sends (R215, R216, R218) -/

/-- A send of class REQ that R215 allows. -/
def precedes (m : Send) : Bool :=
  if m.cls = 0 then
    (match reqOpOf m.opc with
     | some .hint => m.tgt == 8 && m.nxt
     | some .atom | some .lockAcq | some .lockRel | some .qEnq | some .qDeq | some .qWatch | some .resv | some .condWr =>
       m.tgt == 9
     | _ => false)
  else true

/-- A send agrees with its class and network (R216). -/
def agrees (m : Send) : Bool :=
  let none5 := !m.fwd && !m.ifs && !m.anon
  if m.cls = 0 then !m.cmp && !m.cnt && none5 && m.dsrc == 0
  else if m.cls = 1 then
    decide (1 ≤ m.tgt.toNat) && decide (m.tgt.toNat ≤ 7) && (m.cnt != (m.opc == 7)) && !m.cmp && !m.fwd && !m.ifs && !m.nxt &&
      m.dsrc == 0
  else if m.cls = 2 then
    (m.opc == 5 || m.opc == 7 || m.opc == 8) && (m.tgt == 0 || (m.tgt == 0xA && m.opc == 5)) && m.cmp &&
      m.stat != Status.poison.code && (m.opc == 5 || (!m.fwd && !m.ifs)) && !m.cnt && !m.nxt && m.dsrc == 0 && !m.anon
  else
    (m.opc == 0 || m.opc == 1 || m.opc == 4) && (m.tgt == 0 || m.tgt == 0xA) && m.cmp &&
      (m.stat == Status.ok.code || m.stat == Status.poison.code) && (m.dsrc != 0 || m.stat == Status.poison.code) && !m.cnt &&
      !m.nxt && none5

/-- Answers that a send can leave outstanding (R218). -/
def Send.reach (m : Send) : Nat :=
  if m.cls = 1 && m.cnt then (if m.tgt = 5 || m.tgt = 6 then 62 else 1) else 0

/-! ### Paths (R211, R212, R217, R218) -/

/-- What a refused check reports (SLC_GCREP). -/
structure GcFault where
  rule : Nat
  vte : Nat
  clause : Nat
  step : Nat
  deriving DecidableEq, Repr

/-- A path so far: clauses, WAITs, completions, outstanding answers. -/
structure GPath where
  seen : List Nat
  waits : Nat
  comps : Nat
  out : Nat
  deriving DecidableEq, Repr

/-- An edge: where it leads, whether the clause's M slot takes effect on it, whether the answers are in after it, and whether it
belongs to the graph alone, since the paths take the other edge of a `BR` on CS (R212). -/
structure GEdge where
  tgt : Nat
  eff : Bool
  answered : Bool
  bare : Bool
  deriving DecidableEq, Repr

/-- The edges of a clause, PC + 1 first (R211, R212, R218, R219). -/
def edgesOf (c : COp) (pc comps : Nat) : List GEdge :=
  match c with
  | .next => [⟨pc + 1, true, false, false⟩]
  | .jmp t => [⟨t.toNat, true, false, false⟩]
  | .br cond neg g t =>
    let takes := xor (decide (comps ≠ 0)) neg
    [⟨pc + 1, true, false, cond == 0x0A && takes⟩, ⟨t.toNat, !g, false, cond == 0x0A && !takes⟩]
  | .brx _ _ w t => (List.range (2 ^ w.toNat)).map fun k => ⟨t.toNat + k, true, false, false⟩
  | .wait m e _ sv q _ p =>
    if m || e || sv then [⟨pc + 1, true, m && q && !e && !sv, false⟩, ⟨p.toNat, true, false, false⟩]
    else [⟨p.toNat, true, false, false⟩]
  | _ => []

/-- An edge lands outside the clauses of verbs (R211). -/
def GEdge.outside (e : GEdge) : Bool := decide (e.tgt < 0x080 ∨ 0x3FF < e.tgt)

/-- The clause waits. -/
def COp.isWait : COp → Bool
  | .wait _ _ _ _ _ _ _ => true
  | _ => false

/-- A WAIT keeps R214. -/
def COp.deadlineOk : COp → Bool
  | .wait _ _ t _ _ d _ => t && d == 0
  | _ => true

/-- The M slot of a clause takes effect on a path. -/
def GPath.send (p : GPath) (m : Option Send) : GPath :=
  match m with
  | some m => { p with comps := p.comps + (if m.cmp then 1 else 0), out := p.out + m.reach }
  | none => p

/-- What is wrong with a path at a point (R217, R218). -/
def GPath.bad (p : GPath) : Option Nat := if 2 ≤ p.comps then some 0x1A else if 64 < p.out then some 0x1B else none

/-- What is wrong with a clause on a path, in the order of the codes (R213 to R216; log entry 53). -/
def GPath.clauseBad (p : GPath) (c : Clause) (es : List GEdge) (step : Nat) : Option Nat :=
  if es.any GEdge.outside then some 0x12
  else if 32 < step then some 0x14
  else if 8 < p.waits then some 0x15
  else if !c.c.deadlineOk then some 0x16
  else if (c.m.map precedes) == some false then some 0x17
  else if (c.m.map agrees) == some false then some 0x18 else none

/-- The graph behind an edge that no path takes: its targets and its cycles alone (R211, R213). The STEP of a fault there is its place
along this walk, cut to the field's 6 bits, by the model's choice (R219, log entry 53). -/
def gcBare (cl : Nat → Clause) (vte : Nat) : Nat → List Nat → Nat → Option GcFault
  | 0, _, _ => none
  | n + 1, seen, pc =>
    let es := edgesOf (cl pc).c pc 0
    if seen.contains pc then some ⟨0x13, vte, pc, seen.length + 1⟩
    else if es.any GEdge.outside then some ⟨0x12, vte, pc, seen.length + 1⟩
    else es.findSome? fun e => gcBare cl vte n (seen ++ [pc]) e.tgt

/-- Search depth-first from a clause (R219). -/
def gcWalk (cl : Nat → Clause) (vte : Nat) : Nat → GPath → Nat → Option GcFault
  | 0, _, _ => none
  | n + 1, p, pc =>
    let step := p.seen.length + 1
    let fault (r : Nat) : Option GcFault := some ⟨r, vte, pc, step⟩
    if p.seen.contains pc then fault 0x13
    else
      let c := cl pc
      let p := { p with seen := p.seen ++ [pc], waits := p.waits + (if c.c.isWait then 1 else 0) }
      let es := edgesOf c.c pc p.comps
      match p.clauseBad c es step with
      | some r => fault r
      | none =>
        let q := p.send c.m
        match c.c with
        | .done _ =>
          (match q.bad with
           | some r => fault r
           | none => if q.comps = 0 then fault 0x19 else none)
        | .abort _ => q.bad.bind fault
        | _ =>
          es.findSome? fun e =>
            if e.bare then gcBare cl vte 1024 p.seen e.tgt
            else
              let q := if e.eff then q else p
              match q.bad with
              | some r => fault r
              | none => gcWalk cl vte n (if e.answered then { q with out := 0 } else q) e.tgt

/-- The check of a bank (R213, R219): encodings by a sweep of all clauses, then the entries in ascending index. -/
def grammarCheck (word : Nat → BitVec 128) : Option GcFault :=
  match (List.range 1024).find? fun k => !bankWordOk k (word k) with
  | some k => some ⟨0x10, 0, k, 0⟩
  | none =>
    (List.range 512).findSome? fun i =>
      let w := vtWord i (word (i / 4))
      if !vtOk i w then some ⟨0x11, i, i / 4, 0⟩
      else
        let e := VtEnt.dec w
        if e.v then gcWalk (fun a => Clause.dec (word a)) i 34 ⟨[], 0, 0, 0⟩ e.entry.toNat else none

/-- The check of a bank of a slice. -/
def Ucode.check (u : Ucode) (bank : Bool) : Option GcFault := grammarCheck (u.clause bank)

/-- SLC_GCREP after a check. -/
def Ucode.report (u : Ucode) (f : Option GcFault) : Ucode :=
  match f with
  | none => { u with gcRule := 0, gcVte := 0, gcClause := 0, gcStep := 0 }
  | some f => { u with gcRule := BitVec.ofNat 6 f.rule, gcVte := BitVec.ofNat 9 f.vte, gcClause := BitVec.ofNat 10 f.clause
                       gcStep := BitVec.ofNat 6 f.step }

end Sys2Proof.Machine
end

