-- ==== Sys2Proof/Machine/Ecc.lean ====
section
/-! DEFINITION. The check codes of a DRAM line and its poison marker (R278 to R280): the codewords of a burst with x4 and with x8
devices, and what a read finds in a burst that comes back with some of its bits flipped. -/

namespace Sys2Proof.Machine

/-! ### GF(2^8) with field polynomial 0x11D (R278) -/

/-- Times alpha. -/
def gfDouble (a : BitVec 8) : BitVec 8 := (a <<< 1) ^^^ (if a.msb then 0x1D#8 else 0)

/-- A product. -/
def gfMul (a b : BitVec 8) : BitVec 8 :=
  (List.range 8).foldr (fun k v => gfDouble v ^^^ (if b.getLsbD k then a else 0)) 0

/-- Times alpha to the power `n`. -/
def gfShift : Nat → BitVec 8 → BitVec 8
  | 0, a => a
  | n + 1, a => gfShift n (gfDouble a)

/-- The syndromes of a codeword at the roots alpha^0 and alpha^1; its first symbol has the highest power. -/
def syndromes (w : List (BitVec 8)) : BitVec 8 × BitVec 8 :=
  (w.foldl (· ^^^ ·) 0, w.foldl (fun v c => gfDouble v ^^^ c) 0)

/-! ### The burst (R259, R278, R279) -/

/-- Bits of a beat of the burst: device `d` of width `k`. -/
def beatBits (w : BitVec 640) (b d k : Nat) : BitVec k := w.extractLsb' (40 * b + k * d) k

/-- The symbol of an x4 device in codeword `i`: its 4 bits of beat 2i, then its 4 bits of beat 2i + 1 (log entry 64). -/
def symOf (w : BitVec 640) (i d : Nat) : BitVec 8 := beatBits w (2 * i) d 4 ++ beatBits w (2 * i + 1) d 4

/-- The inverse of alpha + 1. -/
def gfThird : BitVec 8 := 0xF4

/-- Codeword `i` of a line with x4 devices, device 0 first: eight data symbols and two check symbols, with the poison marker 0xE53C on
the check bits of a poisoned line. -/
def PLine.codeword (l : PLine) (i : Nat) : List (BitVec 8) :=
  let ds := (List.range 8).map fun k => l.data.extractLsb' (64 * i + 8 * k) 8
  let s := syndromes ds
  let c := gfMul (s.1 ^^^ gfShift 2 s.2) gfThird
  ds ++ (if l.pois then [c ^^^ 0xE5, s.1 ^^^ c ^^^ 0x3C] else [c, s.1 ^^^ c])

/-- A received codeword: the stored one with the flipped bits. -/
def received (l : PLine) (err : BitVec 640) (i : Nat) : List (BitVec 8) :=
  (l.codeword i).zipIdx.map fun c => c.1 ^^^ symOf err i c.2

/-- The marker is taken off the check bits of a codeword. -/
def unmark (w : List (BitVec 8)) : List (BitVec 8) :=
  w.zipIdx.map fun c => if c.2 = 8 then c.1 ^^^ 0xE5 else if c.2 = 9 then c.1 ^^^ 0x3C else c.1

/-- What a codeword decodes to. -/
inductive CwRes where
  | clean
  /-- one symbol or bit is corrected: where, and what is added -/
  | fix (at' : Nat) (v : BitVec 8)
  | bad
  deriving DecidableEq, Repr

/-- Decode a codeword with x4 devices. -/
def cwDecode (w : List (BitVec 8)) : CwRes :=
  let s := syndromes w
  if s.1 = 0 ∧ s.2 = 0 then .clean
  else if s.1 = 0 then .bad
  else match (List.range 10).find? fun d => gfShift (9 - d) s.1 == s.2 with
    | some d => .fix d s.1
    | none => .bad

/-- What a read finds (R280). -/
inductive ReadRes where
  | ok (d : Line)
  | corrected (d : Line) (dev : BitVec 4)
  | poison (d : Line)
  | lost
  deriving DecidableEq, Repr

/-- The data bits of codewords. -/
def lineOf (ws : List (List (BitVec 8))) : Line :=
  BitVec.ofNat 512 (ws.zipIdx.foldl (fun v w => v + (w.1.take 8).zipIdx.foldl (fun u c =>
    u + c.1.toNat * 2 ^ (64 * w.2 + 8 * c.2)) 0) 0)

/-- A codeword with its symbol corrected. -/
def cwFixed (w : List (BitVec 8)) : List (BitVec 8) :=
  match cwDecode w with
  | .fix d v => w.zipIdx.map fun c => if c.2 = d then c.1 ^^^ v else c.1
  | _ => w

/-- The codewords of a line decode: the same device in every codeword that is not clean, or not at all (R278). -/
def lineDecode (ws : List (List (BitVec 8))) : ReadRes :=
  let devs := ws.filterMap fun w => match cwDecode w with | .clean => none | .fix d _ => some (some d) | .bad => some none
  match devs with
  | [] => .ok (lineOf ws)
  | none :: _ => .lost
  | some d :: _ =>
    if devs.all (· == some d) then .corrected (lineOf (ws.map cwFixed)) (BitVec.ofNat 4 d) else .lost

/-- A read with x4 devices. -/
def read4 (l : PLine) (err : BitVec 640) : ReadRes :=
  let ws := (List.range 8).map (received l err)
  match lineDecode ws with
  | .lost =>
    (match lineDecode (ws.map unmark) with
     | .ok d => .poison d
     | .corrected d _ => .poison d
     | _ => .lost)
  | r => r

/-! ### x8 devices (R279) -/

/-- The flipped bits of codeword `i`: 32 data bits of each of its beats, then its check bits. -/
def cwErr (err : BitVec 640) (i : Nat) : BitVec 72 :=
  beatBits err (2 * i) 4 8 ++ err.extractLsb' (40 * (2 * i + 1)) 32 ++ err.extractLsb' (40 * (2 * i)) 32

/-- Set bits. -/
def weight {n : Nat} (w : BitVec n) : Nat := ((List.range n).filter w.getLsbD).length

/-- The bit that a codeword with the flipped bits `e` corrects, `none` for no correction; a code that corrects one error and detects two
says no more of three or more (log entry 65). -/
def secded (e : BitVec 72) : Option (Option Nat) :=
  match weight e with
  | 0 => some none
  | 1 => some ((List.range 72).find? e.getLsbD)
  | 2 => none
  | _ =>
    let v := (Config.secdedMany e).toNat
    if v = 0 then some none else if v ≤ 72 then some (some (v - 1)) else none

/-- The device that carries a bit of a codeword. -/
def bitDev (b : Nat) : Nat := if b < 64 then b / 8 % 4 else 4

/-- The metadata byte of codeword `i` as it comes back. -/
def metaOf (l : PLine) (err : BitVec 640) (i : Nat) : BitVec 8 := (if l.pois then 0x5A else 0) ^^^ beatBits err (2 * i + 1) 4 8

/-- A read with x8 devices. -/
def read8 (l : PLine) (err : BitVec 640) : ReadRes :=
  let es := (List.range 8).map (cwErr err)
  let left (e : BitVec 72) : BitVec 72 := match secded e with
    | some (some b) => e ^^^ BitVec.ofNat 72 (2 ^ b)
    | _ => e
  let d : Line := l.data ^^^ BitVec.ofNat 512 (es.zipIdx.foldl (fun v e =>
    v + ((left e.1).extractLsb' 0 64).toNat * 2 ^ (64 * e.2)) 0)
  if 5 ≤ ((List.range 8).filter fun i => metaOf l err i == 0x5A).length then .poison d
  else if es.any fun e => (secded e).isNone then .lost
  else match es.filterMap fun e => (secded e).bind id with
    | [] => .ok d
    | b :: bs => .corrected d (if bs.all fun c => bitDev c == bitDev b then BitVec.ofNat 4 (bitDev b) else 0xF)

/-- A read of a line whose burst comes back with the bits of `err` flipped: 16 beats of 40 bits. -/
def readBurst (x8 : Bool) (l : PLine) (err : BitVec 640) : ReadRes := if x8 then read8 l err else read4 l err

end Sys2Proof.Machine
end

