-- ==== Sys2Proof/Machine/Answers.lean ====
section
/-! DEFINITION. The message unit (R199, R200, R57, R95, R116, R129, R131, R466): snoop answers, `DatDirty` and `CompAck` as
they reach a slice, and the memory events a transaction receives (R201). -/

namespace Sys2Proof.Machine

/-! ### The answer vector (R187, R194) -/

/-- AV, F2 lowest. -/
def TRegs.av (x : TRegs) : BitVec 64 := x.f5 ++ x.f4 ++ x.f3 ++ x.f2
/-- Write AV. -/
def TRegs.setAv (x : TRegs) (v : BitVec 64) : TRegs :=
  { x with f2 := v.extractLsb' 0 16, f3 := v.extractLsb' 16 16, f4 := v.extractLsb' 32 16, f5 := v.extractLsb' 48 16 }
/-- Set or clear the bit of an agent, when AV is armed. -/
def Trk.avBit (e : Trk) (a : Agent) (b : Bool) : Trk :=
  if e.h.armed then
    let m : BitVec 64 := BitVec.ofNat 64 (2 ^ a.toNat)
    { e with x := e.x.setAv (if b then e.x.av ||| m else e.x.av &&& ~~~m) }
  else e

/-! ### Finding the transaction of a message (R70) -/

/-- The open transaction that an HTID names: the slice is awake and the entry bound to an open transaction. -/
def State.htid (s : State) (sl : BitVec 5) (tid : BitVec 13) : Option (Fin 17 × Nat × Trk) :=
  if h : sl.toNat < 17 then
    let i : Fin 17 := ⟨sl.toNat, h⟩
    if (s.slice i).asleep then none
    else match s.ent i tid.toNat with
      | some e => if e.opens then some (i, tid.toNat, e) else none
      | none => none
  else none

/-! ### What an answer says -/

/-- INFO bits that the manual assigns to an answer (R74, R115, R131). -/
def infoOk (op : RspOp) (info : BitVec 16) : Bool :=
  match op with
  | .rspFwdS => info.toNat < 2
  | .rspFwdI => info.toNat < 2
  | .rspEvPend => info.toNat < 2 ^ 12
  | .rspI => if info.getLsbD 12 then info.toNat < 2 ^ 13 else info == 0
  | _ => info == 0

/-- The answer is malformed (R57): a reserved GRANT, a state that the answer cannot report, a non-zero STAT, or an INFO bit
that is not assigned. -/
def answerBad (anon : Bool) (snp : SnpOp) (op : RspOp) (f : RspArgs) : Bool :=
  f.stat != 0 || !infoOk op f.info ||
    (match grantOf f.grant with | none => true | some g => !answerOk anon snp op g)

/-- The answer leaves the agent a holder; one whose GRANT is malformed counts as one (R57). -/
def answerHolds (op : RspOp) : Bool :=
  match op with
  | .rspS => true | .rspFwdS => true | _ => false

/-- A malformed answer, a passed snoop deadline or a contradiction: the line is written UK at retirement (R189). -/
def Trk.setUkm (e : Trk) : Trk := { e with x := { e.x with ukm := true } }

/-- An answer contradicts the entry (R95): UK, UKM, counted for the slice and against the agent. -/
def State.contradict (s : State) (i : Fin 17) (t : Nat) (a : Agent) : State :=
  let (q, pa) := match s.ent i t with | some e => (e.r.a.part, e.r.a.pa) | none => (0, 0)
  let s := s.modEnt i t fun e => { e.setUkm with we := .uk }
  ((s.bump (slcPage i) 0x20C 15 8).corrEv (srcSlice i) q pa).protAgent a q pa

/-- Count a malformed answer (R57). -/
def State.malAnswer (s : State) (i : Fin 17) (t : Nat) (a : Agent) : State :=
  match s.ent i t with
  | none => s
  | some e => (s.modEnt i t Trk.setUkm).protAgent a e.r.a.part e.r.a.pa

/-- The line of the data handle. -/
def Trk.line (e : Trk) : Option PLine := e.h.dh.map Handle.l

/-- The working entry was `was` before a message: where it has changed, the stored entry is written again (R202). -/
def State.rewriteIf (s : State) (i : Fin 17) (t : Nat) (was : Dir) : State :=
  match s.ent i t with
  | some e => if e.we = was then s else s.rewrite i t
  | none => s

/-- The last awaited answer of Efkar's own transaction retires it (R91). -/
def State.endAwaiting (s : State) (i : Fin 17) (t : Nat) : State :=
  match s.ent i t with
  | some e => if e.stat == .awaiting && e.h.await.isEmpty then s.retire i t else s
  | none => s

/-- The forwarding answers (R56). -/
def RspOp.forwards : RspOp → Bool
  | .rspFwdS => true | .rspFwdI => true | _ => false

/-- The wait for an agent after its RSP: it goes on while a `DatDirty` that the RSP announces has not arrived (R466). -/
def Await.afterRsp (w : Await) (follows : Bool) : Option Await :=
  if follows && !w.got then some { w with rsp := false, dat := true } else none

/-- The wait for an agent after its `DatDirty`: it goes on until the RSP (R466). -/
def Await.afterDat (w : Await) : Option Await := if w.dat then none else some { w with got := true }

/-- Change the wait for one agent. -/
def Trk.modAwait (e : Trk) (a : Agent) (f : Await → Option Await) : Trk :=
  { e with h := { e.h with await := e.h.await.filterMap fun w => if w.ag == a then f w else some w } }

/-- The subject's data is forwarded to it (R105 to R107): the fetch no longer serves the subject. Without joined members its line
is not used; with them the window closes, and the line serves them (R118). A fetch that ends FENCED or poisoned says
nothing of the subject's completion, so its MEM event is OK (log entry 61); the events of other memory actions stay (R197). -/
def Trk.takeForward (e : Trk) : Trk :=
  let e := { e with m := { e.m with fwdd := true, memEv := e.m.memEv.map fun (k : MemStat × Bool) => if k.2 then (MemStat.ok, true) else k } }
  let e := (match e.h.grp with
    | some g =>
      if g.members.isEmpty then { (e.replaceFetch .ok) with h := { (e.replaceFetch .ok).h with grp := none } }
      else (e.shutWindow).setGroupLine e.line
    | none => e.replaceFetch .ok)
  { e with h := { e.h with dh := none } }

/-- What the message unit changes in the entry for an answer (R199): `follows` is the data-follows mark, `fwd` says that the answer
forwards the data to the subject. It does so at EX as at SF (log entry 71). -/
def Trk.applyAnswer (e : Trk) (a : Agent) (op : RspOp) (g : Option Grant) (holds follows li fwd : Bool) : Trk :=
  let e := { e with
    x := { e.x with ack := e.x.ack - (if follows then 1 else 2) }
    m := { e.m with la := op.code.extractLsb' 0 3, li := li, latch := true, fwdd := false } }
  let e := e.modAwait a (·.afterRsp follows)
  let others := e.h.holders.filter fun h => h.1 != a
  let e := { e with h := { e.h with holders := if holds then others ++ [(a, g.getD .s)] else others } }
  let e := if op == .rspI || op == .rspEvPend then
      (if holds then e.avBit a false else { (e.avBit a false) with we := e.we.drop a })
    else if op == .rspS || op == .rspFwdS then e.avBit a true else e
  let e := if g == some .m && !e.x.mh then
      { e with x := { e.x with mh := true, f1 := (e.x.f1 &&& 0xFFC0) ||| a.zeroExtend 16 } } else e
  if fwd then e.takeForward else e

/-- A snoop answer reaches its transaction (R199). -/
def State.takeAnswer (s : State) (i : Fin 17) (t : Nat) (snp : SnpOp) (op : RspOp) (f : RspArgs) (follows : Bool) : State :=
  match s.ent i t with
  | none => s
  | some e =>
    let a := f.src
    let s := s.traceEnt i t e 0x04 a op.code
    let g := grantOf f.grant
    let anon := match e.h.await.find? fun w => w.ag == a with | some w => w.anon | none => true
    let badG := match g with | none => true | some g => !answerOk anon snp op g
    let s := if answerBad anon snp op f then s.malAnswer i t a else s
    let told := op == .rspS || op == .rspFwdS || op == .rspFwdI
    let s := if told && !e.we.covers a then s.contradict i t a else s
    let pair := (a, f.info.extractLsb' 0 12)
    let seen := e.h.absorbed.contains pair
    let s := if (op == .rspEvPend || (op == .rspI && f.info.getLsbD 12)) && !seen then
      s.addRec i t a (f.info.extractLsb' 0 12) (op == .rspI) else s
    let fwd := op.forwards && !anon
    let s := s.stir i t fun e => e.applyAnswer a op g (answerHolds op || badG) follows (f.info.getLsbD 0) fwd
    ((s.rewriteIf i t e.we).endAwaiting i t)

/-- A `DatDirty` of an awaited agent reaches its transaction (R101, R199, R246). -/
def State.takeDatDirty (s : State) (i : Fin 17) (t : Nat) (f : DatArgs) : State :=
  match s.ent i t with
  | none => s
  | some e =>
    let a := f.agt
    let s := s.traceEnt i t e 0x04 a (DatOp.code .datDirty)
    let s := if (f.stat != 0 && f.stat != Status.poison.code) || f.grant != 0 then s.malAnswer i t a else s
    let absorbed := e.h.absorbed.any fun k => k.1 == a
    let s := if !e.we.covers a && !absorbed then s.contradict i t a else s
    let l : PLine := ⟨f.data, f.stat != 0⟩
    let drop := e.r.kind == .req .wrFull || absorbed
    let s := s.modEnt i t fun e =>
      { (e.modAwait a Await.afterDat) with x := { e.x with ack := e.x.ack - 1, dd := true }, m := { e.m with latch := true } }
    let s :=
      if drop then s
      else
        let s := s.modEnt i t fun e => (e.takeDirty l .area).trimGroup
        let s := s.writeThrough i ⟨.line e.r.a.pa, e.r.home, l, [], none, some a, true, false⟩ e.r.a.part
        if ((s.slice i).mem.wtWait.any fun w => w.area == some a && w.addr == .line e.r.a.pa) || s.chLost e.r.home then s
        else s.modEnt i t fun e => if e.h.dh.map Handle.loc == some .area then e.toWmb l else e
    ((s.rewriteIf i t e.we).stir i t id).endAwaiting i t

/-! ### CompAck (R63, R133, R233) -/

/-- A `CompAck` reaches the slice: of the subject, or of a member of its group; MSG and CA are set by the last that the
group owes (R233). -/
def State.takeAck (s : State) (i : Fin 17) (t : Nat) (a : Agent) : State :=
  match s.ent i t with
  | none => s
  | some e =>
    let s := s.traceEnt i t e 0x04 a RspOp.compAck.code
    match e.h.grp with
    | none => s.stir i t fun e => { e with x := { e.x with ca := true }, m := { e.m with latch := true } }
    | some g =>
      match g.owed.find? fun m => match s.ent i m with | some k => k.r.a.src == a | none => false with
      | none => s
      | some m =>
        let g' := { g with owed := g.owed.filter (· ≠ m), members := g.members.filter (· ≠ m) }
        let s := s.modEnt i t fun e => { e with h := { e.h with grp := some g' } }
        let s := if m = t then s else s.freeEnt i m
        if g'.owed.isEmpty then
          s.stir i t fun e => { e with x := { e.x with ca := true }, m := { e.m with latch := true } }
        else s

/-- The open transaction of a line that a `CompAck` of agent `a` names: its subject's, or a member's of its group. -/
def State.ackTarget (s : State) (i : Fin 17) (f : RspArgs) : Option Nat :=
  match (s.slice i).opener f.loc with
  | none => none
  | some (t, e) =>
    let same (r : Req) : Bool := r.a.src == f.src && r.a.part == f.part && r.a.gen == f.gen && r.port.isSome
    let mem := match e.h.grp with
      | some g => g.owed.any fun m => match s.ent i m with | some k => same k.r | none => false
      | none => false
    if same e.r || mem then some t else none

/-! ### Memory events (R201) -/

/-- The fetch has come back: the read-combining window closes (R117). -/
def Trk.closeWindow (e : Trk) : Trk := ({ e with h := { e.h with fetching := false } } : Trk).shutWindow.trimGroup

/-- A fetch completes: its line becomes the data handle's (R190), or serves the joined members alone (R118). One that has been
replaced raises no event: that was raised when it was replaced (R101). -/
def Trk.takeFetch (e : Trk) (m : MemAct) : Trk :=
  let e := e.closeWindow
  if e.h.fetchDead then { e with h := { e.h with fetchDead := false } }
  else if e.m.fwdd then
    let e := e.setGroupLine m.l
    { e with m := { e.m with memEv := e.m.memEv ++ [(.ok, true)] } }
  else
    { e with m := { e.m with memEv := e.m.memEv ++ [(m.stat, true)] }
             h := { e.h with dh := (m.l.map fun l => ⟨.slot, l⟩).or e.h.dh } }

/-- A completed memory action raises its MEM event (R201). -/
def Trk.takeMem (e : Trk) (m : MemAct) : Trk :=
  if m.fetch then e.takeFetch m else { e with m := { e.m with memEv := e.m.memEv ++ [(m.stat, false)] } }

/-! ### Ends without the verb (R123, R124, R169, R193, R206) -/

/-- The agent could hold the line in M (R123). -/
def Trk.couldHoldM (e : Trk) (a : Agent) : Bool := e.we == .uk || e.we == .ex a

/-- A transaction ends with snoops unanswered (R124): the entry becomes UK, and where an agent that has not answered could hold the
line in M, the line is written to memory as poisoned. -/
def State.poisonUnanswered (s : State) (i : Fin 17) (t : Nat) : State :=
  match s.ent i t with
  | none => s
  | some e =>
    let s := if e.h.await.isEmpty then s else s.modEnt i t Trk.setUkm
    if e.h.await.any fun w => w.rsp && !w.got && e.couldHoldM w.ag then
      s.writePoison i e.r.home e.r.a.pa e.r.a.part none else s

/-- A transaction that its slice cannot go on with ends, and the joined members with it: what has no completion completes FENCED
(R206, R362). -/
def State.endFenced (s : State) (i : Fin 17) (t : Nat) : State :=
  match s.ent i t with
  | none => s
  | some e =>
    let s := s.completeEnt i t (.comp .fenced .i 0) true
    let s := s.completeMembers i e fun _ => .comp .fenced .i 0
    (s.poisonUnanswered i t).retire i t

/-! ### Reading a tracker entry (R188, R207) -/

/-- A joined entry that ends by itself leaves its group (R169, R207); its `CompAck` is owed no more (R233). -/
def State.leaveGroup (s : State) (i : Fin 17) (o t : Nat) : State :=
  s.modEnt i o fun e => match e.h.grp with
    | none => e
    | some g =>
      let g' := { g with members := g.members.filter (· ≠ t), owed := g.owed.filter (· ≠ t) }
      let e := { e with h := { e.h with grp := some g' } }
      if g.owed.contains t && g'.owed.isEmpty then
        ({ e with x := { e.x with ca := true }, m := { e.m with latch := true } } : Trk).wake false
      else e

/-- A transaction that the engine cannot go on with: completed FENCED, its set marked, and the slice severe (R206, R207). -/
def State.activationFails (s : State) (i : Fin 17) (t : Nat) : State :=
  match s.ent i t with
  | none => s
  | some e =>
    let s := match e.stat with
      | .joined o => ((s.leaveGroup i o t).completeEnt i t (.comp .fenced .i 0) true).freeEnt i t
      | _ => s.endFenced i t
    (s.markSuk i e.r.a.pa).uncorEv (srcSlice i) e.r.a.part e.r.a.pa

/-- The four words of a tracker entry are read (R188); an entry that cannot be read ends, whoever reads it (R207). The flag says
that it has ended. -/
def State.readTrk (s : State) (i : Fin 17) (t : Nat) : State × Bool :=
  match s.readRun i 2 (trkWord t) 4 with
  | (s, false) => (s, false)
  | (s, true) => ((s.modSlice i fun x => { x with ar := x.ar.wroteRun 2 (trkWord t) 4 }).activationFails i t, true)

/-- A happening of a bound entry that reads its words first (R207). -/
def State.withTrk (s : State) (i : Fin 17) (t : Nat) (f : State → State) : State :=
  match s.readTrk i t with
  | (s, true) => s
  | (s, false) => f s

end Sys2Proof.Machine
end

