-- ==== Sys2Proof/Machine/Queue.lean ====
section
/-! DEFINITION. The descriptors of the home queues (R320 to R322, R328): their 128 bits, the queue of a handle line, the place
of a ring entry, and what a descriptor may hold. -/

namespace Sys2Proof.Machine

/-- A queue descriptor (R321). -/
structure QDesc where
  handle : BitVec 13
  rbase : BitVec 26
  size : BitVec 4
  head : BitVec 17
  tail : BitVec 17
  wmark : BitVec 16
  part : PartId
  v : Bool
  wv : Bool
  wagt : Agent
  watag : ATag
  wgen : Gen
  deriving DecidableEq, Repr

/-- Its 128 bits. -/
def QDesc.enc (q : QDesc) : BitVec 128 :=
  let b (x : Bool) : BitVec 1 := if x then 1 else 0
  q.handle ++ q.rbase ++ q.size ++ q.head ++ q.tail ++ q.wmark ++ q.part ++ b q.v ++ b q.wv ++ q.wagt ++ q.watag ++ q.wgen ++
    (0 : BitVec 1)

/-- The descriptor that 128 bits hold. -/
def QDesc.dec (w : BitVec 128) : QDesc :=
  { handle := w.extractLsb' 115 13, rbase := w.extractLsb' 89 26, size := w.extractLsb' 85 4, head := w.extractLsb' 68 17
    tail := w.extractLsb' 51 17, wmark := w.extractLsb' 35 16, part := w.extractLsb' 29 6, v := w.getLsbD 28
    wv := w.getLsbD 27, wagt := w.extractLsb' 21 6, watag := w.extractLsb' 9 12, wgen := w.extractLsb' 1 8 }

/-- Entries in the queue (R321). -/
def QDesc.count (q : QDesc) : Nat := (q.tail - q.head).toNat
/-- Entries of the ring. -/
def QDesc.ring (q : QDesc) : Nat := 2 ^ (q.size.toNat + 6)
/-- The notification threshold. -/
def QDesc.threshold (q : QDesc) : Nat := q.wmark.toNat + 1
/-- Channel line address of entry `k`. -/
def QDesc.entry (q : QDesc) (k : Nat) : Nat := q.rbase.toNat * 64 + k % q.ring

/-- A descriptor of a slice. -/
def Slice.desc (x : Slice) (k : Nat) : QDesc := QDesc.dec (tabGet 0 x.ar.desc k)
/-- Write a descriptor. -/
def Slice.setDesc (x : Slice) (k : Nat) (q : QDesc) : Slice :=
  { x with ar := { x.ar.wrote 4 k with desc := tabSet 0 x.ar.desc k q.enc } }

/-- A descriptor is read (R321): an uncorrectable one reads invalid until it is written again. -/
def State.readDesc (s : State) (i : Fin 17) (k : Nat) : State :=
  match s.readWord i 4 k with
  | (s, false) => s
  | (s, true) => (s.modSlice i fun x => x.setDesc k { x.desc k with v := false }).corrEv (srcSlice i)

/-- Line number of the first line of the queue window (SVC_QWIN, R320). -/
def State.qwinBase (s : State) : Nat := (s.fld 61 0x104 19 0 * 2 ^ 13 + s.fld 61 0x100 31 19) * 2 ^ 13

/-- The line lies in the queue window, and the window is enabled. -/
def State.inQwin (s : State) (pa : LineAddr) : Bool :=
  s.flag 61 0x100 0 && pa.toNat / 2 ^ 13 * 2 ^ 13 == s.qwinBase

/-- Handle index of a line (R320). -/
def handleOf (pa : LineAddr) : BitVec 13 := pa.extractLsb' 0 13

/-- The line of a handle. -/
def State.handleLine (s : State) (h : BitVec 13) : LineAddr := BitVec.ofNat 46 (s.qwinBase + h.toNat)

/-- The valid descriptor of a handle. -/
def Slice.findDesc (x : Slice) (h : BitVec 13) : Option (Nat × QDesc) :=
  ((x.ar.desc.map fun e => (e.1, QDesc.dec e.2)).find? fun e => e.2.v && e.2.handle == h)

/-- The descriptor of a handle line is read (R321). -/
def State.readHandleDesc (s : State) (i : Fin 17) (pa : LineAddr) : State :=
  match (s.slice i).findDesc (handleOf pa) with
  | some (k, _) => s.readDesc i k
  | none => s

/-- The queue that a request names: its descriptor, or the cause of `Comp` FAILED (R311, R320). -/
def State.queueFor (s : State) (i : Fin 17) (a : ReqArgs) : BitVec 8 × Option (Nat × QDesc) :=
  if !s.inQwin a.pa then (0x01, none)
  else match (s.slice i).findDesc (handleOf a.pa) with
    | none => (0x01, none)
    | some (k, q) => if q.part = a.part then (0, some (k, q)) else (0x02, none)

/-- HEAD advances in the commit that sends the entry (R324). -/
def State.advanceHead (s : State) (i : Fin 17) (r : Req) : State :=
  let s := s.readHandleDesc (s.svcSlice i) r.a.pa
  match s.queueFor (s.svcSlice i) r.a with
  | (_, some (k, q)) => s.modSlice (s.svcSlice i) (·.setDesc k { q with head := q.head + 1 })
  | (_, none) => s

/-! ### What a WRITE of SVC_QCMD must satisfy (R328) -/

/-- The first line of a channel above the normal layout (R261), as the layout check finds it. -/
def State.layoutTop (s : State) : Nat :=
  (s.fld 0 0x124 21 0 + 1 - s.fld 0 0x120 21 0) * 2 ^ 20

/-- Lines that channel n holds for its own home: half of them when mirrored (R284). -/
def State.usable (s : State) (n : Fin 16) : Nat := if s.mirrored n then s.capacity n / 2 else s.capacity n

/-- Two ranges of lines meet. -/
def rangesMeet (a b : Nat × Nat) : Bool := decide (a.1 < b.1 + b.2) && decide (b.1 < a.1 + a.2)

/-- The DET windows of channel n: first line and length (R263). -/
def State.detWindows (s : State) (n : Fin 16) : List (Nat × Nat) :=
  let k := ((List.range 4).filter fun d => s.detMap d == n).length
  if k = 0 then []
  else ((List.range 8).filter s.rgnOn).map fun r =>
    (s.fld (dchPage n) (0x130 + 4 * r) 16 0 * 2 ^ 15, k * ((s.rgnLimit r - s.rgnBase r + 1) * 2 ^ 13))

/-- The cause for which a WRITE is refused (SVC_QSTAT.CAUSE), the lowest code first; 0 for none. -/
def State.descCause (s : State) (h : Fin 16) (i : Fin 17) (idx : Nat) (q : QDesc) : BitVec 8 :=
  let pa := s.handleLine q.handle
  let others := ((s.slice i).ar.desc.map fun e => (e.1, QDesc.dec e.2)).filter fun e => e.2.v && e.1 != idx
  let ring : Nat × Nat := (q.rbase.toNat * 64, q.ring)
  if s.homeOf pa ≠ h ∨ (s.detRgn pa).isSome then 0x01
  else if others.any fun e => e.2.handle == q.handle then 0x02
  else if ring.1 < s.layoutTop ∨ s.usable h < ring.1 + ring.2 then 0x03
  else if (s.detWindows h).any (rangesMeet ring) ∨ others.any fun e => rangesMeet ring (e.2.rbase.toNat * 64, e.2.ring) then 0x04
  else if 10 < q.size.toNat ∨ q.ring < q.threshold then 0x05
  else if s.fld 60 (0x200 + 4 * q.part.toNat) 9 0 < (others.filter fun e => e.2.part == q.part).length + 1 then 0x06
  else 0

end Sys2Proof.Machine
end

