-- ==== Sys2Proof/Machine/Engine.lean ====
section
/-! DEFINITION. The protocol engine (R184 to R198, R204, R233): what one activation does in its X, D, M and C slots, the
completions of a group (R118), and the end of a transaction (R193). -/

namespace Sys2Proof.Machine

/-! ### Reading the tracker entry (R187) -/

/-- F index: F6 and F7 hold the working entry, WAY and WV. -/
def Trk.f (e : Trk) (k : Nat) : BitVec 16 :=
  match k with
  | 0 => e.x.f0 | 1 => e.x.f1 | 2 => e.x.f2 | 3 => e.x.f3 | 4 => e.x.f4 | 5 => e.x.f5
  | 6 => e.we.enc.extractLsb' 0 16
  | _ => e.way ++ bit1 e.wv ++ (0 : BitVec 3) ++ e.we.enc.extractLsb' 16 8

/-- Write F0 to F5. -/
def TRegs.setF (x : TRegs) (k : Nat) (v : BitVec 16) : TRegs :=
  match k with
  | 0 => { x with f0 := v } | 1 => { x with f1 := v } | 2 => { x with f2 := v }
  | 3 => { x with f3 := v } | 4 => { x with f4 := v } | 5 => { x with f5 := v } | _ => x

/-- The sources of SRCA and SRCB (R198). -/
def Trk.source (e : Trk) (now : Tk) (k : Nat) : BitVec 16 :=
  match k with
  | 8 => e.r.a.src.zeroExtend 16
  | 9 => e.r.kind.opc.zeroExtend 16
  | 10 => e.r.a.part.zeroExtend 16
  | 11 => e.r.a.gen.zeroExtend 16
  | 12 => e.r.a.atag.zeroExtend 16
  | 13 => e.r.a.pa.extractLsb' 0 16
  | 14 => e.x.ack.zeroExtend 16
  | 15 => now.extractLsb' 0 16
  | k => e.f k

/-! ### The X slot (R198) -/

/-- The compares. -/
def ccHolds (cc : BitVec 3) (a b : BitVec 16) : Bool :=
  match cc.toNat with
  | 0 => a == b
  | 1 => a != b
  | 2 => a.ult b
  | 3 => !a.ult b
  | 4 => a.slt b
  | 5 => !a.slt b
  | 6 => a &&& b != 0
  | _ => a &&& b == 0

/-- What the X slot leaves in F0 to F5, FL0 to FL3 and CF. -/
def Trk.runX (e : Trk) (now : Tk) (x : XAct) : TRegs :=
  let a := e.source now x.srca.toNat
  let b := if x.b then e.source now (x.imm.extractLsb' 12 4).toNat else x.imm
  let put (v : BitVec 16) : TRegs := e.x.setF x.dst.toNat v
  match x.xop.toNat with
  | 1 => put b
  | 2 => put (a + b)
  | 3 => put (a - b)
  | 4 => put (a &&& b)
  | 5 => put (a ||| b)
  | 6 => put (a ^^^ b)
  | 7 => put (a <<< (b.toNat % 16))
  | 8 => put (a >>> (b.toNat % 16))
  | 9 => { e.x with cf := ccHolds x.cc a b }
  | 10 => { e.x with fl := (e.x.fl ||| x.imm.extractLsb' 0 4) &&& ~~~(x.imm.extractLsb' 8 4) }
  | _ => e.x

/-- Commit the X slot's result: the flags and fields that X writes. In a clause whose send clears and arms AV, a value that X leaves as it
was does not restore F2 to F5 (log entry 81). -/
def Trk.putX (e : Trk) (r old : TRegs) : Trk :=
  let pick (new was now' : BitVec 16) : BitVec 16 := if new = was then now' else new
  { e with x := { e.x with
      f0 := pick r.f0 old.f0 e.x.f0, f1 := pick r.f1 old.f1 e.x.f1, f2 := pick r.f2 old.f2 e.x.f2
      f3 := pick r.f3 old.f3 e.x.f3, f4 := pick r.f4 old.f4 e.x.f4, f5 := pick r.f5 old.f5 e.x.f5
      fl := r.fl, cf := r.cf } }

/-! ### Targets (R194) -/

/-- O of the base grammar: whom WE covers, less the subject, within the scope. -/
def State.others (s : State) (e : Trk) : List Agent := (s.covered e.r.a.pa e.we).filter (· ≠ e.r.a.src)

/-- The agents a snoop's target resolves to. -/
def State.target (s : State) (e : Trk) (m : Send) : List Agent :=
  let one (a : Agent) : List Agent := if a = 63 then [] else if (s.scope e.r.a.pa).contains a then [a] else []
  match m.tgt.toNat with
  | 1 => one (e.we.ptr 0)
  | 2 => one (e.we.ptr 1)
  | 3 => one (e.we.ptr 2)
  | 4 => (match e.we.fwdr with | some a => one a | none => [])
  | 5 => s.others e
  | 6 => (s.scope e.r.a.pa).filter (· ≠ e.r.a.src)
  | 7 => one ((e.f m.fsel.toNat).extractLsb' 0 6)
  | _ => []

/-! ### Branch conditions (R192) -/

/-- The MSC of the slice is enabled (R235). -/
def State.mscEnabled (s : State) (i : Fin 17) : Bool := (s.slice i).mem.ctl.hits

/-- The line of the data handle is poisoned. -/
def Trk.dhPois (e : Trk) : Bool := match e.h.dh with | some h => h.l.pois | none => false

/-- A condition of R193 holds; a reserved one does not. -/
def State.condHolds (s : State) (i : Fin 17) (e : Trk) (c : BitVec 6) : Bool :=
  match c.toNat with
  | 0 => e.x.fl.getLsbD 0
  | 1 => e.x.fl.getLsbD 1
  | 2 => e.x.fl.getLsbD 2
  | 3 => e.x.fl.getLsbD 3
  | 4 => e.x.mh
  | 5 => e.x.dd
  | 6 => e.x.ukm
  | 7 => e.x.ca
  | 8 => e.x.cf
  | 9 => e.x.ack == 0
  | 0xA => e.h.cs
  | 0xB => e.h.mscHit
  | 0xC => s.mscEnabled i
  | 0xD => e.r.rk
  | 0xE => e.we.coarse
  | 0xF => e.we.names e.r.a.src
  | 0x10 => (s.others e).isEmpty
  | 0x11 => e.m.ms == 1
  | 0x12 => e.m.ms == 2
  | 0x13 => (match e.r.cd with | some l => l.pois | none => false)
  | 0x14 => e.dhPois
  | 0x15 => e.we.code == 0
  | 0x16 => e.we.code == 1
  | 0x17 => e.we.code == 2
  | 0x18 => e.we.code == 3
  | 0x19 => e.we.code == 4
  | 0x1A => e.m.ev == 0
  | 0x1B => e.m.ev == 1
  | 0x1C => e.m.ev == 2
  | _ => false

/-! ### The D slot (R196) -/

/-- The opener's data was forwarded to it, and the line that serves the joined members is poisoned or has not come: they receive no
copy (R118). -/
def Trk.groupBad (e : Trk) : Bool :=
  e.m.fwdd && (match e.h.grp with
    | some g => (match g.line with | some l => l.pois | none => true)
    | none => false)

/-- The `RdShd` requests of a read-combining group, the opener first (R118). -/
def State.groupShd (s : State) (i : Fin 17) (t : Nat) (e : Trk) : List (Nat × Agent) :=
  let ms := match e.h.grp with | some g => g.members | none => []
  (t, e.r.a.src) :: ms.filterMap fun m =>
    match s.ent i m with
    | some k => if k.r.kind == .req .rdShd then some (m, k.r.a.src) else none
    | none => none

/-- The requests of a group that receive a copy, R of R118. -/
def State.groupReaders (s : State) (i : Fin 17) (t : Nat) (e : Trk) : List (Nat × Agent) :=
  if e.groupBad then [(t, e.r.a.src)] else s.groupShd i t e

/-- A group with members. -/
def Trk.grouped (e : Trk) : Bool := match e.h.grp with | some g => !g.members.isEmpty | none => false

/-- An opcode whose normal completion grants a copy (R50). -/
def reqGrants : ReqOp → Bool
  | .rdShd => true | .rdOwn => true | .upgr => true | _ => false

/-- Change WE, and GR, and write the way when W is 1. -/
def State.putWe (s : State) (i : Fin 17) (t : Nat) (w : Bool) (d : Dir) (g : Option Grant) : State :=
  let s := s.modEnt i t fun e => { e with we := d, m := { e.m with gr := g.getD e.m.gr } }
  if w then s.writeDir i t else s

/-- D-slot SHARE (R104, R118, R233); O' are the holders less all that read in the group. -/
def State.dShare (s : State) (i : Fin 17) (t : Nat) (e : Trk) (w : Bool) : State :=
  if e.grouped then
    let again := (s.groupShd i t e).map Prod.snd
    let (d, g) := e.we.group (e.we.ptrs.filter fun a => !again.contains a) ((s.groupReaders i t e).map Prod.snd)
    s.putWe i t w d (some g)
  else
    let (d, g) := e.we.share e.r.a.src
    s.putWe i t w d (some g)

/-- A `RdCur` or `Resv` whose line has no entry in a marked set claims a free way at its directory write (R87, R96); a DET one that
finds none is counted (R174). -/
def State.lateClaim (s : State) (i : Fin 17) (t : Nat) : State :=
  match s.ent i t with
  | none => s
  | some e =>
    let set := sfSet e.r.a.pa
    let x := s.slice i
    if e.h.noDir || !x.suk set then s
    else match ((List.range 16).filter (s.wayOk e.r.home e.r.rk)).find? fun w =>
        (x.sfGet set w).dir == .un && (x.wayHolder set w).isNone with
      | some w => s.setEnt i t (some { e with way := BitVec.ofNat 4 w, wv := true })
      | none => if s.detTxn e.r then s.bump 0 0x178 7 0 else s

/-- D-slot BUILD (R96, R467, R118); `grants` is false in a clause whose completion grants no copy. The holders are those the answers
report, less the fenced, the subject, and the agents that read again in the group. -/
def State.dBuild (s : State) (i : Fin 17) (t : Nat) (e : Trk) (w grants : Bool) : State :=
  let op := match e.r.kind with | .req op => some op | _ => none
  let sub := match op with | some op => if grants && reqGrants op then some e.r.a.src else none | none => none
  let again := (s.groupShd i t e).map Prod.snd
  let hs := e.h.holders.filter fun k => !s.agFenced k.1 && !again.contains k.1
  let (d, _, bad) := Dir.build hs sub
  let g : Grant := if hs.isEmpty then .e else .s
  let owners := hs.filter fun k => k.2 == .e || k.2 == .m
  let s := if bad then owners.foldl (fun s k => s.protAgent k.1 e.r.a.part e.r.a.pa) s else s
  if e.grouped && grants && !bad then
    let (d, g) := Dir.group .un (hs.map Prod.fst) ((s.groupReaders i t e).map Prod.snd)
    s.putWe i t w d (some g)
  else
    let claims := w && !e.wv && (op == some .rdCur || op == some .resv) && !hs.isEmpty
    let s := if claims then s.lateClaim i t else s
    s.putWe i t w d (some g)

/-- A write-through of a transaction's own line: the data handle moves to the merging-buffer entry (R190), and its MEM event is
raised when the line is in the buffer (R196). -/
def State.dWrite (s : State) (i : Fin 17) (t : Nat) (e : Trk) (l : PLine) (writes : List WId) : State :=
  let lost := s.chLost e.r.home
  let s := s.modEnt i t fun k =>
    let k := k.toWmb l
    { k with h := { k.h with wrote := true, wroteLost := k.h.wroteLost || lost } }
  s.writeThrough i ⟨.line e.r.a.pa, e.r.home, l, writes, some t, none, true, true⟩ e.r.a.part

/-- Replace bytes `off` to `off` + `lenm1` of a line (R111). -/
def mergeBytes (off lenm1 : Nat) (base new : Line) : Line :=
  let m : Line := BitVec.ofNat 512 ((2 ^ (8 * (lenm1 + 1)) - 1) * 2 ^ (8 * off))
  (base &&& ~~~m) ||| (new &&& m)

/-- D-slot FETCH (R101, R117, R196). Data that a `DatDirty` or an absorbed `EvDirty` has left stands in place of the fetch (R101, R129). -/
def State.dFetch (s : State) (i : Fin 17) (t : Nat) (e : Trk) : State :=
  if e.x.dd && e.h.dh.isSome then s.modEnt i t fun k =>
    { k with m := { k.m with memEv := k.m.memEv ++ [(if k.dhPois then .poison else .ok, true)] } }
  else
    let (s, missed) := s.startFetch i t e.r
    let mj := s.fld (slcPage i) 0x214 2 0
    if missed && e.r.kind == .req .rdShd && !e.h.cs && mj != 0 then
      (s.modEnt i t fun e => { e with h := { e.h with grp := some ⟨true, mj, [], [], none⟩ } }).joinLoop i t 7
    else s

/-- The D slot; `e` is the entry as the activation began. Agent 63 is no holder, so OWN leaves it no entry (R82). -/
def State.runD (s : State) (i : Fin 17) (t : Nat) (e : Trk) (d : DAct) (grants : Bool) : State :=
  match d.dop.toNat with
  | 1 => s.putWe i t d.w e.we none
  | 2 => s.putWe i t d.w (if e.r.a.src = 63 then .un else .ex e.r.a.src) (some .e)
  | 3 => s.dShare i t e d.w
  | 4 =>
    let a := match d.arg.toNat with
      | 0 => e.r.a.src
      | 1 => e.we.ptr 0
      | 2 => e.we.ptr 1
      | 3 => e.we.ptr 2
      | _ => e.x.f1.extractLsb' 0 6
    s.putWe i t d.w (e.we.drop a) none
  | 5 => s.putWe i t d.w .un none
  | 6 => s.putWe i t d.w .uk none
  | 7 => s.dBuild i t e d.w grants
  | 8 => s.dFetch i t e
  | 9 =>
    if d.arg.getLsbD 2 then
      (match e.r.cd with
       | some l => (s.dWrite i t e l e.r.wId.toList).cdReturn i t
       | none => s)
    else (match e.line with | some l => s.dWrite i t e l e.r.wId.toList | none => s)
  | 10 => s.writePoison i e.r.home e.r.a.pa e.r.a.part (some t)
  | 11 =>
    (match e.r.cd, e.line with
     | some c, some l =>
       let n := mergeBytes (e.x.f0.extractLsb' 10 6).toNat (e.x.f0.extractLsb' 4 6).toNat l.data c.data
       (s.dWrite i t e ⟨n, l.pois || c.pois⟩ e.r.wId.toList).cdReturn i t
     | _, _ => s)
  | 12 => (match e.r.cd with
     | some l => (s.offerVictim i e.r.home e.r.a.pa l).cdReturn i t
     | none => s)
  | 13 => if e.r.rk then s else s.prefetch i e.r.home e.r.a.pa
  | _ => s

/-! ### Completions (R118, R195, R154, R156) -/

/-- A microcode fault (R193, R195). -/
def State.mcodeFault (s : State) (i : Fin 17) : State := (s.bump (slcPage i) 0x260 15 8).corrEv (srcSlice i)

/-- A `Resv` that completes OK sets the subject's register at its home (R154). -/
def State.setResv (s : State) (i : Fin 17) (r : Req) : State :=
  s.modSlice (s.svcSlice i) fun x =>
    { x with resv := x.resv.filter (fun k => !(k.ag == r.a.src && k.home == r.home)) ++
        [⟨r.a.src, r.home, r.a.pa, r.a.arg.getLsbD 28, r.a.part, r.a.gen, s.edge, s.fld (slcPage i) 0x220 15 0⟩] }

/-- What a completion brings with it: the reservation that a `Resv` sets, those that a grant of E ends (R156), the counts of
SLC_RESVCNT. -/
def State.completionEffects (s : State) (i : Fin 17) (r : Req) (m : CompMsg) : State :=
  let granted := match m with | .comp .ok g _ => g | .dat _ false g _ => g | _ => .i
  let s := if granted == .e then s.killResv i r.a.pa else s
  match r.kind, m with
  | .req .resv, .dat _ false _ _ => s.setResv i r
  | .req .qDeq, .dat _ _ _ _ => s.advanceHead i r
  | .req .condWr, .comp .ok _ _ => s.bump (slcPage i) 0x224 23 16
  | .req .condWr, .comp .busy _ _ => s.bump (slcPage i) 0x224 15 8
  | _, _ => s

/-- The completion of one bound transaction with what it brings. An `EvDirty` whose data was not written is stale and counted, and
one whose channel is lost completes FENCED in place of OK (R114). -/
def State.completeFull (s : State) (i : Fin 17) (t : Nat) (r : Req) (m : CompMsg) : State :=
  match s.ent i t with
  | none => s
  | some e =>
    let ev := r.kind == .req .evDirty && !e.h.cs
    let m := if ev && e.h.wroteLost && m == .comp .ok .i 0 then .comp .fenced .i 0 else m
    let nothing := (match m with | .comp st _ _ => st == .busy || st == .failed || st == .timeout | _ => false) ||
      ev && !e.h.wrote
    let s := if ev && !e.h.wrote && m == .comp .ok .i 0 then s.countStale i else s
    (s.completeEnt i t m nothing).completionEffects i r m

/-- The data of a DAT send: the line of the data handle, the companion, or the service result; a flit that reads no line, or
a poisoned one, carries STAT POISON. -/
def State.sendData (s : State) (e : Trk) (m : Send) : State × PLine :=
  let l := match m.dsrc.toNat with
    | 1 => e.line
    | 2 => e.r.cd
    | 3 => e.m.svcLine
    | _ => none
  match l with
  | some l => (s, ⟨l.data, l.pois || statusOf m.stat == .poison⟩)
  | none => s.poisonLine

/-- INFO of a `Comp` (R194). -/
def Trk.sendInfo (e : Trk) (m : Send) : BitVec 16 :=
  let hi := if m.ifs then (e.f m.fsel.toNat) &&& 0xFFFE else 0
  hi ||| (if m.fwd then 1 else 0)

/-- Status of a `Comp`: the service result's where the completion is built from the result word, whose 16 bits are all INFO (R308,
R311, log entry 16). -/
def Trk.sendStat (e : Trk) (m : Send) : Status :=
  if m.ifs && m.fsel == 1 && m.stat == 0 then e.m.svcStat else statusOf m.stat

/-- The completion message of an M slot for one member: `g` is the grant, `forward` false for a member whose data the home
supplies. -/
def compOf (m : Send) (op : RspOp) (st : Status) (g : Grant) (info : BitVec 16) : CompMsg :=
  match op with
  | .retry => .retry
  | .err => .err (info.extractLsb' 0 8)
  | _ => .comp st (if m.cmp then g else .i) info

/-- The completion of a joined member: `first` is the opener's, `g` the member's grant, `l` the line that serves the members of an
opener whose data was forwarded, which has not come where its fetch ended FENCED. -/
def memberMsg (first : CompMsg) (cur : Bool) (g : Grant) (l : Option PLine) : CompMsg :=
  let op : DatOp := if cur then .datCur else .datShd
  let dat (po : Bool) (d : Line) : CompMsg := .dat op po (if cur || po then .i else g) d
  match first, l with
  | .comp .ok _ _, some l => dat l.pois l.data
  | .comp .ok _ _, none => .comp .fenced .i 0
  | .comp st _ _, _ => .comp st .i 0
  | .dat _ po _ d, _ => dat po d
  | x, _ => x

/-- The message gives its subject the state `g`, if it is a completion that grants. -/
def CompMsg.granting (m : CompMsg) (g : Grant) : CompMsg :=
  match m with
  | .comp .ok _ info => .comp .ok g info
  | .dat op false _ d => .dat op false g d
  | m => m

/-- The message completes with a grant where its verb grants one. -/
def CompMsg.good : CompMsg → Bool
  | .comp .ok _ _ => true | .dat _ false _ _ => true | _ => false

/-- The entry leaves agents out (R118), also where the verb has written it. -/
def State.leaveOut (s : State) (i : Fin 17) (t : Nat) (as : List Agent) : State :=
  (s.modEnt i t fun e => { e with we := as.foldl Dir.drop e.we }).rewrite i t

/-- A completion sent to a group (R118, R195, R233): the opener first, then each member in the order of joining. Where the line is
poisoned, or has not come, the entry leaves every member out. -/
def State.completeGroup (s : State) (i : Fin 17) (t : Nat) (e : Trk) (m : Send) (gr : Grant) (first : CompMsg) : State :=
  let rs := if first.good then (s.groupReaders i t e).map Prod.fst else []
  let gOf (k : Nat) : Grant := if m.gsrc && rs.getLast? == some k then gr else (grantOf m.grant).getD .i
  let line := if e.m.fwdd then e.h.grp.bind Group.line else e.line
  let ms := match e.h.grp with | some g => g.members | none => []
  let s := if first.good then s else s.leaveOut i t ((s.groupShd i t e).map Prod.snd)
  let s := s.completeFull i t e.r (first.granting (gOf t))
  let s := ms.foldl (fun s k =>
    match s.ent i k with
    | none => s
    | some b =>
      let s := s.completeFull i k b.r (memberMsg first (b.r.kind == .req .rdCur) (gOf k) line)
      if rs.contains k then s else s.freeEnt i k) s
  s.modEnt i t fun e => { e with h := { e.h with
    grp := if rs.isEmpty then none else some ⟨false, 0, rs.filter (· ≠ t), rs, none⟩ } }

/-- A DAT send has read the location that the data handle names: its reservation ends (R190). -/
def Trk.handleRead (e : Trk) : Trk :=
  { e with h := { e.h with dh := e.h.dh.map fun h => match h.loc with | .mscWay _ _ => { h with loc := .none } | _ => h } }

/-- The completion of a transaction whose data was forwarded to its subject (R105 to R107, R74): the clause's DAT send goes out as
`Comp` with FWD = 1, GRANT M to a `RdOwn` whose forwarded line was dirty (log entry 12). -/
def Trk.forwardComp (e : Trk) (g : Grant) : CompMsg :=
  .comp .ok (if e.r.kind == .req .rdOwn && e.m.li then .m else g) 1

/-- The completion turned out to grant nothing, since its line is poisoned (R51): no `CompAck` is owed (R63), and the transaction does
not wait for one (R31, log entry 15). -/
def Trk.noAck (e : Trk) : Trk := { e with x := { e.x with ca := true }, m := { e.m with latch := true } }

/-- A completion of the M slot. A second one is suppressed (R195). Where its own clause's D slot sets GR, a send with GSRC = 1 uses the
new grant, as R233's clause 0x0C6 needs (log entry 80). -/
def State.runComplete (s : State) (i : Fin 17) (t : Nat) (e : Trk) (m : Send) : State :=
  if e.h.cs then s.mcodeFault i
  else
    let gr := match s.ent i t with | some k => k.m.gr | none => e.m.gr
    let g := if m.gsrc then gr else (grantOf m.grant).getD .i
    let (s, msg) : State × CompMsg :=
      if m.cls = 3 then
        if e.m.fwdd && m.dsrc == 1 && m.stat == 0 then (s, e.forwardComp g)
        else
          let (s, l) := s.sendData e m
          (s, .dat ((datOpOf m.opc).getD .datCur) l.pois (if l.pois then .i else g) l.data)
      else (s, compOf m ((rspOpOf m.opc).getD .comp) (e.sendStat m) g (e.sendInfo m))
    let s := if m.tgt = 0xA && e.grouped then s.completeGroup i t e m gr msg else s.completeFull i t e.r msg
    let s := if m.cls = 3 && m.dsrc == 1 then s.modEnt i t Trk.handleRead else s
    if m.cls = 3 && m.stat == 0 && g != .i && !msg.good then s.modEnt i t Trk.noAck else s

/-! ### The M slot (R194, R195) -/

/-- The M slot; `e` is the entry as the activation began. -/
def State.runM (s : State) (i : Fin 17) (t : Nat) (e : Trk) (m : Send) : State :=
  match m.cls.toNat with
  | 0 =>
    if m.tgt = 9 then s.modSlice (s.svcSlice i) fun x => { x with svcq := x.svcq ++ [⟨t, i, m.opc, e.x.f0⟩] }
    else if m.opc != reqCode .hint || e.r.rk then s else s.sendHint i (e.r.a.pa + 1)
  | 1 =>
    (match snpOpOf m.opc with
     | none => s
     | some op =>
       let as := s.target e m
       let s := as.foldl (fun s a => s.sendSnoop i t op a m.anon m.cnt) s
       if m.cnt then
         let arm := (m.tgt = 5 ∧ (e.we.coarse ∨ e.we = .uk)) ∨ m.tgt = 6
         s.modEnt i t fun k =>
           let x := { k.x with ack := k.x.ack + BitVec.ofNat 8 (2 * as.length) }
           if arm then { k with x := x.setAv 0, h := { k.h with armed := true } } else { k with x := x }
       else s)
  | _ => if m.cmp then s.runComplete i t e m else s

/-! ### The end of a transaction (R193) -/

/-- The completion of R124 for a transaction that ends without one, and for the joined members of its group. -/
def State.completeLate (s : State) (i : Fin 17) (t : Nat) (e : Trk) : State :=
  (s.completeFull i t e.r (e.lateMsg true)).completeMembers i e (·.lateMsg true)

/-- DONE (R193); `f1` is F1 as the activation began. -/
def State.runDone (s : State) (i : Fin 17) (t : Nat) (f1 : BitVec 16) (blame : BitVec 2) : State :=
  match s.ent i t with
  | none => s
  | some e =>
    let as : List Agent := match blame.toNat with
      | 1 => [e.r.a.src]
      | 2 => (e.h.await.filter fun w => w.rsp || w.dat).map Await.ag
      | 3 => [f1.extractLsb' 0 6]
      | _ => []
    let s := if e.h.cs then s else (s.completeLate i t e).mcodeFault i
    let s :=
      if e.m.tmo then s.reportLate i e.r as
      else as.foldl (fun s a =>
        (s.logEnt ⟨0x01, BitVec.ofNat 7 (srcSlice i), a, e.r.a.part, e.r.a.pa, s.now⟩).protAgent a e.r.a.part e.r.a.pa) s
    s.retire i t

/-- ABORT (R193): the transaction ends as by its deadline (R124), and CODE is reported with the microcode fault. A reserved C slot,
which no VALID bank holds, ends the same way without a CODE. -/
def State.runAbort (s : State) (i : Fin 17) (t : Nat) (code : Option (BitVec 8)) : State :=
  match s.ent i t with
  | none => s
  | some e =>
    let s := if e.h.cs then s else s.completeLate i t e
    let s := (s.poisonUnanswered i t).mcodeFault i
    (s.modSlice i fun x => { x with abortCode := code.or x.abortCode }).retire i t

/-! ### One activation (R184, R186) -/

/-- The C slot after the others: where the transaction goes on, or how it ends. A memory action that has completed comes before TMO
(R167, R201). -/
def State.runC (s : State) (i : Fin 17) (t : Nat) (e : Trk) (c : COp) (took : Bool) : State :=
  let bank := e.pc.extractLsb' 10 1
  let goto (pc : BitVec 11) : State := s.modEnt i t fun k => { k with stat := .ready false, pc := pc }
  match c with
  | .next => goto (e.pc + 1)
  | .jmp a => goto (bank ++ a)
  | .br _ _ _ a => goto (if took then bank ++ a else e.pc + 1)
  | .brx f p w a =>
    let v := ((e.f f.toNat).toNat >>> p.toNat) % 2 ^ w.toNat
    goto (bank ++ (a + BitVec.ofNat 10 v))
  | .wait m me tm sv q _ tpc =>
    let mem := me && (s.slice i).mem.memq.any fun a => a.tid == t
    s.modEnt i t fun k => { k with stat := .parked m me tm sv q tpc, pc := e.pc }.wake (s.expired k && !mem)
  | .done b => s.runDone i t e.x.f1 b
  | .abort code => s.runAbort i t (some code)
  | .reserved _ => s.runAbort i t none

/-- The clause's completion grants no copy: none, or a DAT or `Comp` with OK. -/
def sendGrants (m : Option Send) : Bool :=
  match m with
  | some m => !m.cmp || m.stat == 0
  | none => true

/-- The slots X, D and M of a clause commit (R186): each reads the entry `e` as it stood when the activation began. -/
def State.runSlots (s : State) (i : Fin 17) (t : Nat) (e : Trk) (c : Clause) : State :=
  let x := e.runX s.now c.x
  let s := s.runD i t e c.d (sendGrants c.m)
  let s := match c.m with | some m => s.runM i t e m | none => s
  s.modEnt i t fun k => k.putX x e.x

/-- The clause at a transaction's PC (R184). -/
def State.clauseAt (s : State) (i : Fin 17) (e : Trk) : Clause :=
  Clause.dec ((s.slice i).uc.clause (e.pc.getLsbD 10) (e.pc.extractLsb' 0 10).toNat)

/-- The slots X, D and M have no effect: a branch that is taken with G = 1, and ABORT (R192). -/
def COp.skips (c : COp) (took : Bool) : Bool :=
  match c with | .br _ _ g _ => g && took | .abort _ => true | .reserved _ => true | _ => false

/-- One activation of a transaction commits (R186). -/
def State.runClause (s : State) (i : Fin 17) (t : Nat) (e : Trk) (c : Clause) : State :=
  let took := match c.c with | .br k n _ _ => xor (s.condHolds i e k) n | _ => false
  let s := if c.c.skips took then s else s.runSlots i t e c
  s.runC i t e c.c took

/-- One activation (R184): the clause at the PC, traced and counted. -/
def State.activate (s : State) (i : Fin 17) (t : Nat) : State :=
  match s.ent i t with
  | none => s
  | some e => ((s.perf i 0x03).traceEnt i t e 0x02 e.r.a.src e.r.kind.opc).runClause i t e (s.clauseAt i e)

/-- Ready activations in the order of issue (R185): DET transactions first, then the oldest. -/
def State.readyOf (s : State) (i : Fin 17) (again : Bool) : Option Nat :=
  let x := s.slice i
  let rs := (x.ents.filter fun e => e.2.stat == .ready again).mergeSort fun a b => a.2.age ≤ b.2.age
  ((rs.find? fun e => s.detTxn e.2.r).or rs.head?).map Prod.fst

/-- An activation did not commit (R205, R208): counted, and reported as a correctable event. -/
def State.countMism (s : State) (i : Fin 17) : State := (s.bump (slcPage i) 0x260 23 16).corrEv (srcSlice i)

/-- The activation is retried ahead of all others (R205). -/
def State.retryLater (s : State) (i : Fin 17) (t : Nat) : State := s.modEnt i t fun e => { e with stat := .ready true }

/-- The copies of a lane disagree (R205): counted against the lane. -/
def State.laneMismatch (s : State) (i : Fin 17) (lane : Fin 4) : State :=
  (s.modSlice i fun x => { x with lmm := x.lmm ||| BitVec.ofNat 4 (2 ^ lane.val) }).countMism i

end Sys2Proof.Machine
end

