-- ==== Sys2Proof/Machine/Services.lean ====
section
/-! DEFINITION. The service unit (R308 to R332): the commit of one operation, the lock ledger, the home queues and their
descriptors, far atomics, and the tests of `Resv` and `CondWr` (R155, R157). A result is the result word in F1, whose bit 0
is INFO[0], and the status that the completion carries (R201, R308, log entry 16). -/

namespace Sys2Proof.Machine

/-! ### The result of an operation -/

/-- What an operation hands back to its transaction. -/
structure SvcRes where
  f1 : BitVec 16
  stat : Status
  line : Option PLine
  deriving DecidableEq, Repr

/-- The result arrives (R201). -/
def Trk.takeSvc (e : Trk) (r : SvcRes) : Trk :=
  { e with x := { e.x with f1 := r.f1 }, m := { e.m with svc := true, svcStat := r.stat, svcLine := r.line } }

/-- `Comp` with a status and INFO. -/
def SvcRes.comp (st : Status) (info : BitVec 16) : SvcRes := ⟨info, st, none⟩

/-- `Comp` FAILED with a cause in INFO[15:8] (R311). -/
def SvcRes.failed (cause : BitVec 8) : SvcRes := ⟨cause ++ (0 : BitVec 8), .failed, none⟩

/-! ### The lock ledger (R312 to R319) -/

/-- A ledger way. -/
def Slice.lock (x : Slice) (set way : Nat) : Option Lock := tabGet none x.ar.ledger (16 * set + way)
/-- Write a ledger way. -/
def Slice.setLock (x : Slice) (set way : Nat) (l : Option Lock) : Slice :=
  { x with ar := { x.ar.wrote 3 (16 * set + way) with ledger := tabSet none x.ar.ledger (16 * set + way) l } }

/-- A ledger set is read (R312): an uncorrectable entry is lost, and its set counts as full until a cold reset. -/
def State.readLedger (s : State) (i : Fin 17) (set way : Nat) : State :=
  match s.readWord i 3 (16 * set + way) with
  | (s, false) => s
  | (s, true) =>
    (s.modSlice i fun x =>
      let x := x.setLock set way none
      { x with ar := { x.ar with ledgerBad := x.ar.ledgerBad.filter (· ≠ BitVec.ofNat 6 set) ++ [BitVec.ofNat 6 set] } }).corrEv
        (srcSlice i)

/-- The entries of a ledger set are read. -/
def State.readLedgerSet (s : State) (i : Fin 17) (set : Nat) : State :=
  if (s.slice i).ar.inj.isEmpty then s else (List.range 16).foldl (fun s w => s.readLedger i set w) s

/-- Every entry of the ledger is read. -/
def State.readLedgers (s : State) (i : Fin 17) : State :=
  (s.slice i).ar.inj.foldl (fun s e =>
    if e.1 = 3 then s.readLedger i (e.2.1.toNat / 16) (e.2.1.toNat % 16) else s) s

/-- The state an entry reads as, with the reason (R313). -/
def State.lockReads (s : State) (l : Lock) : LockSt × BitVec 2 :=
  match l.st with
  | .orphaned => (.orphaned, l.why)
  | .held =>
    if s.agFenced l.owner then (.orphaned, 0b01)
    else if l.gen != (s.part l.part).gen then (.orphaned, 0b10)
    else (.held, 0)

/-- Set of a lock's ledger entry (R312). -/
def ledgerSet (c : Nat) : Nat := c % 64
/-- TAG of a lock's ledger entry (R312). -/
def ledgerTag (c : Nat) : BitVec 36 := BitVec.ofNat 36 (c / 64)

/-- The way that holds a lock. -/
def Slice.findLock (x : Slice) (c : Nat) : Option (Nat × Lock) :=
  (List.range 16).findSome? fun w => match x.lock (ledgerSet c) w with
    | some l => if l.tag = ledgerTag c then some (w, l) else none
    | none => none

/-- A FREE way; a set in which an error was met counts as full (R312). -/
def Slice.freeLock (x : Slice) (c : Nat) : Option Nat :=
  if x.ar.ledgerBad.contains (BitVec.ofNat 6 (ledgerSet c)) then none
  else (List.range 16).find? fun w => (x.lock (ledgerSet c) w).isNone

/-- Entries that count toward a partition's quota (R318). -/
def Slice.locksOf (x : Slice) (q : PartId) : Nat :=
  (x.ar.ledger.filter fun e => match e.2 with | some l => l.part == q | none => false).length

/-- The ledger entry of a lock held by a request's subject (R314). -/
def Lock.heldBy (tag : BitVec 36) (a : ReqArgs) : Lock := ⟨.held, tag, a.src, a.part, a.gen, 0⟩

/-- `LockAcq` (R314): the ledger and the result. -/
def State.lockAcq (s : State) (i : Fin 17) (a : ReqArgs) : State × SvcRes :=
  let c := s.claOf a.pa
  let x := s.slice i
  match x.findLock c with
  | some (w, l) =>
    match s.lockReads l with
    | (.held, _) => (s, .comp .busy (l.owner.zeroExtend 16))
    | (.orphaned, why) =>
      ((s.modSlice i (·.setLock (ledgerSet c) w (some (.heldBy l.tag a)))).bump 61 0x140 23 16,
        .comp .orphaned ((0 : BitVec 8) ++ why ++ l.owner))
  | none =>
    if s.fld 60 (0x200 + 4 * a.part.toNat) 26 16 ≤ x.locksOf a.part then (s.bump 61 0x140 15 8, .failed 0x04)
    else match x.freeLock c with
    | none => (s.bump 61 0x140 15 8, .failed 0x03)
    | some w => (s.modSlice i (·.setLock (ledgerSet c) w (some (.heldBy (ledgerTag c) a))), .comp .ok 0)

/-- `LockRel` (R315). -/
def State.lockRel (s : State) (i : Fin 17) (a : ReqArgs) : State × SvcRes :=
  let c := s.claOf a.pa
  match (s.slice i).findLock c with
  | none => (s, .failed 0x05)
  | some (w, l) =>
    match s.lockReads l with
    | (.held, _) =>
      if l.owner = a.src ∧ l.part = a.part ∧ l.gen = a.gen then
        (s.modSlice i (·.setLock (ledgerSet c) w none), .comp .ok 0)
      else (s, .failed 0x05)
    | (.orphaned, _) =>
      if l.owner = a.src ∧ l.gen ≠ (s.part l.part).gen then (s, .comp .stalegen 0) else (s, .failed 0x05)

/-! ### Home queues (R320 to R327) -/

/-- A count as INFO gives it (R311). -/
def satCount (n : Nat) : BitVec 16 := BitVec.ofNat 16 (min n 0xFFFF)

/-- The notification of a queue's watcher (R46, R326). -/
def QDesc.notify (q : QDesc) (pa : LineAddr) : SnpFlit :=
  { op := .qNotify, dst := q.wagt, slice := 0, tid := 0, rag := 63, ratag := q.watag, rpart := q.part, rgen := q.wgen, pa := pa }

/-- A write for a ring line enters the home's merging buffer at once, or not yet (R245, R323). -/
def State.ringWrite (s : State) (i : Fin 17) (h : Fin 16) (k : Nat) (l : PLine) (writes : List WId) : Option State :=
  s.wtEnter i ⟨.ring h k, h, l, writes, none, none, false, false⟩

/-- `QEnq` (R323); no result while its ring line finds no merging-buffer entry. `src` and `t` are its transaction's. -/
def State.qEnq (s : State) (i src : Fin 17) (t : Nat) (e : Trk) : Option (State × SvcRes) :=
  match s.queueFor i e.r.a with
  | (c, none) => some (s, .failed c)
  | (_, some (k, q)) =>
    if q.count = q.ring then some (s.bump 61 0x140 7 0, .comp .busy (satCount q.count))
    else if s.chLost e.r.home then some (s, .comp .fenced 0)
    else
      let l := e.r.cd.getD ⟨0, true⟩
      match s.ringWrite i e.r.home (q.entry q.tail.toNat) l e.r.wId.toList with
      | none => none
      | some s =>
        let n := q.count + 1
        let fires := q.wv && decide (n = q.threshold)
        let s := s.modSlice i (·.setDesc k { q with tail := q.tail + 1, wv := q.wv && !fires })
        let s := if fires then (s.traceEnt src t e 0x03 q.wagt SnpOp.qNotify.code).carrySnoop i (q.notify e.r.a.pa) e.r.rk 0 else s
        some (s.cdReturn src t, .comp .ok (satCount n))

/-- `QDeq` (R324): an answer, or a read of the ring line that is on its way. -/
def State.qDeq (s : State) (i src : Fin 17) (t : Nat) (e : Trk) : State × Option SvcRes :=
  match s.queueFor i e.r.a with
  | (c, none) => (s, some (.failed c))
  | (_, some (_, q)) =>
    if q.count = 0 then (s, some (.comp .busy 0))
    else if s.chLost e.r.home then (s, some (.comp .fenced 0))
    else
      (s.fetchCheck ⟨i, .svc (svcKey src t), .ring e.r.home (q.entry q.head.toNat), e.r.home, e.r.rk, false, false⟩, none)

/-- The ring line of a `QDeq` has come back (R324). -/
def qDeqResult (m : MemAct) : SvcRes :=
  match m.l with
  | some l => ⟨if l.pois then 3 else 1, .ok, some l⟩
  | none => .comp .fenced 0

/-- `QWatch` (R325); ARM is ARG[28]. -/
def State.qWatch (s : State) (i : Fin 17) (a : ReqArgs) : State × SvcRes :=
  match s.queueFor i a with
  | (c, none) => (s, .failed c)
  | (_, some (k, q)) =>
    let cur := q.wgen == (s.part q.part).gen
    if a.arg.getLsbD 28 then
      (if q.threshold ≤ q.count then (s, .comp .ok 1)
       else if q.wv && q.wagt != a.src && !s.agFenced q.wagt && cur then (s, .comp .busy 0)
       else (s.modSlice i (·.setDesc k { q with wv := true, wagt := a.src, watag := a.atag, wgen := a.gen }), .comp .ok 0))
    else if q.wv && q.wagt == a.src then
      (s.modSlice i (·.setDesc k { q with wv := false }), .comp (if cur then .ok else .stalegen) 0)
    else (s, .comp .ok 2)

/-! ### Far atomics (R329, R330) -/

/-- `len` bytes of a line from byte `off`, little-endian. -/
def lineField (l : Line) (off len : Nat) : Nat := (l.toNat / 2 ^ (8 * off)) % 2 ^ (8 * len)

/-- A field of `len` bytes as a signed number. -/
def signedField (len v : Nat) : Int := if v < 2 ^ (8 * len - 1) then v else (v : Int) - 2 ^ (8 * len)

/-- The new field (R329): `cmp` is the field at OFF and `swp` the one at OFF XOR 0x20 of the companion. -/
def atomNew (aop len old cmp swp : Nat) : Nat :=
  match aop with
  | 0 => (old + cmp) % 2 ^ (8 * len)
  | 1 => cmp
  | 2 => if old = cmp then swp else old
  | 3 => old &&& cmp
  | 4 => old ||| cmp
  | 5 => if signedField len cmp < signedField len old then cmp else old
  | 6 => if signedField len old < signedField len cmp then cmp else old
  | 7 => min old cmp
  | _ => max old cmp

/-- The new line of an `Atom` (R329, R330); it is poisoned with its companion. -/
def atomLine (arg : BitVec 29) (base cd : PLine) : PLine :=
  let off := atomOff arg
  let len := atomSize arg
  let v := atomNew (arg.extractLsb' 25 4).toNat len (lineField base.data off len) (lineField cd.data off len)
    (lineField cd.data (off ^^^ 0x20) len)
  ⟨mergeBytes off (len - 1) base.data (BitVec.ofNat 512 (v * 2 ^ (8 * off))), base.pois || cd.pois⟩

/-- `Atom` at the service unit: the new line becomes the data handle's, the old line is the service result. -/
def State.atomOp (s : State) (src : Fin 17) (t : Nat) (e : Trk) : State × SvcRes :=
  match e.line, e.r.cd with
  | some base, some cd =>
    ((s.modEnt src t fun k => { k with h := { k.h with dh := some ⟨.slot, atomLine e.r.a.arg base cd⟩ } }).cdReturn src t,
      ⟨0, .ok, some ⟨base.data, base.pois⟩⟩)
  | _, _ => (s, .comp .failed 0)

/-! ### Tests (R155, R157) -/

/-- All four lines of a granule have one home (R155). -/
def State.granuleOk (s : State) (pa : LineAddr) : Bool :=
  let low (m : BitVec 32) : Bool := m.extractLsb' 0 2 == 0
  match s.detRgn pa with
  | none => (List.range 4).all fun k => low (s.hashMask k)
  | some _ => low (s.detMask 0) && low (s.detMask 1)

/-- The test of a `Resv` (R155): result bit 0 says that it goes on. -/
def State.resvTest (s : State) (a : ReqArgs) : SvcRes :=
  if a.arg.getLsbD 28 && !s.granuleOk a.pa then .failed 0x06 else ⟨1, .ok, none⟩

/-- A reservation that has not been lost (R156). -/
def State.resvLive (s : State) (r : Resv) : Bool := !s.reached (r.at' + BitVec.ofNat 48 r.life)

/-- The test of a `CondWr` (R157). Either way the subject's register at the home is cleared. -/
def State.condWrTest (s : State) (i : Fin 17) (r : Req) : State × SvcRes :=
  let ok := (s.slice i).resv.any fun k =>
    k.ag == r.a.src && k.home == r.home && s.resvLive k && k.holds r.a.pa && k.part == r.a.part && k.gen == r.a.gen
  (s.modSlice i fun x => { x with resv := x.resv.filter fun k => !(k.ag == r.a.src && k.home == r.home) },
    if ok then ⟨1, .ok, none⟩ else .comp .busy 0)

/-! ### Descriptors written by software (R328) -/

/-- The value of SVC_QDESC0-3. -/
def State.qdescRegs (s : State) : BitVec 128 := s.reg 61 0x4B ++ s.reg 61 0x4A ++ s.reg 61 0x49 ++ s.reg 61 0x48

/-- Write SVC_QDESC0-3. -/
def State.setQdescRegs (s : State) (v : BitVec 128) : State :=
  (((s.setReg 61 0x48 (v.extractLsb' 0 32)).setReg 61 0x49 (v.extractLsb' 32 32)).setReg 61 0x4A (v.extractLsb' 64 32)).setReg
    61 0x4B (v.extractLsb' 96 32)

/-- WRITE, READ or CLEAR of a descriptor at its commit; SVC_QSTAT shows the command completed. -/
def State.qdescOp (s : State) (i src : Fin 17) (t : Nat) (op : BitVec 2) (idx : Nat) (val : BitVec 128) : State :=
  let s :=
    if op = 1 then s.modSlice i fun x => { x with ar := { x.ar.wrote 4 idx with desc := tabSet 0 x.ar.desc idx val } }
    else if op = 2 then s.setQdescRegs (tabGet 0 (s.slice i).ar.desc idx)
    else s.modSlice i fun x => x.setDesc idx { x.desc idx with head := 0, tail := 0, wv := false }
  (({ s with svc := s.svc.complete } : State).retire src t).done 61

/-! ### Records of a RESTORE (R344) -/

/-- A lock record is applied: its ledger entry is written, or the record is skipped where the line has gained an entry or its
set is full. -/
def State.applyLock (s : State) (i : Fin 17) (pa : LineAddr) (l : Lock) : State :=
  let c := s.claOf pa
  let x := s.slice i
  match x.findLock c, x.freeLock c with
  | none, some w =>
    (s.modSlice i (·.setLock (ledgerSet c) w (some { l with tag := ledgerTag c }))).modPar (·.recDone false)
  | _, _ => s.modPar (·.recDone true)

/-- Entries of a queue record enter the merging buffer while it has room, from entry `k` on; answers how many are in. -/
def State.restoreRing (s : State) (i : Fin 17) (h : Fin 16) (q : QDesc) (k : Nat) : List PLine → State × Nat
  | [] => (s, k)
  | l :: ls =>
    match s.ringWrite i h (q.entry k) l [] with
    | some s => s.restoreRing i h q (k + 1) ls
    | none => (s, k)

/-- The progress of a queue record, in F2 and F3 of its entry. -/
def Trk.ringAt (e : Trk) : Nat := (e.x.f3 ++ e.x.f2).toNat

/-- A queue record is applied: its entries are written from ring position 0 on, then the descriptor takes HEAD 0, TAIL COUNT,
WMARK, and WV 0. The flag says that it has ended. -/
def State.applyQueue (s : State) (i src : Fin 17) (t : Nat) (e : Trk) (part : PartId) (es : List PLine) (wm : BitVec 16) :
    State × Bool :=
  match (s.slice i).findDesc (handleOf e.r.a.pa) with
  | none => (s.modPar (·.recDone false), true)
  | some (k, q) =>
    if q.part ≠ part ∨ s.chLost e.r.home then (s.modPar (·.recDone false), true)
    else
      let (s, n) := s.restoreRing i e.r.home q e.ringAt (es.drop e.ringAt)
      if n < es.length then
        (s.modEnt src t fun e => { e with x := { e.x with f2 := BitVec.ofNat 16 n, f3 := BitVec.ofNat 16 (n / 65536) } }, false)
      else
        ((s.modSlice i (·.setDesc k { q with head := 0, tail := BitVec.ofNat 17 es.length, wmark := wm, wv := false })).modPar
          (·.recDone false), true)

/-! ### One commit (R309) -/

/-- The operation that commits next: DET first, then the oldest (R185, R309). An `Atom` whose line is fetched again is held
(R256). -/
def State.svcNext (s : State) (i : Fin 17) : Option (SvcOp × Trk) :=
  let held (o : SvcOp) (e : Trk) : Bool := o.opc == reqCode .atom && e.h.fetching && e.h.dh.isNone
  let ops := (s.slice i).svcq.filterMap fun o => (s.ent o.src o.tid).bind fun e => if held o e then none else some (o, e)
  let ops := ops.mergeSort fun a b => a.2.age ≤ b.2.age
  match ops.find? fun o => o.2.r.rk with
  | some o => some o
  | none => ops.head?

/-- Hand the result to the transaction and take the operation off the unit. -/
def State.svcEnd (s : State) (i : Fin 17) (o : SvcOp) (r : Option SvcRes) : State :=
  let s := s.modSlice i fun x => { x with svcq := x.svcq.filter fun k => k != o }
  match r with
  | some r => s.stir o.src o.tid (·.takeSvc r)
  | none => s

/-- The transaction with ARG as its send to the service unit carried it: F0 stands in place of ARG[28:13] (R195). -/
def Trk.asSent (e : Trk) (o : SvcOp) : Trk :=
  { e with r := { e.r with a := { e.r.a with arg := o.f0 ++ e.r.a.arg.extractLsb' 0 13 } } }

/-- The words that an operation uses are read (R312, R321): the set of a lock, the descriptor of a queue. -/
def State.svcRead (s : State) (i : Fin 17) (o : SvcOp) (e : Trk) : State :=
  let lock (s : State) : State := s.readLedgerSet i (ledgerSet (s.claOf e.r.a.pa))
  match e.r.kind with
  | .qdesc op idx _ _ => if op = 1 then s else s.readDesc i idx.toNat
  | .lockRec _ _ _ _ => lock s
  | .queueRec _ _ _ => s.readHandleDesc i e.r.a.pa
  | .backInv => s
  | .req _ =>
    match reqOpOf o.opc with
    | some .lockAcq => lock s
    | some .lockRel => lock s
    | some .qEnq => s.readHandleDesc i e.r.a.pa
    | some .qDeq => s.readHandleDesc i e.r.a.pa
    | some .qWatch => s.readHandleDesc i e.r.a.pa
    | _ => s

/-- Commit an operation: the one that OPC of the send names (R195). -/
def State.svcCommit (s : State) (i : Fin 17) (o : SvcOp) (e : Trk) : State :=
  let s := s.svcRead i o e
  let fin (p : State × SvcRes) : State := p.1.svcEnd i o (some p.2)
  match e.r.kind with
  | .qdesc op idx _ val =>
    (s.svcEnd i o none).qdescOp i o.src o.tid op idx.toNat val
  | .lockRec held why ow part =>
    ((s.svcEnd i o none).applyLock i e.r.a.pa
      ⟨if held then .held else .orphaned, 0, ow, part, (s.part part).gen, why⟩).retire o.src o.tid
  | .queueRec part es wm =>
    (match s.applyQueue i o.src o.tid e part es wm with
     | (s, true) => (s.svcEnd i o none).retire o.src o.tid
     | (s, false) => s)
  | .backInv => s.svcEnd i o none
  | .req _ =>
    let e := e.asSent o
    match reqOpOf o.opc with
    | some .lockAcq => fin (s.lockAcq i e.r.a)
    | some .lockRel => fin (s.lockRel i e.r.a)
    | some .qEnq => (match s.qEnq i o.src o.tid e with
      | some p => fin p
      | none => s)
    | some .qDeq => let p := s.qDeq i o.src o.tid e; p.1.svcEnd i o p.2
    | some .qWatch => fin (s.qWatch i e.r.a)
    | some .atom => fin (s.atomOp o.src o.tid e)
    | some .resv => fin (s, s.resvTest e.r.a)
    | some .condWr => fin (s.condWrTest i e.r)
    | _ => s.svcEnd i o none

end Sys2Proof.Machine
end

