-- ==== Sys2Proof/Machine/Arrays.lean ====
section
/-! DEFINITION. Errors of the arrays as a read meets them (R84, R86, R95, R205 to R208, R256, R312, R321, R373, R457): what a
corrected and what an uncorrectable word does, array by array. -/

namespace Sys2Proof.Machine

/-- A way of the snoop filter is read (R84, R95); a combination that R82 bars is no entry that was written. -/
def State.readSf (s : State) (i : Fin 17) (set way : Nat) : State :=
  let (s, lost) := s.readWord i 0 (16 * set + way)
  if lost || !((s.slice i).sfGet set way).dir.ok then
    let s := ((s.errClear i 0 (16 * set + way)).bump (slcPage i) 0x20C 23 16).corrEv (srcSlice i)
    if ((s.slice i).wayHolder set way).isSome then s
    else (s.modSlice i (·.sfSet set way ⟨0, .un⟩)).putSuk i set true
  else s

/-- A tag word of the MSC is read (R256). A way that a data handle reserves keeps its data for that transaction, and is gone when the
reservation ends. -/
def State.readTag (s : State) (i : Fin 17) (set way : Nat) : State :=
  match s.readWord i 5 (12 * set + way) with
  | (s, false) => s
  | (s, true) =>
    let s := if (s.slice i).mscReserved set way then
        (s.errClear i 5 (12 * set + way)).modSlice i fun x => { x with ar := { x.ar with
          tagLost := x.ar.tagLost.filter (· ≠ 12 * set + way) ++ [12 * set + way] } }
      else s.modSlice i fun x => x.mscPut set way ⟨0, 0, .inval, 0⟩
    (s.bump (slcPage i) 0x2AC 23 16).corrEv (srcSlice i)

/-- The 16 ways and the replacement word of a snoop-filter set are read (R84, R86). -/
def State.readSfSet (s : State) (i : Fin 17) (set : Nat) : State :=
  (((List.range 16).foldl (fun s w => s.readSf i set w) s)).readRepl i set

/-- A pass that opens a line reads its snoop-filter set, the replacement word and its MSC set (R30, R84, R256). -/
def State.readSets (s : State) (i : Fin 17) (pa : LineAddr) : State :=
  let x := s.slice i
  if x.ar.inj.isEmpty && (List.range 16).all fun w => (x.sfGet (sfSet pa) w).dir.ok then s
  else
    let s := s.readSfSet i (sfSet pa)
    if (s.slice i).mem.ctl.hits then (List.range 12).foldl (fun s w => s.readTag i (mscSet pa) w) s else s

/-- The reader of an unreadable MSC data word is held, and its line fetched again (R256). -/
def State.refetchLine (s : State) (i : Fin 17) (t : Nat) (e : Trk) (set way : Nat) (st : TStat) : State :=
  let s := (s.modSlice i fun x => x.mscPut set way ⟨0, 0, .inval, 0⟩).bump (slcPage i) 0x2AC 23 16
  let s := (s.corrEv (srcSlice i) e.r.a.part e.r.a.pa).modEnt i t fun k => { k with stat := st, h := { k.h with dh := none, fetching := true } }
  s.fetchCheck ⟨i, .refetch t, .line e.r.a.pa, e.r.home, e.r.rk, false, false⟩

/-- A reader uses the line of its data handle: the flag says that it is held for a refetch. -/
def State.readHandle (s : State) (i : Fin 17) (t : Nat) (st : Trk → TStat) : State × Bool :=
  match s.ent i t with
  | none => (s, false)
  | some e =>
    match e.h.dh with
    | some ⟨.mscWay set way, _⟩ =>
      (match s.readRun i 6 (mscWord set way) 8 with
       | (s, false) => (s, false)
       | (s, true) => (s.refetchLine i t e set way (st e), true))
    | _ => (s, false)

/-- A clause reads the line of the data handle. -/
def Clause.usesLine (c : Clause) : Bool :=
  (match c.m with | some m => m.cls == 3 && m.dsrc == 1 | none => false) ||
    (c.d.dop == 9 && !c.d.arg.getLsbD 2) || c.d.dop == 11

/-- All of a service unit's words, where an error is injected. -/
def State.readServices (s : State) (i : Fin 17) : State :=
  (s.readLedgers i |>.slice i).ar.inj.foldl (fun s e => if e.1 = 4 then s.readDesc i e.2.1.toNat else s) (s.readLedgers i)

/-! ### Activations (R205 to R208) -/

/-- An activation that did not commit: the first time it is retried, the second its transaction ends (R206, R208). -/
def State.mismatch (s : State) (i : Fin 17) (t : Nat) (again : Bool) : State :=
  if again then s.activationFails i t else s.retryLater i t

/-- One activation with its checks: `again` says that it is a retry, `mism` that the copies of the lane disagree. -/
def State.checkedActivate (s : State) (i : Fin 17) (t : Nat) (lane : Fin 4) (again mism : Bool) : State :=
  s.withTrk i t fun s =>
    match s.ent i t with
    | none => s
    | some e =>
      match s.readWord i (if e.pc.getLsbD 10 then 8 else 7) (e.pc.extractLsb' 0 10).toNat with
      | (s, true) => (s.countMism i).mismatch i t again
      | (s, false) =>
        if mism then (s.laneMismatch i lane).mismatch i t again
        else if (s.clauseAt i e).usesLine then
          (match s.readHandle i t fun _ => .refetch again with
           | (s, true) => s
           | (s, false) => s.activate i t)
        else s.activate i t

/-! ### Scrubbing (R373) -/

/-- A clause that the scrubber cannot correct makes an inactive bank not VALID, and is an UNCOR event in the active one. -/
def State.scrubClause (s : State) (i : Fin 17) (bank : Bool) (a : Nat) : State :=
  match s.readWord i (if bank then 8 else 7) a with
  | (s, false) => s
  | (s, true) =>
    if (s.slice i).uc.active = bank then s.uncorEv (srcSlice i)
    else s.modSlice i fun x => { x with uc := { x.uc with valid := x.uc.valid &&& ~~~(if bank then 2 else 1) } }

/-- An array is initialised (R383). -/
def Slice.filled (x : Slice) (arr : Nat) : Bool := x.ar.init.getLsbD arr

/-- The words that one visit of the scrubber reads, of the arrays that are initialised; open lines and bound entries are skipped. -/
def State.scrubWords (s : State) (i : Fin 17) (k : Nat) : State :=
  let on (a : Nat) : Bool := (s.slice i).filled a
  if (s.slice i).ar.inj.isEmpty && (List.range 16).all fun w => ((s.slice i).sfGet k w).dir.ok then s
  else
    let s := if on 1 then s.readRepl i k else s
    let s := if on 0 then (List.range 16).foldl (fun s w => if (s.slice i).wayOpen k w then s else s.readSf i k w) s else s
    let s := if k < 2048 && on 5 && on 6 then
        (List.range 12).foldl (fun s w =>
          let s := s.readTag i k w
          match s.readRun i 6 (mscWord k w) 8 with
          | (s, false) => s
          | (s, true) => ((s.modSlice i fun x => x.mscPut k w ⟨0, 0, .inval, 0⟩).bump (slcPage i) 0x2AC 23 16).corrEv
              (srcSlice i)) s
      else s
    let s := if k < 8192 && on 2 && (s.ent i k).isNone then
        (match s.readRun i 2 (trkWord k) 4 with
         | (s, false) => s
         | (s, true) => (s.modSlice i fun x => { x with ar := x.ar.wroteRun 2 (trkWord k) 4 }).uncorEv (srcSlice i))
      else s
    let s := if k < 1024 && on 3 then s.readLedger i (k / 16) (k % 16) else s
    let s := if k < 1024 && on 7 then s.scrubClause i false k else s
    let s := if k < 1024 && on 8 then s.scrubClause i true k else s
    if k < 512 && on 4 then s.readDesc i k else s

end Sys2Proof.Machine
end

