-- ==== Sys2Proof/Machine/Passes.lean ====
section
/-! DEFINITION. The passes of a slice's pipeline: verb selection (R30, R203, R204), the claim of a way (R87, R89, R90), the opening
of a line, the pass of evictions (R113, R114, R128), the first pass (R28, R29, R135) and re-entry (R32). -/

namespace Sys2Proof.Machine

/-! ### Verb selection (R30, R203) -/

/-- A request in the set-retry queue has no entry: its working entry is what the mark of its set says now (R127). -/
def State.refreshWe (s : State) (i : Fin 17) (t : Nat) : State :=
  match s.ent i t with
  | none => s
  | some e =>
    let waits := match e.stat with | .setRetry _ => true | .eligible => true | _ => false
    if waits && e.opens && !e.wv && !e.h.noDir then
      s.modEnt i t fun e => { e with we := if (s.slice i).suk (sfSet e.r.a.pa) then .uk else .un }
    else s

/-- A transaction's verb is selected by its working entry's state (R30, R203): an activation becomes ready, or the request
completes FAILED (R204). A verb-table clause that cannot be read is read again, and the transaction ends (R208). -/
def State.select (s : State) (i : Fin 17) (t : Nat) : State :=
  match s.ent i t with
  | none => s
  | some e =>
    let u := (s.slice i).uc
    match s.readWord i (if u.active then 8 else 7) (vtIndex e.r.kind.opc e.we.code e.r.rk / 4) with
    | (s, true) => ((s.countMism i).countMism i).activationFails i t
    | (s, false) =>
      let v := u.vt e.r.kind.opc e.we.code e.r.rk
      if v.v then
        s.setEnt i t (some { e with
          stat := .ready false, pc := bit1 u.active ++ v.entry, dlr := v.dlr
          h := { e.h with expiry := e.h.exps.getD v.dlr.toNat e.h.expiry } })
      else
        ((s.completeEnt i t (.comp .failed .i 0) true).retire i t).bump (slcPage i) 0x260 7 0

/-! ### Way claims and the opening of a line -/

/-- A request claims a way, or joins the set-retry queue (R87, R89, R90). SETRETRY counts requests, so one that comes back to
the queue after a re-entry is not counted again; WAYCONF counts every attempt (log entry 62). No way is claimed once the home is in
BROADCAST: the line reads UK then (R389). -/
def State.claim (s : State) (i : Fin 17) (t : Nat) (again : Bool) : State :=
  match s.ent i t with
  | none => s
  | some e =>
    if s.unkept e.r.home then
      (s.modEnt i t fun e => { e with we := .uk, h := { e.h with noDir := true } }).select i t
    else
    let set := sfSet e.r.a.pa
    let ok := s.wayOk e.r.home e.r.rk
    let x := s.slice i
    let noFree := (((List.range 16).filter ok).find? fun w =>
      (x.sfGet set w).dir == .un && (x.wayHolder set w).isNone).isNone
    let s := if e.r.rk && s.detHome e.r.home && noFree then s.bump 0 0x178 7 0 else s
    let wait (s : State) (b : Bool) : State :=
      let s := s.modEnt i t fun e => { e with stat := .setRetry b }
      if again then s else (s.bump (slcPage i) 0x21C 7 0).traceEnt i t e 0x06 e.r.a.src e.r.kind.opc
    let take (s : State) (w : Nat) : State :=
      s.modEnt i t fun e => { e with way := BitVec.ofNat 4 w, wv := true }
    match x.chooseWay set ok with
    | none => wait s false
    | some w =>
      if (x.sfGet set w).dir == .un then (take s w).select i t
      else if s.bires i ≤ x.reserveUsed then wait s true
      else (take (s.backInv i e.r.home set w) w).select i t

/-- An opcode that claims a way in its first pass (R87). -/
def reqClaims : ReqOp → Bool
  | .rdShd => true | .rdOwn => true | .upgr => true | _ => false

/-- The service requests that a buddy refuses for a DEGRADED home (R369 step 6). -/
def degradedRefuses : ReqOp → Bool
  | .lockAcq => true | .lockRel => true | .qEnq => true | .qDeq => true | .qWatch => true | .resv => true
  | .condWr => true | _ => false

/-- The trace record of a first pass (R461): the entry that it binds, with the working entry that it reads and the clause at which its
verb begins. -/
def State.traceFirst (s : State) (i : Fin 17) (t : Nat) : State :=
  match s.ent i t with
  | none => s
  | some e =>
    let u := (s.slice i).uc
    let v := u.vt e.r.kind.opc e.we.code e.r.rk
    s.traceEnt i t { e with pc := bit1 u.active ++ (if v.v then v.entry else 0) } 0x01 e.r.a.src e.r.kind.opc

/-- A transaction opens its line (R30): directory and MSC tags are read, a way is claimed where R87 allows, the verb is
selected. -/
def State.openLine (s : State) (i : Fin 17) (t : Nat) (first : Bool) : State :=
  match s.ent i t with
  | none => s
  | some e =>
    let s := s.readSets i e.r.a.pa
    let (d, w) := s.readDir i e.r.home e.r.a.pa
    let x := s.slice i
    let hit := s.lineHit i e.r.home e.r.a.pa
    let dh : Option Handle := hit.map fun k =>
      let m := x.mscGet (mscSet e.r.a.pa) k
      ⟨.mscWay (mscSet e.r.a.pa) k, ⟨m.data, m.st == .poisoned⟩⟩
    let s := if hit.isSome then s.perf i 0x04 else s
    let s := match w with
      | some k => s.touch i (sfSet e.r.a.pa) k
      | none => s
    let s := s.setEnt i t (some { e with
      opens := true, we := d, way := BitVec.ofNat 4 (w.getD 0), wv := w.isSome
      h := { e.h with dh := dh, mscHit := hit.isSome, noDir := s.unkept e.r.home } })
    let s := if first then s.traceFirst i t else s
    match e.r.kind with
    | .req op =>
      if s.degraded e.r.home && degradedRefuses op then
        (s.completeEnt i t (.comp .fenced .i 0) true).retire i t
      else if reqClaims op && w.isNone && !s.unkept e.r.home then s.claim i t false
      else s.select i t
    | .backInv => s
    | _ =>
      if s.degraded e.r.home then (s.completeEnt i t (.comp .fenced .i 0) true).retire i t
      else (s.modEnt i t fun e => { e with stat := .atSvc }).modSlice (s.svcSlice i) fun x =>
        { x with svcq := x.svcq ++ [⟨t, i, 0, 0⟩] }

/-! ### Evictions (R113, R114, R128) -/

/-- An eviction that matches a stale-eviction record and meets a closed line (R114, R116, R131). Matching does not depend on the image
(R138): an `EvDirty` is discarded as stale, an `EvClean` goes on without the data it carries. -/
def State.evictRec (s : State) (i : Fin 17) (t : Nat) (r : Req) (dirty : Bool) : State :=
  let s := s.useRec i r (!dirty)
  if dirty then
    ((((s.readSets i r.a.pa).traceFirst i t).countStale i).completeEnt i t (.comp .ok .i 0) true).freeEnt i t
  else ((s.cdReturn i t).modEnt i t fun e => { e with r := { e.r with cd := none } }).openLine i t true

/-- An eviction on a closed line: matched against the records, otherwise its line is opened and its verb selected (R113, R114). -/
def State.evictClosed (s : State) (i : Fin 17) (t : Nat) (r : Req) (dirty : Bool) : State :=
  if (s.slice i).recOf r (!dirty) then s.evictRec i t r dirty else s.openLine i t true

/-- The pass of an eviction, in entry `t`: absorbed against the open transaction of its line, whose entry is read (R128, R207), or
applied to the entry (R113, R114). -/
def State.evictPass (s : State) (i : Fin 17) (t : Nat) (r : Req) (dirty : Bool) : State :=
  match (s.slice i).opener r.a.pa with
  | none => s.evictClosed i t r dirty
  | some (o, _) =>
    match s.readTrk i o with
    | (s, true) => s.evictClosed i t r dirty
    | (s, false) =>
      let s := (s.refreshWe i o).traceFirst i t
      match s.ent i o with
      | some e => s.absorb i r dirty t o e
      | none => s

/-! ### The first pass -/

/-- The set of the line is held by a set step of an evacuation (R365 step 1). -/
def State.setHeld (s : State) (i : Fin 17) (r : Req) : Bool :=
  (match r.kind with | .req op => !reqIsDrain op | _ => true) && s.evacHolds i r.home (sfSet r.a.pa)

/-- A request that no slice serves any more completes FENCED, its credits back (R362). -/
def State.failFenced (s : State) (r : Req) : State :=
  let s := (s.complete r (.comp .fenced .i 0) true).reqReturn r
  match r.cd, r.port with
  | some _, some p => s.retDat p r.a.part
  | _, _ => s

/-- A request that a set step's source forwards counts toward its release (R365 step 6). -/
def State.countSent (s : State) (i : Fin 17) (r : Req) : State :=
  match s.flt.run with
  | some m =>
    (match m.phase with
     | .spread k =>
       if m.src == i && m.home == r.home && sfSet r.a.pa == k then
         s.modFlt fun x => { x with run := some { m with sent := m.sent + 1 } } else s
     | _ => s)
  | none => s

/-- Forward a request to the slice that the master table names (R25); a home that no slice serves completes it FENCED
(R362). -/
def State.forward (s : State) (i : Fin 17) (rq : Nat) (r : Req) : State :=
  let s := s.bump (slcPage i) 0x354 7 0
  match s.servingSlice r.home r.a.pa with
  | some j => (s.countSent i r).sendReq (.slice i) j rq { r with fwd := true }
  | none => s.failFenced r

/-- A drain starts: its port watches its condition (R120). -/
def State.startDrain (s : State) (i : Fin 17) (t : Nat) (r : Req) : State :=
  match r.port with
  | none => s
  | some p =>
    (s.modPort p fun x => { x with drains := x.drains.map fun d =>
      if d.ag == r.a.src && d.atag == r.a.atag && d.place.isNone then { d with place := some (i, t) } else d }).drainCheck p

/-- A new request for the line joins its queue: the line is open, or requests that made their first pass earlier still wait
for it (R29). -/
def Slice.lineBusy (x : Slice) (pa : LineAddr) : Bool :=
  x.ents.any fun e => e.2.r.a.pa == pa && (e.2.opens || e.2.stat == .queued || e.2.stat == .eligible)

/-- A `Resv` ends the reservation that its subject holds at the home, whatever becomes of the `Resv` (R154, R156). -/
def State.resvPass (s : State) (i : Fin 17) (r : Req) : State :=
  if r.kind == .req .resv then s.modSlice (s.svcSlice i) fun x =>
    { x with resv := x.resv.filter fun k => !(k.ag == r.a.src && k.home == r.home) } else s

/-- The first pipeline pass of a request (R28 to R30, R135). -/
def State.firstPass (s : State) (i : Fin 17) (rq : Nat) (r : Req) : State :=
  let s := s.perf i 0x02
  let isLine := match r.kind with | .req op => !reqIsDrain op | _ => true
  if isLine && s.servingSlice r.home r.a.pa != some i then
    (s.trace i ⟨s.now.extractLsb' 0 32, 0x01, r.a.src, r.a.pa, 0, r.kind.opc, 0, 0⟩).forward i rq r
  else
    let held := s.setHeld i r
    let busy := (s.slice i).lineBusy r.a.pa
    let (s, t) := (s.resvPass i r).bind i r (if held then .setRetry false else .eligible)
    if held then
      let s := s.traceFirst i t
      match s.ent i t with
      | some e => s.traceEnt i t e 0x06 r.a.src r.kind.opc
      | none => s
    else match r.kind with
    | .req .evClean => s.evictPass i t r false
    | .req .evDirty => s.evictPass i t r true
    | .req op =>
      if reqIsDrain op then ((s.traceFirst i t).select i t).startDrain i t r
      else if busy then (s.traceFirst i t).enqueue i t
      else s.openLine i t true
    | _ => if busy then (s.traceFirst i t).enqueue i t else s.openLine i t true

/-- Re-entry from a blocked-line or the set-retry queue (R32, R89). -/
def State.reenter (s : State) (i : Fin 17) (t : Nat) : State :=
  match s.ent i t with
  | none => s
  | some e =>
    if e.opens then ((s.readSets i e.r.a.pa).refreshWe i t).claim i t true
    else match e.r.kind with
    | .req .evClean => s.evictPass i t e.r false
    | .req .evDirty => s.evictPass i t e.r true
    | _ => if ((s.slice i).opener e.r.a.pa).isSome then s.enqueue i t else s.openLine i t false

end Sys2Proof.Machine
end

