-- ==== Sys2Proof/Machine/Ports.lean ====
section
/-! DEFINITION. What reaches Efkar at a port besides requests (R38 to R40, R56, R57, R63, R65, R69, R70, R429 to R437, R466):
snoop answers, `CompAck`, `DatDirty`, forwarded data, credits, the link layer, the sending of snoops, and the deadlines that
a port times. -/

namespace Sys2Proof.Machine

/-! ### The link layer (R431, R432) -/

/-- A flit with good CRC and the expected number is taken. -/
def LinkRx.take (c : LinkRx) : LinkRx := { c with last := c.last + 1, waitReplay := false, badRun := 0 }

/-- A channel on which the agents send. -/
def PortLink.rx (l : PortLink) (c : PortChan) (f : LinkRx → LinkRx) : PortLink :=
  match c with
  | .req => { l with req := f l.req }
  | .rspi => { l with rspi := f l.rspi }
  | .dati => { l with dati := f l.dati }
  | _ => l

/-- A channel on which Efkar sends. -/
def PortLink.tx (l : PortLink) (c : PortChan) (f : LinkTx → LinkTx) : PortLink :=
  match c with
  | .snp => { l with snp := f l.snp }
  | .rspo => { l with rspo := f l.rspo }
  | .dato => { l with dato := f l.dato }
  | _ => l

/-- A flit is taken at a port on a channel. -/
def State.linkTake (s : State) (p : Fin 24) (c : PortChan) : State :=
  s.modPort p fun x => { x with link := x.link.rx c LinkRx.take }

/-- The sending side of a channel; Efkar sends nothing on the others. -/
def PortLink.txAt (l : PortLink) : PortChan → Option LinkTx
  | .snp => some l.snp | .rspo => some l.rspo | .dato => some l.dato | _ => none

/-- The receiving side of a channel; the agents send nothing on the others. -/
def PortLink.rxAt (l : PortLink) : PortChan → Option LinkRx
  | .req => some l.req | .rspi => some l.rspi | .dati => some l.dati | _ => none

/-- A sending side changes, and flits that waited behind the window are offered (R177, R431). -/
def State.linkMove (s : State) (p : Fin 24) (c : PortChan) (f : LinkTx → LinkTx) : State :=
  s.modPort p fun x =>
    let l := x.link.tx c f
    let out := match l.txAt c, x.link.txAt c with
      | some k, some o => k.sentOf o.waiting
      | _, _ => []
    out.foldl (fun x g => x.flitOut (s.after 5) g) { x with link := l }

/-- The agents acknowledge (R431); a port that is down ignores it (R435). -/
def State.linkAck (s : State) (p : Fin 24) (c : PortChan) (n : BitVec 5) : State :=
  if (s.port p).up then s.linkMove p c (·.ackTo n) else s

/-- Efkar asks for a replay of the expected flit, which came with a bad CRC or in whose place another number came: `rply` rises, which
is a CORR event of the port, and the third bad CRC in a row on one flit is the UNCOR event of a failed crossing (R431, R432). -/
def State.linkAsk (s : State) (p : Fin 24) (c : PortChan) (k : LinkRx) (badCrc : Bool) : State :=
  let run := if badCrc then k.badRun + 1 else k.badRun
  let s := (s.corrEv (srcPort p)).modPort p fun x => { x with link := x.link.rx c fun k =>
    { k with waitReplay := true, rply := true, badRun := if run = 3 then 0 else run } }
  if run = 3 then s.uncorEv (srcPort p) else s

/-- The receiver's rule of R431 for a flit with number `n`: none when it is taken, otherwise the state after it is discarded. While a
replay is awaited a flit other than the expected one is discarded alone (log entry 19). -/
def State.linkRefuses (s : State) (p : Fin 24) (c : PortChan) (k : LinkRx) (n : BitVec 5) (badCrc : Bool) : Option State :=
  if n = k.last + 1 then (if badCrc then some (s.linkAsk p c k true) else none)
  else if k.waitReplay then some s
  else some (s.linkAsk p c k badCrc)

/-- The agents ask for a replay (R431, R432): what `n` acknowledges is freed and the rest is sent again. -/
def State.linkResend (s : State) (p : Fin 24) (c : PortChan) (n : BitVec 5) : State :=
  (s.corrEv (srcPort p)).linkMove p c (·.resend n)

/-! ### Fence checks (R355) -/

/-- A flit of an agent is discarded because the agent or its port is fenced: the first after the fence is one CORR event of
the agent's source. -/
def State.discardFenced (s : State) (p : Fin 24) (a : Agent) : State :=
  if carries p a && !(s.port p).discarded.contains a then
    (s.modPort p fun x => { x with discarded := x.discarded ++ [a] }).protAgent a
  else s

/-- Checks 1 and 2 of R35 for any flit with a source agent: what remains of the flit's way, and whether it goes on. -/
def State.sourceCheck (s : State) (p : Fin 24) (a : Agent) : State × Bool :=
  if s.portFenced p || (carries p a && s.agFenced a) then (s.discardFenced p a, false)
  else if !carries p a then (s.protPort p, false)
  else (s, true)

/-! ### Snoop answers -/

/-- The record at its port of the snoop that an answer of agent `a` answers (R65): of the transaction that its HTID names, else of one
that has retired; ready, and with its RSP still to come. -/
def State.answerRec (s : State) (p : Fin 24) (a : Agent) (sl : BitVec 5) (tid : BitVec 13) : Option EgSnp :=
  let q (g : EgSnp) : Bool := g.f.op != .qNotify && g.f.dst == a && g.f.slice == sl && g.f.tid == tid && !g.rspIn &&
    (g.area || g.sent)
  match (s.port p).egress.find? fun g => q g && !g.gone with
  | some g => some g
  | none => (s.port p).egress.find? q

/-- The record of the snoop that a `DatDirty` of agent `a` answers: one whose RSP has still to come, or one whose `RspEvPend` has come
first (R56, R65). -/
def State.dirtyRec (s : State) (p : Fin 24) (a : Agent) (sl : BitVec 5) (tid : BitVec 13) : Option EgSnp :=
  let late (g : EgSnp) : Bool := g.f.dst == a && g.f.slice == sl && g.f.tid == tid && g.rspIn && g.evNeed && !g.datIn && !g.gone
  ((s.port p).egress.find? late).or (s.answerRec p a sl tid)

/-- The snoop's partition and generation are those of an answer, or it carried none (R69, R70). -/
def State.answerGen (s : State) (g : EgSnp) (q : PartId) (n : Gen) : Bool :=
  g.f.rag == 63 || (g.f.rpart == q && g.f.rgen == n && n == (s.part q).gen)

/-- The transaction's snoop to the agent carried no partition (R69). -/
def Trk.anonTo (e : Trk) (a : Agent) : Bool :=
  e.r.port.isNone || (match e.h.await.find? fun w => w.ag == a with | some w => w.anon | none => false)

/-- The transaction awaits the agent's RSP (R466). -/
def Trk.awaits (e : Trk) (a : Agent) : Option Await := e.h.await.find? fun w => w.ag == a && w.ready && w.rsp

/-- The transaction awaits a `DatDirty` of the agent (R466). -/
def Trk.awaitsDat (e : Trk) (a : Agent) : Bool := e.h.await.any fun w => w.ag == a && w.ready && !w.got && (w.rsp || w.dat)

/-- An answer that its transaction does not await: a protocol fault against the agent; a `DatDirty` that it marks goes with
it, and its line is freed (R466). -/
def State.unawaited (s : State) (p : Fin 24) (a : Agent) (i : Fin 17) (t : Nat) : State :=
  let r := (s.ent i t).map fun e => e.r.a
  (s.freeArea p fun g => g.isFor a i t && g.rspIn).protAgent a ((r.map ReqArgs.part).getD 0) ((r.map ReqArgs.pa).getD 0)

/-- An RSP answer to a snoop, which came in at port p, reaches its slice (R56, R57, R70, R199, R200, R466): `follows` is its
data-follows mark, `late` says that its deadline had passed at the port. -/
def State.answerAt (s : State) (p : Fin 24) (op : RspOp) (f : RspArgs) (follows late : Bool) : State :=
  match s.htid (f.loc.extractLsb' 13 5) (f.loc.extractLsb' 0 13) with
  | none => s.staleMsg f.part
  | some (i, t, e) =>
    if !e.anonTo f.src && (f.gen != (s.part f.part).gen || e.r.a.part != f.part || e.r.a.gen != f.gen) then s.staleMsg f.part
    else match e.awaits f.src with
      | none => s.unawaited p f.src i t
      | some w =>
        let s := if late then s.bump (slcPage i) 0x210 7 0 else s
        s.withTrk i t fun s => s.takeAnswer i t w.op op f follows

/-- An RSP answer to a snoop arrives at port p (R65, R200, R295), and goes to its slice on the RSP network. -/
def State.answerArrive (s : State) (p : Fin 24) (op : RspOp) (f : RspArgs) : State :=
  if !(s.port p).up then s else
  match (s.linkTake p .rspi).sourceCheck p f.src with
  | (s, false) => s
  | (s, true) =>
    let sl := f.loc.extractLsb' 13 5
    let go (g : Option EgSnp) (s : State) : State :=
      let follows := match g with | some g => g.datIn || op == .rspEvPend | none => false
      let late := match g with | some g => g.reported | none => false
      let det := match g with | some g => g.det | none => false
      s.carry (.answer p op f follows late) (.port p) (.slice (Fin.ofNat 17 sl.toNat)) det fun s => s.answerAt p op f follows late
    match (s.answerRec p f.src sl (f.loc.extractLsb' 0 13)).filter fun g => s.answerGen g f.part f.gen with
    | none => go none s
    | some g => go (some g) (s.modEgress p (· == g) fun k =>
        let ev := op == .rspEvPend
        { k with rspIn := true, sent := true, area := k.area && (k.datIn || ev), fwdNeed := op.forwards && k.f.rag != 63, evNeed := ev })

/-- A `CompAck` reaches the slice of its line (R63, R70). -/
def State.ackAt (s : State) (p : Fin 24) (f : RspArgs) : State :=
  let tgt := (s.servingSlice (s.homeOf f.loc) f.loc).bind fun i =>
    if (s.slice i).asleep then none else (s.ackTarget i f).map fun t => (i, t)
  match tgt with
  | some (i, t) => s.withTrk i t fun s => s.takeAck i t f.src
  | none => (s.staleMsg f.part).protPort p f.part f.loc

/-- A `CompAck` arrives at port p (R63, R70, R177, R295). -/
def State.compAckArrive (s : State) (p : Fin 24) (f : RspArgs) : State :=
  if !(s.port p).up then s else
  match (s.linkTake p .rspi).sourceCheck p f.src with
  | (s, false) => s
  | (s, true) =>
    let det := (s.port p).acks.any (·.isFor f.src f.part f.atag f.gen)
    let s := s.modPort p fun x => { x with acks := x.acks.filter fun k => !k.isFor f.src f.part f.atag f.gen }
    if f.gen != (s.part f.part).gen then s.staleMsg f.part
    else match s.servingSlice (s.homeOf f.loc) f.loc with
      | none => (s.staleMsg f.part).protPort p f.part f.loc
      | some i => s.carry (.ack p f) (.port p) (.slice i) det fun s => s.ackAt p f

/-- The line of the answer area that an agent's `DatDirty` lies in is freed, unless the `DatDirty` still waits there (R246). -/
def State.areaLeft (s : State) (p : Fin 24) (a : Agent) (i : Fin 17) (t : Nat) (pa : LineAddr) : State :=
  if (s.slice i).mem.wtWait.any fun k => k.area == some a && k.addr == .line pa then s
  else s.modEgress p (fun k => k.isFor a i t) fun k => { k with area := false }

/-- A `DatDirty` to Efkar, which came in at port p, reaches its slice (R70, R101, R199, R246, R466). One that names no open
transaction is counted at partition `q` (log entry 37). -/
def State.dirtyAt (s : State) (p : Fin 24) (f : DatArgs) (q : PartId) : State :=
  let sl := f.id.extractLsb' 13 5
  let tid := f.id.extractLsb' 0 13
  match s.htid sl tid with
  | none => (s.freeArea p fun g => g.f.op != .qNotify && g.f.dst == f.agt && g.f.slice == sl && g.f.tid == tid && !g.gone).staleMsg q
  | some (i, t, e) =>
    if !e.anonTo f.agt && (f.gen != e.r.a.gen || f.gen != (s.part e.r.a.part).gen) then s.staleMsg e.r.a.part
    else if !e.awaitsDat f.agt then s.protAgent f.agt e.r.a.part e.r.a.pa
    else (s.withTrk i t fun s => s.takeDatDirty i t f).areaLeft p f.agt i t e.r.a.pa

/-- A `DatDirty` to Efkar arrives at port p, in its line of the answer area, and goes to its slice on the DAT network (R246, R295). -/
def State.datDirtyArrive (s : State) (p : Fin 24) (f : DatArgs) : State :=
  if !(s.port p).up then s else
  match (s.linkTake p .dati).sourceCheck p f.agt with
  | (s, false) => s
  | (s, true) =>
    let sl := f.id.extractLsb' 13 5
    let g := s.dirtyRec p f.agt sl (f.id.extractLsb' 0 13)
    let q := match g with | some g => g.f.rpart | none => 0
    let det := match g with | some g => g.det | none => false
    let s := match g.filter fun g => !g.gone && (g.f.rag == 63 || f.gen == g.f.rgen) with
      | some g => s.modEgress p (· == g) fun k => { k with datIn := true }
      | none => s
    s.carry (.dirty p f q) (.port p) (.slice (Fin.ofNat 17 sl.toNat)) det fun s => s.dirtyAt p f q

/-! ### Forwarded data (R39, R67, R69, R177) -/

/-- A forwarded flit reaches the port of the agent that AGT names, where fence and generation are checked; one on a DET virtual
channel is noted with the completion that it belongs to. -/
def State.forwardedAt (s : State) (op : DatOp) (f : DatArgs) (det : Bool) : State :=
  match portOf f.agt with
  | none => s
  | some d =>
    let q : PartId := f.id.extractLsb' 12 6
    let tag : ATag := f.id.extractLsb' 0 12
    match s.egressCheck f.agt q f.gen with
    | (s, false) => s
    | (s, true) =>
      let s := if det && !((s.port d).acks.any (·.isFor f.agt q tag f.gen)) then
        s.modPort d fun x => { x with acks := x.acks ++ [⟨f.agt, q, tag, f.gen, 0, s.detClass d f.agt, true, true, none⟩] } else s
      s.offer d (.dat op f)

/-- A DAT flit from one agent to another passes through: it marks the snoop whose answer it belongs to (R65), and goes to the
port of the agent that AGT names, on the channel of the snoop's class (R295). -/
def State.forwardedArrive (s : State) (p : Fin 24) (op : DatOp) (f : DatArgs) : State :=
  if !(s.port p).up then s
  else
    let s := s.linkTake p .dati
    if s.portFenced p then s
    else match portOf f.agt with
    | none => s.protPort p
    | some d =>
      let q (g : EgSnp) : Bool := g.f.op != .qNotify && g.f.rag == f.agt && g.f.rpart == f.id.extractLsb' 12 6 &&
        g.f.ratag == f.id.extractLsb' 0 12 && g.f.rgen == f.gen
      let det := (s.port p).egress.any fun g => q g && g.det
      let s := s.modEgress p q fun g => { g with fwdIn := true }
      s.carry (.fwd op f det) (.port p) (.port d) det fun s => s.forwardedAt op f det

/-! ### Snoops on their way out (R246, R58, R69, R355) -/

/-- The snoop that leaves next: one that holds its answer-area line, or a `QNotify`; DET first, as on the networks (R292). -/
def Port.nextSnoop (x : Port) : Option EgSnp :=
  let rs := x.egress.filter fun g => !g.sent && !g.gone && (g.area || g.f.op == .qNotify)
  match rs.find? EgSnp.det with
  | some g => some g
  | none => rs.head?

/-- The snoop names no partition (R69, R195). -/
def SnpFlit.anon (f : SnpFlit) : Bool := f.rag == 63 && f.op != .qNotify

/-- The record of a snoop leaves its port's egress. -/
def State.dropSnoop (s : State) (p : Fin 24) (g : EgSnp) : State :=
  (s.modPort p fun x => { x with egress := x.egress.erase g }).bindArea p

/-- Send a snoop, one snoop credit each; one for a fenced agent or of a generation that has passed is discarded. -/
def State.snoopSend (s : State) (p : Fin 24) : State :=
  if !(s.port p).up then s else
  match (s.port p).nextSnoop with
  | none => s
  | some g =>
    if s.agFenced g.f.dst then s.dropSnoop p g
    else if !g.f.anon && g.f.rgen != (s.part g.f.rpart).gen then (s.dropSnoop p g).staleMsg g.f.rpart
    else if (s.port p).snpCred = 0 then s
    else
      let s := (s.modPort p fun x => { x with snpCred := x.snpCred - 1 }).offer p (.snp g.f)
      if g.f.op = .qNotify then s.dropSnoop p g
      else s.modPort p fun x => { x with egress := x.egress.map fun k => if k == g then { k with sent := true } else k }

/-- The agents offer a snoop credit (R434). -/
def State.snoopCreditIn (s : State) (p : Fin 24) : State :=
  if !(s.port p).up then s
  else if (s.port p).snpCred < 255 then s.modPort p fun x => { x with snpCred := x.snpCred + 1 }
  else s.protPort p

/-! ### Credit pulses (R433) -/

/-- The pulse of one pc: the first credit due, and what stays due. -/
def popDue : List (PartId × Nat) → Option PartId × List (PartId × Nat)
  | [] => (none, [])
  | (q, n) :: ds => if n ≤ 1 then (some q, ds) else (some q, (q, n - 1) :: ds)

/-- One pc of the outputs of a link layer: the next flit on each channel, and `rply` falls (R429, R431). -/
def PortLink.pc (l : PortLink) : PortLink where
  snp := l.snp.drive
  rspo := l.rspo.drive
  dato := l.dato.drive
  req := { l.req with rply := false }
  rspi := { l.rspi with rply := false }
  dati := { l.dati with rply := false }

/-- One pc of the outputs of a port: its credit signals and its link layer (R429, R433). -/
def State.creditPulse (s : State) (p : Fin 24) : State :=
  if !(s.port p).up then s else
  s.modPort p fun x =>
    let (r, rs) := popDue x.cred.reqDue
    let (d, ds) := popDue x.cred.datDue
    { x with link := x.link.pc, cred := { x.cred with reqDue := rs, datDue := ds, reqPulse := r, datPulse := d } }

/-! ### The fence outputs (R429, R436) -/

/-- `clp<p>_fence`: bit a while local agent a, or the whole port, is fenced; 0 for absent agents, and while the port is down. -/
def State.clpFence (s : State) (p : Fin 24) : BitVec 4 :=
  if (s.port p).up then
    (agentsOf p).foldl (fun v a => if s.portFenced p || s.agFenced a then v ||| BitVec.ofNat 4 (2 ^ localIdx p a) else v) 0
  else 0

/-! ### Deadlines that a port times -/

/-- An expiry report has come to the slice, which is to take it (R65). -/
def State.expiryAt (s : State) (i : Fin 17) (r : ExpRep) : State := s.modSlice i fun x => { x with expRep := x.expRep ++ [r] }

/-- The snoop deadline of an agent's answer has passed at the port before the answer (R65): a report leaves for the slice. -/
def State.snoopDeadline (s : State) (p : Fin 24) (a : Agent) : State :=
  let due (g : EgSnp) : Bool := g.f.dst == a && g.f.op != .qNotify && !g.reported && !g.arrived &&
    (match g.dl with | some d => s.reached d | none => false)
  match (s.port p).egress.find? due with
  | none => s
  | some g =>
    let left (x : Port) : List EgSnp :=
      if g.gone then x.egress.erase g else x.egress.map fun k => if k == g then { k with reported := true } else k
    let s := s.modPort p fun x => { x with egress := left x }
    if h : g.f.slice.toNat < 17 then
      let i : Fin 17 := ⟨g.f.slice.toNat, h⟩
      s.carry (.expiry i ⟨g.f.tid.toNat, g.age, a⟩) (.port p) (.slice i) g.det fun s => s.expiryAt i ⟨g.f.tid.toNat, g.age, a⟩
    else s

/-- An expiry report reaches the slice (R65, R122). -/
def State.expiryReport (s : State) (i : Fin 17) : State :=
  match (s.slice i).expRep with
  | [] => s
  | r :: rs =>
    let s := s.modSlice i fun x => { x with expRep := rs }
    match (s.ent i r.tid).filter fun e => e.opens && e.age == r.age with
    | some e => (s.protAgent r.ag e.r.a.part e.r.a.pa).withTrk i r.tid fun s => s.modEnt i r.tid Trk.setUkm
    | none => s.protAgent r.ag

/-- A CompAck allowance has passed (R177): a snoop-deadline fault against the agent. -/
def State.ackAllowance (s : State) (p : Fin 24) (a : Agent) : State :=
  let due (k : AckTimer) : Bool := k.ag == a && (match k.dl with | some d => s.reached d | none => false)
  match (s.port p).acks.find? due with
  | none => s
  | some k => (s.modPort p fun x => { x with acks := x.acks.erase k }).protAgent a k.part k.pa

/-- A home's report of a drained counted write leaves for its port, on the RSP network (R119). -/
def State.drainReportIn (s : State) (i : Fin 17) : State :=
  match (s.slice i).mem.drainRep with
  | [] => s
  | r :: rs => (s.modSlice i fun x => { x with mem := { x.mem with drainRep := rs } }).carry (.drained r) (.slice i) (.port r.w.port) false
      fun s => s.writeMark r.w false true r.fenced

/-! ### Companions without their request (R44) -/

/-- The time for a companion or its request, 1,000 tk, has passed. -/
def State.companionLate (s : State) (t : Tk) : Bool := s.reached (t + 1000)

/-- A request's companion has not arrived: `Err` 0x07 and a protocol fault. -/
def State.companionMissing (s : State) (p : Fin 24) (a : Agent) (tag : ATag) : State :=
  match (s.port p).held.find? fun h => h.why == .companion && h.a.src == a && h.a.atag == tag && s.companionLate h.at' with
  | none => s
  | some h =>
    ((s.modPort p fun x => { x with held := x.held.erase h }).niComplete p h .err .ok 0x07).protPort p h.a.part h.a.pa

/-- A companion's request has not arrived: it is discarded, its data credit returned, and a protocol fault counted. -/
def State.orphanLate (s : State) (p : Fin 24) (a : Agent) (tag : ATag) : State :=
  match (s.port p).orphans.find? fun o => o.src == a && o.atag == tag && s.companionLate o.at' with
  | none => s
  | some o => ((s.modPort p fun x => { x with orphans := x.orphans.erase o }).retDat p o.part).protPort p o.part

end Sys2Proof.Machine
end

