-- ==== Sys2Proof/Machine/Sched.lean ====
section
/-! DEFINITION. What a slice does in its own time (R31, R32, R169, R184, R201, R302 to R307, R357, R98, R369, R373): the input
arbiter with its two tables, the work of requester 24, re-entry, memory events, and the deadlines of tracker entries, records
and reservations. -/

namespace Sys2Proof.Machine

/-- The slice is the destination of a takeover or a return that has not ended (R368, R370). -/
def State.awaitsCopy (s : State) (i : Fin 17) : Bool :=
  match s.flt.run with
  | some m => (m.kind == .takeover || m.kind == .ret) && m.dst == i
  | none => false

/-- Efkar runs requests (R381, R387, R395). -/
def State.blockRuns (s : State) : Bool := (s.glb.stt == .enabled || s.glb.stt == .disabling) && !s.glb.warmEntry

/-- The INIT bits of the arrays that a running slice reads: all but the MSC's, which are read while it is not OFF, and the trace
buffer's (R383). -/
def pipeArrays : BitVec 10 := 0x19F

/-- Requests run in a slice: Efkar is enabled, and the slice is awake and its arrays initialised, not fenced, not being reset, tested or
filled. -/
def State.sliceRuns (s : State) (i : Fin 17) : Bool :=
  s.blockRuns && (s.slice i).ar.init &&& pipeArrays == pipeArrays && !s.slFenced i && !(s.slice i).asleep && !(s.slice i).ctl.resetting && !(s.slice i).ctl.testing && !s.awaitsCopy i

/-! ### Ingress queues: what waits (R302, R306, R365, R366) -/

/-- The deadline of a request that waits in an ingress queue (R165, R306). -/
def State.ingressExpired (s : State) (i : Fin 17) (r : Req) : Bool := s.reached (s.deadline i r (s.queueDlr i r))

/-- A direct request for the set that a set step is moving is held at the destination until the release (R365 step 7). -/
def State.directHeld (s : State) (i : Fin 17) (r : Req) : Bool :=
  match s.flt.run with
  | some m =>
    m.dst == i && m.home == r.home && (match r.kind with | .req op => !reqIsDrain op | _ => true) &&
      (match m.phase with
       | .spread k => sfSet r.a.pa == k && !(m.released && decide (m.sent ≤ m.passed))
       | _ => false)
  | none => false

/-- The head of a requester's queue (R366): the forwarded lane first. -/
def State.ingHead (s : State) (i : Fin 17) (rq : Nat) : Option (Req × Nat) :=
  let g := (s.slice i).ing rq
  match g.fwd with
  | h :: _ => some h
  | [] => match g.direct with
    | h :: _ => if s.directHeld i h.1 then none else some h
    | [] => none

/-- Take the head of a requester's queue. -/
def Slice.ingPop (x : Slice) (rq : Nat) : Slice :=
  let g := x.ing rq
  match g.fwd with
  | _ :: l => x.setIng rq { g with fwd := l }
  | [] => x.setIng rq { g with direct := g.direct.drop 1 }

/-- Withdraw a requester's expired requests (R306). -/
def State.ingExpire (s : State) (i : Fin 17) (rq : Nat) : State :=
  s.leaveIngress i rq (fun r => s.ingressExpired i r) fun s r => s.withdraw i r true

/-- Requests of a queue whose set the slice no longer serves leave it for the slice that does (R25, R306, R307). -/
def State.ingForward (s : State) (i : Fin 17) (rq : Nat) : State :=
  s.leaveIngress i rq (fun r => (match r.kind with | .req op => !reqIsDrain op | _ => true) && s.servingSlice r.home r.a.pa != some i)
    fun s r => s.forward i rq r

/-! ### The work of requester 24 (R98, R302, R357, R373) -/

/-- Agent 63's requests are stopped: while DISABLING no request of requesters 24 and 25 is granted, and of the sweeps only that of a
fence goes on (R387). -/
def State.ownStopped (s : State) : Bool := s.glb.stt == .disabling

/-- Work waits for a grant to requester 24. -/
def Sweeps.busy (w : Sweeps) : Bool := w.presLeft != 0 || w.suk.isSome || w.scrubLeft != 0

/-- The presence sweep in one way (R356, R357); the snoop filter of a home in BROADCAST is not changed (R389). -/
def State.presenceWay (s : State) (i : Fin 17) (set way : Nat) : State :=
  let w := (s.slice i).sfGet set way
  let pa := sfLine set w.tag
  let put (d : Dir) : State := (s.modSlice i (·.sfSet set way { w with dir := d })).touch i set way
  if w.dir = .un ∨ s.inBcast (s.homeOf pa) ∨ ((s.slice i).opener pa).isSome ∨ ((s.slice i).wayHolder set way).isSome then s
  else match w.dir with
    | .ex o => if s.agFenced o then (put .un).writePoison i (s.homeOf pa) pa 0 none else s
    | d => if s.cleanDir d = d then s else put (s.cleanDir d)

/-- One set of the presence sweep. -/
def State.presenceVisit (s : State) (i : Fin 17) : State :=
  let w := (s.slice i).sw
  let s := (List.range 16).foldl (fun s k => s.readSf i w.presNext k) s
  let s := (List.range 16).foldl (fun s k => s.presenceWay i w.presNext k) s
  s.modSlice i fun x => { x with sw := { x.sw with
    presNext := (w.presNext + 1) % 16384, presLeft := w.presLeft - 1
    presAgents := if w.presLeft = 1 then [] else w.presAgents } }

/-- The set belongs to a home in BROADCAST that keeps entries in the slice (R389). -/
def State.bcastSet (s : State) (i : Fin 17) (k : Nat) : Bool :=
  (List.finRange 16).any fun h => s.inBcast h && !s.degraded h && s.servingSlice h (BitVec.ofNat 46 k) == some i

/-- One set of SUKCLR (R98); the marks of a home in BROADCAST are not changed (R389). -/
def State.sukVisit (s : State) (i : Fin 17) (k : Nat) : State :=
  let s := if s.bcastSet i k then s else s.putSuk i k false
  if k + 1 < 16384 then s.modSlice i fun x => { x with sw := { x.sw with suk := some (k + 1) } }
  else (s.modSlice i fun x => { x with sw := { x.sw with suk := none, sfSt := x.sw.sfSt.complete } }).done (slcPage i)

/-- The scrubber in one MSC set: stale ways go to ST 0b00; with the MSC OFF every way is stale (R254). A way that an allocation
has chosen or a data handle reserves stays (R256, R258). -/
def Slice.scrubMsc (x : Slice) (set : Nat) : Slice :=
  (List.range 12).foldl (fun x w =>
    let m := x.mscGet set w
    if (m.epoch != x.mem.ctl.epoch || x.mem.ctl.mode == .off) && m.st != .pending && !x.mscReserved set w then
      x.mscPut set w ⟨0, 0, .inval, 0⟩ else x) x

/-- One visit of the scrubber. -/
def State.scrubVisit (s : State) (i : Fin 17) : State :=
  let k := (s.slice i).sw.scrubNext
  let s := s.scrubWords i k
  let s := if k < 2048 && (s.slice i).filled 5 then s.modSlice i (·.scrubMsc k) else s
  s.modSlice i fun x => { x with sw := { x.sw with scrubNext := (k + 1) % 16384, scrubLeft := x.sw.scrubLeft - 1 } }

/-- The set that an exit sweep of BROADCAST visits next in slice i, with its home (R390, R392 l). -/
def State.bcVisit (s : State) (i : Fin 17) : Option (Fin 16 × Nat) :=
  s.glb.bc.sweep.find? fun e => decide (e.2 < 16384) && s.servingSlice e.1 (BitVec.ofNat 46 e.2) == some i

/-- One set of the exit sweep of a home: every way UN, and the set unknown (R390). -/
def State.bcastVisit (s : State) (i : Fin 17) (e : Fin 16 × Nat) : State :=
  ((s.modSlice i fun x => (List.range 16).foldl (fun x w => x.sfSet e.2 w ⟨0, .un⟩) x).putSuk i e.2 true).modGlb fun g =>
    { g with bc := { g.bc with sweep := g.bc.sweep.map fun k => if k.1 = e.1 then (k.1, k.2 + 1) else k } }

/-- A grant to requester 24 without a queued request. -/
def State.ownVisit (s : State) (i : Fin 17) : State :=
  let w := (s.slice i).sw
  let s := if w.presLeft ≠ 0 then s.presenceVisit i
    else if s.ownStopped then s
    else match w.suk with
    | some k => s.sukVisit i k
    | none => match s.bcVisit i with
      | some k => s.bcastVisit i k
      | none => if w.scrubLeft ≠ 0 then s.scrubVisit i else s
  s.modSlice i fun x => { x with sw := { x.sw with bgAt := x.arb.sc } }

/-! ### The arbiter (R303 to R307, R369 step 4) -/

/-- A requester with something to grant: the home it is for and the sc at which it came. -/
structure Waiter where
  rq : Nat
  home : Fin 16
  at' : Nat
  deriving DecidableEq, Repr

/-- Everyone who waits. -/
def State.waiters (s : State) (i : Fin 17) : List Waiter :=
  let own : Fin 16 := (s.homesOf i).headD (Fin.ofNat 16 i.val)
  (List.range 26).filterMap fun rq =>
    match if 24 ≤ rq ∧ s.ownStopped then none else s.ingHead i rq with
    | some (r, t) => some ⟨rq, r.home, t⟩
    | none =>
      let work := if s.ownStopped then (s.slice i).sw.presLeft != 0 else (s.slice i).sw.busy || (s.bcVisit i).isSome
      if rq = 24 && work then some ⟨24, own, (s.slice i).sw.bgAt⟩ else none

/-- The oldest of some waiters; a tie goes to the lower requester. -/
def oldestOf : List Waiter → Option Waiter
  | [] => none
  | w :: ws => match oldestOf ws with
    | none => some w
    | some v => if v.at' < w.at' then some v else some w

/-- Word `k` of the slot table and priorities that serve home `h` in slice `i`: its own registers, or the copy of the fenced
slice's for a DEGRADED home (R369, R424). -/
def State.arbWord (s : State) (i : Fin 17) (h : Fin 16) (k : Nat) : BitVec 32 :=
  if s.degraded h then tabGet 0 s.glb.slotCopy (32 * h.val + k) else s.reg (slcPage i) (0xC0 + k)

/-- Owner of a slot (SLC_SLOTk), when VALID. -/
def State.slotOwner (s : State) (i : Fin 17) (h : Fin 16) (n : Nat) : Option Nat :=
  let b := ((s.arbWord i h (n / 4)).toNat >>> (8 * (n % 4))) % 256
  if b / 128 = 1 then some (b % 32) else none

/-- Background priority of a requester (SLC_PRIOk). -/
def State.prioOf (s : State) (i : Fin 17) (h : Fin 16) (rq : Nat) : Nat :=
  ((s.arbWord i h (16 + rq / 8)).toNat >>> (4 * (rq % 8))) % 8

/-- The home whose table the sc belongs to, the slot number, and the other home where the slice serves two. -/
def State.scTable (s : State) (i : Fin 17) : Fin 16 × Nat × Option (Fin 16) :=
  let t := (s.slice i).arb.sc
  let hs := s.homesOf i
  match hs.find? fun h => !s.degraded h, hs.find? s.degraded with
  | some a, some b => if t % 2 = 0 then (a, t / 2 % 64, some b) else (b, t / 2 % 64, some a)
  | some a, none => (a, t % 64, none)
  | none, some b => (b, t % 64, none)
  | none, none => (Fin.ofNat 16 i.val, t % 64, none)

/-- Rules 3 and 4 in the table of one home: the slot owner, and what is granted without one. -/
def State.byTable (s : State) (i : Fin 17) (h : Fin 16) (slot : Nat) (ws : List Waiter) : Option Waiter × Option Waiter :=
  let mine := ws.filter fun w => w.home == h
  let owner := (s.slotOwner i h slot).bind fun o => mine.find? fun w => w.rq == o
  let top := mine.foldl (fun m w => max m (s.prioOf i h w.rq)) 0
  (owner, oldestOf (mine.filter fun w => s.prioOf i h w.rq == top))

/-- The grant of this sc, the requester whose grant is carried, and whether it is the longest waiter's (R303, R304). -/
def State.arbitrate (s : State) (i : Fin 17) : Option Waiter × Option Nat × Bool :=
  let ws := s.waiters i
  let a := (s.slice i).arb
  let (h, slot, other) := s.scTable i
  let h := match other with
    | some o => if ws.any (·.home == h) then h else o
    | none => h
  let ws' := match other with | some _ => ws | none => ws.map fun w => { w with home := h }
  let (owner, back) := s.byTable i h slot ws'
  let carried := a.carried.bind fun q => ws'.find? fun w => w.rq == q
  match oldestOf ws' with
  | none => (none, none, false)
  | some old =>
    if s.fld (slcPage i) 0x350 6 0 ≤ a.sinceLw + 1 then
      let pref := match carried with
        | some w => if w.rq == old.rq then owner else some w
        | none => owner
      (some old, (pref.filter fun w => w.rq != old.rq).map Waiter.rq, true)
    else match carried with
      | some w => (some w, (owner.filter fun o => o.rq != w.rq).map Waiter.rq, false)
      | none => ((owner.or back).or (some old), none, false)

/-- A granted request makes its first pass; one that a set step forwarded is counted (R365 step 7). -/
def State.grantPass (s : State) (i : Fin 17) (rq : Nat) : State :=
  match if 24 ≤ rq ∧ s.ownStopped then none else s.ingHead i rq with
  | some (r, _) =>
    let s := s.modSlice i (·.ingPop rq)
    let s := match s.flt.run with
      | some m =>
        if r.fwd && m.dst == i && m.home == r.home then
          s.modFlt fun x => { x with run := some { m with passed := m.passed + 1 } }
        else s
      | none => s
    s.firstPass i rq r
  | none => if rq = 24 then s.ownVisit i else s

/-- One sc of the arbiter. -/
def State.arbiterStep (s : State) (i : Fin 17) : State :=
  let s := (s.perf i 0x0E).perf i 0x0D (s.slice i).ents.length
  if !s.sliceRuns i then s
  else
    let s := s.modSlice i fun x => { x with trace := { x.trace with inSc := 0 } }
    let s := (List.range 26).foldl (fun s rq => (s.ingExpire i rq).ingForward i rq) s
    let (g, carry, lw) := s.arbitrate i
    let s := s.modSlice i fun x => { x with arb :=
      { sc := x.arb.sc + 1, carried := carry
        sinceLw := if g.isNone then x.arb.sinceLw else if lw then 0 else x.arb.sinceLw + 1 } }
    let s := if carry.isSome then s.bump (slcPage i) 0x354 15 8 else s
    match g with
    | some w => (s.perf i 0x01).grantPass i w.rq
    | none => s

/-! ### Re-entry (R32, R89, R126, R168) -/

/-- The next of the set-retry queue that a request leaves without using what it was let go for: of its set, else of those that wait
for a reserve entry (R89, R168). -/
def Slice.passOn (x : Slice) (set : Nat) : Slice :=
  match x.setWaiters fun k _ => k == set with
  | [] => x.makeEligible (x.setWaiters fun _ b => b)
  | l => x.makeEligible l

/-- A request whose deadline passes while it waits (R126): completed, logged, and gone, with the line it had opened. One that had
been let go leaves its turn to the next of its queue (R168), and a window that is open on the line takes the next (R117). -/
def State.queuedEnd (s : State) (i : Fin 17) (t : Nat) : State :=
  match s.ent i t with
  | none => s
  | some e =>
    let s := s.reportLate i e.r []
    let s := (s.completeEnt i t (lateMsg e.r.queueForm) true).retire i t
    if e.stat ≠ .eligible then s.joinLine i e.r.a.pa
    else if e.opens then s.modSlice i (·.passOn (sfSet e.r.a.pa))
    else if ((s.slice i).opener e.r.a.pa).isNone then s.modSlice i (·.nextOfLine e.r.a.pa)
    else s.joinLine i e.r.a.pa

/-- The entry that re-enters next: DET first in a slice that serves a DET home, then the older first pass (R32, R176). -/
def State.nextEntry (s : State) (i : Fin 17) : Option (Nat × Trk) :=
  let es := ((s.slice i).ents.filter fun e => e.2.stat == .eligible).mergeSort fun a b => a.2.age ≤ b.2.age
  (es.find? fun e => s.detTxn e.2.r).or es.head?

/-- One re-entry. -/
def State.reentryStep (s : State) (i : Fin 17) : State :=
  if !s.sliceRuns i then s
  else match s.nextEntry i with
  | none => s
  | some (t, e) => s.withTrk i t fun s => if s.expired e then s.queuedEnd i t else s.reenter i t

/-- The deadline of a queued request (R126). -/
def State.queuedDeadline (s : State) (i : Fin 17) (t : Nat) : State :=
  match s.ent i t with
  | none => s
  | some e =>
    let waits := match e.stat with | .queued => true | .eligible => true | .setRetry _ => true | _ => false
    if waits && s.expired e && s.sliceRuns i then s.withTrk i t fun s => s.queuedEnd i t else s

/-! ### Memory events (R201) -/

/-- The line of an unreadable MSC word is back (R256), or its channel is fenced: the reader goes on. Data that has replaced the fetch
stands (R101). -/
def Trk.takeRefetch (e : Trk) (l : PLine) : Trk :=
  { e with
    stat := match e.stat with | .refetch again => .ready again | x => x
    h := { e.h with dh := if e.h.fetchDead then e.h.dh else some ⟨.slot, l⟩, fetching := false, fetchDead := false } }

/-- A completed memory action raises its event, for the entry of its own slice that it names (R201, R207). A ring line that comes back
when the deadline of its `QDeq` has passed is not used: the deadline wins (R333). -/
def State.memEvent (s : State) (i : Fin 17) (m : MemAct) : State :=
  if 32768 ≤ m.tid then
    (if h : m.tid / 32768 - 1 < 17 then
       let j : Fin 17 := ⟨m.tid / 32768 - 1, h⟩
       s.withTrk j (m.tid % 32768) fun s => s.modEnt j (m.tid % 32768) fun e =>
         if s.expired e then e else (e.takeSvc (qDeqResult m)).wake false
     else s)
  else if 16384 ≤ m.tid then
    s.withTrk i (m.tid - 16384) fun s =>
      match m.l with
      | some l => s.modEnt i (m.tid - 16384) (·.takeRefetch l)
      | none =>
        let (s, l) := s.poisonLine
        s.modEnt i (m.tid - 16384) (·.takeRefetch l)
  else s.withTrk i m.tid fun s => s.stir i m.tid (·.takeMem m)

/-- The oldest completed memory action of a slice raises its event. -/
def State.memEventStep (s : State) (i : Fin 17) : State :=
  match (s.slice i).mem.memq with
  | [] => s
  | m :: ms => (s.modSlice i fun x => { x with mem := { x.mem with memq := ms } }).memEvent i m

/-! ### Deadlines of tracker entries (R92, R124, R169, R201) -/

/-- A back-invalidation whose deadline passes (R92): the victim's set is marked, the transaction retires. -/
def State.backInvLate (s : State) (i : Fin 17) (t : Nat) (e : Trk) : State :=
  let s := e.responsible.foldl (fun s a =>
    s.logEnt ⟨0x09, BitVec.ofNat 7 (srcSlice i), a, e.r.a.part, e.r.a.pa, s.now⟩) s
  let s := ((s.markSuk i e.r.a.pa).bump (slcPage i) 0x20C 7 0).corrEv (srcSlice i) e.r.a.part e.r.a.pa
  s.retire i t

/-- The completed memory action of an entry that comes before its TMO: of several that are ready in one sc, MEM is taken first
(R142, R167, R201). -/
def State.memFirst (s : State) (i : Fin 17) (t : Nat) : State :=
  match (s.slice i).mem.memq.find? fun m => m.tid == t with
  | none => s
  | some m => (s.modSlice i fun x => { x with mem := { x.mem with memq := x.mem.memq.erase m } }).memEvent i m

/-- TMO of a transaction: its WAIT takes it, or Efkar's own transaction ends. -/
def State.tmoStep (s : State) (i : Fin 17) (t : Nat) : State :=
  match s.ent i t with
  | none => s
  | some e =>
    if !s.expired e || !s.sliceRuns i then s
    else s.withTrk i t fun s =>
      if e.stat == .awaiting then s.backInvLate i t e
      else (s.memFirst i t).modEnt i t (·.wake true)

/-- The end of a stuck transaction (R169): what has no completion gets the form of R124, members of its group too. -/
def State.stuckEnd (s : State) (i : Fin 17) (t : Nat) (e : Trk) : State :=
  let s := s.completeEnt i t (lateMsg (e.lateForm e.opens)) true
  match e.stat with
  | .joined o => (s.leaveGroup i o t).freeEnt i t
  | _ =>
    let s := s.completeMembers i e fun k => lateMsg (k.lateForm true)
    ((s.poisonUnanswered i t).retire i t).joinLine i e.r.a.pa

/-- The tracker watchdog (R169): an entry still bound 100 tk after its deadline is a stuck transaction. -/
def State.watchdogStep (s : State) (i : Fin 17) (t : Nat) : State :=
  match s.ent i t with
  | none => s
  | some e =>
    if e.stat != .record && s.reached (e.h.expiry + 100) && s.sliceRuns i then
      s.withTrk i t fun s =>
        ((s.logEnt ⟨0x08, BitVec.ofNat 7 (srcSlice i), 63, e.r.a.part, e.r.a.pa, s.now⟩).uncorEv (srcSlice i) e.r.a.part e.r.a.pa).stuckEnd i t e
    else s

/-! ### Deadlines of records and reservations (R116, R156) -/

/-- A stale-eviction record's deadline passes: cleared, a protocol fault against the agent. -/
def State.recordLate (s : State) (i : Fin 17) (a : Agent) (tag : ATag) : State :=
  let q (r : StaleRec) : Bool := r.ag == a && r.atag == tag && s.reached r.dl
  match (s.slice i).recs.find? q with
  | some r => (s.clearRecs i q).protAgent a 0 r.pa
  | none => s

/-- A reservation's lifetime passes: it is lost, and counted in SLC_RESVCNT.EXPIRED. -/
def State.resvLate (s : State) (i : Fin 17) (a : Agent) : State :=
  let gone (k : Resv) : Bool := k.ag == a && !s.resvLive k
  ((s.slice i).resv.filter gone).foldl (fun s _ => s.bump (slcPage i) 0x224 7 0)
    (s.modSlice i fun x => { x with resv := x.resv.filter fun k => !gone k })

/-! ### The end of waits for a fenced agent (R123) -/

/-- A transaction's wait for a fenced agent ends at once (R123): the agent leaves the working entry, and where it could hold the line
in M and its data has not come, the line is poisoned, in memory and for the transaction. Data that has come stays, and
its line is not poisoned, although the RSP has not come (log entry 63). -/
def State.endWait (s : State) (i : Fin 17) (t : Nat) (a : Agent) : State :=
  match s.ent i t with
  | none => s
  | some e =>
    match e.h.await.find? fun w => w.ag == a && w.rsp with
    | none => s
    | some w => s.withTrk i t fun s =>
      let s := match portOf a with
        | some p => s.freeArea p fun g => g.isFor a i t
        | none => s
      let s := s.stir i t fun e =>
        let e := (e.leave a).setUkm
        { e with
          x := { e.x with ack := e.x.ack - (if w.got then 1 else 2) }
          m := { e.m with latch := true }
          h := { e.h with await := e.h.await.filter fun w => w.ag != a } }
      let s :=
        if e.couldHoldM a && !w.got then
          let (s, l) := s.poisonLine
          let s := s.writeThrough i ⟨.line e.r.a.pa, e.r.home, l, [], none, none, false, false⟩ e.r.a.part
          if e.h.cs || e.r.kind == .req .wrFull then s else s.stir i t fun e => (e.takeDirty l .wmb).trimGroup
        else s
      (s.rewriteIf i t e.we).endAwaiting i t

/-- Every wait of a slice for an agent ends. -/
def State.endWaits (s : State) (i : Fin 17) (a : Agent) : State :=
  ((s.slice i).ents.map Prod.fst).foldl (fun s t => s.endWait i t a) s

end Sys2Proof.Machine
end

