-- ==== Sys2Proof/Machine/Dram.lean ====
section
/-! DEFINITION. The DRAM channels (R259 to R288): the command scheduler with its classes and timing, refresh, reads as they
complete with their error classes, alerts, the fence of a channel, the resync of a mirrored pair, and training (R275 to R277,
R442). -/

namespace Sys2Proof.Machine

/-! ### Contents (R260, R280, R399) -/

/-- Key of a line of channel n. -/
def dramKey (n : Fin 16) (cla : Nat) : Nat := 16 * cla + n.val

/-- What a line reads as that the store does not list: zero and clean (log entry 4); in a channel that a reset has written with the
poison marker it is poisoned, its data free (R399, log entry 14). -/
def State.dramNone (s : State) (key : Nat) : PLine :=
  if (s.chan (Fin.ofNat 16 key)).blank then ⟨Config.poisonFill key, true⟩ else ⟨0, false⟩

/-- The line that channel n holds. -/
def State.dramGet (s : State) (n : Fin 16) (cla : Nat) : PLine :=
  tabGet (s.dramNone (dramKey n cla)) s.dram (dramKey n cla)

/-- The line as channel n's controller gives it: its queued write, or what the DRAM holds (R268). -/
def State.chanLine (s : State) (n : Fin 16) (cla : Nat) : PLine :=
  match (((s.chan n).wq.filter fun w => w.cla == cla).getLast?).map WrEnt.l with
  | some l => l
  | none => s.dramGet n cla

/-- Channel n writes a line. -/
def State.dramPut (s : State) (n : Fin 16) (cla : Nat) (l : PLine) : State :=
  { s with dram := tabSet (s.dramNone (dramKey n cla)) s.dram (dramKey n cla) l }

/-! ### Timing (R266, the timing registers) -/

/-- A timing field of DCH_TIM0-2: register and byte from the top. -/
def State.tim (s : State) (n : Fin 16) (k j : Nat) : Nat := s.fld (dchPage n) (0x104 + 4 * k) (31 - 8 * j) (24 - 8 * j)

/-- The timing fields of a channel in DRAM clock cycles. -/
structure Timing where
  rp : Nat
  rcd : Nat
  cwl : Nat
  cl : Nat
  wtr : Nat
  rtp : Nat
  wr : Nat
  ras : Nat
  ccd : Nat
  rrdS : Nat
  rrdL : Nat
  faw : Nat
  deriving DecidableEq, Repr

/-- The timing fields as committed. -/
def State.timing (s : State) (n : Fin 16) : Timing :=
  let t := s.tim n
  ⟨t 0 0, t 0 1, t 0 2, t 0 3, t 1 0, t 1 1, t 1 2, t 1 3, t 2 0, t 2 1, t 2 2, t 2 3⟩

/-- DRAM clock cycles of one burst: BL16, two to a clock. -/
def burst : Nat := 8

/-- `t` DRAM clock cycles have passed since dc `at'`; there are four to a dc, and dc 0 stands for never. -/
def passed (dc at' t : Nat) : Bool := at' = 0 || decide (t ≤ 4 * (dc - at'))

/-- An idle bank. -/
def Bank.zero : Bank := ⟨none, 0, 0, 0, 0⟩
/-- An idle rank. -/
def Rank.zero : Rank := ⟨0, 0, false, false, 0, 0, false, 0⟩

/-- Key of a bank. -/
def bankKey (c : Coord) : Nat := ((c.rank * 2 + c.sub) * 8 + c.bg) * 4 + c.ba
/-- A bank. -/
def Chan.bank (x : Chan) (k : Nat) : Bank := tabGet .zero x.banks k
/-- Change a bank. -/
def Chan.modBank (x : Chan) (k : Nat) (f : Bank → Bank) : Chan := { x with banks := tabSet .zero x.banks k (f (x.bank k)) }
/-- A rank. -/
def Chan.rank (x : Chan) (r : Nat) : Rank := tabGet .zero x.ranks r
/-- Change a rank. -/
def Chan.modRank (x : Chan) (r : Nat) (f : Rank → Rank) : Chan := { x with ranks := tabSet .zero x.ranks r (f (x.rank r)) }

/-- Banks of one subchannel of one rank. -/
def siblings (c : Coord) : List Coord :=
  (List.range 32).map fun k => { c with bg := k / 4, ba := k % 4 }

/-- The next command of a request. -/
inductive DramCmd where
  | pre | act | col
  deriving DecidableEq, Repr

/-- What a request needs of its bank next. -/
def Chan.need (x : Chan) (c : Coord) : DramCmd :=
  match (x.bank (bankKey c)).row with
  | none => .act
  | some r => if r = c.row then .col else .pre

/-- A precharge of a bank is legal. -/
def Chan.preOk (x : Chan) (t : Timing) (k : Nat) : Bool :=
  let b := x.bank k
  passed x.dc b.act t.ras && passed x.dc b.rd t.rtp && passed x.dc b.wr (t.cwl + burst + t.wr)

/-- An activate is legal: tRP in the bank, tRRD among the banks and tFAW over four activates of the subchannel. -/
def Chan.actOk (x : Chan) (t : Timing) (c : Coord) : Bool :=
  let b := x.bank (bankKey c)
  let recent := tabGet [] x.acts (2 * c.rank + c.sub)
  passed x.dc b.pre t.rp &&
    ((siblings c).all fun d => passed x.dc (x.bank (bankKey d)).act (if d.bg = c.bg then t.rrdL else t.rrdS)) &&
    (match recent[3]? with | some a => passed x.dc a t.faw | none => true)

/-- A column command is legal: tRCD, tCCD_L in the bank group, the burst on the bus, and tWTR_L before a read. -/
def Chan.colOk (x : Chan) (t : Timing) (c : Coord) (wr : Bool) : Bool :=
  passed x.dc (x.bank (bankKey c)).act t.rcd &&
    ((siblings c).all fun d =>
      let b := x.bank (bankKey d)
      let gap := if d.bg = c.bg then max t.ccd burst else burst
      passed x.dc b.rd gap &&
        passed x.dc b.wr (if wr then gap else t.cwl + burst + (if d.bg = c.bg then t.wtr else 0)))

/-! ### Refresh (R269, R272 to R274) -/

/-- Nanoseconds in dc: one dc is four DRAM clocks of the speed (file 11). -/
def State.dcOf (s : State) (n : Fin 16) (ns : Nat) : Nat :=
  let mt := [4800, 5600, 6400, 7200, 8000].getD (s.fld (dchPage n) 0x100 2 0) 8000
  (ns * mt + 7999) / 8000

/-- A refresh of a privileged channel is normal, of any other fine-granularity; so is every one before the first Enable. -/
def State.normalRefresh (s : State) (n : Fin 16) : Bool := s.detHome n && s.glb.everEnabled

/-- How long a refresh occupies its rank, in dc (R179, R272). -/
def State.refreshTime (s : State) (n : Fin 16) : Nat :=
  let small := s.fld (dchPage n) 0x100 5 4 == 0
  s.dcOf n (if s.normalRefresh n then (if small then 295 else 410) else if small then 160 else 220)

/-- POSTMAX as the channel uses it (R272, R273, R274). -/
def State.postMax (s : State) (n : Fin 16) : Nat :=
  if s.detHome n || !s.glb.everEnabled then 0 else s.fld (dchPage n) 0x154 31 28

/-- Rank of a channel line address. -/
def State.rankOf (s : State) (n : Fin 16) (cla : Nat) : Nat := (s.coord n cla).rank

/-- A demand fetch is queued for a rank. -/
def State.rankFetches (s : State) (n : Fin 16) (r : Nat) : Bool :=
  (s.chan n).rq.any fun e => !e.prefetch && e.f.fetchFor != .copy && s.rankOf n e.cla == r

/-- The dc that the time stands for: a tk is 10 ns. -/
def State.dcNow (s : State) (n : Fin 16) : Nat := max (s.chan n).dc (s.dcOf n (10 * s.time))

/-- The refresh interval of a channel in dc: tREFI in normal mode, half of it in fine-granularity mode, and half of either above
85 degrees (R272 to R274). -/
def State.refreshEvery (s : State) (n : Fin 16) (hot : Bool) : Nat :=
  let t := s.fld (dchPage n) 0x154 15 0
  let t := if s.normalRefresh n then t else t / 2
  if hot then t / 2 else t

/-- A refresh of a rank falls due (R269, R272, R273): in class 1 when the channel postpones none, or owes as many as it may, those that
have fallen due and are not sent among them. The next
falls due an interval later, by what MR4 read before this one (R274, R288). -/
def State.refreshDue (s : State) (n : Fin 16) (r : Nat) : State :=
  let x := s.chan n
  let k := x.rank r
  if s.ranks n ≤ r || k.selfRef || !x.refOn || s.dcNow n < k.dueAt then s
  else
    let hot := if x.polled < k.dueAt then x.hotNext else x.hot
    let every := s.refreshEvery n hot
    let full := decide (s.postMax n ≤ k.owed + k.due)
    s.modChan n fun c => { (c.modRank r fun k =>
      { k with due := k.due + 1, dueAt := k.dueAt + every, cls1 := k.cls1 || full }) with hot := hot }

/-- A rank that has been without a fetch for IDLE dc makes up the refreshes it owes (R272). -/
def State.refreshMakeup (s : State) (n : Fin 16) (r : Nat) : State :=
  let k := (s.chan n).rank r
  if r < s.ranks n && k.owed != 0 && !s.rankFetches n r && decide (s.fld (dchPage n) 0x154 27 16 ≤ s.dcNow n - k.lastFetch) then
    s.modChan n (·.modRank r fun k => { k with makeup := true })
  else s

/-- A fetch is queued for the rank: what is not in class 1 is postponed (R272). -/
def Rank.postpone (k : Rank) (dc : Nat) : Rank :=
  if k.cls1 then { k with lastFetch := dc } else { k with lastFetch := dc, owed := k.owed + k.due, due := 0, makeup := false }

/-- The refreshes that the rank is to send now. -/
def Rank.toSend (k : Rank) : Nat := if k.cls1 || k.makeup then k.due + k.owed else k.due

/-- A refresh has been sent; with the last of them the rank leaves class 1. -/
def Rank.sent (k : Rank) : Rank :=
  let k := if k.due = 0 then { k with owed := k.owed - 1 } else { k with due := k.due - 1 }
  if k.due + k.owed = 0 then { k with cls1 := false, makeup := false } else k

/-- 32 microseconds have passed since MR4 was read (R274). -/
def State.mr4Due (s : State) (n : Fin 16) : Bool :=
  (s.chan n).refOn && decide ((s.chan n).polled + s.dcOf n 32000 ≤ s.dcNow n)

/-- MR4 of every rank is read (R274, R283). -/
def State.mr4Poll (s : State) (n : Fin 16) (hot : BitVec 4) : State :=
  if s.mr4Due n then
    let h := (List.range (s.ranks n)).any fun r => hot.getLsbD r
    let t := s.dcNow n
    s.modChan n fun c => { c with hotNext := h, polled := t, lastCmd := [] }
  else s

/-- Every rank of a channel leaves self-refresh, or has been trained: its refreshes begin (R274, R277). -/
def State.wakeRanks (s : State) (n : Fin 16) : State :=
  let t := s.dcNow n
  let every := s.refreshEvery n (s.chan n).hot
  s.modChan n fun c => (List.range 4).foldl (fun c r => c.modRank r fun k =>
    { k with selfRef := false, owed := 0, due := 0, cls1 := false, makeup := false, dueAt := t + every }) { c with refOn := true, polled := t }

/-- The ranks of a channel enter self-refresh. -/
def Chan.restRanks (c : Chan) (ranks : Nat) : Chan :=
  (List.range ranks).foldl (fun c r => c.modRank r fun k =>
    { k with selfRef := true, owed := 0, due := 0, cls1 := false, makeup := false }) { c with banks := [] }

/-- The refreshes of a channel at the first Enable commit (R274): rank 0's is in class 1, and the others follow in their phases of the
channel's interval (log entry 66). -/
def State.refreshPhase (s : State) (n : Fin 16) : State :=
  let t := s.dcNow n
  let every := s.refreshEvery n (s.chan n).hot
  let m := s.ranks n
  s.modChan n fun c => (List.range m).foldl (fun c r => c.modRank r fun k =>
    { k with owed := 0, makeup := false, due := if r = 0 then 1 else 0, cls1 := r == 0
             dueAt := t + (if r = 0 then every else r * every / m) }) c

/-! ### The scheduler (R267, R268, R271) -/

/-- The port of the subject of a fetch. -/
def State.fetchPort (s : State) (f : FetchReq) : Option (Fin 24) :=
  let ent (i : Fin 17) (t : Nat) : Option (Fin 24) := (s.ent i t).bind fun e => e.r.port
  match f.fetchFor with
  | .trk t => ent f.slice t
  | .refetch t => ent f.slice t
  | .svc k => if h : k / 32768 - 1 < 17 then ent ⟨k / 32768 - 1, h⟩ (k % 32768) else none
  | _ => none

/-- The class of a read (R267): taken from its subject's port at its first command. -/
def State.readClass (s : State) (e : RdEnt) : Nat :=
  match e.cls with
  | some c => c
  | none =>
    if e.prefetch then 7
    else if e.f.fetchFor = .copy then 6
    else if e.f.det then 2
    else match s.fetchPort e.f with
      | some p => if (s.port p).panic then 4 else 5
      | none => 5

/-- The class of a write. -/
def Chan.writeClass (c : Chan) (e : WrEnt) : Nat := if e.raised || c.drainMode then 3 else 6

/-- A request as the scheduler sees it. -/
structure Cand where
  wr : Bool
  id : Nat
  cls : Nat
  at' : Nat
  co : Coord
  hit : Bool
  deriving DecidableEq, Repr

/-- The requests of a channel that may be issued: a fetch waits for the writes of its line that were queued when it came (R268). -/
def State.cands (s : State) (n : Fin 16) : List Cand :=
  let x := s.chan n
  let rd := (x.rq.filter fun e => !(x.wq.any fun w => e.after.contains w.id)).map fun e =>
    let c := s.coord n e.cla
    ({ wr := false, id := e.id, cls := s.readClass e, at' := e.arr, co := c, hit := x.need c == .col } : Cand)
  let wr := x.wq.map fun e =>
    let c := s.coord n e.cla
    ({ wr := true, id := e.id, cls := x.writeClass e, at' := e.arr, co := c, hit := x.need c == .col } : Cand)
  rd ++ wr

/-- The order within and among the classes (R267): `a` before `b`. -/
def Cand.before (dc cap : Nat) (a b : Cand) : Bool :=
  let byHit (c : Cand) : Bool := (c.cls == 4 || c.cls == 5 || c.cls == 6)
  let aged (c : Cand) : Bool := byHit c && decide (cap < dc - c.at')
  let rank (c : Cand) : Nat := if !byHit c then 0 else if aged c then 0 else if c.hit then 1 else 2
  if a.cls ≠ b.cls then a.cls < b.cls
  else if rank a ≠ rank b then rank a < rank b
  else a.id ≤ b.id

/-- The next command of a request is legal in this dc: no activate and no column command goes to a rank that a refresh of class 1
holds (R267). -/
def Chan.legal (x : Chan) (t : Timing) (c : Cand) : Bool :=
  let k := x.rank c.co.rank
  if k.selfRef || decide (x.dc < k.busy) then false
  else match x.need c.co with
    | .pre => x.preOk t (bankKey c.co)
    | .act => !k.cls1 && x.actOk t c.co
    | .col => !k.cls1 && x.colOk t c.co c.wr

/-- Open banks of a rank. -/
def Chan.openBanks (x : Chan) (r : Nat) : List Nat :=
  (x.banks.filter fun e => e.1 / 64 == r && e.2.row.isSome).map Prod.fst

/-- A command to a rank that belongs to no line (R283). -/
def Chan.rankCmd (c : Chan) (r : Nat) : Chan :=
  { c with lastCmd := tabSet (0, false) c.lastCmd r (0, false), replays := tabSet 0 c.replays r 0 }

/-- What is issued for a rank that has a refresh to send: the refresh, or a precharge of all its banks (R273). -/
def State.refreshCmd (s : State) (n : Fin 16) (r : Nat) (cls1 : Bool) : Option State :=
  let x := s.chan n
  let k := x.rank r
  let t := s.timing n
  if k.toSend = 0 || k.cls1 != cls1 || k.selfRef || decide (x.dc < k.busy) then none
  else match x.openBanks r with
    | [] =>
      if (List.range 64).all fun b => passed x.dc (x.bank (64 * r + b)).pre t.rp then
        some (s.modChan n fun c =>
          { (c.modRank r fun k => { k.sent with busy := c.dc + s.refreshTime n }).rankCmd r with dfi := some ⟨.refresh, r, 0, 0, 0, none⟩ })
      else none
    | bs =>
      if bs.all fun b => x.preOk t b then
        some (s.modChan n fun c => { (bs.foldl (fun c b => c.modBank b fun k => { k with row := none, pre := x.dc }) c).rankCmd r with
          dfi := some ⟨.prechargeAll, r, 0, 0, 0, none⟩ })
      else none

/-- Line of an access for the error log; a ring line has no address. -/
def MemAddr.pa : MemAddr → LineAddr
  | .line pa => pa
  | .ring _ _ => 0

/-- Line of an access, or of a copy, for the logs (R283, R374): 0 for an entry of a ring, whose line has no address. -/
def State.addrPa (s : State) (a : MemAddr) : LineAddr :=
  match a with
  | .line pa => pa
  | .ring h c => (s.lineOfCla h c).getD 0

/-- A write has been issued: it leaves the queue, reads of the line that are in flight have read what was there before (R281), and a copy
write ends its copy (R287). -/
def Chan.wrote (c : Chan) (e : WrEnt) : Chan :=
  { c with
    wq := c.wq.filter (·.id != e.id)
    inflight := c.inflight.map fun r => if r.cla == e.cla then { r with past := true } else r
    mir := { c.mir with copy := if e.copy then c.mir.copy.map fun k => { k with phase := .done } else c.mir.copy } }

/-- A fetch of the mirror copy in place of a line of channel n's primary half, after a write of that line: what it returns is older. -/
def State.outdated (s : State) (n : Fin 16) (cla : Nat) (f : FetchReq) : Bool := f.mir && f.home == n && s.memCla f.addr == cla

/-- A line of channel n's primary half has been written: a repair of it by a read of the mirror copy, wherever that is, is cancelled
(R281, R285). -/
def State.outdate (s : State) (n : Fin 16) (cla : Nat) : State :=
  let fetch (f : FetchReq) : FetchReq := if s.outdated n cla f then { f with past := true } else f
  let ent (r : RdEnt) : RdEnt := if s.outdated n cla r.f then { r with past := true } else r
  let s := s.eachSlice fun s i =>
    if (s.slice i).mem.fetchWait.any (s.outdated n cla) then
      s.modSlice i fun x => { x with mem := { x.mem with fetchWait := x.mem.fetchWait.map fetch } }
    else s
  let s := s.netMap fun m => match m with
    | .fetch k f => .fetch k (fetch f)
    | m => m
  s.modChan (buddy n) fun c => { c with rq := c.rq.map ent, inflight := c.inflight.map ent }

/-- The line of a write that has been issued is in DRAM. -/
def State.dramWrote (s : State) (n : Fin 16) (e : WrEnt) : State := (s.outdate n e.cla).dramPut n e.cla e.l

/-- Issue the next command of a request. -/
def State.issueCmd (s : State) (n : Fin 16) (c : Cand) : State :=
  let x := s.chan n
  let k := bankKey c.co
  let w := x.wq.find? (·.id == c.id)
  let pa : LineAddr := if c.wr then (w.map fun e => e.addr.pa).getD 0
    else ((x.rq.find? (·.id == c.id)).map fun e => e.f.addr.pa).getD 0
  let op : DfiOp := match x.need c.co with
    | .pre => .precharge | .act => .activate | .col => if c.wr then .write else .read
  let s := s.modChan n fun x => { x with
    dfi := some ⟨op, c.co.rank, c.co.sub, 4 * c.co.bg + c.co.ba, if op = .activate then c.co.row else c.co.col,
      if op = .write then w.map WrEnt.l else none⟩
    lastCmd := tabSet (0, false) x.lastCmd c.co.rank (pa, c.co.sub == 1)
    replays := tabSet 0 x.replays c.co.rank 0
    rq := x.rq.map fun e => if !c.wr && e.id == c.id then { e with cls := some c.cls } else e }
  match x.need c.co with
  | .pre => s.modChan n (·.modBank k fun b => { b with row := none, pre := x.dc })
  | .act => s.modChan n fun x =>
      let a := 2 * c.co.rank + c.co.sub
      { (x.modBank k fun b => { b with row := some c.co.row, act := x.dc }) with
        acts := tabSet [] x.acts a ((x.dc :: tabGet [] x.acts a).take 4) }
  | .col =>
    if c.wr then
      match x.wq.find? (·.id == c.id) with
      | none => s
      | some e => (s.modChan n fun x => (x.modBank k fun b => { b with wr := x.dc }).wrote e).dramWrote n e
    else
      match x.rq.find? (·.id == c.id) with
      | none => s
      | some e =>
        let l := s.dramGet n e.cla
        let s := s.modChan n fun x =>
          { (x.modBank k fun b => { b with rd := x.dc }) with
            rq := x.rq.filter (·.id != c.id), inflight := x.inflight ++ [{ e with cls := some c.cls, got := some l }] }
        s.eachSlice fun s i => if (s.slice i).mem.fetchWait.isEmpty then s else s.pumpFetch i

/-- The result of a lane as far as it is known. -/
def Training.resOf (t : Training) (k : Nat) : TrnRes := (tabGet none t.res k).getD ⟨0, 0, 0, 0⟩

/-- Drain mode (R267). -/
def State.drainModeOf (s : State) (n : Fin 16) : Bool :=
  let q := (s.chan n).wq.length
  if s.fld (dchPage n) 0x150 14 8 ≤ q then true
  else if q ≤ s.fld (dchPage n) 0x150 5 0 then false
  else (s.chan n).drainMode

/-- The sideband offers the code under test, or the delay chosen, for the lane (R442). -/
def Training.pins (t : Training) : DlyPins :=
  let wr := t.phase == .write
  let r := t.resOf (16 * t.rank + t.lane)
  let set : BitVec 7 := if wr then r.wctr else r.rctr
  ⟨t.phase == .read || t.phase == .write, BitVec.ofNat 2 t.rank, BitVec.ofNat 4 t.lane, wr,
    if t.code < 128 then BitVec.ofNat 7 t.code else set⟩

/-- A sweep is under way: the PHY sets delays. -/
def Training.sweeps (t : Training) : Bool := t.phase == .read || t.phase == .write

/-- In each dc of a sweep the next setting is offered, once `vld` has fallen (R442). -/
def Chan.offerDelay (c : Chan) : Chan := if c.trn.sweeps then { c with dly := c.trn.pins } else c

/-- One dc of a channel: a refresh of class 1, another refresh that may go, or the next command of the highest class that can use the
dc. A fenced channel issues nothing else (R286), but one that a resync fills takes writes (R287). -/
def State.dcStep (s : State) (n : Fin 16) : State :=
  let t := s.dcNow n
  let s := s.modChan n fun c =>
    { c.offerDelay with dc := max (c.dc + 1) t, drainMode := s.drainModeOf n, dfi := none }
  let rs := List.range (s.ranks n)
  let s := rs.foldl (fun s r => if s.rankFetches n r then s.modChan n fun c => c.modRank r (·.postpone c.dc) else s) s
  match (rs.findSome? fun r => s.refreshCmd n r true).or (rs.findSome? fun r => s.refreshCmd n r false) with
  | some s => s
  | none =>
    if s.chFenced n && (s.chan n).mir.mode != .resync then s
    else
      let x := s.chan n
      let t := s.timing n
      let order := (s.cands n).mergeSort (Cand.before x.dc (s.fld (dchPage n) 0x150 31 24))
      match order.find? (x.legal t) with
      | some c => s.issueCmd n c
      | none => s

/-! ### Errors (R278 to R283, R285) -/

/-- Record an event in the error log (R283): the first while it is empty; a UE over a recorded CE; otherwise OVF. -/
def ELog.record (e : ELog) (ty : BitVec 2) (dev : BitVec 4) (rank : BitVec 2) (sub : Bool) (pa : LineAddr) : ELog :=
  if !e.vld then ⟨true, e.ovf, ty, dev, rank, sub, pa⟩
  else if ty = 1 ∧ e.ty = 0 then { e with ty := ty, dev := dev, rank := rank, sub := sub, pa := pa }
  else { e with ovf := true }

/-- Add 1 to a 6-bit count of DCH_ERRCNT. -/
def State.errCount (s : State) (n : Fin 16) (lo : Nat) : State := s.bump (dchPage n) 0x180 (lo + 5) lo

/-- Log a read's error with its coordinates. -/
def State.readLog (s : State) (n : Fin 16) (e : RdEnt) (ty : BitVec 2) (dev : BitVec 4) : State :=
  let c := s.coord n e.cla
  s.modChan n fun x =>
    { x with elog := x.elog.record ty dev (BitVec.ofNat 2 c.rank) (c.sub == 1) (s.addrPa e.f.addr) }

/-- Queue a correction writeback, or the repair of a primary copy, of the line that a read found: unless a write of the line waits or has
been issued since, no entry is free, or the channel is fenced (R281, R285). -/
def State.correct (s : State) (n : Fin 16) (cla : Nat) (e : RdEnt) (d : Line) : State :=
  if !e.past && !s.chFenced n && s.wqRoom n cla && !((s.chan n).wq.any fun w => w.cla == cla) then
    s.modChan n fun c => c.wqPush cla e.f.addr ⟨d, false⟩ true
  else s

/-- A read has failed in channel n: counted, logged and reported (R283). -/
def State.readUE (s : State) (n : Fin 16) (e : RdEnt) : State :=
  (((s.errCount n 12).readLog n e 1 0xF)).uncorEv (srcChan n) 0 (s.addrPa e.f.addr)

/-- A line that a fetch has read leaves for its slice: over the memory link, or over the network (R296). -/
def State.readBack (s : State) (n : Fin 16) (f : FetchReq) (l : PLine) : State :=
  s.carryMem f.slice n false (.ret f l) f.det fun s => s.fetchReturn f l

/-- The line that a resync has read goes to the channel under copy (R287); one that cannot be read is copied as poisoned. -/
def State.copyRead (s : State) (m : Fin 16) (l : PLine) : State :=
  s.modChan (buddy m) fun c =>
    { c with mir := { c.mir with copy := c.mir.copy.map fun k => if k.phase = .reading then { k with phase := .got l } else k } }

/-- A line that a read has found goes where it was read for. -/
def State.readGives (s : State) (n : Fin 16) (e : RdEnt) (l : PLine) : State :=
  if e.f.fetchFor = .copy then s.copyRead n l
  else
    let s := if e.f.mir && !l.pois then s.correct e.f.home (s.memCla e.f.addr) e l.data else s
    s.readBack n e.f l

/-- A line could not be read (R280, R285): a primary copy is read from the mirror, where there is one; otherwise it is poisoned. -/
def State.readLost (s : State) (n : Fin 16) (e : RdEnt) : State :=
  if e.f.fetchFor != .copy && s.mirrored n && !e.mirror && !s.chFenced (buddy n) then s.rqEnter { e.f with mir := true, past := e.past }
  else
    let (s, p) := s.poisonLine
    s.readGives n e p

/-- The oldest read of a channel completes, with the bits of `err` flipped in its burst (R278 to R281, R285). -/
def State.readComplete (s : State) (n : Fin 16) (err : BitVec 640) : State :=
  match (s.chan n).inflight with
  | [] => s
  | e :: es =>
    let s := s.modChan n fun c => { c with inflight := es }
    match readBurst (s.flag (dchPage n) 0x100 6) (e.got.getD ⟨0, false⟩) err with
    | .ok d => s.readGives n e ⟨d, false⟩
    | .corrected d dev =>
      ((((s.errCount n 18).readLog n e 0 dev).corrEv (srcChan n) 0 (s.addrPa e.f.addr)).correct n e.cla e d).readGives n e ⟨d, false⟩
    | .poison d => (s.errCount n 6).readGives n e ⟨d, true⟩
    | .lost => (s.readUE n e).readLost n e

/-- A rank signals an alert, and the replay of its commands succeeds or fails (R282, R283). -/
def State.alertEv (s : State) (n : Fin 16) (r : Nat) (ok : Bool) : State :=
  let (pa, sub) := tabGet (0, false) (s.chan n).lastCmd r
  let s := (s.errCount n 0).modChan n fun c => { c with elog := c.elog.record 2 0xF (BitVec.ofNat 2 r) sub pa }
  let s := s.corrEv (srcChan n) 0 pa
  let k := tabGet 0 (s.chan n).replays r
  let s := s.modChan n fun c => { c with replays := tabSet 0 c.replays r (if ok || k == 2 then 0 else k + 1) }
  if !ok && k == 2 then s.uncorEv (srcChan n) 0 pa else s

/-! ### Panic (R271, R437) -/

/-- An I/O port's panic state follows the level on its input, which a port that is up samples (R271, R435, R437). -/
def State.panicSample (s : State) (p : Fin 24) : State :=
  if decide (16 ≤ p.val) && decide (p.val ≤ 19) && (s.port p).up then
    let lvl := (s.port p).panicLvl.toNat
    let on := decide (s.fld (prtPage p) 0x300 11 8 ≤ lvl)
    let off := decide (lvl ≤ s.fld (prtPage p) 0x300 3 0)
    s.modPort p fun x => { x with panic := if on then true else if off then false else x.panic }
  else s

/-- The level on the panic input of an I/O port changes. -/
def State.panicLevel (s : State) (p : Fin 24) (lvl : BitVec 4) : State :=
  if decide (16 ≤ p.val) && decide (p.val ≤ 19) then (s.modPort p fun x => { x with panicLvl := lvl }).panicSample p else s

/-! ### The fence of a channel (R248, R286, R360, R361) -/

/-- A line enters the lost-write table of a channel; the table has 384 entries. -/
def State.loseLine (s : State) (h : Fin 16) (a : MemAddr) : State :=
  s.modChan h fun c => if c.lost.length < 384 then { c with lost := c.lost ++ [a] } else c

/-- A merging-buffer entry of a lost channel leaves: its line is lost, its writes count as drained and fenced (R248). -/
def State.loseWmb (s : State) (i : Fin 17) (w : WmbEnt) : State :=
  let s := s.modSlice i fun x => { x with mem := { x.mem with fencedLog := sat8 x.mem.fencedLog } }
  (s.loseLine w.home w.addr).wmbFree i w true

/-- Partition of the transaction that a write-through belongs to; 0 when none. -/
def State.wrPart (s : State) (i : Fin 17) (w : WrReq) : PartId :=
  match w.tid with
  | some t => (match s.ent i t with | some e => e.r.a.part | none => 0)
  | none => 0

/-- What the merging buffer and the fetches of a slice do when home h's channel is lost. -/
def State.slcLost (s : State) (i : Fin 17) (h : Fin 16) : State :=
  let wt := (s.slice i).mem.wtWait.filter fun w => w.home == h
  let s := s.modSlice i fun x => { x with mem := { x.mem with wtWait := x.mem.wtWait.filter fun w => w.home != h } }
  let s := wt.foldl (fun s w => s.wtLost i w (s.wrPart i w)) s
  let s := ((s.slice i).mem.wmb.filter fun w => w.home == h).foldl (fun s w => s.loseWmb i w) s
  s.pumpFetch i

/-- A resync's copy under way ends: nothing of it stays queued in either channel (R287). -/
def State.dropCopy (s : State) (n : Fin 16) : State :=
  (s.modChan n fun c => { c with wq := c.wq.filter fun w => !w.copy, mir := { c.mir with copy := none } }).modChan (buddy n) fun c =>
    { c with rq := c.rq.filter fun e => e.f.fetchFor != .copy, inflight := c.inflight.filter fun e => e.f.fetchFor != .copy }

/-- Channel n stops (R286): every rank enters self-refresh; what its queues hold goes to the partner or is lost. -/
def State.chanStop (s : State) (n : Fin 16) : State :=
  let s := (s.dropCopy n).dropCopy (buddy n)
  let x := s.chan n
  let s := s.modChan n fun c => { (c.restRanks (s.ranks n)) with rq := [], wq := [], mir := { c.mir with mode := .none } }
  let s := x.wq.foldl (fun s w =>
    if !w.corr && s.chLost n then s.loseLine n w.addr else s) s
  let s := [n, buddy n].foldl (fun s h => if s.chLost h then s.eachSlice fun s i => s.slcLost i h else s) s
  let s := x.rq.foldl (fun s e => s.rqEnter e.f) s
  s.eachSlice fun s i =>
    ((s.slice i).mem.wmb.filter fun w => w.issued && (w.home == n || w.home == buddy n)).foldl (fun s w => s.wmbOffer i w) s

/-! ### The write merging buffer towards the controllers (R247, R248) -/

/-- Entries whose age limit has passed become eligible (R247). -/
def State.wmbAge (s : State) (i : Fin 17) : State :=
  let age := s.fld (slcPage i) 0x2B0 9 0
  let old (w : WmbEnt) : WmbEnt :=
    if !w.issued && s.reached w.age && decide (age < s.since w.age) then { w with due := true } else w
  s.modSlice i fun x => { x with mem := { x.mem with wmb := x.mem.wmb.map old } }

/-- The next eligible entry is issued to its controllers. -/
def State.wmbIssueStep (s : State) (i : Fin 17) : State :=
  match s.wmbNext i with
  | none => s
  | some w => s.modSlice i (·.modWmb w.id fun e => { e with issued := true })

/-- An ISSUED entry that a controller has room for is accepted: first one that a DET fetch
matches, then one that another matches, then the oldest (R179, R247). -/
def State.wmbAcceptStep (s : State) (i : Fin 17) : State :=
  let room (w : WmbEnt) : Bool := w.issued && (s.writePlaces w.home (s.memCla w.addr)).any fun pl =>
    w.sent &&& placeBit pl.2.2 == 0 && s.wqRoom pl.1 pl.2.1
  let ws := (s.slice i).mem.wmb.filter room
  match ((ws.find? fun w => w.want.getLsbD 1).or (ws.find? fun w => w.want != 0)).or ws.head? with
  | some w => s.wmbOffer i w
  | none => s

/-! ### Resync (R287) -/

/-- The copy of line `wm` of the partner begins, in ascending CLA, once no write of it is on its way to the pair: its read joins the
partner's queue. -/
def State.copyBegin (s : State) (n : Fin 16) : State :=
  let m := buddy n
  let k := (s.chan n).mir.wm
  let half := s.capacity m / 2
  let home := if k < half then m else n
  let cla := if k < half then k else k - half
  let issued := (List.finRange 17).any fun i =>
    (s.slice i).mem.wmb.any fun w => w.issued && w.home == home && s.memCla w.addr == cla
  if issued || !s.rqRoom m false then s
  else
    let addr : MemAddr := .ring home cla
    (s.modChan m (·.rqPush ⟨0, .copy, addr, home, false, false, false⟩ (decide (half ≤ k)) k)).modChan n fun c =>
      { c with mir := { c.mir with copy := some ⟨if k < half then half + k else k - half, .reading, false⟩ } }

/-- The line that was read is queued for the channel, or discarded where a write of it has come first. -/
def State.copyWrite (s : State) (n : Fin 16) (k : CopyLine) (l : PLine) : State :=
  if k.stale then s.modChan n fun c => { c with mir := { c.mir with copy := some { k with phase := .done } } }
  else if s.wqRoom n k.dst then
    s.modChan n fun c =>
      { c with
        wq := c.wq ++ [⟨c.nextId, k.dst, .ring n k.dst, l, c.dc, false, false, true⟩]
        nextId := c.nextId + 1
        mir := { c.mir with copy := some { k with phase := .writing } } }
  else s

/-- A line has been copied: WM rises, and the last line makes the pair MIRRORED again. -/
def State.copyDone (s : State) (n : Fin 16) : State :=
  let k := (s.chan n).mir.wm + 1
  if k < s.capacity (buddy n) then
    (s.modChan n fun x => { x with mir := { x.mir with wm := k, copy := none } }).copyBegin n
  else ((s.modSrc (srcChan n) fun x => { x with fenced := false, masked := false }).modChan n
    fun x => { x with mir := { st := x.mir.st.complete, mode := .none, wm := k, copy := none } }).done (dchPage n)

/-- The copy of a line goes on: its read begins, its write is queued, or it has been copied. The read and the write take their turn in
class 6 of both schedulers. -/
def State.resyncLine (s : State) (n : Fin 16) : State :=
  if (s.chan n).mir.mode ≠ .resync then s
  else match (s.chan n).mir.copy with
    | none => s.copyBegin n
    | some k =>
      match k.phase with
      | .got l => s.copyWrite n k l
      | .done => s.copyDone n
      | _ => s

/-! ### Training (R275 to R277, R442) -/

/-- The widest run of consecutive codes among those for which `ok` holds, the lower one of two equally wide: first code and
width. -/
def widestRun (ok : Nat → Bool) : Nat → Nat → Nat × Nat → Nat × Nat
  | 0, _, best => best
  | n + 1, run, best =>
    let k := 127 - n
    let run := if ok k then run + 1 else 0
    widestRun ok n run (if best.2 < run then (k + 1 - run, run) else best)

/-- Centre and width of a lane's passing codes: ⌊(first + last) ÷ 2⌋ (R276). -/
def laneResult (ok : Nat → Bool) : Nat × Nat :=
  let (first, width) := widestRun ok 128 0 (0, 0)
  ((2 * first + width - 1) / 2, width)

/-- The lanes of a rank get their results at the end of its sweep (R276). A run of all 128 codes shows 0 in the 7 bits of its width,
by the model's choice (log entry 49). -/
def Training.judge (t : Training) (minEye : Nat) : Training :=
  (List.range 10).foldl (fun t l =>
    let (c, w) := laneResult fun k => t.passed.contains (128 * l + k) && !t.lateCodes.contains k
    let r := t.resOf (16 * t.rank + l)
    let r := if t.phase == .write then { r with wctr := BitVec.ofNat 7 c, wwid := BitVec.ofNat 7 w }
      else { r with rctr := BitVec.ofNat 7 c, rwid := BitVec.ofNat 7 w }
    let bad := w < minEye
    { t with
      res := tabSet none t.res (16 * t.rank + l) (some r)
      fail := t.fail || bad
      failRank := if bad then t.failRank ||| BitVec.ofNat 4 (2 ^ t.rank) else t.failRank }) t

/-- The next setting of the sweep: lane by lane at each code, then the chosen delay of each lane, then the next rank, then the
write sweep of a full training, then the end. -/
def Training.next (t : Training) (ranks minEye : Nat) : Training :=
  if t.lane < 9 then { t with lane := t.lane + 1 }
  else if t.code < 127 then { t with lane := 0, code := t.code + 1 }
  else if t.code = 127 then { (t.judge minEye) with lane := 0, code := 128 }
  else
    let t := { t with lane := 0, code := 0, passed := [], lateCodes := [] }
    if t.rank + 1 < ranks then { t with rank := t.rank + 1 }
    else if t.phase == .read && t.full then { t with rank := 0, phase := .write }
    else { t with phase := .latched }

/-- Start a training: a full one begins with the DFI handshake, one after a warm reset with the exit from self-refresh and the read
sweep (R275, R277). -/
def State.trainStart (s : State) (n : Fin 16) (full : Bool) : State :=
  let s := if full then s.modChan n fun c => { c with refOn := false } else s.wakeRanks n
  s.modChan n fun c =>
    let t : Training := { c.trn with
      phase := if full then .dfi else .read, full := full, rank := 0, lane := 0, code := 0, passed := [], lateCodes := []
      fail := false, failRank := 0, valid := false, res := if full then [] else c.trn.res }
    { c with trn := t, initStart := full, dly := t.pins }

/-- The PHY ends the DFI handshake (R275 step 1). -/
def State.dfiDone (s : State) (n : Fin 16) : State :=
  if (s.chan n).trn.phase = .dfi then
    s.modChan n fun c =>
      let t := { c.trn with phase := TrnPhase.read }
      { c with trn := t, initStart := false, dly := t.pins }
  else s

/-- A delay setting is answered: in time, with the outcome of the reads at the code, or late; `vld` falls, and the next setting is
offered in a later dc (R442). -/
def State.delayDone (s : State) (n : Fin 16) (pass late : Bool) : State :=
  let t := (s.chan n).trn
  if t.sweeps then
    let t := if t.code = 128 then t
      else if late then { t with lateCodes := t.lateCodes ++ [t.code] }
      else if pass then { t with passed := t.passed ++ [128 * t.lane + t.code] } else t
    let t := t.next (s.ranks n) (s.fld (dchPage n) 0x160 6 0)
    s.modChan n fun c => { c with trn := t, dly := { t.pins with vld := false } }
  else s

/-- Channel line address of the training line of a subchannel of a rank (R275 step 4). -/
def State.trainCla (s : State) (n : Fin 16) (sub r : Nat) : Nat :=
  let cl := if s.flag (dchPage n) 0x100 6 then 6 else 7
  sub * 2 ^ cl + r * 2 ^ (cl + 6)

/-- A full training overwrites the training lines; with what, the manual does not say (R277, log entry 6). -/
def State.trainLines (s : State) (n : Fin 16) : State :=
  (List.range (2 * s.ranks n)).foldl (fun s k =>
    (s.dramPut n (s.trainCla n (k % 2) (k / 2)) ⟨Config.trainPattern s.freeCtr, false⟩).tickFree) s

/-- The results are latched (R275 step 6, R276): a failed training is the channel's fault. The flag says that a training
ended. -/
def State.trainEnd (s : State) (n : Fin 16) : State × Bool :=
  let t := (s.chan n).trn
  if t.phase = .latched then
    let s := if t.full then s.trainLines n else s
    let s := if t.full then s.wakeRanks n else s
    let s := s.modChan n fun c =>
      { c with trn := { c.trn with phase := .idle, valid := true }, dly := ⟨false, 0, 0, false, 0⟩ }
    (if t.fail then s.uncorEv (srcChan n) else s, true)
  else (s, false)

end Sys2Proof.Machine
end

