-- ==== Sys2Proof/Machine/Fence.lean ====
section
/-! DEFINITION. Fences of agents, ports and channels (R352, R353, R355 to R361), the sweeps of a fence (R316, R357), the
heartbeat (R354), and the commit of a service operation with its reads and counts (R309, R312, R463). -/

namespace Sys2Proof.Machine

/-- Mark a source fenced and log it (R374); `masked` as R353 says. -/
def State.markFenced (s : State) (n : Nat) (a : Agent) (masked : Bool) : State :=
  (s.modSrc n fun x => { x with fenced := true, masked := x.masked || masked }).logEnt
    ⟨0x04, BitVec.ofNat 7 n, a, 0, 0, s.now⟩

/-- Requests of an agent that wait in a slice's ingress queues, or for a sleeping slice, leave them (R301, R306). -/
def State.fenceIngress (s : State) (i : Fin 17) (a : Agent) : State :=
  let q (r : Req) : Bool := r.a.src == a && r.port.isSome
  (List.range 26).foldl (fun s rq => s.leaveIngress i rq q fun s r => s.withdraw i r false)
    (s.leaveHold i q fun s r => s.withdraw i r false)

/-- Watch registrations of an agent are cleared in the descriptors, each of which is read (R321, R326). -/
def State.dropWatch (s : State) (i : Fin 17) (a : Agent) : State :=
  ((s.slice i).ar.desc.map Prod.fst).foldl (fun s k =>
    let s := s.readDesc i k
    let q := (s.slice i).desc k
    if q.wv && q.wagt == a then s.modSlice i (·.setDesc k { q with wv := false }) else s) s

/-- What a fence of an agent does in one slice (R355 rows 3 to 5). A slice that is off or fenced runs no presence sweep: it
holds no entry that a request could meet. -/
def State.fenceInSlice (s : State) (a : Agent) (i : Fin 17) : State :=
  let s := (((s.endWaits i a).clearRecs i fun r => r.ag == a).fenceIngress i a).dropWatch i a
  let live := !s.slFenced i && (s.slice i).ctl.dom.a != .off
  s.modSlice i fun x =>
    { x with
      resv := x.resv.filter fun r => r.ag != a
      ctl := { x.ctl with waking := x.ctl.waking || (live && x.asleep) }
      sw := { x.sw with
        ledgerAgents := x.sw.ledgerAgents ++ [a]
        presAgents := if live then x.sw.presAgents ++ [a] else x.sw.presAgents
        presLeft := if live then 16384 else x.sw.presLeft } }

/-- The requests and companions of a fenced agent that its port holds are discarded, and their credits reclaimed (R34,
R358). -/
def State.fenceHeld (s : State) (p : Fin 24) (a : Agent) : State :=
  let x := s.port p
  let hs := x.held.filter fun h => h.a.src == a
  let os := x.orphans.filter fun o => o.src == a
  let s := s.modPort p fun x => { x with
    held := x.held.filter fun h => h.a.src != a
    orphans := x.orphans.filter fun o => o.src != a
    errDat := x.errDat.filter fun e => e.1 != a
    errAny := x.errAny.filter fun e => e.1 != a
    acks := x.acks.filter fun k => k.ag != a
    egress := x.egress.filter fun g => !(g.gone && g.f.dst == a) }
  let s := hs.foldl (fun s h =>
    let s := s.reclaimReq p h.a.part
    if h.cd.isSome then s.reclaimDat p h.a.part else s) s
  os.foldl (fun s o => s.reclaimDat p o.part) s

/-- Fence an agent (R355). -/
def State.fenceAgent (s : State) (a : Agent) : State :=
  match portOf a with
  | none => s
  | some p =>
    if (s.src (srcAgent a)).fenced then s
    else ((s.markFenced (srcAgent a) a true).fenceHeld p a).eachSlice fun s i => s.fenceInSlice a i

/-- Fence a port and each of its agents (R355). -/
def State.fencePort (s : State) (p : Fin 24) : State :=
  let s := if s.portFenced p then s else s.markFenced (srcPort p) 63 true
  (agentsOf p).foldl State.fenceAgent s

/-- A resync that loses its source ends where it stands (R287). -/
def State.resyncLost (s : State) (n : Fin 16) : State :=
  if (s.chan n).mir.mode = .resync then
    ((s.dropCopy n).modChan n fun x => { x with mir := { x.mir with st := x.mir.st.abort, mode := .none } }).done (dchPage n)
  else s

/-- Fence a channel (R286, R360): masked while its partner serves (R353). -/
def State.fenceChan (s : State) (n : Fin 16) : State :=
  if s.chFenced n then s
  else
    let alone := !s.mirrored n || s.chFenced (buddy n)
    let s := s.markFenced (srcChan n) 63 (!alone)
    let s := if alone && s.mirrored n then s.modSrc (srcChan (buddy n)) fun x => { x with masked := false } else s
    (s.chanStop n).resyncLost (buddy n)

/-- The ledger sweep of a slice ends, in which every entry has been read (R312, R316). -/
def State.ledgerSweep (s : State) (i : Fin 17) : State :=
  (s.readLedgers i).modSlice i fun x =>
    { x with
      ar := { x.ar with ledger := x.ar.ledger.map fun e => (e.1, e.2.map fun l =>
        if l.st = .held ∧ x.sw.ledgerAgents.contains l.owner then { l with st := .orphaned, why := 0b01 } else l) }
      sw := { x.sw with ledgerAgents := [] } }

/-- A slice runs a ledger or a presence sweep (FLT_SWEEP). -/
def Slice.sweeping (x : Slice) : Bool := !x.sw.ledgerAgents.isEmpty || x.sw.presLeft != 0

/-- A sweep runs for an agent of a port (R359). -/
def State.portSweeping (s : State) (p : Fin 24) : Bool :=
  (List.finRange 17).any fun i => (agentsOf p).any fun a =>
    (s.slice i).sw.ledgerAgents.contains a || ((s.slice i).sw.presLeft != 0 && (s.slice i).sw.presAgents.contains a)

/-! ### Heartbeat (R353, R354) -/

/-- Severe sources that are neither masked nor acknowledged, lowest first. -/
def State.standing (s : State) : List Nat :=
  (s.flt.src.filter fun e => e.2.severe && !e.2.masked && !e.2.acked).map Prod.fst

/-- A severe source is not acknowledged. -/
def State.unacked (s : State) : Bool := s.flt.src.any fun e => e.2.severe && !e.2.acked

/-- A tk whose count is a multiple of 100, from the Enable commit on (R354, R385). -/
def State.heartbeat (s : State) : State :=
  if s.glb.everEnabled && s.now.toNat % 100 == 0 then
    let stop := !s.standing.isEmpty
    s.modFlt fun x => { x with stopped := stop, alive := if stop then x.alive else !x.alive }
  else s

/-! ### The service unit in its slice -/

/-- Performance events of a service operation (R463). -/
def reqPerf : ReqOp → Option Nat
  | .lockAcq => some 0x0B | .lockRel => some 0x0B
  | .qEnq => some 0x0C | .qDeq => some 0x0C | .qWatch => some 0x0C
  | _ => none

/-- The service unit of a slice commits one operation (R309), which is counted unless it waits on (R463). -/
def State.serviceStep (s : State) (i : Fin 17) : State :=
  if !s.blockRuns || (s.slice i).asleep || s.slFenced i then s
  else match s.svcNext i with
  | none => s
  | some (o, e) => s.withTrk o.src o.tid fun s =>
    let (s, held) := if e.r.kind == .req .atom then s.readHandle o.src o.tid Trk.stat else (s, false)
    if held then s
    else
      let s := s.svcCommit i o e
      if (s.slice i).svcq.contains o then s
      else match e.r.kind with
        | .req op => (match reqPerf op with | some k => s.perf i k | none => s)
        | _ => s

end Sys2Proof.Machine
end

