-- ==== Sys2Proof/Machine/Crc.lean ====
section
/-! DEFINITION. CRC-32C (R421): polynomial 0x1EDC6F41 reflected, initial value and final XOR 0xFFFFFFFF. The configuration CRC,
the check of the fuse bundle (R444) and that of a saved partition (R343) use it. -/

namespace Sys2Proof.Machine

/-- One bit of the reflected division. -/
def crcBit (c : BitVec 32) : BitVec 32 := if c.getLsbD 0 then (c >>> 1) ^^^ 0x82F63B78 else c >>> 1

/-- One byte. -/
def crcByte (c : BitVec 32) (b : BitVec 8) : BitVec 32 :=
  crcBit (crcBit (crcBit (crcBit (crcBit (crcBit (crcBit (crcBit (c ^^^ b.zeroExtend 32))))))))

/-- A 32-bit word, least significant byte first. -/
def crcWord (c : BitVec 32) (w : BitVec 32) : BitVec 32 :=
  crcByte (crcByte (crcByte (crcByte c (w.extractLsb' 0 8)) (w.extractLsb' 8 8)) (w.extractLsb' 16 8)) (w.extractLsb' 24 8)

/-- The CRC of a list of words. -/
def crcWords (ws : List (BitVec 32)) : BitVec 32 := ~~~(ws.foldl crcWord 0xFFFFFFFF)

/-- The sixteen words of a line, byte 0 first. -/
def lineWords (l : Line) : List (BitVec 32) := (List.range 16).map fun k => l.extractLsb' (32 * k) 32

/-- The CRC of lines in order. -/
def crcLines (ls : List Line) : BitVec 32 := ~~~(ls.foldl (fun c l => (lineWords l).foldl crcWord c) 0xFFFFFFFF)

end Sys2Proof.Machine
end

