-- ==== Sys2Proof/Machine/Fuse.lean ====
section
/-! DEFINITION. The fuse bundle (R382, R427, R444, R445): its fields, its check, and the values in force. -/

namespace Sys2Proof.Machine

/-- Word w of the bundle as read. -/
def Fuse.word (f : Fuse) (w : Nat) : BitVec 32 := tabGet 0 f.words w

/-- The bundle passes its check (R445): every word in time, CHECK matches, RSVD zero, MAXPART 1 to 64. -/
def Fuse.check (f : Fuse) : Bool :=
  !f.late && crcWords ((List.range 15).map f.word) == f.word 15 && (f.word 14).toNat < 2 ^ 3 &&
    (let m := ((f.word 13).extractLsb' 24 7).toNat; decide (1 ≤ m) && decide (m ≤ 64))

/-- The macro has given a word, or has not given it in time (R445): the next is requested at `t`; after the last the bundle is
latched. -/
def Fuse.take (f : Fuse) (w : BitVec 32) (late : Bool) (t : Tk) : Fuse :=
  let f := { f with words := tabSet 0 f.words f.idx w, idx := f.idx + 1, req := t, late := f.late || late }
  if f.idx = 16 then { f with done := true, ok := f.check } else f

/-- The values of the bundle hold: it has been read and has passed. -/
def Fuse.valid (f : Fuse) : Bool := f.done && f.ok

/-- IDF_TRUST.MASK (R382: zero on a failed check). -/
def Fuse.trust (f : Fuse) : BitVec 24 := if f.valid then (f.word 13).extractLsb' 0 24 else 0
/-- Usable partitions (R382: 1 on a failed check). -/
def Fuse.maxPart (f : Fuse) : Nat := if f.valid then ((f.word 13).extractLsb' 24 7).toNat else if f.done then 1 else 0
/-- Spare enable. -/
def Fuse.spare (f : Fuse) : Bool := f.valid && (f.word 13).getLsbD 31
/-- DET permit. -/
def Fuse.detPermit (f : Fuse) : Bool := f.valid && (f.word 14).getLsbD 0
/-- Debug lock (R382: 1 on a failed check). -/
def Fuse.dbgLock (f : Fuse) : Bool := if f.valid then (f.word 14).getLsbD 1 else f.done
/-- Aperture lock (R382: 1 on a failed check). -/
def Fuse.apLock (f : Fuse) : Bool := if f.valid then (f.word 14).getLsbD 2 else f.done
/-- Anti-rollback counter; R382 names no substitute for it, so the word as read stands (log entry 27). -/
def Fuse.rollback (f : Fuse) : BitVec 32 := if f.done then f.word 12 else 0
/-- Word w of the key hash. -/
def Fuse.keyHash (f : Fuse) (w : Nat) : BitVec 32 := if f.valid then f.word w else 0

/-- Slice 16 is powered only with spare enable (R381, R397). -/
def State.usableSlice (s : State) (i : Fin 17) : Bool := i.val < 16 || s.glb.fuse.spare

end Sys2Proof.Machine
end

