-- ==== Sys2Proof/Machine/Moves.lean ====
section
/-! DEFINITION. The fence of a slice (R362) and the moves of a home (R363 to R372, R232, R257, R424): evacuation, takeover, buddy
takeover, return, rollback. -/

namespace Sys2Proof.Machine

/-! ### Which slices a move can use -/

/-- Moves that go set by set (R365, R459). -/
def evacLike : MoveKind → Bool
  | .evac => true | .ltMove => true | .ltBack => true | _ => false

/-- The slice that holds the retained service state of a home (R370). -/
def State.retainedOf (s : State) (h : Fin 16) : Option (Fin 17) :=
  (List.finRange 17).find? fun i => (s.slice i).ctl.retained == some h

/-- The slice is the source or the destination of a move. -/
def State.inMove (s : State) (i : Fin 17) : Bool :=
  match s.flt.run with
  | some m => m.src == i || m.dst == i
  | none => false

/-- A LIVETEST names the slice as the one under test (R458). -/
def State.underLt (s : State) (i : Fin 17) : Bool := s.tst.phase != .none && s.tst.ltSlice.toNat == i.val

/-- A free slice (file 15, Moving a home). -/
def State.isFree (s : State) (i : Fin 17) : Bool :=
  let c := (s.slice i).ctl
  (s.homesOf i).isEmpty && c.retained.isNone && !s.slFenced i && !(s.src (srcSlice i)).severe && c.sound &&
    !c.resetting && !c.testing && s.usableSlice i && !s.inMove i && !s.underLt i

/-- The free slice of lowest number. -/
def State.freeSlice (s : State) : Option (Fin 17) := (List.finRange 17).find? s.isFree

/-- A slice that a move may use: awake, every INIT bit 1 (R402). -/
def State.destReady (s : State) (d : Fin 17) : Bool :=
  !(s.slice d).asleep && !(s.slice d).ctl.waking && (s.slice d).ar.init == 0x3FF

/-! ### The merging buffer of a slice that stops (R362 step 4, R248) -/

/-- A channel takes a write at once: queued writes of the line take its data, and the line is written. Corrections and copies of the line
that are under way give way to it (R281, R287). -/
def State.writeNow (s : State) (n : Fin 16) (cla : Nat) (l : PLine) : State :=
  (s.modChan n fun c => { c with
    wq := (c.wq.filter fun w => !(w.cla == cla && (w.corr || w.copy))).map fun w => if w.cla == cla then { w with l := l } else w
    rq := c.rq.map fun r => if r.cla == cla then { r with past := true } else r
    inflight := c.inflight.map fun r => if r.cla == cla then { r with past := true } else r
    mir := { c.mir with copy := c.mir.copy.map fun k =>
      if k.dst = cla then { k with stale := true, phase := if k.phase = .writing then .done else k.phase } else k } }).dramPut n cla l

/-- An entry of the merging buffer that cannot be read correctly (R362 step 4): logged, and its line enters the lost-write table when it
carried a write that had completed OK. -/
def State.badWmb (s : State) (i : Fin 17) (w : WmbEnt) : State :=
  let done := w.writes.any fun d => (s.port d.port).writes.any fun r => r.wid == d.wid && r.completed
  let s := s.log 0x02 (srcSlice i) 0 (s.addrPa w.addr)
  (if done then s.loseLine w.home w.addr else s).wmbFree i w true

/-- Every entry of a slice's merging buffer drains to its channel. Whether an entry can be read correctly is a free value (log entry 82). -/
def State.flushWmb (s : State) (i : Fin 17) : State :=
  let put (s : State) (a : MemAddr) (h : Fin 16) (l : PLine) : State :=
    (s.writePlaces h (s.memCla a)).foldl (fun s pl => s.writeNow pl.1 pl.2.1 l) s
  let wt := (s.slice i).mem.wtWait
  let s := s.modSlice i fun x => { x with mem := { x.mem with wtWait := [] } }
  let s := (s.slice i).mem.wmb.foldl (fun s w =>
    if s.chLost w.home then s.loseWmb i w
    else if Config.wmbUnreadable s.freeCtr then s.tickFree.badWmb i w
    else (put s.tickFree w.addr w.home w.l).wmbFree i w false) s
  wt.foldl (fun s w =>
    if s.chLost w.home then s.wtLost i w 0
    else w.writes.foldl (fun s d => s.reportDrain i d false) (put s w.addr w.home w.l)) s

/-! ### The fence of a slice (R362) -/

/-- The transaction has selected a verb, or runs without one past its queues. -/
def hasVerb : TStat → Bool
  | .queued => false | .eligible => false | .setRetry _ => false | .atSvc => false | .record => false
  | _ => true

/-- A transaction that a slice's fence ends: completed FENCED, its line poisoned where an agent that has not answered could
hold it in M (R362 step 2, R123). -/
def State.stopOne (s : State) (i : Fin 17) (t : Nat) : State :=
  match s.ent i t with
  | none => s
  | some _ => (s.poisonUnanswered i t).completeEnt i t (.comp .fenced .i 0) true

/-- A request that has selected no verb leaves its slice. -/
def State.unbind (s : State) (i : Fin 17) (t : Nat) : State :=
  match s.ent i t with
  | none => s
  | some _ => (s.detach i t).setEnt i t none

/-- A slice stops: what has a verb ends, its buffer drains, its sweeps end. Answers the requests that must go elsewhere, with
their requesters: those bound, in the order of their first passes, then those of the ingress queues. -/
def State.stopSlice (s : State) (i : Fin 17) : State × List (Nat × Req) :=
  let run := ((s.slice i).ents.filter fun e => hasVerb e.2.stat).map Prod.fst
  let s := run.foldl (fun s t => s.stopOne i t) s
  let s := run.foldl (fun s t => s.retire i t) s
  let x := s.slice i
  let bound := (x.ents.filter fun e => e.2.stat != .record).mergeSort fun a b => a.2.age ≤ b.2.age
  let ing := (List.range 26).flatMap fun rq => ((x.ing rq).fwd ++ (x.ing rq).direct).map fun e => (rq, e.1)
  let out := bound.map (fun e => (e.2.r.requester, e.2.r)) ++ ing ++ x.wakeHold
  let s := bound.foldl (fun s e => s.unbind i e.1) s
  let s := s.modSlice i fun x => { x with
    ingress := [], wakeHold := [], sw := { x.sw with presLeft := 0, presAgents := [], scrubLeft := 0 } }
  (s.flushWmb i, out)

/-- Requests go on, in order, to the slice that a target function names; where it names none they complete FENCED (R25,
R362). -/
def State.reroute (s : State) (i : Fin 17) (target : Req → Option (Fin 17)) (l : List (Nat × Req)) : State :=
  l.foldl (fun s q =>
    let s := s.bump (slcPage i) 0x354 7 0
    match target q.2 with
    | some j => s.sendReq (.slice i) j q.1 { q.2 with fwd := true }
    | none => s.failFenced q.2) s

/-! ### Records and service state on the way (R365, R367, R368) -/

/-- The records of a home, of one set or of all, leave a slice. -/
def State.takeRecs (s : State) (i : Fin 17) (h : Fin 16) (set : Option Nat) : State × List StaleRec :=
  let q (r : StaleRec) : Bool := s.homeOf r.pa == h && (match set with | some k => sfSet r.pa == k | none => true)
  (s.clearRecs i q, (s.slice i).recs.filter q)

/-- A record is housed in the back-invalidation reserve, or in a free entry (R368). -/
def State.putRec (s : State) (i : Fin 17) (h : Fin 16) (r : StaleRec) : State :=
  if (s.slice i).reserveUsed < s.bires i then
    s.modSlice i fun x => { x with recs := x.recs ++ [{ r with place := none }] }
  else
    let (s, t) := s.bind i ⟨.req .hint, ⟨63, 0, 0, 0, r.pa, 0⟩, none, h, false, s.edge, none, 0, false⟩ .record
    s.modSlice i fun x => { x with recs := x.recs ++ [{ r with place := some t }] }

/-- Records of a home move from one slice to another. -/
def State.moveRecs (s : State) (i d : Fin 17) (h : Fin 16) (set : Option Nat) : State :=
  let (s, rs) := s.takeRecs i h set
  rs.foldl (fun s r => s.putRec d h r) s

/-- The ledger and the queue descriptors go from one slice to another, read with ECC (R312, R321, R368), with the agents that a sweep has
still to write (R316); a set that counts as full does so in both (R312). -/
def State.moveService (s : State) (i d : Fin 17) : State :=
  let s := s.readServices i
  let a := (s.slice i).ar
  let ags := (s.slice i).sw.ledgerAgents
  (s.modSlice d fun x => { x with
    ar := { x.ar with
      ledger := a.ledger, desc := a.desc
      ledgerBad := x.ar.ledgerBad.filter (fun k => !a.ledgerBad.contains k) ++ a.ledgerBad
      inj := x.ar.inj.filter fun e => e.1 != 3 && e.1 != 4 }
    sw := { x.sw with ledgerAgents := x.sw.ledgerAgents ++ ags } }).modSlice i fun x =>
      { x with ar := { x.ar with ledger := [], desc := [] }, sw := { x.sw with ledgerAgents := [] } }

/-- A fetch of one slice's service unit becomes another's. -/
def FetchReq.toUnit (i d : Fin 17) (f : FetchReq) : FetchReq :=
  match f.fetchFor with
  | .svc _ => if f.slice = i then { f with slice := d } else f
  | _ => f

/-- The same for a fetch or a read return on the network. -/
def NetMsg.toUnit (i d : Fin 17) : NetMsg → NetMsg
  | .fetch n f => .fetch n (f.toUnit i d)
  | .ret f l => .ret (f.toUnit i d) l
  | m => m

/-- Service operations that wait in one slice's unit wait in another's, and the ring lines that they read come back there (R26). -/
def State.moveSvcq (s : State) (i d : Fin 17) : State :=
  let x := s.slice i
  let svc (f : FetchReq) : Bool := f.toUnit i d != f
  let fetches (l : List FetchReq) : List FetchReq := (l.filter svc).map (·.toUnit i d)
  let s := (s.modSlice i fun x => { x with
    svcq := []
    mem := { x.mem with
      fetchHold := x.mem.fetchHold.filter fun f => !svc f
      fetchWait := x.mem.fetchWait.filter fun f => !svc f
      memq := x.mem.memq.filter fun m => decide (m.tid < 32768) } }).modSlice d fun y => { y with
    svcq := y.svcq ++ x.svcq
    mem := { y.mem with
      fetchHold := y.mem.fetchHold ++ fetches x.mem.fetchHold
      fetchWait := y.mem.fetchWait ++ fetches x.mem.fetchWait
      memq := y.mem.memq ++ x.mem.memq.filter fun m => decide (32768 ≤ m.tid) } }
  (s.netMap (NetMsg.toUnit i d)).eachChan fun s n => s.modChan n fun c => { c with
    rq := c.rq.map fun r => { r with f := r.f.toUnit i d }
    inflight := c.inflight.map fun r => { r with f := r.f.toUnit i d } }

/-! ### The destination (R364, R368, R424) -/

/-- Comparison is on (CRCV). -/
def State.crcv (s : State) (n : Nat) : Bool := tabGet false s.csr.crcv n

/-- Set CRCV of a page: where it falls, the second of R423 starts; where it is set, `wait` says that the pass under way is not
compared. -/
def State.setCrcv (s : State) (n : Nat) (b wait : Bool) : State :=
  s.modCsr fun c => { c with
    crcv := tabSet false c.crcv n b
    crcWait := tabSet false c.crcWait n wait
    staleAt := if b then tabErase c.staleAt n else if s.crcv n then tabSet 0 c.staleAt n s.edge else c.staleAt }

/-- The ST and LV fields of a word of an SLC page. -/
def slcMask (i : Fin 17) (w : Nat) : BitVec 32 := kindMask (regFields (slcPage i) w) fun k => k == .st || k == .lv

/-- What a write makes of the ST and LV fields of a word of an SLC page: a field keeps its value where the new one is no encoding. -/
def slcWritten (i : Fin 17) (w : Nat) (cur v m : BitVec 32) : BitVec 32 :=
  let ok := slcMask i w &&& m
  let x := (cur &&& ~~~ok) ||| (v &&& ok)
  let bad := (regFields (slcPage i) w).foldl (fun b f => if (f.mask &&& ok) != 0 && !slcOk (4 * w) f.lo (f.val x) then b ||| f.mask else b) 0
  (x &&& ~~~bad) ||| (cur &&& bad)

/-- Every ST and LV field of a slice's page, with CRCREF and CRCV, becomes another's, also as the writes on their way to the source will
leave it (R424, R428). A new LWN restarts its count (R305). -/
def State.copyPage (s : State) (i d : Fin 17) : State :=
  let lwn := s.reg (slcPage d) 0xD4
  let s := (List.range 256).foldl (fun s w =>
    let m := slcMask d w
    if m = 0 then s
    else s.setReg (slcPage d) w ((s.reg (slcPage d) w &&& ~~~m) ||| (s.reg (slcPage i) w &&& m))) s
  let s := (s.csr.posted.filter fun x => x.page == slcPage i && !x.applied).foldl (fun s x =>
    let m : BitVec 32 := match x.bit with | some b => BitVec.ofNat 32 (2 ^ b.val) | none => 0xFFFFFFFF
    if slcMask d x.word = 0 then s else s.setReg (slcPage d) x.word (slcWritten d x.word (s.reg (slcPage d) x.word) x.v m)) s
  let s := if s.reg (slcPage d) 0xD4 = lwn then s else s.modSlice d fun x => { x with arb := { x.arb with sinceLw := 0 } }
  s.setCrcv (slcPage d) (s.crcv (slcPage i)) true

/-- A bank as two bits. -/
def bankBit (b : Bool) : BitVec 2 := if b then 2 else 1

/-- The active bank of a slice is written into another's inactive bank, and its check is due (R232). -/
def Ucode.copyBank (u : Ucode) (src : Ucode) : Ucode :=
  let tb := !u.active
  let mine (b : Bool) (k : Nat) : Bool := decide (1024 ≤ k) == b
  let ws := (src.words.filter fun e => mine src.active e.1).foldl
    (fun t e => tabSet (baseWord (e.1 % 1024)) t ((if tb then 1024 else 0) + e.1 % 1024) e.2)
    (u.words.filter fun e => !mine tb e.1)
  { u with words := ws, valid := u.valid &&& ~~~bankBit tb, due := u.due ||| bankBit tb }

/-- The destination's MSC at the start of a move (R257): a command of it that runs ends with the init. -/
def Slice.initMsc (x : Slice) (on : Bool) : Slice :=
  let m := x.mem.ctl
  { x with
    ar := { x.ar with msc := [], tagLost := [], mscPtr := [], inj := x.ar.inj.filter fun e => e.1 != 5 && e.1 != 6 }
    mem := { x.mem with ctl := {
      mode := if on then .on else .off
      epoch := if on then 1 else m.epoch
      st := if m.st.res = .running then m.st.complete else m.st } } }

/-- A destination begins with no snoop-filter entry, and its bank's errors are overwritten. -/
def Slice.clearSf (x : Slice) : Slice :=
  { x with ar := { x.ar with sf := [], repl := [], inj := x.ar.inj.filter fun e =>
      e.1 != 0 && e.1 != 1 && e.1 != (if x.uc.active then 7 else 8) } }

/-- `n` sets of a slice from set `lo` on are marked unknown. -/
def Slice.markAll (x : Slice) (lo n : Nat) : Slice :=
  { x with ar := { x.ar with
    inj := x.ar.inj.filter fun e => !(e.1 == 1 && decide (lo ≤ e.2.1.toNat) && decide (e.2.1.toNat < lo + n))
    repl := (x.ar.repl.filter fun e => decide (e.1 < lo)) ++
      ((List.range n).map fun k => (lo + k, x.replGet (lo + k) ||| 0x8000)) ++
      x.ar.repl.filter fun e => decide (lo + n ≤ e.1) } }

/-- The slice whose page, bank and MSC mode a move takes over: for a RETURN the one that served the home before (R424). -/
def State.pageSrc (s : State) (m : Move) : Fin 17 :=
  if m.kind = .ret then (s.retainedOf m.home).getD m.src else m.src

/-- A running move prepares its destination once that is awake and initialised (R364 steps 1 and 2, R368 step 2). A RETURN
copies no bank. -/
def State.movePrep (s : State) : State :=
  match s.flt.run with
  | none => s
  | some m =>
    if (m.phase == .prepare || m.phase == .copy) && !m.checked && (s.slice m.dst).uc.due == 0 && s.destReady m.dst then
      let i := s.pageSrc m
      let on := (s.slice i).mem.ctl.mode == .on
      let uc := (s.slice m.src).uc
      let s := (s.copyPage i m.dst).modSlice m.dst fun x => (x.initMsc on).clearSf
      if m.kind = .ret then s.modFlt fun f => { f with run := some { m with checked := true } }
      else s.modSlice m.dst fun x => { x with uc := x.uc.copyBank uc }
    else s

/-- A slice leaves a running load (R226): its FAIL bit is set, its inactive bank is not VALID. -/
def State.dropLoad (s : State) (i : Fin 17) : State :=
  let ld := s.glb.ld
  let b : BitVec 17 := BitVec.ofNat 17 (2 ^ i.val)
  if ld.st.res == .running && ld.sel.getLsbD i.val then
    (s.modGlb fun g => { g with ld := { ld with sel := ld.sel &&& ~~~b, left := ld.left &&& ~~~b, fail := ld.fail ||| b } }).modSlice i
      fun x => { x with uc := { x.uc with valid := x.uc.valid &&& ~~~bankBit (!x.uc.active), due := 0 } }
  else s

/-- A slice of a move is woken (R402); a destination needs its domain C too. -/
def State.wakeFor (s : State) (i : Fin 17) (dst : Bool) : State :=
  s.modSlice i fun x =>
    if x.asleep || (dst && x.ctl.dom.c != .on) then
      { x with ctl := { x.ctl with waking := true, fromOff := x.ctl.fromOff || x.ctl.dom.a == .off } }
    else x

/-! ### Beginning a move -/

/-- The fields that FLT_MOVE shows. -/
def Flt.name (f : Flt) (k : MoveKind) (h : Fin 16) (src dst : Fin 17) : Flt :=
  { f with lastKind := k, lastRb := false, lastSrc := BitVec.ofNat 5 src.val, lastHome := BitVec.ofNat 4 h.val
           lastDest := BitVec.ofNat 5 dst.val }

/-- A severe source is masked while its action keeps everyone served (R353). -/
def State.mask (s : State) (i : Fin 17) (b : Bool) : State := s.modSrc (srcSlice i) fun x => { x with masked := b }

/-- Admission of a home is held until every request forwarded to its new slice has its entry (R368, R369). -/
def State.holdAdm (s : State) (h : Fin 16) : State := s.modGlb fun g => { g with admHold := g.admHold ||| BitVec.ofNat 16 (2 ^ h.val) }

/-- Begin an evacuation, a takeover or a return; for the two last admission of the home is held (R368, R370). A return ends the
reservations of the slice that serves the home; the other moves end them where they fence it or begin their sets (R156). -/
def State.beginMove (s : State) (k : MoveKind) (h : Fin 16) (src dst : Fin 17) (cmd : Bool) : State :=
  let m : Move :=
    { kind := k, home := h, src := src, dst := dst, phase := if evacLike k then .prepare else .copy, checked := false
      cmd := cmd, tell := [], mark := [], sent := 0, passed := 0, released := false }
  let s := s.modFlt fun f => { f.name k h src dst with run := some m }
  let s := (s.wakeFor src false).wakeFor dst true
  let s := if evacLike k then s.dropLoad src else s
  let s := if k == .ret then s else s.dropLoad dst
  let s := if k == .ret then s.modSlice src fun x => { x with resv := [] } else s
  let s := if evacLike k then s else s.holdAdm h
  let s := if (s.src (srcSlice src)).severe || k == .takeover then s.mask src true else s
  (s.log 0x05 (srcSlice src)).movePrep

/-- A move ends: the collector may start another. -/
def State.endMove (s : State) : State := s.modFlt fun f => { f with run := none }

/-- The command that started a move ends. -/
def State.cmdEnds (s : State) (m : Move) (f : CmdSt → CmdSt) : State :=
  if m.cmd then (s.modFlt fun x => { x with cmd := f x.cmd }).doneUnless 59 s.flt.cmd else s

/-- A LIVETEST ends (R459, R460): RES, no phase, the slice out of the test. -/
def State.ltEnd (s : State) (f : CmdSt → CmdSt) : State :=
  let s := (List.finRange 17).foldl (fun s i =>
    if s.underLt i then s.modSlice i fun x => { x with ctl := { x.ctl with testing := false } } else s) s
  (s.modTst fun t => { t with lt := f t.lt, phase := .none, ltAborted := false, ltHome := none }).doneUnless 63 s.tst.lt

/-- What a LIVETEST phase's end by a fault or by a rollback does to the LIVETEST (R460). -/
def State.ltStops (s : State) (m : Move) (f : CmdSt → CmdSt) : State :=
  if m.kind = .ltMove || m.kind = .ltBack then s.ltEnd f else s

/-- No route is moved any more, in the master table and in every copy. -/
def State.routeOff (s : State) : State :=
  (s.modGlb fun g => { g with route := { g.route with active := false } }).eachPort fun s p =>
    s.modPort p fun x => { x with route := { x.route with active := false }, marker := false }

/-- Word k of SLC_SLOT0-15 and SLC_PRIO0-3 in the copy a buddy uses (R369, R424). -/
def slotKey (h : Fin 16) (k : Nat) : Nat := 32 * h.val + k

/-- The copy of a fenced slice's slot table and priorities. -/
def State.copySlots (s : State) (i : Fin 17) (h : Fin 16) : State :=
  (List.range 20).foldl (fun s k =>
    s.modGlb fun g => { g with slotCopy := tabSet 0 g.slotCopy (slotKey h k) (s.reg (slcPage i) (0xC0 + k)) }) s

/-- Set or clear DEG of a home. -/
def State.setDeg (s : State) (h : Fin 16) (b : Bool) : State :=
  let m : BitVec 16 := BitVec.ofNat 16 (2 ^ h.val)
  s.modGlb fun g => { g with deg := if b then g.deg ||| m else g.deg &&& ~~~m }

/-- Retained service state of a home lies in slice i, or nowhere. -/
def State.setRetained (s : State) (h : Fin 16) (i : Option (Fin 17)) : State :=
  s.eachSlice fun s j => s.modSlice j fun x => { x with ctl := { x.ctl with
    retained := if some j = i then some h else if x.ctl.retained = some h then none else x.ctl.retained } }

/-- A buddy takeover of a home of a stopped slice (R369). The retained service state stays where it lies. -/
def State.buddyMove (s : State) (h : Fin 16) (i b : Fin 17) : State :=
  let s := (s.modFlt (·.name .buddy h i b)).log 0x05 (srcSlice i)
  let s := (s.setDeg h true).setServing h (some b)
  let s := if (s.retainedOf h).isSome then s else s.setRetained h (some i)
  let s := ((s.copySlots i h).moveRecs i b h none).mask i true
  (s.holdAdm h).log 0x06 (srcSlice i)

/-! ### Placing the home of a slice that fails (R363) -/

/-- The slice that serves home h XOR 1 can take home h as well. -/
def State.buddyOf (s : State) (h : Fin 16) : Option (Fin 17) :=
  match s.serving (buddy h) with
  | none => none
  | some b =>
    if !(s.src (srcSlice b)).severe && !s.slFenced b && (s.homesOf b).length == 1 && !s.inMove b then some b else none

/-- Rows 2 to 4 of R363 for one home of a slice that has been fenced: where its requests go. `past` says that row 2 has been tried and has
failed (R368, R372). -/
def State.placeHome (s : State) (h : Fin 16) (i : Fin 17) (past : Bool := false) : State × Option (Fin 17) :=
  match if s.flt.run.isNone && !past then s.freeSlice else none with
  | some d => (s.beginMove .takeover h i d false, some d)
  | none =>
    match s.buddyOf h with
    | some b => if s.serving h = some b then ((s.setDeg h false).setServing h none, none) else (s.buddyMove h i b, some b)
    | none => ((s.setDeg h false).setServing h none, none)

/-- Fence a slice and place its homes in ascending order (R352, R362, R363). It stays an unmasked source where one of them is served no
more (R353). -/
def State.fenceSlice (s : State) (i : Fin 17) : State :=
  if s.slFenced i then s
  else
    let hs := s.homesOf i
    let s := ((s.markFenced (srcSlice i) 63 hs.isEmpty).dropLoad i).modSlice i fun x => { x with resv := [] }
    let (s, out) := s.stopSlice i
    let (s, at') := hs.foldl (fun (a : State × List (Fin 16 × Option (Fin 17))) h =>
      let (s, d) := a.1.placeHome h i
      (s, a.2 ++ [(h, d)])) (s, [])
    let s := if at'.any fun e => e.2.isNone then s.mask i false else s
    s.reroute i (fun r => (at'.find? fun e => e.1 == r.home).bind Prod.snd) out

/-! ### Set steps (R364, R365) -/

/-- An entry of the slice belongs to a set of a home. -/
def Req.ofSet (r : Req) (h : Fin 16) (k : Nat) : Bool :=
  r.home == h && sfSet r.a.pa == k && (match r.kind with | .req op => !reqIsDrain op | _ => true)

/-- No line of the set is open at the source, none of its requests is to re-enter there, and no merging-buffer entry of its lines
is left (R365 step 2). -/
def State.setQuiet (s : State) (i : Fin 17) (h : Fin 16) (k : Nat) : Bool :=
  let ofSet (a : MemAddr) : Bool := match a with | .line pa => sfSet pa == k | .ring _ _ => false
  !((s.slice i).ents.any fun e => (e.2.opens || e.2.stat == .queued || e.2.stat == .eligible) && e.2.r.ofSet h k) &&
    !((s.slice i).mem.wmb.any fun w => w.home == h && ofSet w.addr) &&
    !((s.slice i).mem.wtWait.any fun w => w.home == h && ofSet w.addr)

/-- Requests that `p` picks are still on the REQ network to a slice. -/
def State.reqOnWay (s : State) (i : Fin 17) (p : Req → Bool) : Bool := s.netReqs.any fun q => q.1 == i && p q.2.2

/-- REQ flits of a port to a slice that its marker, sent after them, has not passed (R365 step 5). -/
def State.portOnWay (s : State) (p : Fin 24) (i : Fin 17) : Bool :=
  s.netFlits.any fun f => f.net == 0 && f.src == .port p && f.dst == .slice i

/-- Requests for the set that the source holds in its queues, or that have reached it, are forwarded and counted (R365
step 6). -/
def State.forwardSet (s : State) (i : Fin 17) (h : Fin 16) (k : Nat) : State :=
  let x := s.slice i
  let bound := (x.ents.filter fun e => !hasVerb e.2.stat && e.2.stat != .record && e.2.r.ofSet h k).mergeSort
    fun a b => a.2.age ≤ b.2.age
  let s := bound.foldl (fun s e => s.unbind i e.1) s
  let s := bound.foldl (fun s e => s.forward i e.2.r.requester e.2.r) s
  let s := (List.range 26).foldl (fun s rq => s.leaveIngress i rq (·.ofSet h k) fun s r => s.forward i rq r) s
  s.leaveHold i (·.ofSet h k) fun s r => s.forward i r.requester r

/-- The entries, the replacement word and the mark of a set go from one slice to another, and its ways become UN (R365
step 3). -/
def State.moveSet (s : State) (i d : Fin 17) (k : Nat) : State :=
  let s := ((List.range 16).foldl (fun s w => s.readSf i k w) s).readRepl i k
  let x := s.slice i
  let s := s.modSlice d fun y => (List.range 16).foldl (fun y w => y.sfSet k w (x.sfGet k w)) (y.replSet k (x.replGet k))
  s.modSlice i fun x => (List.range 16).foldl (fun x w => x.sfSet k w ⟨0, .un⟩) (x.replSet k 0)

/-- All ports. -/
def allPorts : List (Fin 24) := List.finRange 24

/-- One set has moved: its requests are forwarded from here on, and the new watermark is on its way to every port. -/
def State.setMoved (s : State) (m : Move) (k : Nat) : State :=
  let s := (s.moveSet m.src m.dst k).moveRecs m.src m.dst m.home (some k)
  let s := s.modGlb fun g => { g with route := ⟨true, m.home, BitVec.ofNat 5 m.dst.val, BitVec.ofNat 15 (k + 1)⟩ }
  let s := s.modFlt fun f => { f with run := some { m with
    phase := .spread k, tell := allPorts, mark := allPorts, sent := 0, passed := 0, released := false } }
  s.forwardSet m.src m.home k

/-- The next thing that a running evacuation does (R364, R365): it begins, the set it holds moves, or it goes on to the next
set. -/
def State.evacStep (s : State) : State :=
  match s.flt.run with
  | none => s
  | some m =>
    let go (p : MovePhase) (s : State) : State := s.modFlt fun f => { f with run := some { m with phase := p } }
    if !evacLike m.kind then s
    else match m.phase with
    | .prepare =>
      if m.checked && s.destReady m.dst && !(s.slice m.src).asleep then
        go (.hold 0) ((s.modSlice m.src fun x => { x with resv := [] }).modGlb fun g =>
          { g with route := ⟨true, m.home, BitVec.ofNat 5 m.dst.val, 0⟩ })
      else s
    | .hold k => if s.setQuiet m.src m.home k then s.setMoved m k else s
    | .spread k =>
      if m.released && m.tell.isEmpty && decide (m.sent ≤ m.passed) then
        go (if k + 1 < 16384 then .hold (k + 1) else .final) s
      else s
    | _ => s

/-- A port's copy of the table takes the new watermark (R365 step 5). -/
def State.tablePort (s : State) (p : Fin 24) : State :=
  match s.flt.run with
  | some m =>
    if m.tell.contains p then
      (s.modPort p fun x => { x with route := s.glb.route, marker := true }).modFlt fun f =>
        { f with run := some { m with tell := m.tell.filter (· ≠ p) } }
    else s
  | none => s

/-- The marker of a port reaches the source; what the port had sent it before is forwarded (R365 steps 5 and 6). -/
def State.markerPort (s : State) (p : Fin 24) : State :=
  match s.flt.run with
  | some m =>
    (match m.phase with
     | .spread k =>
       if (s.port p).marker && m.mark.contains p && !s.portOnWay p m.src then
         let s := (s.modPort p fun x => { x with marker := false }).modFlt fun f =>
           { f with run := some { m with mark := m.mark.filter (· ≠ p) } }
         s.forwardSet m.src m.home k
       else s
     | _ => s)
  | none => s

/-- The release reaches the destination (R365 steps 6 and 7). -/
def State.releaseArrive (s : State) : State :=
  match s.flt.run with
  | some m =>
    (match m.phase with
     | .spread _ =>
       if m.mark.isEmpty && !(s.netFlits.any fun f => f.net == 0 && f.src == .slice m.src && f.dst == .slice m.dst) then
         s.modFlt fun f => { f with run := some { m with released := true } }
       else s
     | _ => s)
  | none => s

/-! ### The end of an evacuation (R367) -/

/-- The source of an evacuation holds nothing of the home any more. -/
def State.srcEmpty (s : State) (i : Fin 17) (h : Fin 16) : Bool :=
  let x := s.slice i
  (x.ents.all fun e => e.2.stat == .record) && x.wakeHold.isEmpty &&
    ((List.range 26).all fun rq => (x.ing rq).fwd.isEmpty && (x.ing rq).direct.isEmpty) &&
    !(x.mem.wmb.any fun w => w.home == h) && !(x.mem.wtWait.any fun w => w.home == h) && !s.reqOnWay i fun r => r.home == h

/-- The home is the destination's: service state, waiting service operations, table. Its reservations end (R156, R367). -/
def State.handOver (s : State) (m : Move) (svc : Fin 17) : State :=
  let s := s.modSlice svc fun x => { x with resv := x.resv.filter fun r => r.home != m.home }
  ((s.moveService svc m.dst).moveSvcq m.src m.dst).setServing m.home (some m.dst) |>.routeOff

/-- A slice enters the TEST phase (R459). -/
def State.ltTest (s : State) (i : Fin 17) : State :=
  ((s.modTst fun t => { t with phase := .test }).modSlice i fun x =>
    { x with ctl := { x.ctl with testing := true, sound := false } }).wakeFor i true

/-- The final step (R367). -/
def State.evacFinal (s : State) : State :=
  match s.flt.run with
  | none => s
  | some m =>
    if evacLike m.kind && m.phase == .final && s.srcEmpty m.src m.home && s.par.job == .none then
      let s := ((s.handOver m m.src).log 0x06 (srcSlice m.src)).endMove
      let s := if (s.src (srcSlice m.src)).severe then s.fenceSlice m.src else s
      let s := s.cmdEnds m CmdSt.complete
      match m.kind with
      | .ltMove => s.ltTest m.src
      | .ltBack => s.ltEnd (if s.tst.ltAborted then CmdSt.abort else CmdSt.complete)
      | _ => s
    else s

/-! ### What settles a running move (R372) -/

/-- The source of an evacuation fails: the destination goes on by itself, with the sets that have not moved unknown. -/
def State.evacToTakeover (s : State) (m : Move) : State :=
  let s := ((s.markFenced (srcSlice m.src) 63 true).dropLoad m.src).modSlice m.src fun x => { x with resv := [] }
  let (s, out) := s.stopSlice m.src
  let w := s.glb.route.wm.toNat
  let s := (s.modSlice m.dst fun x => x.markAll w (16384 - w)).moveRecs m.src m.dst m.home none
  let s := ((s.handOver m m.src).modFlt fun f => { f with lastKind := .takeover }).endMove
  let s := ((s.holdAdm m.home).reroute m.src (fun _ => some m.dst) out).log 0x06 (srcSlice m.src)
  (s.cmdEnds m CmdSt.complete).ltStops m CmdSt.complete

/-- The same while the destination is still being prepared: the bank copy that is under way serves the takeover. -/
def State.prepToTakeover (s : State) (m : Move) : State :=
  let s := ((s.markFenced (srcSlice m.src) 63 true).dropLoad m.src).modSlice m.src fun x => { x with resv := [] }
  let (s, out) := s.stopSlice m.src
  let s := s.modFlt fun f => { f with lastKind := .takeover, run := some { m with kind := .takeover, phase := .copy, cmd := false } }
  let s := s.holdAdm m.home
  ((s.reroute m.src (fun _ => some m.dst) out).cmdEnds m CmdSt.complete).ltStops m CmdSt.complete

/-- The line that a tag names in an MSC set (R234). -/
def mscLine (set : Nat) (tag : BitVec 35) : LineAddr := tag ++ (BitVec.ofNat 11 set ^^^ tag.extractLsb' 0 11)

/-- The source's MSC forgets the lines of the sets that had moved: the destination may have written them. -/
def State.forgetMoved (s : State) (i : Fin 17) (h : Fin 16) (w : Nat) : State :=
  s.modSlice i fun x => { x with ar := { x.ar with msc := x.ar.msc.filter fun e =>
    let pa := mscLine (e.1 / 12) e.2.tag
    !(s.homeOf pa == h && decide (sfSet pa < w)) } }

/-- The requests that a set step held go on where they are. -/
def Slice.dropHold (x : Slice) : Slice :=
  (x.ents.filter fun e => !e.2.opens && e.2.stat == .setRetry false).foldl
    (fun x e => x.setEnt e.1 (some { e.2 with stat := .eligible })) x

/-- An evacuation is rolled back: the home stays with its source, the sets that had moved are unknown there. `f` ends the
command that started it. -/
def State.rollback (s : State) (m : Move) (f : CmdSt → CmdSt) : State :=
  let (s, out) := (s.modSlice m.src Slice.dropHold).stopSlice m.dst
  let w := if s.glb.route.active then s.glb.route.wm.toNat else 0
  let s := ((s.forgetMoved m.src m.home w).modSlice m.src fun x => x.markAll 0 w).moveRecs m.dst m.src m.home none
  let s := (((s.modSlice m.dst Slice.clearSf).routeOff).modFlt fun x => { x with lastRb := true }).endMove
  let s := (s.modGlb fun g => { g with route := { g.route with wm := 0 } }).reroute m.dst (fun _ => some m.src) out
  let s := (s.mask m.src false).log 0x07 (srcSlice m.src)
  (s.cmdEnds m f).ltStops m f

/-- A slice fails while a move uses it; `corr` says that only CORR events made it so. -/
def State.failInMove (s : State) (m : Move) (i : Fin 17) (corr : Bool) : State :=
  if m.src = i then
    if evacLike m.kind then
      (if corr then s.mask i true else if m.phase = .prepare then s.prepToTakeover m else s.evacToTakeover m)
    else if m.kind = .ret then
      let s := ((s.modSlice m.dst Slice.clearSf).endMove).log 0x06 (srcSlice m.src)
      let s := s.modGlb fun g => { g with admHold := g.admHold &&& ~~~(BitVec.ofNat 16 (2 ^ m.home.val)) }
      (s.cmdEnds m CmdSt.abort).fenceSlice i
    else s
  else
    let s := (s.markFenced (srcSlice i) 63 true).dropLoad i
    if evacLike m.kind then s.rollback m CmdSt.abort
    else
      let (s, out) := s.stopSlice i
      let s := s.endMove.log 0x06 (srcSlice m.src)
      let s := s.modGlb fun g => { g with admHold := g.admHold &&& ~~~(BitVec.ofNat 16 (2 ^ m.home.val)) }
      if m.kind = .ret then (s.reroute i (fun _ => some m.src) out).cmdEnds m CmdSt.abort
      else
        let (s, d) := s.placeHome m.home m.src true
        let s := if d.isNone then s.mask m.src false else s
        s.reroute i (fun _ => d) out

/-- The action of a slice that has become severe, or that a command fences or resets (R352, R363, R372). An evacuation is the
first row only where nothing but CORR events led there, and never for a slice that serves a DEGRADED home (R391). -/
def State.slicePlan (s : State) (i : Fin 17) (corr : Bool) : State :=
  if s.slFenced i then s
  else match s.flt.run with
  | some m =>
    if m.src = i ∨ m.dst = i then s.failInMove m i corr else s.fenceSlice i
  | none =>
    match s.homesOf i with
    | [h] =>
      (match if corr && !s.degraded h && s.tst.phase == .none then s.freeSlice else none with
       | some d => s.beginMove .evac h i d false
       | none => s.fenceSlice i)
    | _ => s.fenceSlice i

/-- The check of a destination's bank has ended (R232): the bank becomes active, or the next row of R363 applies. -/
def State.bankChecked (s : State) (d : Fin 17) (ok : Bool) : State :=
  match s.flt.run with
  | none => s
  | some m =>
    if m.dst ≠ d ∨ m.checked then s
    else if ok then
      (s.modSlice d fun x => { x with uc := { x.uc with active := !x.uc.active } }).modFlt fun f =>
        { f with run := some { m with checked := true } }
    else if evacLike m.kind then
      let s := ((s.endMove.mask m.src false).cmdEnds m CmdSt.abort).ltStops m CmdSt.abort
      let s := s.uncorEv (srcSlice d)
      if (s.src (srcSlice m.src)).severe then s.fenceSlice m.src else s
    else s.uncorEv (srcSlice d)

/-! ### Takeover and return (R368, R370) -/

/-- The copies of a takeover are made, and the destination serves the home. -/
def State.takeoverDone (s : State) : State :=
  match s.flt.run with
  | none => s
  | some m =>
    if m.kind == .takeover && m.checked && s.destReady m.dst && s.par.job == .none then
      let svc := (s.retainedOf m.home).getD m.src
      let s := (s.modSlice m.dst fun x => x.markAll 0 16384).moveRecs m.src m.dst m.home none
      let s := ((s.handOver m svc).setDeg m.home false).setRetained m.home none
      (s.endMove).log 0x06 (srcSlice m.src)
    else s

/-- Nothing of the home is left in the slice. -/
def State.homeQuiet (s : State) (i : Fin 17) (h : Fin 16) : Bool :=
  let x := s.slice i
  !(s.reqOnWay i fun r => r.home == h) &&
  (x.ents.all fun e => e.2.r.home != h || e.2.stat == .record) && (x.wakeHold.all fun e => e.2.home != h) &&
    (List.range 26).all fun rq => ((x.ing rq).fwd ++ (x.ing rq).direct).all fun e => e.1.home != h

/-- A return ends (R370). -/
def State.returnDone (s : State) : State :=
  match s.flt.run with
  | none => s
  | some m =>
    if m.kind == .ret && m.checked && s.destReady m.dst && s.homeQuiet m.src m.home && s.par.job == .none then
      let svc := (s.retainedOf m.home).getD m.src
      let s := ((s.flushWmb m.src).modSlice m.dst fun x => x.markAll 0 16384).moveRecs m.src m.dst m.home none
      let s := ((s.moveService svc m.dst).setServing m.home (some m.dst)).setDeg m.home false
      ((s.setRetained m.home none).endMove.log 0x06 (srcSlice m.src)).cmdEnds m CmdSt.complete
    else s

/-- Admission of a home resumes once every forwarded request has its entry (R368). -/
def State.liftHold (s : State) : State :=
  if s.glb.admHold = 0 then s
  else s.eachHome fun s h =>
    let moving := match s.flt.run with
      | some m => m.home == h && !evacLike m.kind
      | none => false
    let fwd := match s.serving h with
      | some i =>
        let x := s.slice i
        (x.wakeHold.any fun e => e.2.home == h && e.2.fwd) ||
          s.reqOnWay i (fun r => r.home == h && r.fwd) ||
          (List.range 26).any fun rq => (x.ing rq).fwd.any fun e => e.1.home == h
      | none => false
    if s.glb.admHold.getLsbD h.val && !moving && !fwd then
      s.modGlb fun g => { g with admHold := g.admHold &&& ~~~(BitVec.ofNat 16 (2 ^ h.val)) }
    else s

end Sys2Proof.Machine
end

