-- ==== Sys2Proof/Machine/Power.lean ====
section
/-! DEFINITION. Power domains (R400 to R404, R448, R18): the states that Efkar requests and reads back, the power commands of a
slice, waking, and the return to RET. -/

namespace Sys2Proof.Machine

/-! ### Domains and pins (R448) -/

/-- The slice of a domain, and which of A, B, C it is; domains 48 and 49 are L and Y of slice 16. -/
def pdSlice (k : Nat) : Fin 17 := Fin.ofNat 17 (if k < 48 then k / 3 else 16)

/-- State of a domain's part of a slice. -/
def Domains.part (d : Domains) (k : Nat) : Pwr :=
  if 48 ≤ k then (if k = 48 then d.a else d.b) else if k % 3 = 0 then d.a else if k % 3 = 1 then d.b else d.c

/-- Domains of a slice. -/
def pdOf (i : Fin 17) : List Nat := if i.val < 16 then [3 * i.val, 3 * i.val + 1, 3 * i.val + 2] else [48, 49]

/-- The state the power controller reports. -/
def State.pdStat (s : State) (k : Nat) : Pwr := tabGet .on s.pins.pdStat k
/-- The state that Efkar requests (`efk_pd_mode`). -/
def State.pdMode (s : State) (k : Nat) : Pwr := tabGet .on s.pins.pdMode k

/-- Domain C is wanted ON: the slice comes from OFF, a WAKE has asked for it, the slice is under test, its MSC is being initialised, it serves a DET home (R178), or
it is the destination of a move. -/
def State.wantsC (s : State) (i : Fin 17) : Bool :=
  let x := s.slice i
  x.ctl.fromOff || x.ctl.wakeC || x.ctl.testing || x.mem.ctl.mode == .init || (s.homesOf i).any s.detHome || (match s.flt.run with | some m => m.dst == i | none => false)

/-- The state a domain should be in. -/
def State.pdWant (s : State) (k : Nat) : Pwr :=
  let i := pdSlice k
  let x := s.slice i
  if i.val = 16 && s.glb.fuse.done && !s.glb.fuse.spare then .off
  else if x.ctl.waking && (48 ≤ k || k % 3 ≠ 2) then .on
  else if k < 48 && k % 3 == 2 && s.wantsC i then .on
  else x.ctl.dom.part k

/-- Some domain is not, or has not been, ON. -/
def State.powerMoves (s : State) : Bool :=
  !s.pins.pdStat.isEmpty || !s.pins.pdMode.isEmpty || (s.glb.fuse.done && !s.glb.fuse.spare) ||
    (List.finRange 17).any fun i => (s.slice i).ctl.waking || (s.slice i).ctl.dom != ⟨.on, .on, .on⟩

/-- A domain's pins after a change at edge `t`: the time for which the two differ runs from the change that made them differ. -/
def Pins.noted (p old : Pins) (k : Nat) (t : Tk) : Pins :=
  let same (q : Pins) : Bool := tabGet .on q.pdStat k == tabGet .on q.pdMode k
  if same p then { p with pdSince := tabSet none p.pdSince k none }
  else if same old then { p with pdSince := tabSet none p.pdSince k (some t) } else p

/-- The request of a domain changes. -/
def State.pdRequest (s : State) (k : Nat) : State :=
  { s with pins := ({ s.pins with pdMode := tabSet .on s.pins.pdMode k (s.pdWant k) } : Pins).noted s.pins k s.edge }

/-- Requests change only where the supply has reached the previous one (R448). -/
def State.syncPower (s : State) : State :=
  if s.powerMoves then
    (List.range 50).foldl (fun s k =>
      if s.pdStat k == s.pdMode k && s.pdMode k != s.pdWant k then s.pdRequest k else s) s
  else s

/-- The supply reports a state (POWER_STAT_CHANGE). -/
def State.powerStat (s : State) (k : Nat) (st : BitVec 2) : State :=
  let p : Pwr := if st = 0 then .on else if st = 1 then .ret else .off
  { s with pins := ({ s.pins with pdStat := tabSet .on s.pins.pdStat k p } : Pins).noted s.pins k s.edge }

/-- A stat has differed from its mode for longer than 10 µs (R448): an UNCOR event of the slice, once. -/
def State.powerMismatch (s : State) (k : Nat) : State :=
  match tabGet none s.pins.pdSince k with
  | some t =>
    if s.reached (t + 1000) then
      ({ s with pins := { s.pins with pdSince := tabSet none s.pins.pdSince k none } } : State).uncorEv (srcSlice (pdSlice k))
    else s
  | none => s

/-! ### Waking (R18, R402) -/

/-- The supply of a domain is ON. -/
def State.pdOn (s : State) (k : Nat) : Bool := s.pdStat k == .on && s.pdMode k == .on

/-- Domain of an array of a slice (R17): arrays 0 to 4 in B, 5 and 6 in C, 7 to 9 in A; all in Y for slice 16. -/
def arrayDomain (i : Fin 17) (arr : Nat) : Nat :=
  if i.val = 16 then 49 else if arr < 5 then 3 * i.val + 1 else if arr < 7 then 3 * i.val + 2 else 3 * i.val

/-- A domain of a slice reports ready: A and B are ON, C where it was wanted, and held messages are delivered in their
arrival order (R18, R301). -/
def State.domainReady (s : State) (i : Fin 17) : State :=
  let x := s.slice i
  let c := i.val = 16 || s.wantsC i
  let supply := (pdOf i).all fun k => s.pdOn k || (k < 48 && k % 3 == 2 && !c)
  let filled := if x.ctl.fromOff then x.ar.init == 0x3FF else if x.ctl.wakeC then x.ar.init.extractLsb' 5 2 == 3 else true
  if (x.ctl.waking || x.ctl.wakeC) && supply && filled then
    let held := x.wakeHold
    let s := s.modSlice i fun x => { x with
      wakeHold := []
      ctl := { x.ctl with
        dom := ⟨.on, .on, if c then .on else x.ctl.dom.c⟩, waking := false, fromOff := false, wakeC := false
        autoRet := if x.ctl.waking then x.ctl.dom.a == .ret else x.ctl.autoRet, idleSince := none } }
    let s := held.foldl (fun s q => s.ingressPush i q.1 q.2) s
    if (s.slice i).ctl.fn.res = .running && !(s.slice i).ctl.resetting then
      (s.modSlice i fun x => { x with ctl := { x.ctl with fn := x.ctl.fn.complete } }).doneUnless (slcPage i) (s.slice i).ctl.fn
    else s
  else s

/-- The slices of DET homes do not sleep (R178): those that slept when DET mode was set, or that become such a slice, are
woken. -/
def State.detWake (s : State) : State :=
  if s.glb.det then s.eachSlice fun s i => if (s.homesOf i).any s.detHome then s.wakeFor i true else s else s

/-! ### Power commands (R401) -/

/-- A LOAD into the slice, or a SUKCLR, runs. -/
def State.slcBusy (s : State) (i : Fin 17) : Bool :=
  (s.glb.ld.st.res == .running && s.glb.ld.sel.getLsbD i.val) || (s.slice i).sw.suk.isSome

/-- An evacuation, or a LIVETEST, uses the slice (R226, R230). -/
def State.evacOrLt (s : State) (i : Fin 17) : Bool :=
  (match s.flt.run with
   | some m => evacLike m.kind && (m.src == i || m.dst == i)
   | none => false) || s.underLt i || (s.tst.phase != .none && s.tst.ltDest.toNat == i.val)

/-- The slice serves a home: some of its sets, or in an evacuation that has begun some of them already (R26, R401; log entry 33). -/
def State.servesSome (s : State) (i : Fin 17) : Bool :=
  !(s.homesOf i).isEmpty || (match s.flt.run with
    | some m => m.dst == i && m.phase != .prepare
    | none => false)

/-- A move, or a LIVETEST, uses the slice. -/
def State.moveOrLt (s : State) (i : Fin 17) : Bool :=
  s.inMove i || s.underLt i || (s.tst.phase != .none && s.tst.ltDest.toNat == i.val)

/-- Why a SLEEP is refused (SLC_FNSTAT.CAUSE); 0 for none. -/
def State.sleepCause (s : State) (i : Fin 17) : BitVec 8 :=
  let x := s.slice i
  if (s.homesOf i).isEmpty || (s.homesOf i).any s.detHome then 0x01
  else if s.moveOrLt i then 0x02
  else if !x.ents.isEmpty || !x.wakeHold.isEmpty || !x.recs.isEmpty || s.slcBusy i ||
      (List.range 26).any fun rq => !(x.ing rq).fwd.isEmpty || !(x.ing rq).direct.isEmpty then 0x03
  else if !x.mem.wmb.isEmpty || !x.mem.wtWait.isEmpty then 0x04
  else 0

/-- SQ fields of the words that `own` picks return to their reset values (R425). -/
def State.clearSq (s : State) (page : Nat) (own : Nat → Bool) : State :=
  (List.range 240).foldl (fun s w =>
    let m := kindMask (regFields page w) (· == .sq)
    if own (4 * w) && m != 0 then s.setReg page w (s.reg page w &&& ~~~m) else s) s

/-- Words of an SLC page that the slice holds (R410). -/
def slcOwn (o : Nat) : Bool := decide (o < 0x100 ∨ 0x140 ≤ o)
/-- Words of a DCH or PRT page that the unit holds (R410). -/
def unitOwn (o : Nat) : Bool := decide (0x040 ≤ o)

/-- A slice loses all that its arrays and logic hold; its control, its remap tables and its slice-cycle count stay. -/
def Slice.wiped (x : Slice) : Slice :=
  { Slice.zero with
    ar := { Arrays.zero with remap := x.ar.remap, ledgerBad := x.ar.ledgerBad }
    arb := { x.arb with carried := none, sinceLw := 0 }
    ctl := x.ctl }

/-- SLEEP takes effect: A and B go to RET (R400). -/
def State.sleepNow (s : State) (i : Fin 17) : State :=
  s.modSlice i fun x => { x with ctl := { x.ctl with
    dom := ⟨.ret, .ret, if i.val = 16 then .ret else x.ctl.dom.c⟩, autoRet := false, idleSince := none } }

/-- Change the status of SLC_FNCMD. -/
def State.modFn (s : State) (i : Fin 17) (f : CmdSt → CmdSt) : State :=
  s.modSlice i fun x => { x with ctl := { x.ctl with fn := f x.ctl.fn } }

/-- A power command: refused, or done in its commit. -/
def State.fnCmd (s : State) (i : Fin 17) (seq : BitVec 8) (cause : BitVec 8) (f : State → State) : State :=
  if !(s.slice i).ctl.fn.accepts seq then s
  else if cause ≠ 0 then (s.modFn i (·.refuse seq cause)).done (slcPage i)
  else ((f (s.modFn i (·.accept seq))).modFn i CmdSt.complete).done (slcPage i)

/-- SLEEP. A slice that is OFF serves no home, and one in RET stays there. -/
def State.sleepCmd (s : State) (i : Fin 17) (seq : BitVec 8) : State := s.fnCmd i seq (s.sleepCause i) (·.sleepNow i)

/-- SLEEPC: domain C goes to OFF, its arrays are lost and their INIT bits cleared (R400); refused for a DET home (R178). -/
def State.sleepcCmd (s : State) (i : Fin 17) (seq : BitVec 8) : State :=
  let cause : BitVec 8 :=
    if (s.homesOf i).any s.detHome then 0x01 else if i.val = 16 || (s.slice i).mem.ctl.mode != .off then 0x05 else 0
  s.fnCmd i seq cause fun s => s.modSlice i fun x => { x with
    ar := { x.ar with msc := [], tagLost := [], mscPtr := [], init := x.ar.init &&& 0x39F, inj := x.ar.inj.filter fun e => e.1 != 5 && e.1 != 6 }
    ctl := { x.ctl with dom := { x.ctl.dom with c := .off } } }

/-- OFF: all domains of the slice go to OFF. A slice that a move prepares, or that a LIVETEST tests, is powered again by these
(R402). -/
def State.offCmd (s : State) (i : Fin 17) (seq : BitVec 8) : State :=
  let cause : BitVec 8 :=
    if s.servesSome i then 0x06 else if (s.slice i).ctl.retained.isSome then 0x07 else 0
  s.fnCmd i seq cause fun s => (s.clearSq (slcPage i) slcOwn).modSlice i fun x =>
    { x.wiped with ctl := { x.ctl with dom := ⟨.off, .off, .off⟩, waking := false, fromOff := false, wakeC := false } }

/-- WAKE: every domain that is in RET or OFF comes ON, which completes it; at once where none is (R402). A slice without spare enable stays
unpowered. -/
def State.wakeCmd (s : State) (i : Fin 17) (seq : BitVec 8) : State :=
  if !(s.slice i).ctl.fn.accepts seq then s
  else
    let c := i.val ≠ 16 && (s.slice i).ctl.dom.c == .off
    if !((s.slice i).asleep || c) || !s.usableSlice i then s.fnCmd i seq 0 id
    else ((s.modFn i (·.accept seq)).wakeFor i false).modSlice i fun x => { x with ctl := { x.ctl with wakeC := c } }

/-! ### Return to RET (R403) -/

/-- Since when the conditions of SLEEP hold in slices that woke from RET. -/
def State.idleWatch (s : State) : State :=
  s.eachSlice fun s i =>
    if (s.slice i).ctl.autoRet then
      let quiet := s.sleepCause i == 0 && !(s.slice i).sw.busy && (s.bcVisit i).isNone && !(s.slice i).sweeping
      s.modSlice i fun x => { x with ctl := { x.ctl with
        idleSince := if quiet then (match x.ctl.idleSince with | some t => some t | none => some s.edge) else none } }
    else s

/-- AUTO_SLEEP. -/
def State.autoSleep (s : State) (i : Fin 17) : State :=
  let x := s.slice i
  let due := match x.ctl.idleSince with
    | some t => s.reached (t + BitVec.ofNat 48 (100 * s.fld (slcPage i) 0x10C 15 0))
    | none => false
  if s.flag (slcPage i) 0x10C 31 && x.ctl.autoRet && due && s.sleepCause i == 0 && !x.asleep then s.sleepNow i else s

/-! ### Commands of the MSC (R251 to R255) -/

/-- Change the control of an MSC. -/
def State.modMsc (s : State) (i : Fin 17) (f : MscCtl → MscCtl) : State :=
  s.modSlice i fun x => { x with mem := { x.mem with ctl := f x.mem.ctl } }

/-- An MSC enters ON at the next epoch (R252). -/
def MscCtl.turnOn (m : MscCtl) : MscCtl := { m with mode := .on, epoch := m.epoch + 1 }

/-- Some way is filled at an epoch (R252, R254). -/
def Slice.filledAt (x : Slice) (ep : BitVec 4) : Nat := (x.ar.msc.filter fun e => e.2.st.present && e.2.epoch == ep).length

/-- ENABLE (R252, R253). -/
def State.mscEnableCmd (s : State) (i : Fin 17) (seq : BitVec 8) : State :=
  let x := s.slice i
  if !x.mem.ctl.st.accepts seq then s
  else if x.mem.ctl.mode != .off then (s.modMsc i fun m => { m with st := m.st.refuse seq 0 }).done (slcPage i)
  else if x.ctl.dom.c != .on || x.ar.init.extractLsb' 5 2 != 3 then
    s.modMsc i fun m => { m with mode := .init, st := m.st.accept seq }
  else if x.filledAt (x.mem.ctl.epoch + 1) ≠ 0 then
    (((s.modMsc i fun m => { m with st := m.st.refuse seq 0 }).pageEv (slcPage i) 15 0xA9).cfgFault (srcSlice i)).done (slcPage i)
  else (s.modMsc i fun m => { m.turnOn with st := (m.st.accept seq).complete }).done (slcPage i)

/-- The init program of an MSC ends (R253): domain C is ON and both arrays are initialised. -/
def State.mscInitDoneEv (s : State) (i : Fin 17) : State :=
  let x := s.slice i
  if x.mem.ctl.mode = .init && (i.val = 16 || s.pdOn (3 * i.val + 2)) then
    let s := s.modSlice i fun x => { x with
      ar := { x.ar with msc := [], tagLost := [], mscPtr := [], init := x.ar.init ||| 0x060, inj := x.ar.inj.filter fun e => e.1 != 5 && e.1 != 6 }
      ctl := { x.ctl with dom := { x.ctl.dom with c := if i.val = 16 then x.ctl.dom.c else .on } } }
    (s.modMsc i fun m => { m.turnOn with st := m.st.complete }).done (slcPage i)
  else s

/-- An MSC begins to drain: the entries its buffer holds now hold up the end (R251). -/
def State.mscDrainStart (s : State) (i : Fin 17) : State :=
  s.modSlice i fun x => { x with mem := { x.mem with
    ctl := { x.mem.ctl with mode := .drain }, wmb := x.mem.wmb.map fun w => { w with drain := true } } }

/-- DISABLE (R251, R252). -/
def State.mscDisableCmd (s : State) (i : Fin 17) (seq : BitVec 8) : State :=
  let m := (s.slice i).mem.ctl
  if !m.st.accepts seq then s
  else if m.mode = .on then
    (s.modMsc i fun m => { m with st := { m.st.accept seq with refused := m.st.refused } }).mscDrainStart i
  else (s.modMsc i fun m => { m with st := { (m.st.accept seq).complete with refused := m.st.refused } }).done (slcPage i)

/-- The drain of an MSC ends (R251). -/
def State.mscDrainEndEv (s : State) (i : Fin 17) : State :=
  let x := s.slice i
  if x.mem.ctl.mode = .drain && !(x.mem.wmb.any (·.drain)) then
    let s := s.modSlice i fun x => { x with
      ar := { x.ar with msc := x.ar.msc.filter fun e => e.2.st != .pending }
      mem := { x.mem with ctl := { x.mem.ctl with mode := .off } } }
    if (s.slice i).mem.ctl.st.res = .running then (s.modMsc i fun m => { m with st := m.st.complete }).done (slcPage i) else s
  else s

/-- The abort of an MSC command (R255). -/
def State.mscAbortCmd (s : State) (i : Fin 17) (seq : BitVec 8) : State :=
  let m := (s.slice i).mem.ctl
  let (st, ends) := m.st.tryAbort seq true
  let s := s.modMsc i fun m => { m with st := st }
  if ends then
    (s.modSlice i fun x => { x with
      ar := if m.mode = .drain then { x.ar with msc := x.ar.msc.filter fun e => e.2.st != .pending } else x.ar
      mem := { x.mem with
      ctl := { x.mem.ctl with mode := if m.mode = .init then .off else .on }
      wmb := x.mem.wmb.map fun w => { w with drain := false } } }).done (slcPage i)
  else s

end Sys2Proof.Machine
end

