-- ==== Sys2Proof/Machine/Sign.lean ====
section
/-! DEFINITION. The cryptography of an image's authentication (R223): SHA-384 and the verification of an ECDSA signature on curve
P-384. The manual names the standards and does not repeat them; the algorithms are those of FIPS 180-4 and FIPS 186-5
(log entry 28). -/

namespace Sys2Proof.Machine

/-! ### SHA-384 -/

/-- Round constants 0 to 19. -/
def shaK0 : List (BitVec 64) :=
  [0x428A2F98D728AE22, 0x7137449123EF65CD, 0xB5C0FBCFEC4D3B2F, 0xE9B5DBA58189DBBC,
   0x3956C25BF348B538, 0x59F111F1B605D019, 0x923F82A4AF194F9B, 0xAB1C5ED5DA6D8118,
   0xD807AA98A3030242, 0x12835B0145706FBE, 0x243185BE4EE4B28C, 0x550C7DC3D5FFB4E2,
   0x72BE5D74F27B896F, 0x80DEB1FE3B1696B1, 0x9BDC06A725C71235, 0xC19BF174CF692694,
   0xE49B69C19EF14AD2, 0xEFBE4786384F25E3, 0x0FC19DC68B8CD5B5, 0x240CA1CC77AC9C65]

/-- Round constants 20 to 39. -/
def shaK1 : List (BitVec 64) :=
  [0x2DE92C6F592B0275, 0x4A7484AA6EA6E483, 0x5CB0A9DCBD41FBD4, 0x76F988DA831153B5,
   0x983E5152EE66DFAB, 0xA831C66D2DB43210, 0xB00327C898FB213F, 0xBF597FC7BEEF0EE4,
   0xC6E00BF33DA88FC2, 0xD5A79147930AA725, 0x06CA6351E003826F, 0x142929670A0E6E70,
   0x27B70A8546D22FFC, 0x2E1B21385C26C926, 0x4D2C6DFC5AC42AED, 0x53380D139D95B3DF,
   0x650A73548BAF63DE, 0x766A0ABB3C77B2A8, 0x81C2C92E47EDAEE6, 0x92722C851482353B]

/-- Round constants 40 to 59. -/
def shaK2 : List (BitVec 64) :=
  [0xA2BFE8A14CF10364, 0xA81A664BBC423001, 0xC24B8B70D0F89791, 0xC76C51A30654BE30,
   0xD192E819D6EF5218, 0xD69906245565A910, 0xF40E35855771202A, 0x106AA07032BBD1B8,
   0x19A4C116B8D2D0C8, 0x1E376C085141AB53, 0x2748774CDF8EEB99, 0x34B0BCB5E19B48A8,
   0x391C0CB3C5C95A63, 0x4ED8AA4AE3418ACB, 0x5B9CCA4F7763E373, 0x682E6FF3D6B2B8A3,
   0x748F82EE5DEFB2FC, 0x78A5636F43172F60, 0x84C87814A1F0AB72, 0x8CC702081A6439EC]

/-- Round constants 60 to 79. -/
def shaK3 : List (BitVec 64) :=
  [0x90BEFFFA23631E28, 0xA4506CEBDE82BDE9, 0xBEF9A3F7B2C67915, 0xC67178F2E372532B,
   0xCA273ECEEA26619C, 0xD186B8C721C0C207, 0xEADA7DD6CDE0EB1E, 0xF57D4F7FEE6ED178,
   0x06F067AA72176FBA, 0x0A637DC5A2C898A6, 0x113F9804BEF90DAE, 0x1B710B35131C471B,
   0x28DB77F523047D84, 0x32CAAB7B40C72493, 0x3C9EBE0A15C9BEBC, 0x431D67C49C100D4C,
   0x4CC5D4BECB3E42B6, 0x597F299CFC657E2A, 0x5FCB6FAB3AD6FAEC, 0x6C44198C4A475817]

/-- The initial hash value of SHA-384. -/
def shaInit : List (BitVec 64) :=
  [0xCBBB9D5DC1059ED8, 0x629A292A367CD507, 0x9159015A3070DD17, 0x152FECD8F70E5939,
   0x67332667FFC00B31, 0x8EB44A8768581511, 0xDB0C2E0D64F98FA7, 0x47B5481DBEFA4FA4]

/-- Rotate right. -/
def rotr (v : BitVec 64) (n : Nat) : BitVec 64 := (v >>> n) ||| (v <<< (64 - n))

/-- The eight working variables. -/
structure Sha where
  a : BitVec 64
  b : BitVec 64
  c : BitVec 64
  d : BitVec 64
  e : BitVec 64
  f : BitVec 64
  g : BitVec 64
  h : BitVec 64
  deriving DecidableEq, Repr

/-- One round. -/
def Sha.round (s : Sha) (k w : BitVec 64) : Sha :=
  let s1 := rotr s.e 14 ^^^ rotr s.e 18 ^^^ rotr s.e 41
  let ch := (s.e &&& s.f) ^^^ (~~~s.e &&& s.g)
  let t1 := s.h + s1 + ch + k + w
  let s0 := rotr s.a 28 ^^^ rotr s.a 34 ^^^ rotr s.a 39
  let mj := (s.a &&& s.b) ^^^ (s.a &&& s.c) ^^^ (s.b &&& s.c)
  ⟨t1 + (s0 + mj), s.a, s.b, s.c, s.d + t1, s.e, s.f, s.g⟩

/-- Add the working variables to the hash value. -/
def Sha.add (s t : Sha) : Sha :=
  ⟨s.a + t.a, s.b + t.b, s.c + t.c, s.d + t.d, s.e + t.e, s.f + t.f, s.g + t.g, s.h + t.h⟩

/-- The rounds of a block; `win` is the window of the last sixteen words of the schedule, the oldest first. -/
def Sha.rounds (s : Sha) : List (BitVec 64) → List (BitVec 64) → Sha
  | [], _ => s
  | k :: ks, win =>
    match win with
    | w0 :: ws =>
      let w1 := ws.getD 0 0
      let w9 := ws.getD 8 0
      let w14 := ws.getD 13 0
      let e0 := rotr w1 1 ^^^ rotr w1 8 ^^^ (w1 >>> 7)
      let e1 := rotr w14 19 ^^^ rotr w14 61 ^^^ (w14 >>> 6)
      (s.round k w0).rounds ks (ws ++ [e1 + w9 + e0 + w0])
    | [] => s

/-- One block of sixteen words. -/
def Sha.block (s : Sha) (ws : List (BitVec 64)) : Sha := s.add (s.rounds (shaK0 ++ shaK1 ++ shaK2 ++ shaK3) ws)

/-- Word i of the padded message: bytes, 0x80, zeros, and the length in bits in the last sixteen bytes. -/
def shaByte (msg : Nat → BitVec 8) (len total i : Nat) : BitVec 8 :=
  if i < len then msg i
  else if i = len then 0x80
  else if total - 16 ≤ i then BitVec.ofNat 8 ((8 * len) / 256 ^ (total - 1 - i))
  else 0

/-- SHA-384 of `len` bytes, as a number whose first byte is the most significant. -/
def sha384 (msg : Nat → BitVec 8) (len : Nat) : Nat :=
  let blocks := (len + 17 + 127) / 128
  let total := 128 * blocks
  let word (i : Nat) : BitVec 64 := (List.range 8).foldl (fun v k => (v <<< 8) ||| (shaByte msg len total (8 * i + k)).zeroExtend 64) 0
  let init : Sha := ⟨shaInit.getD 0 0, shaInit.getD 1 0, shaInit.getD 2 0, shaInit.getD 3 0, shaInit.getD 4 0, shaInit.getD 5 0,
    shaInit.getD 6 0, shaInit.getD 7 0⟩
  let s := (List.range blocks).foldl (fun (s : Sha) b => s.block ((List.range 16).map fun k => word (16 * b + k))) init
  [s.a, s.b, s.c, s.d, s.e, s.f].foldl (fun v w => v * 2 ^ 64 + w.toNat) 0

/-! ### Curve P-384 -/

/-- The field's prime. -/
def p384 : Nat := 2 ^ 384 - 2 ^ 128 - 2 ^ 96 + 2 ^ 32 - 1
/-- The order of the base point. -/
def n384 : Nat := 0xFFFFFFFFFFFFFFFFFFFFFFFFFFFFFFFFFFFFFFFFFFFFFFFFC7634D81F4372DDF581A0DB248B0A77AECEC196ACCC52973
/-- The coefficient b; the coefficient a is -3. -/
def b384 : Nat := 0xB3312FA7E23EE7E4988E056BE3F82D19181D9C6EFE8141120314088F5013875AC656398D8A2ED19D2A85C8EDD3EC2AEF
/-- The base point. -/
def g384 : Nat × Nat :=
  (0xAA87CA22BE8B05378EB1C71EF320AD746E1D3B628BA79B9859F741E082542A385502F25DBF55296C3A545E3872760AB7,
   0x3617DE4A96262C6F5D9E98BF9292DC29F8F41DBD289A147CE9DA3113B5F0B8C00A60B1CE1D7E819D7A431D7C90EA0E5F)

/-- `a` to the power `e` modulo `m`, by squaring over `n` bits of `e`. -/
def powMod (m : Nat) : Nat → Nat → Nat → Nat
  | 0, _, _ => 1 % m
  | n + 1, a, e => (if e % 2 = 1 then a else 1) * powMod m n (a * a % m) (e / 2) % m

/-- The inverse modulo a prime. -/
def invMod (m a : Nat) : Nat := powMod m 384 (a % m) (m - 2)

/-- A point in Jacobian coordinates; Z = 0 is the point at infinity. -/
structure Jac where
  x : Nat
  y : Nat
  z : Nat
  deriving DecidableEq, Repr

/-- Difference in the field. -/
def subP (a b : Nat) : Nat := (a + (p384 - b % p384)) % p384

/-- Twice a point. -/
def Jac.dbl (a : Jac) : Jac :=
  let zz := a.z * a.z % p384
  let yy := a.y * a.y % p384
  let s := 4 * a.x * yy % p384
  let m := 3 * (subP a.x zz) * (a.x + zz) % p384
  let x := subP (m * m) (2 * s)
  ⟨x, subP (m * subP s x) (8 * yy * yy), 2 * a.y * a.z % p384⟩

/-- The sum of two points. -/
def Jac.add (a b : Jac) : Jac :=
  if a.z = 0 then b
  else if b.z = 0 then a
  else
    let za := a.z * a.z % p384
    let zb := b.z * b.z % p384
    let u1 := a.x * zb % p384
    let u2 := b.x * za % p384
    let s1 := a.y * zb % p384 * b.z % p384
    let s2 := b.y * za % p384 * a.z % p384
    let h := subP u2 u1
    let r := subP s2 s1
    if h = 0 then (if r = 0 then a.dbl else ⟨1, 1, 0⟩)
    else
      let hh := h * h % p384
      let hhh := h * hh % p384
      let v := u1 * hh % p384
      let x := subP (r * r) (hhh + 2 * v)
      ⟨x, subP (r * subP v x) (s1 * hhh), h * a.z % p384 * b.z % p384⟩

/-- `k` times a point, over `n` bits of `k`. -/
def Jac.mul : Nat → Nat → Jac → Jac
  | 0, _, _ => ⟨1, 1, 0⟩
  | n + 1, k, a =>
    let r := Jac.mul n (k / 2) a.dbl
    if k % 2 = 1 then r.add a else r

/-- The affine x coordinate. -/
def Jac.affineX (a : Jac) : Nat :=
  let i := invMod p384 a.z
  a.x * (i * i % p384) % p384

/-- A point lies on the curve. -/
def onCurve (x y : Nat) : Bool :=
  decide (x < p384) && decide (y < p384) && y * y % p384 == (subP (x * x % p384 * x) (3 * x) + b384) % p384

/-- The signature (r, s) verifies under the key (x, y) over the hash `e` (FIPS 186-5). -/
def ecdsaVerify (x y e r s : Nat) : Bool :=
  if !onCurve x y || r = 0 || s = 0 || decide (n384 ≤ r) || decide (n384 ≤ s) then false
  else
    let w := invMod n384 s
    let u := (Jac.mul 384 (e * w % n384) ⟨g384.1, g384.2, 1⟩).add (Jac.mul 384 (r * w % n384) ⟨x, y, 1⟩)
    u.z != 0 && u.affineX % n384 == r

end Sys2Proof.Machine
end

