-- ==== Sys2Proof/Machine/Load.lean ====
section
/-! DEFINITION. The requests of agent 63's engines (R8), the image and its authentication (R222 to R224), LOAD with its abort
(R225 to R229), SWITCH (R230), and the ends of Grammar Checks and init programs (R209, R383) as far as one slice goes. -/

namespace Sys2Proof.Machine

/-! ### Requests of agent 63 -/

/-- An engine's request for a line: to its serving slice as requester 25, or completed at once where no slice serves it or it
lies outside the homed range (R20, R35). -/
def State.send63 (s : State) (op : ReqOp) (tag : ATag) (pa : LineAddr) (cd : Option PLine) : State :=
  let r : Req :=
    ⟨.req op, ⟨63, 0, 0, tag, pa, 0⟩, none, s.homeOf pa, (s.detRgn pa).isSome, s.edge, cd, 0, false⟩
  if !s.homed pa || s.inAperture pa then s.engineTakes r (.comp .failed .i 0)
  else match s.servingSlice r.home pa with
  | none => s.engineTakes r (.comp .fenced .i 0)
  | some i => s.sendReq .csr i 25 r

/-- `RdCur` for `n` lines in ascending order from line `k` of `base` on. -/
def State.read63 (s : State) (tag : ATag) (base : LineAddr) (k n : Nat) : State :=
  (List.range n).foldl (fun s j => s.send63 .rdCur tag (base + BitVec.ofNat 46 (k + j)) none) s

/-! ### The image (R222) -/

/-- Line k of what was read; a line that has not come back counts as poisoned. -/
def Reads.line (r : Reads) (k : Nat) : PLine := (tabGet none r.got k).getD ⟨0, true⟩

/-- Byte b of the lines. -/
def Reads.byte (r : Reads) (b : Nat) : BitVec 8 := (r.line (b / 64)).data.extractLsb' (8 * (b % 64)) 8

/-- `n` bytes from byte `b`, little-endian. -/
def Reads.le (r : Reads) (b n : Nat) : Nat := (List.range n).foldl (fun v k => v + (r.byte (b + k)).toNat * 256 ^ k) 0

/-- `n` bytes from byte `b`, big-endian. -/
def Reads.be (r : Reads) (b n : Nat) : Nat := (List.range n).foldl (fun v k => v * 256 + (r.byte (b + k)).toNat) 0

/-- Every line was read with status OK. -/
def Reads.clean (r : Reads) : Bool := (List.range r.count).all fun k => !(r.line k).pois

/-- Lines of an image. -/
def imageLines : Nat := 262

/-- The fuse bundle's key hash as the digest's number: IDF_KEYHASHw holds byte 4w + b in bits [8b+7:8b] (R427). -/
def Fuse.keyDigest (f : Fuse) : Nat :=
  (List.range 48).foldl (fun v k => v * 256 + ((f.keyHash (k / 4)).toNat / 256 ^ (k % 4)) % 256) 0

/-- The cause of R223 for which an image is refused; 0 when it is accepted. -/
def imageCause (r : Reads) (f : Fuse) : BitVec 8 :=
  if !r.clean then 0x06
  else if r.le 0 4 ≠ 0x4D495953 ∨ r.le 4 2 ≠ 1 ∨ r.le 0x0A 2 ≠ 0 ∨ r.le 0x18 40 ≠ 0 ∨ r.le 0xA1 95 ≠ 0 ∨ r.le 0x4160 32 ≠ 0 then
    0x01
  else if r.le 6 2 ≠ 0xC016 ∨ r.byte 8 ≠ 2 ∨ r.byte 9 ≠ 1 then 0x02
  else if f.keyDigest = 0 ∨ sha384 (fun k => r.byte (0x40 + k)) 97 ≠ f.keyDigest then 0x03
  else if r.byte 0x40 ≠ 0x04 ∨
      !ecdsaVerify (r.be 0x41 48) (r.be 0x71 48) (sha384 r.byte 0x4100) (r.be 0x4100 48) (r.be 0x4130 48) then 0x04
  else if r.le 0x0C 4 < f.rollback.toNat then 0x05
  else 0

/-- Clause i of an image. -/
def Reads.clause (r : Reads) (i : Nat) : BitVec 128 :=
  ((r.line ((0x100 + 16 * i) / 64)).data).extractLsb' (8 * ((16 * i) % 64)) 128

/-- An image's clauses are written into a bank. -/
def Ucode.write (u : Ucode) (bank : Bool) (c : Nat → BitVec 128) : Ucode :=
  let put (t : Tab (BitVec 128)) (k : Nat) : Tab (BitVec 128) := tabSet (baseWord k) t ((if bank then 1024 else 0) + k) (c k)
  { u with words := (List.range 1024).foldl put u.words }

/-! ### LOAD (R225 to R229) -/

/-- Change the load's state. -/
def State.modLd (s : State) (f : Load → Load) : State := s.modGlb fun g => { g with ld := f g.ld }

/-- The load's commit, or its refusal: a cause and the end. -/
def State.loadEnds (s : State) (cause : BitVec 8) : State :=
  (s.modLd fun l => { l with st := { l.st.complete with cause := cause }, phase := .idle, left := 0 }).done 0

/-- The line that the committed mapping gives, read from its channel alone; a line that maps to a fenced channel fails (R229). -/
def State.rawLine (s : State) (pa : LineAddr) : PLine :=
  if !s.homed pa || s.inAperture pa || s.chFenced (s.homeOf pa) then ⟨0, true⟩
  else match s.readPlace (s.homeOf pa) (s.claOf pa) with
  | some (n, cla, _) => s.chanLine n cla
  | none => ⟨0, true⟩

/-- First line of the image (GLB_LDADDR). -/
def State.loadBase (s : State) : LineAddr := BitVec.ofNat 46 (s.fld 0 0x208 19 0 * 2 ^ 26 + s.fld 0 0x204 31 6)

/-- A slice that a load drops from the start (R226). One whose inactive bank a takeover fills, that is OFF, or that has no spare enable,
has no bank to load (log entry 26). -/
def State.loadDrops (s : State) (i : Fin 17) : Bool :=
  s.slFenced i || s.evacOrLt i || (match s.flt.run with | some m => m.kind == .takeover && m.dst == i | none => false) || (s.slice i).ctl.resetting || (s.slice i).ctl.testing || (s.slice i).ctl.dom.a == .off ||
    !s.usableSlice i

/-- LOAD. -/
def State.loadCmd (s : State) (seq : BitVec 8) : State :=
  let ld := s.glb.ld
  if !ld.st.accepts seq then s.modLd fun l => { l with st := { l.st with cmdref := true } }
  else
    let s := s.modLd fun l => { l with st := { l.st.accept seq with cmdref := false } }
    if s.glb.stt != .committed && s.glb.stt != .enabled then s.loadEnds 0x08
    else
      let sel : BitVec 17 := BitVec.ofNat 17 (s.fld 0 0x20C 16 0)
      let keep : BitVec 17 := (List.finRange 17).foldl (fun (m : BitVec 17) i =>
        if s.loadDrops i then m &&& ~~~(BitVec.ofNat 17 (2 ^ i.val)) else m) sel
      let s := s.eachSlice fun s i =>
        if sel.getLsbD i.val then
          (s.modSlice i fun x => { x with uc := { x.uc with valid := x.uc.valid &&& ~~~bankBit (!x.uc.active) } })
        else s
      let s := s.eachSlice fun s i => if keep.getLsbD i.val then s.wakeFor i false else s
      let base := s.loadBase
      let got : Tab (Option PLine) :=
        if s.glb.stt == .committed then
          (List.range imageLines).map fun k => (k, some (s.rawLine (base + BitVec.ofNat 46 k)))
        else []
      s.modLd fun l => { l with
        sel := keep, fail := sel, left := 0, codes := [], rd := ⟨base, imageLines, got⟩
        phase := if s.glb.stt == .committed then .reading else .waiting }

/-- A tracker entry has its PC in the inactive bank (SLC_UCSTAT.OLDUSERS). -/
def Slice.oldUsers (x : Slice) : Nat := (x.ents.filter fun e => hasVerb e.2.stat && e.2.pc.getLsbD 10 != x.uc.active).length

/-- The load engine has read every line: the clauses are in the banks, the image is authenticated, and the checks begin. -/
def State.loadReadDone (s : State) : State :=
  let ld := s.glb.ld
  if ld.st.res == .running && ld.phase == .reading && ld.rd.all then
    let s := s.eachSlice fun s i =>
      if ld.sel.getLsbD i.val then
        s.modSlice i fun x => { x with uc := x.uc.write (!x.uc.active) ld.rd.clause }
      else s
    let c := imageCause ld.rd s.glb.fuse
    if c ≠ 0 then s.loadEnds c
    else
      let s := s.eachSlice fun s i =>
        if ld.sel.getLsbD i.val then
          s.modSlice i fun x => { x with uc := { x.uc with due := x.uc.due ||| bankBit (!x.uc.active) } }
        else s
      s.modLd fun l => { l with phase := .checking, left := ld.sel, rollback := BitVec.ofNat 32 (ld.rd.le 0x0C 4) }
  else s

/-- The checks of every selected slice have ended: the load's commit (R225). -/
def State.loadCommit (s : State) : State :=
  let ld := s.glb.ld
  if ld.st.res == .running && ld.phase == .checking && ld.left == 0 && ld.sel != 0 then
    let pass (i : Fin 17) : Bool := ld.sel.getLsbD i.val && tabGet 0 ld.codes i.val == 0
    let s := s.eachSlice fun s i =>
      if pass i then s.modSlice i fun x => { x with uc := { x.uc with valid := x.uc.valid ||| bankBit (!x.uc.active) } } else s
    let ok : BitVec 17 := (List.finRange 17).foldl (fun m i => if pass i then m ||| BitVec.ofNat 17 (2 ^ i.val) else m) 0
    let cause := match ld.codes.find? fun e => e.2 != 0 && ld.sel.getLsbD e.1 with | some e => e.2 | none => 0
    (s.modLd fun l => { l with fail := l.fail &&& ~~~ok, ver := l.rollback }).loadEnds cause
  else s

/-- What a running load does next by itself: it ends when every slice has been dropped, and it reads the image once the users
of the target banks have retired and the slices are awake; it commits once no check is left, also where the last one left was
dropped (R225, R226). -/
def State.loadStep (s : State) : State :=
  let ld := s.glb.ld
  if ld.st.res != .running then s
  else if ld.sel = 0 then s.loadEnds 0x07
  else match ld.phase with
  | .waiting =>
    let ready := (List.finRange 17).all fun i =>
      !ld.sel.getLsbD i.val || ((s.slice i).oldUsers == 0 && !(s.slice i).asleep)
    if ready && s.glb.stt == .enabled then
      (s.modLd fun l => { l with phase := .reading }).read63 (tagOf false ld.st.rseq) ld.rd.base 0 imageLines
    else s
  | .checking => s.loadCommit
  | _ => s

/-- An abort of a load (R227): every selected bank stays not VALID. One that is not accepted sets CMDREF (R377). -/
def State.loadAbort (s : State) (seq : BitVec 8) : State :=
  if seq = s.glb.ld.st.rseq then s.modLd fun l => { l with st := { l.st with cmdref := true } }
  else
  let (st, ends) := s.glb.ld.st.tryAbort seq true
  let s := s.modLd fun l => { l with st := st }
  if ends then
    let sel := s.glb.ld.sel
    let s := s.eachSlice fun s i =>
      if sel.getLsbD i.val then s.modSlice i fun x => { x with uc := { x.uc with due := 0 } } else s
    (s.modLd fun l => { l with phase := .idle, left := 0 }).done 0
  else s

/-! ### SWITCH (R230) -/

/-- Change the status of SLC_UCBANK. -/
def State.modUc (s : State) (i : Fin 17) (f : Ucode → Ucode) : State := s.modSlice i fun x => { x with uc := f x.uc }

/-- SWITCH: the inactive bank becomes active, or the command is refused. -/
def State.switchCmd (s : State) (i : Fin 17) (seq : BitVec 8) : State :=
  let u := (s.slice i).uc
  if !u.st.accepts seq then s
  else if (u.valid &&& bankBit (!u.active)) = 0 ∨ s.evacOrLt i then
    (s.modUc i fun u => { u with st := u.st.refuse seq 0 }).done (slcPage i)
  else (s.modUc i fun u => { u with active := !u.active, st := (u.st.accept seq).complete }).done (slcPage i)

/-! ### Init programs (R383) -/

/-- An init program has written every word of an array. -/
def Slice.initArray (x : Slice) (arr : Nat) : Slice :=
  let a := x.ar
  let a := { a with
    init := a.init ||| BitVec.ofNat 10 (2 ^ arr)
    inj := a.inj.filter fun e => e.1.val != arr
    sf := if arr = 0 then [] else a.sf
    repl := if arr = 1 then [] else a.repl
    ledger := if arr = 3 then [] else a.ledger
    desc := if arr = 4 then [] else a.desc
    msc := if arr = 5 ∨ arr = 6 then [] else a.msc
    tagLost := if arr = 5 ∨ arr = 6 then [] else a.tagLost
    mscPtr := if arr = 5 then [] else a.mscPtr }
  { x with
    ar := a
    trk := if arr = 2 then [] else x.trk
    uc := { x.uc with words := x.uc.words.filter fun e => !((arr = 7 && decide (e.1 < 1024)) || (arr = 8 && decide (1024 ≤ e.1))) }
    trace := if arr = 9 then ⟨[], 0, false, false, none, 0⟩ else x.trace }

/-- Both banks hold the base grammar and bank 0 is active. The active bank is VALID throughout, the other once checked (R209; log
entry 67). -/
def Ucode.start : Ucode := { Ucode.zero with valid := bankBit false }

/-- Both banks hold the base grammar, and their checks are due (R228, R209). -/
def Ucode.base (u : Ucode) : Ucode := { Ucode.start with st := u.st, due := 0b11 }

end Sys2Proof.Machine
end

