-- ==== Sys2Proof/Machine/Partition.lean ====
section
/-! DEFINITION. Partitions (R334 to R346): FREEZE, THAW, RESET with their drains and aborts, and the image of SAVE and RESTORE. -/

namespace Sys2Proof.Machine

/-- Change PAR_STAT. -/
def State.modParCmd (s : State) (f : CmdSt → CmdSt) : State := s.modPar fun x => { x with cmd := f x.cmd }

/-- A command that is not accepted sets CMDREF (R339, R377). -/
def State.parIgnored (s : State) : State := s.modParCmd fun c => { c with cmdref := true }

/-- A partition command is refused (R339, R343, R344). -/
def State.parRefuse (s : State) (seq : BitVec 8) (cause : BitVec 8) : State :=
  (s.modParCmd fun c => { c.refuse seq cause with cmdref := false }).done 60

/-- A partition command is accepted. -/
def State.parAccept (s : State) (seq : BitVec 8) (q : PartId) : State :=
  s.modPar fun x => { x with cmd := { x.cmd.accept seq with cmdref := false }, running := some q }

/-- A partition command completes. -/
def State.parDone (s : State) : State :=
  (s.modPar fun x => { x with cmd := x.cmd.complete, running := none, job := .none }).doneUnless 60 s.par.cmd

/-- A running RESTORE is refused by its check phase (R344). -/
def State.parFails (s : State) (cause : BitVec 8) : State :=
  (s.modPar fun x => { x with
    cmd := { x.cmd.complete with refused := true, cause := cause }, running := none, job := .none }).done 60

/-! ### Stopping and starting admission (R340 to R342) -/

/-- Requests of a partition that wait at admission are held (R340). -/
def State.holdPart (s : State) (q : PartId) : State :=
  s.eachPort fun s p => s.modPort p fun x =>
    { x with held := x.held.map fun h => if h.why = .admission ∧ h.a.part = q then { h with why := .partition } else h }

/-- A partition's reservations are cleared (R156). -/
def State.clearResv (s : State) (q : PartId) : State :=
  s.eachSlice fun s i => s.modSlice i fun x => { x with resv := x.resv.filter fun r => r.part != q }

/-- No entry and no queued request that `p` picks is left in a slice. -/
def Slice.without (x : Slice) (p : Req → Bool) : Bool :=
  (x.ents.all fun e => !p e.2.r) && (x.wakeHold.all fun e => !p e.2) &&
    x.ingress.all fun g => g.2.direct.all (fun e => !p e.1) && g.2.fwd.all fun e => !p e.1

/-- The partition's requests have drained (R341); with `old` those of an old generation alone (R342). -/
def State.partDrained (s : State) (q : PartId) (old : Bool) : Bool :=
  let p (r : Req) : Bool := r.port.isSome && r.a.part == q && (!old || r.a.gen != (s.part q).gen)
  (List.finRange 17).all (fun i => (s.slice i).without p) && s.netReqs.all fun e => !p e.2.2

/-- FREEZE (R341). -/
def State.freezeCmd (s : State) (seq : BitVec 8) (q : PartId) : State :=
  if !s.par.cmd.accepts seq then s.parIgnored
  else if (s.part q).st ≠ .run then s.parRefuse seq 0x01
  else (((s.parAccept seq q).modPart q fun x => { x with st := .freezing }).clearResv q).holdPart q

/-- THAW (R340): held requests go on in their arrival order. -/
def State.thawCmd (s : State) (seq : BitVec 8) (q : PartId) : State :=
  if !s.par.cmd.accepts seq then s.parIgnored
  else if (s.part q).st ≠ .frozen then s.parRefuse seq 0x01
  else ((s.parAccept seq q).modPart q fun x => { x with st := .run }).parDone

/-- The drain of a FREEZE ends. -/
def State.freezeDrained (s : State) (q : PartId) : State :=
  if (s.part q).st = .freezing ∧ s.partDrained q false then
    (s.modPart q fun x => { x with st := .frozen }).parDone
  else s

/-- The requests of ended generations leave every ingress queue, and what a sleeping slice's interface holds (R306): they end, and bind
no entry. -/
def State.dropOldGen (s : State) : State :=
  s.eachSlice fun s i =>
    let s := s.leaveHold i (fun r => s.oldGen r) State.endUnbound
    if (s.slice i).ingress.isEmpty then s
    else (List.range 26).foldl (fun s rq => s.leaveIngress i rq (fun r => s.oldGen r) State.endUnbound) s

/-- RESET (R342 step 1). -/
def State.partResetCmd (s : State) (seq : BitVec 8) (q : PartId) : State :=
  if !s.par.cmd.accepts seq then s.parIgnored
  else
    let st := (s.part q).st
    if st ≠ .run ∧ st ≠ .frozen then s.parRefuse seq 0x01
    else ((((s.parAccept seq q).modPart q fun x =>
      { x with st := .resetting, gen := x.gen + 1, wasFrozen := decide (st = .frozen) }).clearResv q).holdPart q).dropOldGen

/-- The credits of a partition are void on every port and issued again (R342 step 3). -/
def State.reissuePart (s : State) (q : PartId) : State :=
  s.eachPort fun s p =>
    (s.modPort p fun x =>
      let x := (x.setR q 0).setD q 0
      { x with cred := { x.cred with
          reqDue := x.cred.reqDue.filter (·.1 ≠ q), datDue := x.cred.datDue.filter (·.1 ≠ q) } }).issue p q

/-- The drain of a RESET ends (R342 steps 2 and 3). -/
def State.partResetDrained (s : State) (q : PartId) : State :=
  if (s.part q).st = .resetting ∧ s.partDrained q true then
    ((s.modPart q fun x => { x with st := if x.wasFrozen then .frozen else .run }).reissuePart q).parDone
  else s

/-! ### Members and places -/

/-- Members of a partition in ascending agent ID (R335). -/
def State.members (s : State) (q : PartId) : List Agent := allAgents.filter fun a => s.member a q

/-- The slice that holds the ledger and the queue descriptors of a home (R370). -/
def State.svcHome (s : State) (h : Fin 16) : Option (Fin 17) :=
  match s.retainedOf h with
  | some i => some i
  | none => if s.degraded h then none else s.serving h

/-- A ring entry as its home's buffer, its channel's write queue or the DRAM holds it. -/
def State.ringLine (s : State) (i : Fin 17) (h : Fin 16) (cla : Nat) : PLine :=
  match (((s.slice i).wmbOf (.ring h cla) h).getLast?).map WmbEnt.l with
  | some l => l
  | none =>
    match s.readPlace h cla with
    | none => ⟨0, true⟩
    | some (n, c, _) => s.chanLine n c

/-! ### The image of a partition (R343) -/

/-- Lock records of a partition: 64 bits each, by home, set and way. -/
def State.lockRecs (s : State) (q : PartId) : List Nat :=
  let ms := s.members q
  (List.finRange 16).flatMap fun h =>
    match s.svcHome h with
    | none => []
    | some i =>
      (s.slice i).ar.ledger.filterMap fun e =>
        match e.2 with
        | none => none
        | some l =>
          if l.part = q then
            let (st, why) := s.lockReads l
            let here := ms.contains l.owner
            let held := here && st == .held
            let why : BitVec 2 := if here then why else 0b01
            let rank := (ms.filter fun a => decide (a.toNat < l.owner.toNat)).length % 64
            (s.lineOfCla h (l.tag.toNat * 64 + e.1 / 16)).map fun pa =>
              pa.toNat + (if held then 1 else 2) * 2 ^ 46 + rank * 2 ^ 48 + why.toNat * 2 ^ 54
          else none

/-- Records, eight to a line. -/
def packRecs (rs : List Nat) : List PLine :=
  (List.range ((rs.length + 7) / 8)).map fun j =>
    ⟨BitVec.ofNat 512 ((List.range 8).foldl (fun v k => v + rs.getD (8 * j + k) 0 * 2 ^ (64 * k)) 0), false⟩

/-- The lines of a queue: its queue line, and its entries from HEAD to TAIL. -/
def State.queueLines (s : State) (i : Fin 17) (h : Fin 16) (d : QDesc) : List PLine :=
  ⟨BitVec.ofNat 512 ((s.handleLine d.handle).toNat + d.count * 2 ^ 64 + d.wmark.toNat * 2 ^ 96), false⟩ ::
    (List.range d.count).map fun k => s.ringLine i h (d.entry (d.head.toNat + k))

/-- The valid queues of a partition by home and index. -/
def State.queuesOf (s : State) (q : PartId) : List (Fin 17 × Fin 16 × QDesc) :=
  (List.finRange 16).flatMap fun h =>
    match s.svcHome h with
    | none => []
    | some i => (s.slice i).ar.desc.filterMap fun e =>
        let d := QDesc.dec e.2
        if d.v && d.part == q then some (i, h, d) else none

/-- The lines of a partition's image after its header. -/
def State.imageBody (s : State) (q : PartId) : List PLine :=
  packRecs (s.lockRecs q) ++ (s.queuesOf q).flatMap fun e => s.queueLines e.1 e.2.1 e.2.2

/-- The header line: MAGIC, FMT, PART, GEN, MEMBERS, NLOCK, NQUEUE, NLINES, CRC. -/
def State.imageHeader (s : State) (q : PartId) (body : List PLine) (magic : Nat) : Line :=
  let crc := (crcLines (body.map PLine.data)).toNat
  BitVec.ofNat 512 (magic + 2 ^ 32 + q.toNat * 2 ^ 48 + (s.part q).gen.toNat * 2 ^ 56 + (s.members q).length * 2 ^ 64 +
    (s.lockRecs q).length * 2 ^ 96 + (s.queuesOf q).length * 2 ^ 128 + (body.length + 1) * 2 ^ 160 + crc * 2 ^ 480)

/-- MAGIC. -/
def saveMagic : Nat := 0x50564153

/-- First line of the image (PAR_SAVE). -/
def State.saveBase (s : State) : LineAddr := BitVec.ofNat 46 (s.fld 60 0x30C 19 0 * 2 ^ 26 + s.fld 60 0x308 31 6)

/-- Lines that an image may have (PAR_SAVELEN). -/
def State.saveLen (s : State) : Nat := s.fld 60 0x310 23 0

/-- A SAVE writes line k of its image, and the others after it (R343): each write begins once the one before has completed. -/
def State.saveLine (s : State) (base : LineAddr) (k : Nat) (l : PLine) (rest : List PLine) (header : Line) : State :=
  (s.modPar fun x => { x with job := .save base k rest header false false }).send63 .wrFull (tagOf true s.par.cmd.rseq)
    (base + BitVec.ofNat 46 k) (some l)

/-- The ledgers and the descriptors are read, with what their check bits find (R312, R321). -/
def State.readEveryService (s : State) : State :=
  s.eachSlice fun s i => if (s.slice i).ar.inj.isEmpty then s else s.readServices i

/-- SAVE (R343): the header is written with MAGIC zero, then the lines after it; the true header follows them. -/
def State.saveCmd (s : State) (seq : BitVec 8) (q : PartId) : State :=
  if !s.par.cmd.accepts seq then s.parIgnored
  else if (s.part q).st ≠ .frozen then s.parRefuse seq 0x01
  else
    let s := s.readEveryService
    let body := s.imageBody q
    if s.saveLen < body.length + 1 then s.parRefuse seq 0x02
    else if s.flt.run.isSome then s.parRefuse seq 0x08
    else
      (s.parAccept seq q).saveLine s.saveBase 0 ⟨s.imageHeader q body 0, false⟩ body (s.imageHeader q body saveMagic)

/-! ### RESTORE (R344) -/

/-- A queue of an image: its handle line, entries, WMARK. -/
structure SavedQueue where
  pa : LineAddr
  entries : List PLine
  wmark : BitVec 16
  deriving DecidableEq, Repr

/-- The queues that the lines after the lock records spell, `n` of them; none when the lines do not add up. -/
def parseQueues : Nat → List PLine → Option (List SavedQueue)
  | 0, [] => some []
  | 0, _ => none
  | _ + 1, [] => none
  | n + 1, l :: ls =>
    let c := (l.data.extractLsb' 64 32).toNat
    if ls.length < c then none
    else (parseQueues n (ls.drop c)).map fun qs =>
      ⟨l.data.extractLsb' 0 46, ls.take c, l.data.extractLsb' 96 16⟩ :: qs

/-- Header fields. -/
def hdrNum (h : Line) (byte len : Nat) : Nat := (h.toNat / 2 ^ (8 * byte)) % 2 ^ (8 * len)

/-- What an image after its header says: lock records and queues. -/
def parseBody (h : Line) (ls : List PLine) : Option (List (BitVec 64) × List SavedQueue) :=
  let nl := hdrNum h 12 4
  let k := (nl + 7) / 8
  if ls.length < k then none
  else
    let recs := (List.range nl).map fun j => (ls.getD (j / 8) ⟨0, true⟩).data.extractLsb' (64 * (j % 8)) 64
    (parseQueues (hdrNum h 16 4) (ls.drop k)).map fun qs => (recs, qs)

/-- Line of a lock record. -/
def recLine (r : BitVec 64) : LineAddr := r.extractLsb' 0 46

/-- The ledger that a lock line of an image goes to: its slice and its set (R312). -/
def State.lockPlace (s : State) (pa : LineAddr) : Option (Fin 17 × Nat) :=
  if s.homed pa && !s.degraded (s.homeOf pa) then (s.serving (s.homeOf pa)).map fun i => (i, ledgerSet (s.claOf pa)) else none

/-- The lock records fit (cause 0x05): no line has an entry, every set has room, no quota is exceeded. -/
def State.locksFit (s : State) (q : PartId) (rs : List (BitVec 64)) : Bool :=
  let places := rs.map fun r => s.lockPlace (recLine r)
  (rs.all fun r => match s.lockPlace (recLine r) with
    | none => false
    | some (i, _) => ((s.slice i).findLock (s.claOf (recLine r))).isNone) &&
  places.all fun p => match p with
    | none => false
    | some (i, k) =>
      let x := s.slice i
      let free := if x.ar.ledgerBad.contains (BitVec.ofNat 6 k) then 0
        else ((List.range 16).filter fun w => (x.lock k w).isNone).length
      decide ((places.filter fun p' => p' == some (i, k)).length ≤ free) &&
        decide ((places.filter fun p' => p'.map Prod.fst == some i).length + x.locksOf q ≤ s.fld 60 (0x200 + 4 * q.toNat) 26 16)

/-- The queues fit (cause 0x06): a valid, empty descriptor of the partition at the handle's home, with a ring large enough. -/
def State.queuesFit (s : State) (q : PartId) (qs : List SavedQueue) : Bool :=
  qs.all fun e =>
    s.inQwin e.pa && !s.degraded (s.homeOf e.pa) &&
      (match s.serving (s.homeOf e.pa) with
       | none => false
       | some i => match (s.slice i).findDesc (handleOf e.pa) with
         | none => false
         | some (_, d) => d.part == q && decide (d.count = 0) && decide (e.entries.length ≤ d.ring) &&
             decide (e.wmark.toNat + 1 ≤ d.ring))

/-- Send a record of agent 63 to the slice that serves its line. -/
def State.sendRec (s : State) (k : Kind) (pa : LineAddr) : State :=
  let r : Req :=
    ⟨k, ⟨63, 0, 0, 0, pa, 0⟩, none, s.homeOf pa, (s.detRgn pa).isSome, s.edge, none, 0, false⟩
  match s.servingSlice r.home pa with
  | some i => s.sendReq .csr i 25 r
  | none => s.modPar (·.recDone true)

/-- The apply phase begins: one transaction of agent 63 for each record (R344). -/
def State.restoreApply (s : State) (q : PartId) (rs : List (BitVec 64)) (qs : List SavedQueue) : State :=
  let ms := s.members q
  let s := s.modPar fun x => { x with job := .apply (rs.length + qs.length), skip := 0 }
  let s := rs.foldl (fun s r =>
    let rank : BitVec 6 := r.extractLsb' 48 6
    let ow := (ms[rank.toNat]?).getD (Config.strayOwner rank)
    s.sendRec (.lockRec (r.extractLsb' 46 2 == 1) (r.extractLsb' 54 2) ow q) (recLine r)) s
  qs.foldl (fun s e => s.sendRec (.queueRec q e.entries e.wmark) e.pa) s

/-- RESTORE (R344): the header line is read first. -/
def State.restoreCmd (s : State) (seq : BitVec 8) (q : PartId) : State :=
  if !s.par.cmd.accepts seq then s.parIgnored
  else if (s.part q).st ≠ .frozen then s.parRefuse seq 0x01
  else if s.flt.run.isSome then s.parRefuse seq 0x08
  else
    let base := s.saveBase
    ((s.parAccept seq q).modPar fun x => { x with job := .checkHeader ⟨base, 1, []⟩ }).read63 (tagOf true seq) base 0 1

/-- Lines 1 to NLINES - 1 of an image. -/
def Reads.rest (r : Reads) : List PLine := (List.range (r.count - 1)).map fun k => r.line (k + 1)

/-- The checks of R344 over the whole image. -/
def State.restoreCheck (s : State) (q : PartId) (r : Reads) : State :=
  let h := (r.line 0).data
  let ls := r.rest
  let s := s.readEveryService
  if !r.clean then s.parFails 0x07
  else if crcLines (ls.map PLine.data) ≠ BitVec.ofNat 32 (hdrNum h 60 4) then s.parFails 0x03
  else match parseBody h ls with
  | none => s.parFails 0x03
  | some (rs, qs) =>
    if hdrNum h 8 1 ≠ (s.members q).length then s.parFails 0x04
    else if !s.locksFit q rs then s.parFails 0x05
    else if !s.queuesFit q qs then s.parFails 0x06
    else s.restoreApply q rs qs

/-- A partition command ends aborted (R345). -/
def State.parStops (s : State) : State :=
  (s.modPar fun x => { x with cmd := x.cmd.abort, running := none, job := .none }).done 60

/-- What a running SAVE or RESTORE does next by itself. -/
def State.parStep (s : State) : State :=
  let q := s.par.running.getD 0
  match s.par.job with
  | .none => s
  | .save base k rest h wrote stop =>
    if !wrote then s
    else if stop then s.parStops
    else match rest with
      | l :: ls => s.saveLine base (k + 1) l ls h
      | [] => (s.modPar fun x => { x with job := .saveHeader false }).send63 .wrFull (tagOf true s.par.cmd.rseq) base (some ⟨h, false⟩)
  | .saveHeader d => if d then s.parDone else s
  | .checkHeader r =>
    if r.all then
      let l := r.line 0
      let n := hdrNum l.data 20 4
      if l.pois then s.parFails 0x07
      else if hdrNum l.data 0 4 ≠ saveMagic ∨ hdrNum l.data 4 2 ≠ 1 ∨ n = 0 ∨ s.saveLen < n then s.parFails 0x03
      else
        (s.modPar fun x => { x with job := .checkBody { r with count := n } }).read63 (tagOf true s.par.cmd.rseq) r.base 1 (n - 1)
    else s
  | .checkBody r => if r.all then s.restoreCheck q r else s
  | .apply n => if n = 0 then s.parDone else s

/-! ### Aborts (R345) -/

/-- The running command has an abort point still to come. -/
def State.parAbortable (s : State) : Bool :=
  match s.par.job with
  | .save _ _ _ _ _ stop => !stop
  | .checkHeader _ => true
  | .checkBody _ => true
  | .saveHeader _ => false
  | .apply _ => false
  | .none => match s.par.running with
    | some q => (s.part q).st == .freezing
    | none => false

/-- An abort of a partition command; one that is not accepted sets CMDREF (R377). An aborted SAVE ends once the line that it is writing
has been written: the region holds MAGIC zero then. -/
def State.parAbort (s : State) (seq : BitVec 8) : State :=
  let (c, ends) := s.par.cmd.tryAbort seq s.parAbortable
  if s.par.cmd.ignores seq s.parAbortable then s.parIgnored
  else if !ends then s.modPar fun x => { x with cmd := c }
  else match s.par.job with
    | .save base k rest h wrote _ => s.modPar fun x => { x with job := .save base k rest h wrote true }
    | _ =>
      (match s.par.running with
       | some q => if (s.part q).st = PState.freezing then s.modPart q fun x => { x with st := .run } else s
       | none => s).parStops

end Sys2Proof.Machine
end

