-- ==== Sys2Proof/Machine/ConfigCrc.lean ====
section
/-! DEFINITION. The configuration CRC of a page (R421 to R423), and the checks that a COMMIT makes of the configuration (R22, R170,
R261, R337, R465). -/

namespace Sys2Proof.Machine

/-! ### The CRC of a page -/

/-- A register that the CRC of a page does not cover: the common block, the selectors, operands of commands, and what a command
loads (R421). -/
def crcExempt (n o : Nat) : Bool :=
  decide (0x3C0 ≤ o) || match pageOf n with
  | .glb => o == 0x204 || o == 0x208 || o == 0x20C
  | .dch _ => o == 0x16C
  | .flt => o == 0x140 || o == 0x184
  | .par => o == 0x308 || o == 0x30C || o == 0x310 || o == 0x314
  | .svc => decide (0x120 ≤ o) && decide (o < 0x130)
  | _ => false

/-- The bits of a word that the CRC covers: its ST and LV fields. -/
def crcMask (n w : Nat) : BitVec 32 :=
  if crcExempt n (4 * w) then 0 else kindMask (regFields n w) fun k => k == .st || k == .lv

/-- The CRC of a page as its fields stand. -/
def State.pageCrc (s : State) (n : Nat) : BitVec 32 :=
  crcWords ((List.range 256).map fun w => s.reg n w &&& crcMask n w)

/-- The running CRC as the latest pass gave it. -/
def State.rcrc (s : State) (n : Nat) : BitVec 32 := tabGet 0 s.csr.rcrc n
/-- Set the running CRC of a page. -/
def State.setRcrc (s : State) (n : Nat) (v : BitVec 32) : State := s.modCsr fun c => { c with rcrc := tabSet 0 c.rcrc n v }

/-- The fault source of a page (R423). -/
def crcSource (n : Nat) : Nat :=
  match pageOf n with
  | .slc i => i
  | .prt p => 17 + p
  | .dch k => 41 + k
  | _ => srcNet

/-- CRCREF is loaded from CRC on every page, and comparison starts (R381, R422). -/
def State.takeCrcRefs (s : State) : State :=
  (List.range 64).foldl (fun s n => (s.setReg n 0xFF (s.rcrc n)).setCrcv n true true) s

/-- The word belongs to slice 16 while that is unpowered for want of spare enable (R418). -/
def State.dark (s : State) (k : Nat) : Bool := k == 16 && s.glb.fuse.done && !s.glb.fuse.spare

/-- The page's island computes: it is neither asleep nor unpowered. -/
def State.pageAwake (s : State) (n : Nat) : Bool :=
  match pageOf n with
  | .slc i => (s.slice (Fin.ofNat 17 i)).ctl.dom.a == .on && !s.dark i
  | _ => true

/-- The passes of every page, which run back to back, have given its CRC (R422). -/
def State.crcPassed (s : State) : State :=
  (List.range 64).foldl (fun s n => if s.pageAwake n then s.setRcrc n (s.pageCrc n) else s) s

/-! ### The checks of a COMMIT -/

/-- Rows of a matrix over GF(2) are linearly independent of one another and of the span `sp`. -/
def gf2Indep : List Nat → List Nat → Bool
  | [], _ => true
  | r :: rs, sp => !sp.contains r && gf2Indep rs (sp ++ sp.map (Nat.xor r))

/-- The bits of `v` at the positions `ns`. -/
def pickBits (ns : List Nat) (v : BitVec 32) : Nat :=
  ns.foldr (fun n r => 2 * r + (v.getLsbD n).toNat) 0

/-- No element comes twice. -/
def distinct {α : Type} [BEq α] : List α → Bool
  | [] => true
  | a :: as => !as.contains a && distinct as

/-- No two ranges meet. -/
def apart : List (Nat × Nat) → Bool
  | [] => true
  | a :: as => !as.any (rangesMeet a) && apart as

/-- GLB_DETCFG.ENABLE. -/
def State.detEn (s : State) : Bool := s.flag 0 0x170 31

/-- The check of the hash (R22). -/
def State.hashOk (s : State) : Bool :=
  gf2Indep ((List.range 4).map fun i => (s.hashMask i).toNat) [0] &&
    (!s.detEn ||
      (s.detMask 0 != 0 && s.detMask 1 != 0 && s.detMask 0 != s.detMask 1 &&
        (List.range 4).all fun d => s.flag 0 0x170 (s.detMap d).val))

/-- The enabled regions. -/
def State.regions (s : State) : List Nat := (List.range 8).filter s.rgnOn

/-- The check of the DET settings (R170). -/
def State.detOk (s : State) : Bool :=
  !s.detEn ||
    (let n := ((List.range 16).filter fun h => s.flag 0 0x170 h).length
     s.glb.fuse.detPermit && decide (1 ≤ n) && decide (n ≤ 4) &&
      (s.regions.all fun r =>
        decide (s.rgnBase r ≤ s.rgnLimit r) && decide (s.fld 0 0x120 21 0 * 2 ^ 9 ≤ s.rgnBase r) &&
          decide (s.rgnLimit r < (s.fld 0 0x124 21 0 + 1) * 2 ^ 9)) &&
      apart (s.regions.map fun r => (s.rgnBase r, s.rgnLimit r + 1 - s.rgnBase r)) &&
      (s.regions.all fun r =>
        let as := s.rgnAgents r
        !as.isEmpty && distinct as && as.all fun a =>
          match portOf a with
          | some p => s.detClass p a
          | none => false) &&
      (List.finRange 17).all fun i => decide (s.fld 0 0x174 15 0 + 100 ≤ s.fld (slcPage i) 0x244 16 0))

/-- The minimum of a timing field at a speed (R261; log entry 8). -/
def timMin (speed : Nat) (f : Fin 12) : Nat :=
  if speed = 4 then (Config.jedecMin8000 f).val else (Config.jedecMin speed f).val

/-- The check of one channel (R261). -/
def State.chanOk (s : State) (n : Fin 16) : Bool :=
  let pg := dchPage n
  let ws := s.detWindows n
  decide (s.fld pg 0x100 11 10 ≤ 1) && decide (s.fld pg 0x100 9 8 ≤ 2) && decide (s.fld pg 0x100 5 4 ≤ 2) &&
    decide (s.fld pg 0x100 2 0 ≤ 4) && (s.fld pg 0x100 11 10 == 0 || decide (1 ≤ s.fld pg 0x100 9 8)) &&
    ((List.finRange 12).all fun f => decide (timMin (s.fld pg 0x100 2 0) f ≤ s.tim n (f.val / 4) (f.val % 4))) &&
    s.mirrored n == s.mirrored (buddy n) && (!s.mirrored n || s.reg pg 0x40 == s.reg (dchPage (buddy n)) 0x40) &&
    decide (s.layoutTop ≤ s.usable n) &&
    (ws.all fun w => decide (s.layoutTop ≤ w.1) && decide (w.1 + w.2 ≤ s.usable n)) && apart ws &&
    s.regions.all fun r => s.flag pg (0x130 + 4 * r) 31 == ((List.range 4).any fun d => s.detMap d == n)

/-- The check of the channel layout (R261). -/
def State.layoutOk (s : State) : Bool :=
  let ds := [s.fld 0 0x220 24 20, s.fld 0 0x220 29 25]
  distinct s.chDrop && (s.chDrop.all fun k => decide (k < 24)) &&
    gf2Indep ((List.range 4).map fun i => pickBits s.chDrop (s.hashMask i)) [0] &&
    (!s.detEn ||
      (distinct ds && (ds.all fun k => decide (k < 15)) &&
        gf2Indep ((List.range 2).map fun j => pickBits ds (s.detMask j)) [0])) &&
    (List.finRange 16).all s.chanOk

/-- The check of the queue window (SVC_QWIN), while it is enabled. -/
def State.qwinOk (s : State) : Bool :=
  !s.flag 61 0x100 0 ||
    (let b := s.qwinBase
     s.homed (BitVec.ofNat 46 b) && s.homed (BitVec.ofNat 46 (b + 8191)) &&
      s.regions.all fun r => !(decide (s.rgnBase r ≤ b / 2 ^ 15) && decide (b / 2 ^ 15 ≤ s.rgnLimit r)))

/-- What the sum of HCRED may not exceed (R337): the smallest of the homes' bounds. -/
def State.hcredBound (s : State) : Nat :=
  (List.finRange 16).foldl (fun m h =>
    match s.serving h with
    | some i => min m (8192 - s.bires i - if s.detEn && s.flag 0 0x170 h.val then 512 else 0)
    | none => m) 8192

/-- The sum of HCRED, and of DHCRED, over all partitions. -/
def State.credSum (s : State) (det : Bool) : Nat :=
  (List.range 64).foldl (fun n q => n + if det then s.fld 60 (0x100 + 4 * q) 25 16 else s.fld 60 (0x100 + 4 * q) 13 0) 0

/-- The check of the home credits (R337). -/
def State.creditsOk (s : State) : Bool := decide (s.credSum false ≤ s.hcredBound) && decide (s.credSum true ≤ 512)

/-- The checks that fail, by their codes in ascending order (R465). -/
def State.commitFails (s : State) : List (BitVec 8) :=
  (if s.hashOk then [] else [0x01]) ++ (if s.detOk then [] else [0x02]) ++ (if s.layoutOk then [] else [0x03]) ++
    (if s.qwinOk then [] else [0x04]) ++ if s.creditsOk then [] else [0x05]

end Sys2Proof.Machine
end

