-- ==== Sys2Proof/Machine/Startup.lean ====
section
/-! DEFINITION. Start-up up to ENABLED and back (R381 to R390, R465): the fuse step, init, training and base grammar, COMMIT, ENABLE,
DISABLE, and BROADCAST. -/

namespace Sys2Proof.Machine

/-! ### Step 1: the fuse bundle (R381, R382, R445) -/

/-- Slice 16 stays unpowered and uninitialised without spare enable (R381). -/
def State.dropSpare (s : State) : State :=
  if s.glb.fuse.spare then s
  else s.modSlice 16 fun x => { x.wiped with
    uc := Ucode.zero
    ctl := { x.ctl with dom := ⟨.off, .off, .off⟩, waking := false, fromOff := false } }

/-- The bundle is latched: a failed check is an UNCOR event of the network island, init and training begin (R381, R382). -/
def State.fuseDone (s : State) : State :=
  let full := !s.glb.wasWarm
  let s := (s.modGlb fun g => { g with stt := .init }).dropSpare
  let s := if s.glb.fuse.ok then s else s.uncorEv srcNet
  s.eachChan fun s n => s.trainStart n full

/-- The macro gives a word of the bundle, or does not give it in time. -/
def State.fuseWord (s : State) (w : BitVec 32) (late : Bool) : State :=
  if s.glb.stt = .fuse && !s.glb.fuse.done && (!late || s.reached (s.glb.fuse.req + 50)) then
    let late := late || s.reached (s.glb.fuse.req + 51)
    let s := s.modGlb fun g => { g with fuse := g.fuse.take (if late then 0 else w) late s.edge }
    if s.glb.fuse.done then s.fuseDone else s
  else s

/-! ### Steps 2 to 4 (R381, R383, R209) -/

/-- Every usable slice. -/
def State.slicesAll (s : State) (p : Slice → Bool) : Bool := (List.finRange 17).all fun i => !s.usableSlice i || p (s.slice i)

/-- Start-up goes on to its next step by itself: when every array is initialised, every channel trained or failed, every check
done. -/
def State.startStep (s : State) : State :=
  match s.glb.stt with
  | .init => if s.slicesAll fun x => x.ar.init == 0x3FF then s.modGlb fun g => { g with stt := .train } else s
  | .train =>
    if (List.finRange 16).all fun n => (s.chan n).trn.phase == .idle && (s.chan n).trn.valid then
      (s.modGlb fun g => { g with stt := .load }).eachSlice fun s i =>
        if s.usableSlice i then s.modUc i Ucode.base else s
    else s
  | .load => if s.slicesAll fun x => x.uc.due == 0 then s.crcPassed.modGlb fun g => { g with stt := .ready } else s
  | _ => s

/-! ### GLB_CMD -/

/-- Change the status of GLB_CMD. -/
def State.modGc (s : State) (f : CmdSt → CmdSt) : State := s.modGlb fun g => { g with cmd := f g.cmd }

/-- A command of GLB_CMD is not accepted (R377). -/
def State.gcIgnored (s : State) : State := s.modGc fun c => { c with cmdref := true }

/-- A command of GLB_CMD is refused. -/
def State.gcRefuse (s : State) (seq : BitVec 8) (cause : BitVec 8) : State :=
  (s.modGc fun c => { c.refuse seq cause with cmdref := false }).done 0

/-- A command of GLB_CMD is accepted. -/
def State.gcAccept (s : State) (seq : BitVec 8) : State := s.modGc fun c => { c.accept seq with cmdref := false }

/-- COMMIT (R465): it runs once no island is BUSY (R422). -/
def State.commitCmd (s : State) (seq : BitVec 8) : State :=
  if !s.glb.cmd.accepts seq then s.gcIgnored
  else if s.glb.stt ≠ .ready ∧ s.glb.stt ≠ .committed then s.gcRefuse seq 0
  else s.gcAccept seq

/-- The registers of the memory layout (R387): the words that a change of marks every set unknown. -/
def State.layoutRegs (s : State) : List (BitVec 32) :=
  ([0x40, 0x41, 0x42, 0x43, 0x44, 0x45, 0x46, 0x48, 0x49, 0x88] : List Nat).map (s.reg 0)

/-- A layout that differs from the one that ran last marks every set of every slice unknown (R387). -/
def State.layoutMark (s : State) : State :=
  if s.glb.layout.isEmpty || s.glb.layout == s.layoutRegs then s
  else (s.eachSlice fun s i => if (s.slice i).ctl.dom.b == .off then s else s.modSlice i (·.markAll 0 16384)).modGlb fun g =>
    { g with layout := s.layoutRegs }

/-- A running COMMIT makes its checks, and passes or is refused (R465). -/
def State.commitStep (s : State) : State :=
  if s.glb.cmd.res = .running ∧ (s.glb.stt = .ready ∨ s.glb.stt = .committed) ∧ s.csr.posted.isEmpty then
    match s.commitFails with
    | [] =>
      let s := (s.modGlb fun g => { g with stt := .committed, cmd := g.cmd.complete, det := s.detEn }).layoutMark
      s.takeCrcRefs.done 0
    | c :: cs =>
      let s := (c :: cs).foldl (fun s _ => s.cfgFault srcNet) s
      (s.modGlb fun g => { g with stt := .ready, cmd := { g.cmd.complete with refused := true, cause := c } }).done 0
  else s

/-! ### ENABLE (R385, R386) -/

/-- Home h of a slice that its start-up check stopped (R386). -/
def State.placeAtEnable (s : State) (i : Fin 17) (h : Fin 16) : State :=
  match s.freeSlice with
  | some d => (((s.moveService i d).setServing h (some d)).mask i true).wakeFor d true
  | none => match s.buddyOf h with
    | some b => s.buddyMove h i b
    | none => (s.setServing h none).mask i false

/-- The slices whose base grammar failed its check are fenced, and those that became severe before READY where FLT_ACTCFG has
slices moved; their homes are placed in ascending order (R386, R352). -/
def State.fenceAtEnable (s : State) : State :=
  let bad := (List.finRange 17).filter fun i =>
    !s.slFenced i && (!(s.slice i).ctl.sound || (s.src (srcSlice i)).severe && s.fld 59 0x104 7 6 == 1)
  let hs := (List.finRange 16).filterMap fun h => (s.serving h).bind fun i => if bad.contains i then some (i, h) else none
  let s := bad.foldl (fun s i => s.markFenced (srcSlice i) 63 (s.homesOf i).isEmpty) s
  hs.foldl (fun s e => s.placeAtEnable e.1 e.2) s

/-- Every bucket of a port is full (R300). -/
def State.fillBuckets (s : State) (p : Fin 24) : State :=
  s.modPort p fun x => { x with buckets := (List.range 128).foldl (fun t k =>
    tabSet 0 t k (s.bucketTop (BitVec.ofNat 6 (k / 2)) (k % 2 == 1))) [] }

/-- A port's link comes up (R435), and its credits are issued (R59). -/
def State.portUp (s : State) (p : Fin 24) : State :=
  let s := if (s.port p).up || (s.port p).resetting then s
    else (s.modPort p fun x => { x with up := true, link := .zero, cred := .zero, snpCred := 0 }).panicSample p
  s.issueAll p

/-- The time slots count from Enable on (R303); what waits came before. -/
def Slice.slotsStart (x : Slice) : Slice :=
  { x with
    ingress := x.ingress.map fun g => (g.1, ⟨g.2.direct.map fun e => (e.1, 0), g.2.fwd.map fun e => (e.1, 0)⟩)
    arb := { x.arb with sc := 0 }
    sw := { x.sw with bgAt := 0 } }

/-- What the ENABLE commit does (R385, R386). -/
def State.enableNow (s : State) : State :=
  let first := !s.glb.everEnabled
  let s := s.modGlb fun g => { g with stt := .enabled, everEnabled := true, layout := s.layoutRegs }
  let s := s.eachChan fun s n => if (s.chan n).trn.fail then s.fenceChan n else s
  let s := ((s.fenceAtEnable).eachPort State.fillBuckets).eachPort State.portUp
  let s := s.eachSlice fun s i => s.modSlice i fun x => { x.slotsStart with sw := { x.slotsStart.sw with scrubAt := s.edge } }
  if first then s.eachChan State.refreshPhase else s

/-- Every slice that serves a home has every INIT bit 1. -/
def State.servingReady (s : State) : Bool :=
  (List.finRange 16).all fun h => match s.serving h with
    | some i => (s.slice i).ar.init == 0x3FF
    | none => true

/-- ENABLE. -/
def State.enableCmd (s : State) (seq : BitVec 8) : State :=
  if !s.glb.cmd.accepts seq then s.gcIgnored
  else if s.glb.stt ≠ .committed then s.gcRefuse seq 0x10
  else
    let t := (s.gcAccept seq).enableNow
    if t.servingReady then (t.modGc CmdSt.complete).done 0 else s.gcRefuse seq 0x11

/-! ### DISABLE (R387) -/

/-- Every enabled partition is FROZEN. -/
def State.allFrozen (s : State) : Bool :=
  (List.range 64).all fun q => !s.partEn (BitVec.ofNat 6 q) || (s.part (BitVec.ofNat 6 q)).st == .frozen

/-- DISABLE. -/
def State.disableCmd (s : State) (seq : BitVec 8) : State :=
  if !s.glb.cmd.accepts seq then s.gcIgnored
  else if s.glb.stt ≠ .enabled then s.gcRefuse seq 0
  else if s.flt.run.isSome then s.gcRefuse seq 0x21
  else if !s.allFrozen then s.gcRefuse seq 0x20
  else ((s.gcAccept seq).modGlb fun g => { g with stt := .disabling }).eachSlice fun s i =>
    s.modSlice i fun x => { x with sw := { x.sw with scrubLeft := 0 } }

/-- While DISABLING every MSC is driven to OFF (R387). -/
def State.disableStep (s : State) : State :=
  if s.glb.stt = .disabling then
    s.eachSlice fun s i => if (s.slice i).mem.ctl.mode == .on then s.mscDrainStart i else s
  else s

/-- The drain of a DISABLE is complete (R387). -/
def State.disableDrained (s : State) : State :=
  let empty (x : Slice) : Bool :=
    x.ents.isEmpty && x.recs.isEmpty && x.mem.wmb.isEmpty && x.mem.wtWait.isEmpty && (x.mem.ctl.mode == .off)
  if s.glb.stt = .disabling ∧ (List.finRange 17).all (fun i => empty (s.slice i)) then
    (s.modGlb fun g => { g with stt := .ready, cmd := g.cmd.complete }).done 0
  else s

/-! ### BROADCAST (R389, R390) -/

/-- Change BROADCAST. -/
def State.modBc (s : State) (f : Bcast → Bcast) : State := s.modGlb fun g => { g with bc := f g.bc }

/-- SET. -/
def State.bcastSetCmd (s : State) (seq : BitVec 8) (all : Bool) (h : Fin 16) : State :=
  if !s.glb.bc.st.accepts seq then s
  else s.modBc fun b => { b with
    st := b.st.accept seq, all := b.all || all
    homes := if all then b.homes else b.homes ||| BitVec.ofNat 16 (2 ^ h.val), clearAll := all
    clearHome := if all then none else some h, sweep := [] }

/-- A transaction selected its verb before the SET that runs, on a home that it covers. -/
def State.beforeSet (s : State) (e : Trk) : Bool :=
  hasVerb e.stat && !e.h.noDir && !s.degraded e.r.home &&
    (s.glb.bc.clearAll || s.glb.bc.clearHome == some e.r.home)

/-- SET completes when the last of them has retired. -/
def State.bcastSetDone (s : State) : State :=
  let b := s.glb.bc
  if b.st.res = .running ∧ b.sweep.isEmpty ∧
      (List.finRange 17).all (fun i => (s.slice i).ents.all fun e => !s.beforeSet e.2) then
    (s.modBc fun b => { b with st := b.st.complete }).doneUnless 0 b.st
  else s

/-- The homes that an exit sweep visits. -/
def State.sweptBy (s : State) (all : Bool) (h : Fin 16) : List (Fin 16) :=
  (if all then List.finRange 16 else [h]).filter fun k =>
    !s.degraded k && (s.serving k).isSome && s.inBcast k &&
      (if all then !s.glb.bc.homes.getLsbD k.val else !s.glb.bc.all)

/-- The bit that a CLEAR names is cleared, and the command completes. -/
def State.bcastCleared (s : State) : State :=
  (s.modBc fun b => { b with
    all := b.all && !b.clearAll
    homes := match b.clearHome with | some h => b.homes &&& ~~~(BitVec.ofNat 16 (2 ^ h.val)) | none => b.homes
    st := b.st.complete, sweep := [], clearAll := false, clearHome := none }).done 0

/-- CLEAR. -/
def State.bcastClearCmd (s : State) (seq : BitVec 8) (all : Bool) (h : Fin 16) : State :=
  if !s.glb.bc.st.accepts seq then s
  else
    let hs := s.sweptBy all h
    let s := s.modBc fun b => { b with
      st := b.st.accept seq, sweep := hs.map fun k => (k, 0), clearAll := all, clearHome := if all then none else some h }
    if hs.isEmpty then s.bcastCleared else s

/-- What a running exit sweep does by itself: it wakes the slices it visits, and ends home by home. -/
def State.bcastStep (s : State) : State :=
  if s.glb.bc.sweep.isEmpty then s
  else
    let left := s.glb.bc.sweep.filter fun e => decide (e.2 < 16384) && !s.degraded e.1 && (s.serving e.1).isSome
    if left.isEmpty then s.bcastCleared
    else
      (left.filterMap fun e => s.servingSlice e.1 (BitVec.ofNat 46 e.2)).foldl
        (fun s i => if (s.slice i).asleep && !(s.slice i).ctl.waking then s.wakeFor i false else s)
        (s.modBc fun b => { b with sweep := left })

/-- The abort of a BROADCAST command: a CLEAR whose sweep has sets left ends, and its homes stay in BROADCAST. -/
def State.bcastAbortCmd (s : State) (seq : BitVec 8) : State :=
  let (st, ends) := s.glb.bc.st.tryAbort seq (!s.glb.bc.sweep.isEmpty)
  let s := s.modBc fun b => { b with st := st }
  if ends then (s.modBc fun b => { b with sweep := [], clearAll := false, clearHome := none }).done 0 else s

end Sys2Proof.Machine
end

