-- ==== Sys2Proof/WellFormed.lean ====
section
/-! DEFINITION. Which commands name something that exists: the checks that the types of the operands leave open, each a named
refusal. A command that fails one describes no happening of the block. -/

namespace Sys2Proof

/-- Why a command is ill-formed. -/
inductive IllFormed where
  /-- a request or a message opcode outside its table (R49, R53) -/
  | opcode
  /-- a fault source that names no unit (R349) -/
  | source
  /-- a link that leaves the grid of routers (file 12) -/
  | link
  /-- an agent number that no port carries, or another port's (file 00) -/
  | agent
  /-- a word outside the array it names (R383) -/
  | arrayWord
  /-- the reserved power state (R448) -/
  | powerState
  deriving DecidableEq, Repr

/-- First agent of a port and the number it carries (file 00). -/
def portSpan (p : Nat) : Nat × Nat :=
  if p < 16 then (2 * p, 2) else if p < 20 then (4 * (p - 16) + 32, 4)
  else (4 * (p - 20) + 48, if p = 23 then 3 else 4)

/-- Port p carries agent a. -/
def spanHas (p : Fin 24) (a : Agent) : Bool :=
  let (lo, n) := portSpan p.val
  decide (lo ≤ a.toNat) && decide (a.toNat < lo + n)

/-- A source number names a unit (R349). -/
def namesSource (n : Nat) : Bool := decide (n ≤ 57) || (decide (64 ≤ n) && decide (n ≤ 126))

/-- Words of the arrays of a slice, numbered as the bits of SLC_INITSTAT (R383, R454). -/
def arrayWords (a : Fin 10) : Nat :=
  [262144, 16384, 32768, 1024, 512, 24576, 196608, 1024, 1024, 4096].getD a.val 0

/-- The link stays in the 8 x 6 grid: outputs +x, -x, +y, -y of the sending router (NOC_LINKLOG). -/
def linkExists : LinkId → Bool
  | .hop _ dir x y =>
    if dir = 0 then decide (x.val < 7) else if dir = 1 then decide (0 < x.val)
    else if dir = 2 then decide (y.val < 5) else decide (0 < y.val)
  | .cross _ _ _ => true

/-- The first check that a command fails. -/
def Instr.illFormed (i : Instr) : Option IllFormed :=
  match i with
  | .forwardedDat _ opc _ => if 4 < opc.toNat then some .opcode else none
  | .corrEvent src => if namesSource src.toNat then none else some .source
  | .uncorEvent src => if namesSource src.toNat then none else some .source
  | .snoopDeadlineExpiry p a => if spanHas p a then none else some .agent
  | .compackAllowanceExpiry p a => if spanHas p a then none else some .agent
  | .nocLinkReplay l _ => if linkExists l then none else some .link
  | .laneTestDone l _ => if linkExists l then none else some .link
  | .bistDone fs => if fs.all fun f => decide (f.2 < arrayWords f.1 + 16) then none else some .arrayWord
  | .powerStatChange _ st => if st = 3 then some .powerState else none
  | _ => none

/-- A command that describes a happening of the block. -/
def Instr.wf (i : Instr) : Bool := i.illFormed.isNone

end Sys2Proof
end

