-- ==== Sys2Proof/Machine/LiveTest.lean ====
section
/-! DEFINITION. Array self-test and repair, LIVETEST, and the array and trace commands (R454 to R462). -/

namespace Sys2Proof.Machine

/-- The debug lock closes the TST page (R409). -/
def State.tstClosed (s : State) : Bool := s.glb.fuse.dbgLock

/-- A slice number of a command. -/
def slcOf (n : BitVec 5) : Option (Fin 17) := if h : n.toNat < 17 then some ⟨n.toNat, h⟩ else none

/-! ### Remap tables (R455, R456) -/

/-- Key of a remap entry. -/
def remapKey (arr : Fin 10) (k : Nat) : Nat := 16 * arr.val + k
/-- Entry k of an array's remap table. -/
def Arrays.remapAt (a : Arrays) (arr : Fin 10) (k : Nat) : Remap := tabGet ⟨false, false, 0⟩ a.remap (remapKey arr k)
/-- Write it. -/
def Arrays.setRemap (a : Arrays) (arr : Fin 10) (k : Nat) (r : Remap) : Arrays :=
  { a with remap := tabSet ⟨false, false, 0⟩ a.remap (remapKey arr k) r }

/-- What a BIST pass finds out: arrays that fail, spares newly used. -/
structure Bist where
  ar : Arrays
  failArr : BitVec 10
  used : Nat
  deriving DecidableEq, Repr

/-- A failing word that no entry names takes the lowest free entry; with none left the array fails (R455). -/
def Bist.word (b : Bist) (arr : Fin 10) (w : BitVec 18) : Bist :=
  if (List.range 16).any fun k => (b.ar.remapAt arr k).v && (b.ar.remapAt arr k).word == w then b
  else match (List.range 16).find? fun k => !(b.ar.remapAt arr k).v && !(b.ar.remapAt arr k).ret with
    | some k => { b with ar := b.ar.setRemap arr k ⟨true, false, w⟩, used := b.used + 1 }
    | none => { b with failArr := b.failArr ||| BitVec.ofNat 10 (2 ^ arr.val) }

/-- A spare that fails is marked RET, and the word it stood for needs another (R455). -/
def Bist.spare (b : Bist) (arr : Fin 10) (k : Nat) : Bist :=
  let r := b.ar.remapAt arr k
  let b := { b with ar := b.ar.setRemap arr k ⟨false, true, r.word⟩ }
  if r.v then b.word arr r.word else b

/-- The outcome of a BIST pass: first the spares that fail, then the words. -/
def Arrays.bist (a : Arrays) (fails : List (Fin 10 × Nat)) : Bist :=
  let b : Bist := ⟨a, 0, 0⟩
  let b := fails.foldl (fun b f => if arrayWords f.1 ≤ f.2 then b.spare f.1 (f.2 - arrayWords f.1) else b) b
  fails.foldl (fun b f => if f.2 < arrayWords f.1 then b.word f.1 (BitVec.ofNat 18 f.2) else b) b

/-- A slice reset: the slice loses what it holds, its registers of its own island read their reset values, and its init programs run
(R397, R425). -/
def Slice.rerun (x : Slice) : Slice := { x.wiped with uc := Ucode.zero }

/-- The contents of every array of a slice are gone, its remap tables stay, and its init programs run (R454); what is no array
stays. -/
def Slice.emptied (x : Slice) : Slice :=
  { x with
    trk := [], ar := { Arrays.zero with remap := x.ar.remap, ledgerBad := x.ar.ledgerBad }
    uc := { Ucode.start with st := x.uc.st }, trace := ⟨[], 0, false, false, none, 0⟩ }

/-! ### LIVETEST (R458 to R460) -/

/-- Why a START is refused; 0 for none, 0x0F where s names no slice. -/
def State.ltCause (s : State) (i d : Option (Fin 17)) : BitVec 8 :=
  match i with
  | none => 0x0F
  | some i =>
    let hs := s.homesOf i
    if !hs.isEmpty && !(match d with | some d => s.isFree d | none => false) && d != some i then 0x01
    else if s.flt.run.isSome || s.tst.phase != .none then 0x02
    else if decide (2 ≤ hs.length) || hs.any s.degraded then 0x03
    else if s.slFenced i || (s.src (srcSlice i)).severe || (s.slice i).ctl.retained.isSome || (s.slice i).ctl.resetting ||
        !s.usableSlice i then 0x04
    else if !hs.isEmpty && d == some i then 0x05
    else 0

/-- START. -/
def State.ltStart (s : State) (seq : BitVec 8) (sn dn : BitVec 5) (back : Bool) : State :=
  if s.tstClosed || !s.tst.lt.accepts seq then s
  else
    let c := s.ltCause (slcOf sn) (slcOf dn)
    match slcOf sn, c == 0 with
    | some i, true =>
      let h := (s.homesOf i).head?
      let s := s.modTst fun t => { t with
        lt := t.lt.accept seq, phase := .move, ltSlice := sn, ltDest := if h.isSome then dn else sn
        ltBack := back && h.isSome, ltHome := h, ltAborted := false, ltRan := false, pass := false, repaired := 0, failArr := 0 }
      let s := s.dropLoad i
      (match h, slcOf dn with
       | some h, some d => s.beginMove .ltMove h i d false
       | _, _ => s.ltTest i)
    | _, _ => (s.modTst fun t => { t with lt := t.lt.refuse seq c }).done 63

/-- The slice under test while its BIST runs: all its domains are ON, and its arrays, where they had lost their contents, are filled. -/
def State.bistRuns (s : State) (i : Fin 17) : Bool :=
  let x := s.slice i
  s.tst.phase == .test && !s.tst.ltRan && s.underLt i && x.ctl.testing && !x.asleep && !x.ctl.waking && x.ctl.dom.c == .on &&
    x.ar.init == 0x3FF && x.uc.due == 0

/-- BIST ends: failing words are repaired, and the slice's arrays are filled again (R454, R455). -/
def State.bistEnd (s : State) (fails : List (Fin 10 × Nat)) : State :=
  match (List.finRange 17).find? s.bistRuns with
  | none => s
  | some i =>
    let b := (s.slice i).ar.bist fails
    let s := s.modTst fun t => { t with
      ltRan := true, pass := b.failArr == 0, failArr := b.failArr, repaired := BitVec.ofNat 4 (min b.used 15) }
    s.modSlice i fun x => { x with ar := { x.ar with remap := b.ar.remap } }.emptied

/-- The TEST phase ends once both banks are checked: its final commit (R459). Where an abort has come before it, the home goes back
whatever the BIST has found (R460, log entry 23). -/
def State.testEnds (s : State) (i : Fin 17) : State :=
  let sound := s.tst.failArr == 0 && (s.slice i).uc.valid == 0b11
  let ok := sound || (s.tst.ltAborted && (s.slice i).uc.valid == 0b11)
  let s := s.modSlice i fun x => { x with ctl := { x.ctl with testing := false, sound := sound } }
  if !ok then
    let s := if s.tst.failArr == 0 then s else s.uncorEv (srcSlice i)
    (s.ltEnd CmdSt.complete).fenceSlice i
  else if s.tst.ltHome.isSome && (s.tst.ltBack || s.tst.ltAborted) then s.modTst fun t => { t with phase := .back }
  else s.ltEnd (if s.tst.ltAborted then CmdSt.abort else CmdSt.complete)

/-- BACK begins once no other move runs: the home goes from the slice that serves it back to the slice under test (R459). -/
def State.ltBackStep (s : State) : State :=
  if s.tst.phase = .back ∧ s.flt.run.isNone then
    match s.tst.ltHome, slcOf s.tst.ltSlice with
    | some h, some i =>
      (match s.serving h with
       | some d =>
         if d != i && (s.homesOf d).length == 1 && !s.degraded h && !s.slFenced i && !(s.src (srcSlice i)).severe then
           s.beginMove .ltBack h d i false
         else s.ltEnd (if s.tst.ltAborted then CmdSt.abort else CmdSt.complete)
       | none => s.ltEnd (if s.tst.ltAborted then CmdSt.abort else CmdSt.complete))
    | _, _ => s.ltEnd CmdSt.complete
  else s

/-- The abort of a LIVETEST (R460): MOVE is rolled back; TEST is ended early, its BIST with it, and BACK follows. One that comes in BACK
comes after the final commit. -/
def State.ltAbort (s : State) (seq : BitVec 8) : State :=
  let t := s.tst
  if s.tstClosed || seq == t.lt.rseq then s
  else if t.lt.res != .running then s.modTst fun t => { t with lt := t.lt.nothingAt seq }
  else if t.ltAborted || t.lt.held.isSome then s
  else match t.phase, s.flt.run with
    | .move, some m => if m.kind = .ltMove then s.rollback m CmdSt.abort else s
    | .test, _ =>
      let r := (List.finRange 17).find? s.bistRuns
      let s := s.modTst fun t => { t with ltAborted := true, ltRan := true }
      (match r with
       | some i => s.modSlice i Slice.emptied
       | none => s)
    | _, _ => s.modTst fun t => { t with lt := { t.lt with held := some seq } }

/-! ### TST_ACMD (R455 to R457, R461, R462) -/

/-- The fields of TST_AOPND. -/
def State.opndWord (s : State) : BitVec 18 := s.tst.aopnd.extractLsb' 0 18
/-- ENTRY. -/
def State.opndEntry (s : State) : Nat := (s.tst.aopnd.extractLsb' 20 4).toNat

/-- An array command ends: refused with a cause, or completed with its effect. TST_AOPND is latched at acceptance. -/
def State.acmd (s : State) (seq : BitVec 8) (cause : BitVec 8) (f : State → State) : State :=
  if s.tstClosed || !s.tst.acmd.accepts seq then s
  else if cause ≠ 0 then (s.modTst fun t => { t with acmd := t.acmd.refuse seq cause }).done 63
  else ((f (s.modTst fun t => { t with acmd := t.acmd.accept seq, aopndL := t.aopnd })).modTst fun t =>
    { t with acmd := t.acmd.complete }).done 63

/-- The slice and array of a command; none where its slice is OFF or does not exist (cause 0x1), or its array does not exist
(cause 0x3). -/
def State.arrCause (s : State) (sn : BitVec 5) (arr : BitVec 4) : BitVec 8 :=
  match slcOf sn with
  | none => 0x1
  | some i => if (s.slice i).ctl.dom.a == .off then 0x1 else if 10 ≤ arr.toNat then 0x3 else 0

/-- Put a word of 32 bits into TST_ARES0, the others zero. -/
def remapBits (r : Remap) : BitVec 128 :=
  (if r.v then 0x80000000 else 0) ||| (if r.ret then 0x40000000 else 0) ||| r.word.zeroExtend 128

/-- REMAPRD. -/
def State.remapRd (s : State) (seq : BitVec 8) (sn : BitVec 5) (arr : BitVec 4) : State :=
  s.acmd seq (s.arrCause sn arr) fun s =>
    match slcOf sn with
    | some i => s.modTst fun t => { t with ares := remapBits ((s.slice i).ar.remapAt (Fin.ofNat 10 arr.toNat) s.opndEntry) }
    | none => s

/-- REMAPWR is allowed: the slice serves no home, is in a TEST phase, or Efkar is READY (R456). -/
def State.remapOk (s : State) (i : Fin 17) : Bool :=
  (s.homesOf i).isEmpty || (s.slice i).ctl.testing || s.glb.stt == .ready

/-- REMAPWR (R456): a spare marked RET is not used again. -/
def State.remapWr (s : State) (seq : BitVec 8) (sn : BitVec 5) (arr : BitVec 4) : State :=
  let a : Fin 10 := Fin.ofNat 10 arr.toNat
  let c := s.arrCause sn arr
  let cause := if c ≠ 0 then c else match slcOf sn with
    | some i => if !s.remapOk i then 0x2 else if arrayWords a ≤ s.opndWord.toNat then 0x4 else 0
    | none => 0x1
  s.acmd seq cause fun s =>
    match slcOf sn with
    | some i => s.modSlice i fun x =>
        let old := x.ar.remapAt a s.opndEntry
        { x with ar := { (x.ar.setRemap a s.opndEntry ⟨s.tst.aopndL.getLsbD 19 && !old.ret, old.ret, s.opndWord⟩) with
            init := x.ar.init &&& ~~~(BitVec.ofNat 10 (2 ^ a.val)) } }
    | none => s

/-- A grant of requester 24 in a slice whose arbiter runs takes one sc (R302, R303, R463). -/
def State.ownGrant (s : State) (i : Fin 17) : State :=
  if s.sliceRuns i then
    (((s.perf i 0x0E).perf i 0x0D (s.slice i).ents.length).perf i 0x01).modSlice i fun x =>
      { x with arb := { x.arb with sc := x.arb.sc + 1, sinceLw := x.arb.sinceLw + 1 } }
  else s

/-- INJ (R457): the word is written with its stored data and flipped check bits. -/
def State.injCmd (s : State) (seq : BitVec 8) (sn : BitVec 5) (arr : BitVec 4) : State :=
  let a : Fin 10 := Fin.ofNat 10 arr.toNat
  let c := s.arrCause sn arr
  let cause := if c ≠ 0 then c else if arr.toNat = 9 then 0x3 else if arrayWords a ≤ s.opndWord.toNat then 0x4 else 0
  s.acmd seq cause fun s =>
    match slcOf sn with
    | some i => (s.ownGrant i).modSlice i fun x =>
        let m := s.tst.aopndL.extractLsb' 24 8 &&& checkMask a.val
        let ar := x.ar.wrote a s.opndWord.toNat
        { x with ar := { ar with inj := if m = 0 then ar.inj else ar.inj ++ [(a, s.opndWord, m)] } }
    | none => s

/-- The 128 bits of a trace record (R461). -/
def TraceRec.bits (r : TraceRec) : BitVec 128 :=
  r.time ++ r.kind ++ r.ag ++ r.pa ++ r.tid ++ r.opc ++ r.state ++ r.pc ++ (0 : BitVec 6)

/-- The record at an index of the buffer: the oldest is at WPTR once the buffer has wrapped (R462). -/
def Trace.at' (t : Trace) (k : BitVec 12) : BitVec 128 :=
  let j := if t.wrapped then (k - t.wptr).toNat else k.toNat
  (t.recs[j]?.map TraceRec.bits).getD 0

/-- TRREAD (R462); an array that is not initialised reads zero, and the read is a configuration fault (R383). -/
def State.trRead (s : State) (seq : BitVec 8) (sn : BitVec 5) : State :=
  s.acmd seq (s.arrCause sn 0) fun s =>
    match slcOf sn with
    | some i =>
      let t := (s.slice i).trace
      let filled := (s.slice i).ar.init.getLsbD 9
      let s := s.modTst fun x => { x with
        ares := if filled then t.at' (x.aopndL.extractLsb' 0 12) else 0
        wrapped := t.wrapped, stopped := t.stopped, wptr := t.wptr }
      if filled then s else s.cfgFault (srcSlice i)
    | none => s

/-- TRCLR (R461). -/
def State.trClr (s : State) (seq : BitVec 8) (sn : BitVec 5) : State :=
  s.acmd seq (s.arrCause sn 0) fun s =>
    match slcOf sn with
    | some i => s.modSlice i fun x => { x with trace := ⟨[], 0, false, false, none, 0⟩ }
    | none => s

/-- A write of TST_PCCLR (R463). -/
def State.pcClr (s : State) (mask : BitVec 8) : State :=
  if s.tstClosed then s
  else s.modTst fun t => { t with pc := (List.range 8).foldl (fun p k => if mask.getLsbD k then tabSet 0 p k 0 else p) t.pc }

end Sys2Proof.Machine
end

