-- ==== Sys2Proof/Machine/Reset.lean ====
section
/-! DEFINITION. The resets (R394 to R399), training and resync by command (R275, R287), and the ends of init programs, checks and
trainings wherever they were started. -/

namespace Sys2Proof.Machine

/-- The power pins after a reset: every mode requests ON, and the supply reports what it has reached (R448). -/
def Pins.atReset (p : Pins) (t : Tk) : Pins :=
  { State.reset.pins with pdStat := p.pdStat, pdSince := p.pdStat.map fun e => (e.1, some t) }

/-! ### Cold reset (R394, R447) -/

/-- `efk_rst_cold_n` goes low: everything is as after power-up. The pins of the surroundings, the wrapper and what waits outside
stay. -/
def State.coldAssert (s : State) : State :=
  { State.reset with
    pending := s.pending
    freeCtr := s.freeCtr
    wraps := s.wraps
    glb := { State.reset.glb with warmLow := s.glb.warmLow }
    tst := { State.reset.tst with wir := s.tst.wir }
    pins := s.pins.atReset State.reset.edge }

/-- Start-up begins once neither reset is low and a warm-reset entry is complete (R381, R395). -/
def State.startUp (s : State) : State :=
  if s.glb.stt = .reset ∧ !s.glb.coldLow ∧ !s.glb.warmLow ∧ !s.glb.warmEntry then
    s.modGlb fun g => { g with stt := .fuse, fuse := { g.fuse with req := s.edge } }
  else s

/-- `efk_rst_cold_n` is released: the wrapper returns to WS_BYPASS (R452). -/
def State.coldRelease (s : State) : State :=
  if s.glb.coldLow then
    ((s.modGlb fun g => { g with coldLow := false }).modTst fun t => { t with wir := 0 }).startUp
  else s

/-! ### Warm reset (R395, R396, R371) -/

/-- `efk_rst_warm_n` goes low: the entry begins; ports stop, and slices stop (R395 steps 1 and 2). Domains in RET are woken first (R404). -/
def State.warmAssert (s : State) : State :=
  if s.glb.warmLow then s
  else if s.glb.coldLow then s.modGlb fun g => { g with warmLow := true }
  else ((s.modGlb fun g => { g with warmLow := true, warmEntry := true }).eachPort fun s p =>
    s.modPort p fun x => { x with up := false, link := .zero, cred := .zero, snpCred := 0 }).eachSlice fun s i =>
    if (s.slice i).ctl.dom.a == .ret then s.wakeFor i false else s

/-- `efk_rst_warm_n` is released; a running entry is completed first. -/
def State.warmRelease (s : State) : State := (s.modGlb fun g => { g with warmLow := false }).startUp

/-- Every write that the controllers and the merging buffers of slices that are not fenced hold reaches DRAM; the writes of a
lost channel enter its table (R395 steps 3 and 5, R248). -/
def State.warmWrites (s : State) : State :=
  let s := s.eachChan fun s n => ((s.chan n).wq.filter fun w => !w.copy).foldl (fun s w => s.dramPut n w.cla w.l) s
  s.eachSlice fun s i =>
    if s.slFenced i then s
    else (s.slice i).mem.wmb.foldl (fun s w =>
      if s.chLost w.home then s.loseLine w.home w.addr
      else (s.writePlaces w.home (s.memCla w.addr)).foldl (fun s pl => s.dramPut pl.1 pl.2.1 w.l) s) s

/-- What a warm reset keeps of a slice's service state `a`, which comes to the slice of arrays `own`: every lock ORPHANED with reason warm
reset, no watch, and the INIT bits of both arrays (R317, R371, R383, R396). -/
def warmArrays (a own : Arrays) : Arrays :=
  { Arrays.zero with
    ledger := a.ledger.map fun e => (e.1, e.2.map fun l => if l.st = .held then { l with st := .orphaned, why := 0b11 } else l)
    ledgerBad := a.ledgerBad
    desc := a.desc.map fun e => (e.1, ({ QDesc.dec e.2 with wv := false }).enc)
    remap := own.remap
    inj := a.inj.filter fun e => e.1 == 3 || e.1 == 4
    init := a.init &&& 0x018 }

/-- The slice whose service state a warm reset leaves in slice n (R371). -/
def State.warmSource (s : State) (i : Fin 17) : Slice :=
  if h : i.val < 16 then s.slice ((s.svcHome ⟨i.val, h⟩).getD i) else s.slice i

/-- A channel after a warm reset: its ranks are in self-refresh, and its results of training, its lost-write table
and its contents stay (R395, R396). -/
def Chan.warm (c : Chan) (ranks : Nat) : Chan :=
  ({ Chan.zero with trn := { Training.zero with res := c.trn.res }, lost := c.lost, blank := c.blank } : Chan).restRanks ranks

/-- The entry is complete, once no domain is in RET, and the reset takes effect (R395, R396, R404, R5). -/
def State.warmDone (s : State) : State :=
  if !s.glb.warmEntry || (List.finRange 17).any fun i => (s.slice i).ctl.dom.a == .ret then s
  else
    let s := s.warmWrites
    ({ State.reset with
      pending := s.pending
      now := s.now
      wraps := s.wraps
      freeCtr := s.freeCtr
      dram := s.dram
      glb := { State.reset.glb with coldLow := false, warmLow := s.glb.warmLow, wasWarm := true }
      slices := Vector.ofFn fun i => { Slice.zero with
        ar := warmArrays (s.warmSource i).ar (s.slice i).ar }
      chans := Vector.ofFn fun n => (s.chan n).warm (s.ranks n)
      flt := { State.reset.flt with log := s.flt.log }
      tst := { State.reset.tst with wir := s.tst.wir }
      pins := s.pins.atReset s.edge } : State).startUp

/-! ### Slice reset (R397) -/

/-- Why a slice reset is refused; 0 for none. -/
def State.slcResetCause (s : State) (i : Fin 17) : BitVec 8 :=
  let dst := match s.flt.run with
    | some m => m.kind == .ret && m.dst == i
    | none => false
  if s.underLt i || dst then 0x02
  else if (s.slice i).ctl.retained.isSome then 0x07
  else if !s.usableSlice i then 0x08 else 0

/-- SLC_FNCMD RESET: for a slice that serves a home or some of its sets it is first an UNCOR event of the slice. -/
def State.slcResetCmd (s : State) (i : Fin 17) (seq : BitVec 8) : State :=
  if !(s.slice i).ctl.fn.accepts seq then s
  else
    let c := s.slcResetCause i
    if c ≠ 0 then (s.modFn i (·.refuse seq c)).done (slcPage i)
    else
      let s := s.modFn i (·.accept seq)
      let s := if (s.homesOf i).isEmpty && !s.inMove i then s
        else ((s.uncorEv (srcSlice i)).modFlt fun f => { f with due := f.due.filter (· ≠ srcSlice i) }).slicePlan i false
      s.modSlice i fun x => { x with ctl := { x.ctl with resetting := true, resetWait := true } }

/-- The commands of the slice's own island that run end as if aborted (R380). -/
def State.ownEnd (s : State) (i : Fin 17) : State :=
  let x := s.slice i
  let s := if x.mem.ctl.st.res == .running then s.done (slcPage i) else s
  if x.sw.sfSt.res == .running then s.done (slcPage i) else s

/-- The slice loses what it holds, its domains are powered, and its init programs start; its trace buffer stays (R397, R425,
R461). -/
def State.slcResetGo (s : State) (i : Fin 17) : State :=
  (((s.ownEnd i).dropLoad i).clearSq (slcPage i) slcOwn).modSlice i fun x =>
    let off := x.ctl.dom.a == .off
    let asleep := x.asleep || x.ctl.dom.c != .on
    { x.rerun with
      trace := x.trace
      ctl := { x.ctl with
        resetWait := false, waking := asleep, fromOff := asleep && (off || x.ctl.dom.c == .off)
        autoRet := false, idleSince := none } }

/-- A slice reset goes on once the slice is in no move and holds no retained service state. -/
def State.slcResetStep (s : State) : State :=
  s.eachSlice fun s i =>
    if (s.slice i).ctl.resetWait && !s.inMove i && (s.slice i).ctl.retained.isNone then s.slcResetGo i else s

/-- A fault source is sound again: neither severe nor fenced. -/
def Src.clear (x : Src) : Src :=
  { x with severe := false, fenced := false, acked := false, masked := false, corrOnly := true, count := 0 }

/-- Both checks of a slice reset have ended (R397): where one failed the slice stays severe. -/
def State.slcResetEnds (s : State) (i : Fin 17) : State :=
  let ok := (s.slice i).uc.valid == 0b11
  let s := if ok then s.modSrc (srcSlice i) Src.clear else s
  let c := (s.slice i).ctl.fn
  (s.modSlice i fun x => { x with ctl := { x.ctl with
    resetting := false, sound := ok, fn := x.ctl.fn.complete } }).doneUnless (slcPage i) c

/-! ### Port reset (R398) -/

/-- The link of a port goes down (R435): every output of its link layer and its credit signals returns to its reset value, and no
credit is held or due. -/
def Port.linkDown (x : Port) : Port :=
  { x with up := false, link := .zero, snpCred := 0
           cred := { PortCred.zero with rissued := x.cred.rissued, dissued := x.cred.dissued } }

/-- Every slice sweeps its ledger for the agents of a port that is reset, also of one that is fenced already (R316). -/
def State.sweepPort (s : State) (p : Fin 24) : State :=
  s.eachSlice fun s i => s.modSlice i fun x => { x with sw := { x.sw with
    ledgerAgents := x.sw.ledgerAgents ++ (agentsOf p).filter fun a => !x.sw.ledgerAgents.contains a } }

/-- PRT_RSTCMD RESET: the link goes down, the port is fenced, and the ledgers are swept. -/
def State.portResetCmd (s : State) (p : Fin 24) (seq : BitVec 8) : State :=
  if !(s.port p).rst.accepts seq then s
  else ((s.modPort p fun x => { x.linkDown with rst := x.rst.accept seq, resetting := true }).fencePort p).sweepPort p

/-- The sweeps have ended: the crossings start again, the fence is lifted, and credits are issued (R398 steps 3 to 6). -/
def State.portResetEnds (s : State) (p : Fin 24) : State :=
  let s := (s.clearSq (prtPage p) unitOwn).modPort p fun x => { x with
    link := .zero, cred := .zero, snpCred := 0, egress := [], discarded := [], panic := false, resetting := false }
  let s := (agentsOf p).foldl (fun s a => s.modSrc (srcAgent a) Src.clear) (s.modSrc (srcPort p) Src.clear)
  let s := if s.glb.everEnabled then s.portUp p else s
  let c := (s.port p).rst
  (s.modPort p fun x => { x with rst := x.rst.complete }).doneUnless (prtPage p) c

/-- Port resets whose sweeps have ended go on. -/
def State.portResetStep (s : State) : State :=
  s.eachPort fun s p => if (s.port p).resetting && !s.portSweeping p then s.portResetEnds p else s

/-- The abort of a port reset: before its last step the port stays fenced. -/
def State.portResetAbort (s : State) (p : Fin 24) (seq : BitVec 8) : State :=
  let (c, ends) := (s.port p).rst.tryAbort seq true
  let s := s.modPort p fun x => { x with rst := c, resetting := x.resetting && !ends }
  if ends then s.done (prtPage p) else s

/-! ### Channel reset, training and resync by command (R399, R275, R287) -/

/-- Change the status of DCH_TRNCMD. -/
def State.modTrn (s : State) (n : Fin 16) (f : CmdSt → CmdSt) : State :=
  s.modChan n fun c => { c with trn := { c.trn with st := f c.trn.st } }
/-- Change the status of DCH_MIRCMD. -/
def State.modMir (s : State) (n : Fin 16) (f : CmdSt → CmdSt) : State :=
  s.modChan n fun c => { c with mir := { c.mir with st := f c.mir.st } }

/-- A channel's own state returns to its reset values; its time, its lost-write table and its contents stay (R425). -/
def Chan.wiped (c : Chan) : Chan :=
  { Chan.zero with dc := c.dc, nextId := c.nextId, lost := c.lost, blank := c.blank, rst := c.rst, resetting := c.resetting }

/-- DCH_RSTCMD RESET: the channel is fenced, its queues are emptied, and a full training starts. A command of the controller that
runs ends as if aborted (R380), and what a read of its mailbox left is forgotten (R414). -/
def State.chanResetCmd (s : State) (n : Fin 16) (seq : BitVec 8) : State :=
  if !(s.chan n).rst.accepts seq then s
  else
    let s := s.modChan n fun c => { c with rst := c.rst.accept seq, resetting := true }
    let s := if s.chFenced n then s.chanStop n else s.fenceChan n
    let s := if (s.chan n).trn.st.res == .running then s.done (dchPage n) else s
    let s := if (s.chan n).mir.st.res == .running then s.done (dchPage n) else s
    let s := s.modCsr fun c => { c with snaps := c.snaps.filter fun e => e.2.1 / 256 != dchPage n }
    ((s.clearSq (dchPage n) unitOwn).modChan n Chan.wiped).trainStart n true

/-- The training of a channel reset has ended (R399): an unmirrored channel is written with poison and served again, a mirrored
one waits for its RESYNC, and one whose training failed stays fenced. The poison takes the place of every line, also of writes that a
DrainE had reported (log entry 73). -/
def State.chanResetEnds (s : State) (n : Fin 16) : State :=
  let s := if (s.chan n).trn.fail then s
    else if s.mirrored n then s.modSrc (srcChan n) fun x => { x.clear with fenced := true, masked := x.masked }
    else ({ s with dram := s.dram.filter fun e => e.1 % 16 != n.val }.modChan n fun c => { c with blank := true }).modSrc
      (srcChan n) Src.clear
  let c := (s.chan n).rst
  (s.modChan n fun c => { c with rst := c.rst.complete, resetting := false }).doneUnless (dchPage n) c

/-- A training stops where it stands. -/
def Chan.trainStop (c : Chan) : Chan :=
  { c with trn := { c.trn with phase := .idle }, dly := ⟨false, 0, 0, false, 0⟩, initStart := false }

/-- The abort of a channel reset: before the fence is lifted the channel stays fenced. -/
def State.chanResetAbort (s : State) (n : Fin 16) (seq : BitVec 8) : State :=
  let (c, ends) := (s.chan n).rst.tryAbort seq true
  let s := s.modChan n fun x => { x with rst := c }
  if ends then (s.modChan n fun x => { x.trainStop with resetting := false }).done (dchPage n) else s

/-- TRAIN: while the channel is fenced or not yet enabled, and no training runs. -/
def State.trainCmd (s : State) (n : Fin 16) (seq : BitVec 8) : State :=
  if !(s.chan n).trn.st.accepts seq then s
  else if (s.chFenced n || !s.glb.everEnabled) && (s.chan n).trn.phase == .idle && s.glb.stt != .reset && s.glb.stt != .fuse then
    (s.modTrn n (·.accept seq)).trainStart n true
  else (s.modTrn n (·.refuse seq 0)).done (dchPage n)

/-- The abort of a TRAIN. -/
def State.trainAbort (s : State) (n : Fin 16) (seq : BitVec 8) : State :=
  let (c, ends) := (s.chan n).trn.st.tryAbort seq true
  let s := s.modTrn n fun _ => c
  if ends then (s.modChan n Chan.trainStop).done (dchPage n) else s

/-- The training of a channel ends: of start-up, of a TRAIN, or of a channel reset. -/
def State.trainDone (s : State) (n : Fin 16) : State :=
  match s.trainEnd n with
  | (s, false) => s
  | (s, true) =>
    if (s.chan n).resetting then s.chanResetEnds n
    else if (s.chan n).trn.st.res = .running then (s.modTrn n CmdSt.complete).done (dchPage n)
    else s

/-- RESYNC: of a fenced mirrored channel that has completed a full training, while its partner serves. -/
def State.resyncCmd (s : State) (n : Fin 16) (seq : BitVec 8) : State :=
  let t := (s.chan n).trn
  if !(s.chan n).mir.st.accepts seq then s
  else if s.chFenced n && s.mirrored n && t.valid && t.full && !t.fail && t.phase == .idle && !(s.chan n).resetting &&
      !s.chFenced (buddy n) then
    (s.wakeRanks n).modChan n fun c => { c with mir := { st := c.mir.st.accept seq, mode := .resync, wm := 0, copy := none } }
  else (s.modMir n (·.refuse seq 0)).done (dchPage n)

/-- The abort of a RESYNC leaves the channel fenced, with the contents it holds. -/
def State.resyncAbort (s : State) (n : Fin 16) (seq : BitVec 8) : State :=
  let (c, ends) := (s.chan n).mir.st.tryAbort seq true
  let s := s.modMir n fun _ => c
  if ends then (s.chanStop n).done (dchPage n) else s

/-! ### Init programs and checks (R383, R209) -/

/-- Both banks of a slice take the base grammar once its arrays are initialised, in a slice reset and at the end of a BIST. -/
def State.baseStep (s : State) (i : Fin 17) : State :=
  let x := s.slice i
  if (x.ctl.resetting || x.ctl.testing) && x.ar.init == 0x3FF then s.modUc i Ucode.base else s

/-- An init program ends. A bank that it has written outside start-up and resets is checked anew. -/
def State.initDone (s : State) (i : Fin 17) (arr : Fin 10) : State :=
  let x := s.slice i
  if x.ar.init.getLsbD arr.val || !s.pdOn (arrayDomain i arr.val) || s.glb.stt == .reset || s.glb.stt == .fuse ||
      x.ctl.resetWait || !s.usableSlice i then s
  else
    let keep := x.ctl.resetting && arr.val == 9
    let alone := !x.ctl.resetting && !x.ctl.testing && !x.ctl.fromOff && s.glb.stt != .init && (arr.val == 7 || arr.val == 8)
    let s := s.modSlice i fun x => { x.initArray arr.val with trace := if keep then x.trace else (x.initArray arr.val).trace }
    let s := if alone then s.modUc i fun u =>
        { u with
            valid := if u.active == (arr.val == 8) then u.valid else u.valid &&& ~~~bankBit (arr.val == 8)
            due := u.due ||| bankBit (arr.val == 8) }
      else s
    s.baseStep i

/-- The check of a bank ends, with what waits for it: start-up, a slice reset, a BIST, a LOAD, or a move. -/
def State.checkDone (s : State) (i : Fin 17) (bank : Bool) : State :=
  let u := (s.slice i).uc
  if (u.due &&& bankBit bank) = 0 then s
  else
    let f := u.check bank
    let ld := s.glb.ld
    let loading := ld.st.res == .running && ld.phase == .checking && ld.left.getLsbD i.val && bank == !u.active
    let s := s.modUc i fun u => { u.report f with
      due := u.due &&& ~~~bankBit bank
      valid := if f.isNone && !loading then u.valid ||| bankBit bank else u.valid }
    if loading then
      (s.modLd fun l => { l with
        left := l.left &&& ~~~(BitVec.ofNat 17 (2 ^ i.val))
        codes := tabSet 0 l.codes i.val ((f.map fun g => BitVec.ofNat 8 g.rule).getD 0) }).loadCommit
    else
      let moving := match s.flt.run with
        | some m => m.dst == i && !m.checked && bank == !u.active
        | none => false
      if moving then s.bankChecked i f.isNone
      else
        let s := if f.isSome then s.uncorEv (srcSlice i) else s
        let s := if f.isSome && s.glb.stt == .load then
          s.modSlice i fun x => { x with ctl := { x.ctl with sound := false } } else s
        if (s.slice i).uc.due ≠ 0 then s
        else if (s.slice i).ctl.resetting then s.slcResetEnds i
        else if (s.slice i).ctl.testing && s.tst.phase == .test && s.tst.ltRan then s.testEnds i
        else s

end Sys2Proof.Machine
end

