-- ==== Sys2Proof/Machine/FaultCmd.lean ====
section
/-! DEFINITION. The actions of severe sources (R352), the commands of FLT_CMD (R352, R353, R363, R370, R372), the logs (R283, R361,
R374), the scrub period (R373), and the links of the network (R297, R298). -/

namespace Sys2Proof.Machine

/-! ### Sources and their units (R349) -/

/-- The unit that a source number names. -/
inductive FltUnit where
  | slice (i : Fin 17)
  | port (p : Fin 24)
  | chan (n : Fin 16)
  | net
  | agent (a : Agent)
  | none
  deriving DecidableEq, Repr

/-- R349. -/
def unitOf (n : Nat) : FltUnit :=
  if n < 17 then .slice (Fin.ofNat 17 n)
  else if n < 41 then .port (Fin.ofNat 24 (n - 17))
  else if n < 57 then .chan (Fin.ofNat 16 (n - 41))
  else if n = 57 then .net
  else if 64 ≤ n ∧ n ≤ 126 then .agent (BitVec.ofNat 6 (n - 64))
  else .none

/-! ### What a severe source starts (R352) -/

/-- The action that FLT_ACTCFG sets for a source that has become severe. What start-up finds in slices and in training waits
for Enable (R276, R386). -/
def State.dueAct (s : State) (n : Nat) : State :=
  match unitOf n with
  | .slice i =>
    let early := match s.glb.stt with
      | .reset => true | .fuse => true | .init => true | .train => true | .load => true | _ => false
    if early then s
    else if s.fld 59 0x104 7 6 = 1 ∨ (s.homesOf i).isEmpty then s.slicePlan i (s.src n).corrOnly
    else s
  | .port p => if s.fld 59 0x104 5 4 = 1 then s.fencePort p else s
  | .chan k =>
    let c := s.fld 59 0x104 3 2
    if (s.chan k).trn.fail && !s.glb.everEnabled then s
    else if c = 2 ∨ (c = 1 ∧ s.mirrored k) then s.fenceChan k else s
  | .agent a => if s.fld 59 0x104 1 0 = 1 then s.fenceAgent a else s
  | _ => s

/-- The sources that became severe together act in ascending order. -/
def State.dueOnce (s : State) : State :=
  let l := s.flt.due.mergeSort fun a b => a ≤ b
  l.foldl State.dueAct (s.modFlt fun f => { f with due := [] })

/-- Until no source is due; each can become so only once. -/
def State.dueStep (s : State) : Nat → State
  | 0 => s
  | n + 1 => if s.flt.due.isEmpty then s else s.dueOnce.dueStep n

/-! ### FLT_CMD -/

/-- A command of FLT_CMD that ends in its commit: refused with a cause, or done. -/
def State.fltCmd (s : State) (seq : BitVec 8) (cause : BitVec 8) (f : State → State) : State :=
  if !s.flt.cmd.accepts seq then s
  else if cause ≠ 0 then (s.modFlt fun x => { x with cmd := x.cmd.refuse seq cause }).done 59
  else ((f (s.modFlt fun x => { x with cmd := x.cmd.accept seq })).modFlt fun x => { x with cmd := x.cmd.complete }).done 59

/-- FENCE: the action of R352 for any unit but the network island, severe or not. -/
def State.fenceCmd (s : State) (seq : BitVec 8) (n : Nat) : State :=
  let cause : BitVec 8 := match unitOf n with | .net => 0x01 | .none => 0x01 | _ => 0
  s.fltCmd seq cause fun s =>
    match unitOf n with
    | .slice i => s.slicePlan i false
    | .port p => s.fencePort p
    | .chan k => s.fenceChan k
    | .agent a => s.fenceAgent a
    | _ => s

/-- ACK: a severe source is acknowledged (R353). -/
def State.ackCmd (s : State) (seq : BitVec 8) (n : Nat) : State :=
  let cause : BitVec 8 := match unitOf n with | .none => 0x01 | _ => 0
  s.fltCmd seq cause fun s => s.modSrc n fun x => { x with acked := x.acked || x.severe }

/-- A move or a LIVETEST runs. -/
def State.moving (s : State) : Bool := s.flt.run.isSome || s.tst.phase != .none

/-- A move by command: refused, or begun. -/
def State.moveCmd (s : State) (seq : BitVec 8) (cause : BitVec 8) (f : State → State) : State :=
  if !s.flt.cmd.accepts seq then s
  else if cause ≠ 0 then (s.modFlt fun x => { x with cmd := x.cmd.refuse seq cause }).done 59
  else f (s.modFlt fun x => { x with cmd := x.cmd.accept seq })

/-- DEST names a free slice. -/
def State.destFree (s : State) (d : BitVec 5) : Option (Fin 17) := (slcOf d).filter s.isFree

/-- EVAC (R363, R392 g and j): of several causes a running move is named first (DEDUCED, log entry 34). -/
def State.evacCmd (s : State) (seq : BitVec 8) (h : Fin 16) (dn : BitVec 5) : State :=
  let two := match s.serving h with
    | some i => decide (2 ≤ (s.homesOf i).length)
    | none => false
  let cause : BitVec 8 :=
    if s.moving then 0x03
    else if s.degraded h || two then 0x05
    else if (s.destFree dn).isNone || (s.serving h).isNone then 0x02 else 0
  s.moveCmd seq cause fun s =>
    match s.serving h, s.destFree dn with
    | some i, some d => s.beginMove .evac h i d true
    | _, _ => s

/-- RETURN (R370, R392 j): the order of its causes is that of EVAC (log entry 34). -/
def State.returnCmd (s : State) (seq : BitVec 8) (h : Fin 16) (dn : BitVec 5) : State :=
  let cause : BitVec 8 :=
    if s.moving then 0x03
    else if !s.degraded h then 0x04
    else if (s.destFree dn).isNone || (s.serving h).isNone then 0x02 else 0
  s.moveCmd seq cause fun s =>
    match s.serving h, s.destFree dn with
    | some b, some d => s.beginMove .ret h b d true
    | _, _ => s

/-- The abort of FLT_CMD: of an EVAC by command before its final step (R372). -/
def State.moveAbortCmd (s : State) (seq : BitVec 8) : State :=
  let can := match s.flt.run with
    | some m => m.cmd && m.kind == .evac
    | none => false
  let (c, ends) := s.flt.cmd.tryAbort seq can
  match ends, s.flt.run with
  | true, some m => s.rollback m CmdSt.abort
  | _, _ => s.modFlt fun x => { x with cmd := c }

/-! ### Logs -/

/-- FLT_LOGPOP (R374). -/
def State.popLog (s : State) : State := s.modFlt fun x => { x with log := x.log.drop 1 }

/-- FLT_LWCLR empties the lost-write table that FLT_LWSEL names (R361). -/
def State.clearLost (s : State) : State := s.modChan (Fin.ofNat 16 (s.fld 59 0x184 12 9)) fun c => { c with lost := [] }

/-- DCH_ELCLR empties the error log (R283). -/
def State.clearElog (s : State) (n : Fin 16) : State := s.modChan n fun c => { c with elog := Chan.zero.elog }

/-! ### The scrub period (R373, R385, R403) -/

/-- A scrub pass falls due: a slice in RET wakes for it. -/
def State.scrubDue (s : State) (i : Fin 17) : State :=
  let x := s.slice i
  let due := s.reached (x.sw.scrubAt + BitVec.ofNat 48 (100000 * s.fld 59 0x108 11 0))
  if s.glb.stt == .enabled && due && !s.slFenced i && x.ctl.dom.a != .off && !x.ctl.resetting && !x.ctl.testing then
    (s.modSlice i fun x => { x with sw := { x.sw with scrubLeft := 16384, scrubAt := s.edge } }).wakeFor i false
  else s

/-! ### Links (R297, R298) -/

/-- Change a link. -/
def State.modLink (s : State) (l : LinkId) (f : LinkSt → LinkSt) : State :=
  { s with noc := { s.noc with links := tabSet .zero s.noc.links (linkKey l) (f (s.link l)) } }

/-- What NOC_LINKLOG says of a link; it has no code for a crossing (log entry 54). -/
def linkLogs : LinkId → Option (BitVec 2 × BitVec 3 × BitVec 3 × BitVec 3)
  | .hop net dir x y => some (BitVec.ofNat 2 net.val, BitVec.ofNat 3 dir.val, BitVec.ofNat 3 y.val, BitVec.ofNat 3 x.val)
  | .cross _ _ _ => none

/-- A link has failed: recorded if it is the first, and an UNCOR event of the network island, or of the port whose crossing it is. -/
def State.linkFails (s : State) (l : LinkId) : State :=
  let s := (s.modLink l fun k => { k with failed := true }).bump 58 0x010 7 0
  ({ s with noc := { s.noc with logged := s.noc.logged.or (linkLogs l) } } : State).uncorEv (linkSrc l)

/-- A replay on a link of the network, or in a crossing (R438). -/
def State.nocReplay (s : State) (l : LinkId) (again : Bool) : State :=
  let k := s.link l
  if k.failed || k.fails == 2 then s
  else
    let s := (s.bump 58 0x010 23 16).corrEv (linkSrc l)
    if !again then s.modLink l fun k => { k with fails := 0 }
    else if k.fails = 3 then s.linkFails l
    else s.modLink l fun k => { k with fails := k.fails + 1 }

/-- The lane test of a link ends: failing wires go to its spares, a CORR event (R350), or the link has failed. A test that finds no
failing wire repairs none, and a further failed replay fails the link: the model's choice (R298, log entry 54). -/
def State.laneTest (s : State) (l : LinkId) (bad : Nat) : State :=
  let k := s.link l
  if k.failed || k.fails != 2 then s
  else if 2 < k.spares + bad then s.linkFails l
  else
    let s := if bad = 0 then s else (s.bump 58 0x010 15 8).corrEv (linkSrc l)
    s.modLink l fun k => { k with fails := 3, spares := k.spares + bad }

end Sys2Proof.Machine
end

