-- ==== Sys2Proof/Machine/Csr.lean ====
section
/-! DEFINITION. What a read of a register returns (R405, R406, R409, R413, R414, R417 to R420, R427): the RO and MB fields as views of
the state they show, mailboxes with their snapshots, and the aperture. -/

namespace Sys2Proof.Machine

/-! ### Where a word is held (R410) -/

/-- The island that holds a word, by its fault source number; none for the network island. -/
def islandOf (n w : Nat) : Option Nat :=
  let o := 4 * w
  if 0x3C0 ≤ o then none
  else match pageOf n with
  | .slc i => if 0x100 ≤ o ∧ o < 0x140 then none else some i
  | .prt p => if o < 0x040 then none else some (17 + p)
  | .dch c => if o < 0x040 then none else some (41 + c)
  | _ => none

/-- A slice by its island number. -/
def islSlice (k : Nat) : Option (Fin 17) := if h : k < 17 then some ⟨k, h⟩ else none

/-- An island has a posted write that has not cleared (R415). -/
def State.islBusy (s : State) (k : Nat) : Bool := s.csr.posted.any (·.isl == k)

/-- The word belongs to a slice whose domains are OFF (R418). -/
def State.islOff (s : State) (k : Nat) : Bool :=
  match islSlice k with
  | some i => (s.slice i).ctl.dom.a == .off
  | none => false

/-- ST fields are writable (WOPEN, R411). -/
def State.stOpen (s : State) : Bool := s.glb.stt == .ready || s.glb.stt == .committed

/-! ### Views -/

/-- A number in its place. -/
def lay (lo v : Nat) : BitVec 32 := BitVec.ofNat 32 (v * 2 ^ lo)
/-- A bit in its place. -/
def layB (lo : Nat) (b : Bool) : BitVec 32 := lay lo b.toNat
/-- The bits of a predicate. -/
def mapBits (n : Nat) (p : Nat → Bool) : BitVec 32 := (List.range n).foldl (fun m k => m ||| layB k (p k)) 0

/-- RES and RSEQ of a command status. -/
def CmdSt.bits (c : CmdSt) : BitVec 32 := lay 30 c.res.code.toNat ||| lay 22 c.rseq.toNat
/-- RES, RSEQ, REFUSED and CAUSE in bits 7:0. -/
def CmdSt.bitsC (c : CmdSt) : BitVec 32 := c.bits ||| layB 21 c.refused ||| lay 0 c.cause.toNat

/-- STATE of GLB_CMDSTAT (R381). -/
def Stt.code : Stt → Nat
  | .reset => 0 | .fuse => 1 | .init => 2 | .train => 3 | .load => 4 | .ready => 5 | .committed => 6 | .enabled => 7
  | .disabling => 8

/-- A power state's code. -/
def Pwr.code : Pwr → Nat
  | .on => 0 | .ret => 1 | .off => 2

/-- STATE of PAR_CFGq. -/
def PState.code : PState → Nat
  | .run => 0 | .freezing => 1 | .frozen => 2 | .resetting => 3

/-- KIND of FLT_MOVE. -/
def MoveKind.code : MoveKind → Nat
  | .none => 0 | .evac => 1 | .takeover => 2 | .ret => 3 | .buddy => 4 | .ltMove => 5 | .ltBack => 6

/-- PHASE of TST_LTSTAT. -/
def LtPhase.code : LtPhase → Nat
  | .none => 0 | .move => 1 | .test => 2 | .back => 3

/-- STATE of SLC_MSCSTAT. -/
def MscMode.code : MscMode → Nat
  | .off => 0 | .init => 1 | .on => 2 | .drain => 3

/-- One byte of GLB_HOMEMAP. -/
def State.homeByte (s : State) (h : Fin 16) : Nat :=
  (if s.glb.route.active && s.glb.route.home == h then 0x80 else 0) + (if s.degraded h then 0x40 else 0) +
    (match s.serving h with | some i => i.val | none => 0x1F)

/-- The 128 bits of a fault-log entry (R374). -/
def LogEnt.bits (e : LogEnt) : BitVec 128 := e.ty ++ e.src ++ e.ag ++ e.part ++ e.pa ++ (0 : BitVec 7) ++ e.time

/-- GLB page. -/
def State.glbView (s : State) (o : Nat) : BitVec 32 :=
  if 0x130 ≤ o ∧ o < 0x140 then
    let k := (o - 0x130) / 4
    (List.range 4).foldl (fun v j => v ||| lay (8 * j) (s.homeByte (Fin.ofNat 16 (4 * k + j)))) 0
  else match o with
  | 0x018 => mapBits 32 s.islBusy
  | 0x01C => mapBits 25 fun k => s.islBusy (32 + k)
  | 0x024 => s.glb.cmd.bitsC ||| layB 20 s.glb.cmd.cmdref ||| lay 16 s.glb.stt.code
  | 0x02C =>
    let fr := (List.range 64).filter fun q =>
      (s.part (BitVec.ofNat 6 q)).st == .freezing || (s.part (BitVec.ofNat 6 q)).st == .frozen
    layB 31 s.glb.det ||| layB 30 (s.tst.phase != .none) |||
      lay 25 (if s.tst.phase = .none then 0 else s.tst.ltSlice.toNat) ||| lay 0 fr.length
  | 0x034 => s.glb.bc.st.bits ||| layB 21 s.glb.bc.all ||| layB 20 (!s.glb.bc.sweep.isEmpty) ||| lay 0 s.glb.bc.homes.toNat
  | 0x140 => layB 31 s.glb.route.active ||| lay 24 s.glb.route.dest.toNat ||| lay 16 s.glb.route.home.val |||
      lay 0 s.glb.route.wm.toNat
  | 0x160 => s.now.extractLsb' 0 32
  | 0x164 => layB 31 true ||| (s.now.extractLsb' 32 16).zeroExtend 32
  | 0x210 => s.glb.ld.st.bits ||| layB 21 s.glb.ld.st.cmdref ||| lay 0 s.glb.ld.st.cause.toNat
  | 0x214 => s.glb.ld.fail.zeroExtend 32
  | 0x218 => s.glb.ld.ver
  | _ => 0

/-- SLC pages. -/
def State.slcView (s : State) (i : Fin 17) (o : Nat) : BitVec 32 :=
  let x := s.slice i
  match o with
  | 0x104 => x.ctl.fn.bits ||| layB 21 x.ctl.fn.refused ||| lay 16 x.ctl.fn.cause.toNat ||| lay 4 x.ctl.dom.a.code |||
      lay 2 x.ctl.dom.b.code ||| lay 0 (if i.val = 16 then x.ctl.dom.b.code else x.ctl.dom.c.code)
  | 0x108 => x.ar.init.zeroExtend 32
  | 0x208 => x.sw.sfSt.bits ||| lay 0 (x.ar.repl.filter fun e => e.2.getLsbD 15).length
  | 0x218 => lay 16 x.recs.length ||| lay 0 (x.ents.filter fun e => e.2.opens).length
  | 0x264 =>
    let parked := x.ents.filter fun e => match e.2.stat with | .parked _ _ _ _ _ _ => true | _ => false
    lay 28 x.lmm.toNat ||| lay 14 parked.length ||| lay 0 x.ents.length
  | 0x284 => x.uc.st.bits ||| layB 21 x.uc.st.refused ||| lay 18 x.uc.valid.toNat ||| layB 17 x.uc.active ||| lay 0 x.oldUsers
  | 0x288 => lay 26 x.uc.gcRule.toNat ||| lay 17 x.uc.gcVte.toNat ||| lay 7 x.uc.gcClause.toNat ||| lay 0 x.uc.gcStep.toNat
  | 0x2A8 => x.mem.ctl.st.bits ||| lay 20 x.mem.ctl.mode.code ||| layB 19 x.mem.ctl.st.refused |||
      lay 15 x.mem.ctl.epoch.toNat ||| lay 0 (x.filledAt (x.mem.ctl.epoch + 1))
  | 0x2B4 => lay 16 (x.mem.wmb.filter (·.issued)).length ||| lay 8 (x.mem.wmb.filter fun w => !w.issued).length |||
      lay 0 x.mem.fencedLog.toNat
  | _ => 0

/-- STATE of DCH_MIRSTAT; a mirrored channel whose partner is fenced too shows 0b10 as it does alone, by the model's choice (R287, log
entry 48). -/
def State.mirState (s : State) (n : Fin 16) : Nat :=
  if !s.mirrored n then 0 else if (s.chan n).mir.mode = .resync then 3 else if s.chFenced n then 2 else 1

/-- DCH pages. WM shows the 2^20 units of a full copy of 2^32 lines as 0, by the model's choice (R287, log entry 48). -/
def State.dchView (s : State) (n : Fin 16) (o : Nat) : BitVec 32 :=
  let c := s.chan n
  match o with
  | 0x014 => c.rst.bits ||| layB 0 (s.chFenced n)
  | 0x158 => layB 31 c.hot ||| layB 30 (s.detHome n) |||
      (List.range 4).foldl (fun v r => v ||| lay (4 * r) (min 15 ((c.rank r).owed + (c.rank r).due))) 0
  | 0x168 => c.trn.st.bits ||| layB 21 c.trn.fail ||| lay 0 c.trn.failRank.toNat
  | 0x170 =>
    let k := 16 * s.fld (dchPage n) 0x16C 5 4 + s.fld (dchPage n) 0x16C 3 0
    let r := c.trn.resOf k
    layB 31 (tabGet none c.trn.res k).isSome ||| lay 21 r.wwid.toNat ||| lay 14 r.wctr.toNat ||| lay 7 r.rwid.toNat |||
      lay 0 r.rctr.toNat
  | 0x184 => c.elog.pa.extractLsb' 0 32
  | 0x188 => layB 31 c.elog.vld ||| layB 30 c.elog.ovf ||| lay 28 c.elog.ty.toNat ||| lay 24 c.elog.dev.toNat |||
      lay 22 c.elog.rank.toNat ||| layB 21 c.elog.sub ||| (c.elog.pa.extractLsb' 32 14).zeroExtend 32
  | 0x194 => c.mir.st.bits ||| lay 20 (s.mirState n) ||| lay 0 (c.mir.wm / 2 ^ 12 % 2 ^ 20)
  | _ => 0

/-- PRT pages. -/
def State.prtView (s : State) (p : Fin 24) (o : Nat) : BitVec 32 :=
  let x := s.port p
  if 0x200 ≤ o ∧ o < 0x300 then
    let q : PartId := BitVec.ofNat 6 ((o - 0x200) / 4)
    lay 16 (x.dIss q).toNat ||| lay 0 (x.rIss q).toNat
  else match o with
  | 0x014 => x.rst.bits ||| layB 0 (s.portFenced p)
  | 0x300 => layB 31 x.panic
  | _ => 0

/-- NOC page. -/
def State.nocView (s : State) (o : Nat) : BitVec 32 :=
  match o with
  | 0x014 => match s.noc.logged with
    | none => 0
    | some (net, dir, y, x) => layB 31 true ||| lay 12 net.toNat ||| lay 9 dir.toNat ||| lay 6 y.toNat ||| lay 3 x.toNat
  | 0x018 => mapBits 17 fun i => !(s.slice (Fin.ofNat 17 i)).wakeHold.isEmpty
  | _ => 0

/-- The lost-write entry that FLT_LWSEL selects. -/
def State.lostSel (s : State) : Option MemAddr := (s.chan (Fin.ofNat 16 (s.fld 59 0x184 12 9))).lost[s.fld 59 0x184 8 0]?

/-- FLT page. -/
def State.fltView (s : State) (o : Nat) : BitVec 32 :=
  if 0x110 ≤ o ∧ o < 0x140 then
    let k := 32 * ((o % 16) / 4)
    mapBits 32 fun j =>
      let x := s.src (k + j)
      if o < 0x120 then x.severe else if o < 0x130 then x.fenced else x.acked
  else if 0x170 ≤ o ∧ o < 0x180 then
    ((s.flt.log.head?.map LogEnt.bits).getD 0).extractLsb' (8 * (o - 0x170)) 32
  else match o with
  | 0x144 =>
    let x := s.src (s.fld 59 0x140 6 0)
    lay 24 x.seq.toNat ||| lay 16 x.corr.toNat ||| lay 8 x.uncor.toNat ||| lay 0 (min 255 x.count)
  | 0x148 => mapBits 17 fun i => (s.slice (Fin.ofNat 17 i)).sweeping
  | 0x154 => s.flt.cmd.bitsC
  | 0x158 => lay 29 s.flt.lastKind.code ||| layB 28 s.flt.lastRb ||| lay 23 s.flt.lastSrc.toNat |||
      lay 19 s.flt.lastHome.toNat ||| lay 14 s.flt.lastDest.toNat
  | 0x15C => layB 31 s.flt.alive ||| layB 30 s.flt.stopped ||| layB 29 s.unacked ||| lay 0 (s.standing.headD 0)
  | 0x160 => layB 15 (!s.flt.log.isEmpty) ||| lay 0 s.flt.log.length
  | 0x188 => lay 0 (s.chan (Fin.ofNat 16 (s.fld 59 0x184 12 9))).lost.length
  | 0x18C => ((s.lostSel.map MemAddr.pa).getD 0).extractLsb' 0 32
  | 0x190 => layB 31 s.lostSel.isSome ||| (((s.lostSel.map MemAddr.pa).getD 0).extractLsb' 32 14).zeroExtend 32
  | _ => 0

/-- PAR page. -/
def State.parView (s : State) (o : Nat) : BitVec 32 :=
  if o < 0x100 then
    let x := s.part (BitVec.ofNat 6 (o / 4))
    lay 24 x.st.code ||| lay 0 x.gen.toNat
  else match o with
  | 0x304 => s.par.cmd.bitsC ||| layB 20 s.par.cmd.cmdref ||| lay 8 s.par.skip.toNat
  | 0x318 =>
    let x := s.part (BitVec.ofNat 6 (s.fld 60 0x314 5 0))
    lay 24 x.seq.toNat ||| lay 16 x.stale.toNat ||| lay 8 x.errPart.toNat
  | _ => 0

/-- IDF page (R427): zero until the bundle is latched. -/
def State.idfView (s : State) (o : Nat) : BitVec 32 :=
  let f := s.glb.fuse
  if !f.done then 0
  else if 0x120 ≤ o ∧ o < 0x150 then f.keyHash ((o - 0x120) / 4)
  else if 0x180 ≤ o ∧ o < 0x1C0 then f.word ((o - 0x180) / 4)
  else match o with
  | 0x100 => 0xC0162100
  | 0x104 => lay 16 Config.fpid
  | 0x108 => layB 31 true ||| layB 30 f.ok ||| layB 29 (!f.ok)
  | 0x10C => f.trust.zeroExtend 32
  | 0x110 => lay 4 f.maxPart ||| layB 3 f.spare ||| layB 2 f.detPermit ||| layB 1 f.dbgLock ||| layB 0 f.apLock
  | 0x114 => f.rollback
  | _ => 0

/-- TST page. -/
def State.tstView (s : State) (o : Nat) : BitVec 32 :=
  let t := s.tst
  if 0x120 ≤ o ∧ o < 0x130 then t.ares.extractLsb' (8 * (o - 0x120)) 32
  else if 0x1C0 ≤ o ∧ o < 0x200 then
    let v := tabGet 0 t.pc ((o - 0x1C0) / 8)
    if o % 8 = 0 then v.extractLsb' 0 32 else (v.extractLsb' 32 16).zeroExtend 32
  else match o with
  | 0x104 => t.lt.bits ||| layB 21 t.lt.refused ||| lay 19 t.phase.code ||| layB 18 t.pass ||| lay 14 (t.lt.cause.toNat % 16) |||
      lay 10 t.repaired.toNat ||| lay 0 t.failArr.toNat
  | 0x118 => t.acmd.bits ||| layB 21 t.acmd.refused ||| lay 18 (t.acmd.cause.toNat % 8) ||| layB 13 t.wrapped |||
      layB 12 t.stopped ||| lay 0 t.wptr.toNat
  | _ => 0

/-- The common block of a page. -/
def State.commonView (s : State) (n o : Nat) : BitVec 32 :=
  match o with
  | 0x3F0 => BitVec.ofNat 32 (pageId (pageOf n))
  | 0x3F4 =>
    let isl := match pageOf n with | .slc i => some i | .prt p => some (17 + p) | .dch c => some (41 + c) | _ => none
    layB 23 (match isl with | some k => s.islBusy k | none => false) ||| layB 22 s.stOpen ||| layB 21 (s.crcv n)
  | 0x3F8 => s.rcrc n
  | _ => 0

/-- The fields of a word that no write and no SQ event stores: RO, MB, and the selected views FLT_SRCSTAT and PAR_CNT. -/
def State.roView (s : State) (n w : Nat) : BitVec 32 :=
  let o := 4 * w
  if 0x3C0 ≤ o then s.commonView n o
  else match pageOf n with
  | .glb => s.glbView o
  | .slc i => s.slcView (Fin.ofNat 17 i) o
  | .dch c => s.dchView (Fin.ofNat 16 c) o
  | .prt p => s.prtView (Fin.ofNat 24 p) o
  | .noc => s.nocView o
  | .flt => s.fltView o
  | .par => s.parView o
  | .svc => if o = 0x130 then s.svc.bitsC else 0
  | .idf => s.idfView o
  | .tst => s.tstView o

/-- The value of a word, mailboxes as they stand: zero where no register is, on the closed TST page, and in WO fields; the reset
values of an unpowered slice 16; the shadow and reset values of a slice that is OFF (R406, R409, R418). -/
def State.wordNow (s : State) (n w : Nat) : BitVec 32 :=
  let fs := regFields n w
  let kept := s.reg n w &&& kindMask fs FieldKind.stored
  let rst := resetWord (fs.filter fun f => f.kind != .wo)
  if pageOf n == .tst && decide (4 * w < 0x3C0) && s.tstClosed then 0
  else match islandOf n w with
  | some k =>
    if s.dark k then rst
    else if s.islOff k then
      let m := kindMask fs fun f => f == .st || f == .lv
      (s.reg n w &&& m) ||| (rst &&& ~~~m)
    else
      let v := kept ||| s.roView n w
      (match pageOf n with
       | .dch c => if 4 * w = 0x154 ∧ s.detHome (Fin.ofNat 16 c) then v &&& 0x0FFFFFFF else v
       | _ => v)
  | none => match pageOf n with
    | .slc i => if s.dark i && decide (4 * w < 0x3C0) then rst else kept ||| s.roView n w
    | _ => kept ||| s.roView n w

/-! ### Mailboxes (R414) -/

/-- The mailbox of more than one word to which a word belongs: its trigger and how many words it has. -/
def mailboxOf (n w : Nat) : Option (Nat × Nat) :=
  let o := 4 * w
  match pageOf n with
  | .glb => if o = 0x160 ∨ o = 0x164 then some (0x58, 2) else none
  | .dch _ => if o = 0x184 ∨ o = 0x188 then some (0x61, 2) else none
  | .flt => if 0x170 ≤ o ∧ o < 0x180 then some (0x5C, 4) else if o = 0x18C ∨ o = 0x190 then some (0x63, 2) else none
  | .tst => if 0x1C0 ≤ o ∧ o < 0x200 then some (2 * (w / 2), 2) else none
  | _ => none

/-- The latest snapshot of a mailbox that a path has taken. -/
def State.snap (s : State) (path : CsrPath) (key : Nat) : Option (List (BitVec 32)) :=
  (s.csr.snaps.find? fun e => e.1 == path && e.2.1 == key).map fun e => e.2.2

/-- Take a snapshot. -/
def State.setSnap (s : State) (path : CsrPath) (key : Nat) (l : List (BitVec 32)) : State :=
  s.modCsr fun c => { c with snaps := (c.snaps.filter fun e => !(e.1 == path && e.2.1 == key)) ++ [(path, key, l)] }

/-- A read of one word. -/
def State.csrReadWord (s : State) (path : CsrPath) (n w : Nat) : State × BitVec 32 :=
  if pageOf n == .tst && decide (4 * w < 0x3C0) && s.tstClosed then (s, 0)
  else match mailboxOf n w with
  | none => (s, s.wordNow n w)
  | some (t, k) =>
    let key := 256 * n + t
    if w = t then (s.setSnap path key ((List.range k).map fun j => s.wordNow n (t + j)), s.wordNow n w)
    else match s.snap path key with
      | some l => (s, l.getD (w - t) 0)
      | none => (s, resetWord ((regFields n w).filter fun f => f.kind != .wo))

/-! ### The aperture (R405, R419) -/

/-- What a word of the aperture is. -/
inductive CsrSpot where
  | word (n w : Nat)
  | hole
  | bitAlias (n w b : Nat)
  deriving DecidableEq, Repr

/-- The word at a byte offset of the aperture. -/
def spotOf (off : Nat) : CsrSpot :=
  if off < 0x40000 then .word (off / 4096) (off % 0x400 / 4)
  else if off < 0x200000 then .hole
  else
    let k := (off - 0x200000) / 4
    .bitAlias (k / 8192) (k / 32 % 256) (k % 32)

/-- A word holds fields that an alias access may not touch: SQ, MB, WO (R420). -/
def aliasBarred (n w : Nat) : Bool := (regFields n w).any fun f => f.kind == .sq || f.kind == .mb || f.kind == .wo

/-- A refused alias access is counted (R420). -/
def State.aliasCount (s : State) : State := s.bump 0 0x014 7 0

/-- A read of the word at an offset of the aperture. -/
def State.csrReadAt (s : State) (path : CsrPath) (off : Nat) : State × BitVec 32 :=
  match spotOf off with
  | .word n w => s.csrReadWord path n w
  | .hole => (s, 0)
  | .bitAlias n w b =>
    if (regFields n w).isEmpty then (s, 0)
    else if aliasBarred n w then (s.aliasCount, 0)
    else (s, layB 0 ((s.wordNow n w).getLsbD b))

end Sys2Proof.Machine
end

