-- ==== Sys2Proof/Machine/CsrWrite.lean ====
section
/-! DEFINITION. What a write of a register does (R12, R14, R62, R300, R305, R336, R337, R376 to R378, R384, R411 to R420, R424): the
values a field accepts, SQ clears, command words, posting, and the running CRC (R421 to R423). -/

namespace Sys2Proof.Machine

/-! ### Values that are not reserved (R14) -/

/-- GLB and FLT fields. -/
def glbFltOk (flt : Bool) (o lo v : Nat) : Bool :=
  if flt then
    (if o = 0x100 then decide (1 ≤ v)
     else if o = 0x104 then decide (v ≤ if lo = 2 then 2 else 1)
     else if o = 0x108 then decide (100 ≤ v) && decide (v ≤ 2000)
     else if o = 0x140 then decide (v ≤ 57) || (decide (64 ≤ v) && decide (v ≤ 126))
     else if o = 0x184 ∧ lo = 0 then decide (v ≤ 383)
     else true)
  else if o = 0x174 then decide (1 ≤ v) && decide (v ≤ 10000)
  else true

/-- DCH fields. -/
def dchOk (o lo v : Nat) : Bool :=
  if o = 0x100 then (if lo = 10 then decide (v ≤ 1) else if lo = 8 ∨ lo = 4 then decide (v ≤ 2) else decide (v ≤ 4))
  else if o = 0x150 then
    (if lo = 24 then decide (16 ≤ v) else if lo = 8 then decide (2 ≤ v) && decide (v ≤ 64) else true)
  else if o = 0x154 then (if lo = 28 then decide (v ≤ 8) else if lo = 16 then decide (1 ≤ v) else true)
  else if o = 0x160 then decide (1 ≤ v)
  else if o = 0x16C then lo != 0 || decide (v ≤ 9)
  else true

/-- PRT, NOC, PAR and TST fields. -/
def restOk (p : Page) (o lo v : Nat) : Bool :=
  match p with
  | .prt _ => if 0x040 ≤ o ∧ o < 0x050 ∧ lo = 0 then decide (50 ≤ v) && decide (v ≤ 2000) else true
  | .noc => lo != 0 || decide (1 ≤ v)
  | .par =>
    if 0x100 ≤ o ∧ o < 0x200 then decide (v ≤ if lo = 16 then 512 else 8184)
    else if 0x200 ≤ o ∧ o < 0x300 then decide (v ≤ if lo = 16 then 1024 else 512)
    else true
  | .tst =>
    if o = 0x140 then (if lo = 29 then decide (v ≤ 2) else if lo = 20 then decide (1 ≤ v) && decide (v ≤ 6) else true)
    else if 0x180 ≤ o ∧ o < 0x1A0 then
      (if lo = 8 then decide (v ≤ 16) || v == 31 else if lo = 0 then decide (1 ≤ v) && decide (v ≤ 14) else true)
    else true
  | _ => true

/-- The value is an encoding of the field. -/
def fieldOk (n w lo v : Nat) : Bool :=
  let o := 4 * w
  match pageOf n with
  | .glb => glbFltOk false o lo v
  | .flt => glbFltOk true o lo v
  | .slc _ => slcOk o lo v
  | .dch _ => dchOk o lo v
  | p => restOk p o lo v

/-- Bits of ST and LV fields that are RO as the fuses stand (R336, R405). -/
def State.roNow (s : State) (n w : Nat) : BitVec 32 :=
  let o := 4 * w
  let cap := s.glb.fuse.maxPart
  match pageOf n with
  | .glb => if o = 0x010 ∧ s.glb.fuse.apLock then 0xFFFFFFFF else 0
  | .par => if o < 0x100 ∧ cap ≤ w then 0x80000000 else 0
  | .prt _ => if 0x060 ≤ o ∧ o < 0x080 then mapBits 32 fun b => decide (cap ≤ 32 * (w % 2) + b) else 0
  | _ => 0

/-- The mask of one field of a word. -/
def bitsAt (hi lo : Nat) : BitVec 32 := ({ hi := hi, lo := lo, kind := .lv, rst := 0 } : Field).mask

/-- The sum of a field over the PRT_PCREDq of a port, when that of word `w` is `v`. -/
def State.pcredSum (s : State) (n w hi lo v : Nat) : Nat :=
  (List.range 64).foldl (fun t q => t + if 0x40 + q = w then v else s.fld n (0x100 + 4 * q) hi lo) 0

/-- The bits that must keep their value because fields of the word `x` do not agree with one another, with other registers or
with a state (R62, R335, R337, PRT_PANIC, DCH_SCHED). -/
def State.crossBad (s : State) (n w : Nat) (x : BitVec 32) : BitVec 32 :=
  let o := 4 * w
  let f (hi lo : Nat) : Nat := (x.toNat >>> lo) % 2 ^ (hi - lo + 1)
  match pageOf n with
  | .prt p =>
    if o = 0x300 then (if f 3 0 < f 11 8 then 0 else 0xF0F)
    else if 0x100 ≤ o ∧ o < 0x200 then
      (if s.pcredSum n w 14 0 (f 14 0) ≤ (if p < 20 then 2048 else 32768) ∧
          s.pcredSum n w 24 16 (f 24 16) ≤ (if p < 20 then 128 else 512) then 0 else 0xFFFFFFFF)
    else 0
  | .dch _ => if o = 0x150 ∧ f 14 8 ≤ f 5 0 then bitsAt 14 8 ||| bitsAt 5 0 else 0
  | .par =>
    if o < 0x100 then
      (if s.flag 60 o 31 && f 31 31 == 0 && (s.part (BitVec.ofNat 6 w)).st != .frozen then 0x80000000 else 0)
    else if o < 0x200 then
      (if s.hcredBound + s.fld 60 o 13 0 < s.credSum false + f 13 0 then bitsAt 13 0 else 0) |||
        (if 512 + s.fld 60 o 25 16 < s.credSum true + f 25 16 then bitsAt 25 16 else 0)
    else 0
  | _ => 0

/-- What a write of the bits `m` makes of the ST and LV fields of a word, and whether a field keeps its value for a configuration
fault. -/
def State.newFields (s : State) (n w : Nat) (v m : BitVec 32) : BitVec 32 × Bool :=
  let cur := s.reg n w
  let ok := kindMask (regFields n w) (fun k => k == .st || k == .lv) &&& ~~~(s.roNow n w) &&& m
  let x := (cur &&& ~~~ok) ||| (v &&& ok)
  let bad := (regFields n w).foldl (fun b f =>
    if (f.mask &&& ok) != 0 && !fieldOk n w f.lo (f.val x) then b ||| f.mask else b) 0
  let x := (x &&& ~~~bad) ||| (cur &&& bad)
  let cross := if x = cur then 0 else s.crossBad n w x
  ((x &&& ~~~cross) ||| (cur &&& cross), bad != 0 || cross != 0)

/-! ### What a new value starts -/

/-- The home whose buddy uses a copy of this slice's slot table (R424). -/
def State.copyHome (s : State) (i : Fin 17) : Option (Fin 16) := (s.slice i).ctl.retained.filter s.degraded

/-- A regulator's register has a new value (R300): EN raised fills its buckets, a lower DEPTH cuts them. -/
def State.regulatorSet (s : State) (o : Nat) (old : BitVec 32) : State :=
  let q : PartId := BitVec.ofNat 6 ((o - 0x100) / 8)
  let c := (o / 4) % 2 == 1
  let rise := !old.getLsbD 31 && s.regulates q c
  s.eachPort fun s p => s.modPort p fun x =>
    x.setBucket q c (if rise then s.bucketTop q c else min (x.bucket q c) (s.bucketTop q c))

/-- A word of a page has taken a new value. -/
def State.wordHook (s : State) (n w : Nat) (old : BitVec 32) : State :=
  let o := 4 * w
  match pageOf n with
  | .prt p =>
    let p : Fin 24 := Fin.ofNat 24 p
    if 0x100 ≤ o ∧ o < 0x200 then s.issue p (BitVec.ofNat 6 (w - 0x40))
    else if o = 0x300 then s.panicLevel p (s.port p).panicLvl
    else s
  | .par =>
    if o < 0x100 ∧ !old.getLsbD 31 ∧ s.flag 60 o 31 then s.eachPort fun s p => s.issue p (BitVec.ofNat 6 w) else s
  | .noc => if 0x100 ≤ o ∧ o < 0x300 then s.regulatorSet o old else s
  | .slc i =>
    let i : Fin 17 := Fin.ofNat 17 i
    if o = 0x350 then s.modSlice i fun x => { x with arb := { x.arb with sinceLw := 0 } }
    else if 0x300 ≤ o ∧ o < 0x350 then
      (match s.copyHome i with
       | some h => s.modGlb fun g => { g with slotCopy := tabSet 0 g.slotCopy (slotKey h (w - 0xC0)) (s.reg n w) }
       | none => s)
    else s
  | _ => s

/-- A configuration fault by a write (R14, R378): CFGF and WORD in the page's common STAT, and the log. -/
def State.badWrite (s : State) (n w : Nat) : State :=
  (s.pageEv n 15 w).cfgFault ((islandOf n w).getD srcNet)

/-! ### SQ registers (R413) -/

/-- The SQ bits of a word. -/
def sqMask (n w : Nat) : BitVec 32 := kindMask (regFields n w) (· == .sq)

/-- The bits of a word that only a view of the state shows among its SQ fields: FLT_SRCSTAT and PAR_CNT. -/
def sqSelected (n w : Nat) : Bool := (n == 59 && w == 0x51) || (n == 60 && w == 0xC6)

/-- The SQ fields of a word as they stand. -/
def State.sqNow (s : State) (n w : Nat) : BitVec 32 :=
  (if sqSelected n w then s.roView n w else s.reg n w) &&& sqMask n w

/-- A write of a register with SQ fields clears it when every SQ field of the value equals the current one; SEQ stays. -/
def State.sqWrite (s : State) (n w : Nat) (v : BitVec 32) : State :=
  if v &&& sqMask n w ≠ s.sqNow n w then s
  else if n = 59 ∧ w = 0x51 then s.modSrc (s.fld 59 0x140 6 0) fun x => { x with corr := 0, uncor := 0 }
  else if n = 60 ∧ w = 0xC6 then s.modPart (BitVec.ofNat 6 (s.fld 60 0x314 5 0)) fun x => { x with stale := 0, errPart := 0 }
  else s.setReg n w (s.reg n w &&& ~~~(sqMask n w &&& 0x00FFFFFF))

/-! ### Command words (R376 to R378) -/

/-- SUKCLR (R98). -/
def State.sukclrCmd (s : State) (i : Fin 17) (seq : BitVec 8) : State :=
  if !(s.slice i).sw.sfSt.accepts seq then s
  else s.modSlice i fun x => { x with sw := { x.sw with sfSt := x.sw.sfSt.accept seq, suk := some 0 } }

/-- The abort of a SUKCLR: sets not yet visited keep their mark. -/
def State.sukclrAbortCmd (s : State) (i : Fin 17) (seq : BitVec 8) : State :=
  let (c, ends) := (s.slice i).sw.sfSt.tryAbort seq true
  let s := s.modSlice i fun x => { x with sw := { x.sw with sfSt := c, suk := if ends then none else x.sw.suk } }
  if ends then s.done (slcPage i) else s

/-- A descriptor command is accepted: REFUSED and CAUSE tell of the last WRITE (SVC_QSTAT). -/
def State.qdescAccept (s : State) (op : BitVec 2) (seq : BitVec 8) : CmdSt :=
  if op = 1 then s.svc.accept seq else { s.svc.accept seq with refused := s.svc.refused, cause := s.svc.cause }

/-- A descriptor command (R328): refused at acceptance, or sent as a transaction of the serving slice on the handle line. For a
home with no serving slice, or a DEGRADED one, it ends aborted. -/
def State.qdescCmd (s : State) (op : BitVec 2) (seq : BitVec 8) (h : Fin 16) (idx : BitVec 9) : State :=
  if !s.svc.accepts seq then s
  else
    let v := s.qdescRegs
    let dec := QDesc.dec v
    match if s.degraded h then none else s.serving h with
    | none => ({ s with svc := (s.qdescAccept op seq).abort } : State).done 61
    | some i =>
      let cause := if op = 1 ∧ dec.v then s.descCause h i idx.toNat dec else 0
      if cause ≠ 0 then ({ s with svc := s.svc.refuse seq cause } : State).done 61
      else
        let held := (s.slice (s.svcSlice i)).desc idx.toNat
        let pa := s.handleLine (if op = 1 ∧ dec.v then dec.handle else held.handle)
        let r : Req := ⟨.qdesc op idx seq v, ⟨63, 0, 0, 0, pa, 0⟩, none, h, false, s.edge, none, 0, false⟩
        ({ s with svc := s.qdescAccept op seq } : State).sendReq .csr ((s.servingSlice h pa).getD i) 24 r

/-- The commands of a GLB page's word. -/
def State.glbCommand (s : State) (o op : Nat) (seq : BitVec 8) (v : BitVec 32) : Option State :=
  let h : Fin 16 := Fin.ofNat 16 (v.extractLsb' 16 4).toNat
  match o, op with
  | 0x020, 1 => some (s.commitCmd seq)
  | 0x020, 2 => some (s.enableCmd seq)
  | 0x020, 3 => some (s.disableCmd seq)
  | 0x030, 1 => some (s.bcastSetCmd seq (v.getLsbD 20) h)
  | 0x030, 2 => some (s.bcastClearCmd seq (v.getLsbD 20) h)
  | 0x030, 3 => some (s.bcastAbortCmd seq)
  | 0x200, 1 => some (s.loadCmd seq)
  | 0x200, 2 => some (s.loadAbort seq)
  | _, _ => none

/-- The commands of an SLC page's words. -/
def State.slcCommand (s : State) (i : Fin 17) (o op : Nat) (seq : BitVec 8) : Option State :=
  match o, op with
  | 0x100, 1 => some (s.sleepCmd i seq)
  | 0x100, 2 => some (s.sleepcCmd i seq)
  | 0x100, 3 => some (s.offCmd i seq)
  | 0x100, 4 => some (s.wakeCmd i seq)
  | 0x100, 5 => some (s.slcResetCmd i seq)
  | 0x204, 1 => some (s.sukclrCmd i seq)
  | 0x204, 2 => some (s.sukclrAbortCmd i seq)
  | 0x280, 1 => some (s.switchCmd i seq)
  | 0x2A4, 1 => some (s.mscEnableCmd i seq)
  | 0x2A4, 2 => some (s.mscDisableCmd i seq)
  | 0x2A4, 3 => some (s.mscAbortCmd i seq)
  | _, _ => none

/-- The commands of a DCH page's words; any value written to DCH_ELCLR clears the error log. -/
def State.dchCommand (s : State) (n : Fin 16) (o op : Nat) (seq : BitVec 8) : Option State :=
  match o, op with
  | 0x010, 1 => some (s.chanResetCmd n seq)
  | 0x010, 2 => some (s.chanResetAbort n seq)
  | 0x164, 1 => some (s.trainCmd n seq)
  | 0x164, 2 => some (s.trainAbort n seq)
  | 0x18C, _ => some (s.clearElog n)
  | 0x190, 1 => some (s.resyncCmd n seq)
  | 0x190, 2 => some (s.resyncAbort n seq)
  | _, _ => none

/-- The commands of the FLT page's words; any value written to FLT_LOGPOP or FLT_LWCLR has the effect. -/
def State.fltCommand (s : State) (o op : Nat) (seq : BitVec 8) (v : BitVec 32) : Option State :=
  let src := (v.extractLsb' 16 7).toNat
  let h : Fin 16 := Fin.ofNat 16 (v.extractLsb' 16 4).toNat
  let d := v.extractLsb' 11 5
  match o, op with
  | 0x150, 1 => some (s.fenceCmd seq src)
  | 0x150, 2 => some (s.ackCmd seq src)
  | 0x150, 3 => some (s.evacCmd seq h d)
  | 0x150, 4 => some (s.returnCmd seq h d)
  | 0x150, 5 => some (s.moveAbortCmd seq)
  | 0x180, _ => some s.popLog
  | 0x194, _ => some s.clearLost
  | _, _ => none

/-- The commands of PAR_CMD. -/
def State.parCommand (s : State) (op : Nat) (seq : BitVec 8) (q : PartId) : Option State :=
  match op with
  | 1 => some (s.freezeCmd seq q)
  | 2 => some (s.thawCmd seq q)
  | 3 => some (s.saveCmd seq q)
  | 4 => some (s.restoreCmd seq q)
  | 5 => some (s.partResetCmd seq q)
  | 6 => some (s.parAbort seq)
  | _ => none

/-- The commands of the TST page's words, with the stores of TST_AOPND and TST_PCCLR. -/
def State.tstCommand (s : State) (o op : Nat) (seq : BitVec 8) (v : BitVec 32) : Option State :=
  let i := v.extractLsb' 16 5
  let arr := v.extractLsb' 12 4
  match o, op with
  | 0x100, 1 => some (s.ltStart seq i (v.extractLsb' 11 5) (v.getLsbD 10))
  | 0x100, 2 => some (s.ltAbort seq)
  | 0x110, 1 => some (s.remapRd seq i arr)
  | 0x110, 2 => some (s.remapWr seq i arr)
  | 0x110, 3 => some (s.injCmd seq i arr)
  | 0x110, 4 => some (s.trRead seq i)
  | 0x110, 5 => some (s.trClr seq i)
  | 0x114, _ => some (s.modTst fun t => { t with aopnd := v })
  | 0x200, _ => some (s.pcClr (v.extractLsb' 0 8))
  | _, _ => none

/-- A write of a word with WO fields: its command, or a configuration fault for a reserved OP (R378). -/
def State.cmdWrite (s : State) (n w : Nat) (v : BitVec 32) : State :=
  let o := 4 * w
  let seq := v.extractLsb' 24 8
  let op2 := (v.extractLsb' 0 2).toNat
  let op3 := (v.extractLsb' 0 3).toNat
  let r : Option State := match pageOf n with
    | .glb => s.glbCommand o op2 seq v
    | .slc i => s.slcCommand (Fin.ofNat 17 i) o (if o = 0x100 then op3 else op2) seq
    | .dch c => s.dchCommand (Fin.ofNat 16 c) o op2 seq
    | .prt p =>
      if op2 = 1 then some (s.portResetCmd (Fin.ofNat 24 p) seq)
      else if op2 = 2 then some (s.portResetAbort (Fin.ofNat 24 p) seq) else none
    | .flt => s.fltCommand o op3 seq v
    | .par => s.parCommand op3 seq (v.extractLsb' 16 6)
    | .svc =>
      if op2 = 0 then none
      else some (s.qdescCmd (BitVec.ofNat 2 op2) seq (Fin.ofNat 16 (v.extractLsb' 20 4).toNat) (v.extractLsb' 11 9))
    | .tst => s.tstCommand o (if o = 0x110 then op3 else op2) seq v
    | _ => some s
  match r with
  | some s => s
  | none => s.badWrite n w

/-! ### A write where the word is held (R412, R413) -/

/-- A write of the bits `m` of a word takes effect. -/
def State.applyWord (s : State) (n w : Nat) (v m : BitVec 32) : State :=
  let fs := regFields n w
  if fs.any (·.kind == .sq) then s.sqWrite n w v
  else if fs.any (·.kind == .wo) then s.cmdWrite n w v
  else if 4 * w = 0x3FC then
    (s.setReg n w ((s.reg n w &&& ~~~m) ||| (v &&& m))).setCrcv n true true
  else
    let (x, bad) := s.newFields n w v m
    let old := s.reg n w
    let s := if x = old then s else (s.setReg n w x).wordHook n w old
    if bad then s.badWrite n w else s

/-- An OFF slice: ST and LV fields take the value in the shadow, nothing else happens (R418). -/
def State.applyShadow (s : State) (n w : Nat) (v m : BitVec 32) : State :=
  let (x, bad) := s.newFields n w v m
  let old := s.reg n w
  let s := if x = old then s else (s.setReg n w x).wordHook n w old
  if bad then s.badWrite n w else s

/-! ### At the CSR block (R384, R411, R415 to R418, R422, R424) -/

/-- The ST bits of a word. -/
def stMask (n w : Nat) : BitVec 32 := kindMask (regFields n w) (· == .st)

/-- The bits of a write that are accepted: no ST bits while they are not writable (R411); a field that is RO as the fuses stand is
none (R12). -/
def State.openBits (s : State) (n w : Nat) (m : BitVec 32) : BitVec 32 :=
  if s.stOpen then m else m &&& ~~~(stMask n w &&& ~~~(s.roNow n w))

/-- What the acceptance of a write does: STATE returns to READY for an ST field, and CRCV is cleared where a covered field will
change. -/
def State.noteWrite (s : State) (n w : Nat) (v m : BitVec 32) : State :=
  let st := (m &&& stMask n w &&& ~~~(s.roNow n w)) != 0
  let diff := ((s.newFields n w v m).1 ^^^ s.reg n w) &&& crcMask n w
  let s := if st && s.glb.stt == .committed then s.modGlb fun g => { g with stt := .ready } else s
  if diff = 0 then s else s.setCrcv n false false

/-- The slice whose page an LV write to slice `i` is applied to as well: the destination of a running evacuation or LIVETEST
(R424). -/
def State.pageTwin (s : State) (i : Fin 17) : Option (Fin 17) :=
  (s.flt.run.bind fun m => if evacLike m.kind && m.src == i then some m.dst else none).or
    (if s.tst.phase == .test && s.underLt i && s.tst.ltHome.isSome then slcOf s.tst.ltDest else none)

/-- The word of an SLC page holds LV fields. -/
def lvWord (n w : Nat) : Bool := (regFields n w).any (·.kind == .lv)

/-- The other pages that a write of word `w` of page `n` is applied to. -/
def State.twinPages (s : State) (n w : Nat) : List Nat :=
  match pageOf n with
  | .slc i => if lvWord n w && decide (4 * w < 0x3C0) then ((s.pageTwin (Fin.ofNat 17 i)).map slcPage).toList else []
  | _ => []

/-- A posted write is sent to its island; a slice in RET wakes for it (R415, R418). -/
def State.postWrite (s : State) (k n w : Nat) (v : BitVec 32) (bit : Option (Fin 32)) : State :=
  let s := s.modCsr fun c => { c with posted := c.posted ++ [⟨k, n, w, v, bit, false, false⟩] }
  match islSlice k with
  | some i => if (s.slice i).ctl.dom.a == .ret then s.wakeFor i false else s
  | none => s

/-- A write of one word, or of one bit, reaches the CSR block. The flag is false for one that completes FAILED (R416). -/
def State.csrPut (s : State) (n w : Nat) (v : BitVec 32) (bit : Option (Fin 32)) : State × Bool :=
  let m : BitVec 32 := match bit with | some b => BitVec.ofNat 32 (2 ^ b.val) | none => 0xFFFFFFFF
  let m' := s.openBits n w m
  let ign (s : State) : State := if m' = m then s else s.pageEv n 14 w
  if (regFields n w).isEmpty then (s, true)
  else if pageOf n == .tst && decide (4 * w < 0x3C0) && s.tstClosed then (s, true)
  else
    let twins := s.twinPages n w
    let unpowered : Bool := match pageOf n with
      | .slc i => s.dark i && decide (4 * w < 0x3C0) && !(regFields n w).any fun (f : Field) => f.kind == .wo
      | _ => false
    match islandOf n w with
    | none => if unpowered then (s.pageEv n 13 w, true) else
      let s := twins.foldl (fun s t => (s.noteWrite t w v m').applyWord t w v m') ((s.noteWrite n w v m').applyWord n w v m')
      (ign (if 58 ≤ n ∨ n = 0 then s.setRcrc n (s.pageCrc n) else s), true)
    | some k =>
      if s.dark k then (s.pageEv n 13 w, true)
      else if s.islBusy k || twins.any fun t => s.islBusy (t - 1) then (s.bump 0 0x014 15 8, false)
      else if m' = 0 ∨ (regFields n w).all (fun f => f.kind == .st) ∧ m' ≠ m then (ign s, true)
      else if s.islOff k then (ign ((s.noteWrite n w v m').applyShadow n w v m'), true)
      else
        let one (s : State) (t k : Nat) : State := (s.noteWrite t w v m').postWrite k t w v bit
        (ign (twins.foldl (fun s t => one s t (t - 1)) (one s n k)), true)

/-! ### Posted writes at their island (R415, R417, R418) -/

/-- A posted write takes effect. -/
def State.landWrite (s : State) (x : Posted) : State :=
  let m : BitVec 32 := match x.bit with | some b => BitVec.ofNat 32 (2 ^ b.val) | none => 0xFFFFFFFF
  if s.islOff x.isl then s.applyShadow x.page x.word x.v m else s.applyWord x.page x.word x.v m

/-- The first write that an island has not applied takes effect once the island is awake. -/
def State.postedApply (s : State) (k : Nat) : State :=
  let ret : Bool := match islSlice k with
    | some i => (s.slice i).ctl.dom.a == .ret
    | none => false
  match s.csr.posted.find? fun x => x.isl == k && !x.applied with
  | some x =>
    if ret then s
    else (s.modCsr fun c => { c with posted := c.posted.map fun y => if y = x then { y with applied := true } else y }).landWrite x
  | none => s

/-! ### Passes of the configuration CRC (R418, R422, R423) -/

/-- A pass over a page ends: its value goes to the CRC word, is compared, and clears BUSY of writes it began after. -/
def State.crcPass (s : State) (n : Nat) : State :=
  if !s.pageAwake n then s
  else
    let v := s.pageCrc n
    let s := s.setRcrc n v
    let s := s.modCsr fun c => { c with posted := (c.posted.filter fun x => !(x.page == n && x.passSeen)).map fun x =>
      if x.page = n ∧ x.applied then { x with passSeen := true } else x }
    if tabGet false s.csr.crcWait n then s.modCsr fun c => { c with crcWait := tabSet false c.crcWait n false }
    else if s.crcv n && v != s.reg n 0xFF then
      (s.pageEv n 16 (s.fld n 0x3F4 7 0)).uncorEv (crcSource n)
    else s

/-- A page's CRCV has stayed 0 for another second while Efkar is ENABLED (R423). -/
def State.crcStale (s : State) (n : Nat) : State :=
  let since := tabGet 0 s.csr.staleAt n
  if s.glb.stt == .enabled && !s.crcv n && s.reached (since + 100000000) then
    (s.modCsr fun c => { c with staleAt := tabSet 0 c.staleAt n s.edge }).contractEv (crcSource n)
  else s

/-! ### The aperture (R405 to R408, R419, R420) -/

/-- A write of the word at a byte offset. -/
def State.csrSet (s : State) (off : Nat) (v : BitVec 32) : State × Bool :=
  match spotOf off with
  | .word n w => s.csrPut n w v none
  | .hole => (s, true)
  | .bitAlias n w b =>
    if (regFields n w).isEmpty then (s, true)
    else if aliasBarred n w then (s.aliasCount, true)
    else s.csrPut n w (if v.getLsbD 0 then 0xFFFFFFFF else 0) (some (Fin.ofNat 32 b))

/-- A request from a port is served only where the fuses trust the port (R407). -/
def State.trusted (s : State) (path : CsrPath) : Bool :=
  match path with
  | .port p => s.glb.fuse.trust.getLsbD p.val
  | .maint => true

/-- A request from an untrusted port: counted, and a contract event of the port. -/
def State.untrusted (s : State) (path : CsrPath) (part : PartId := 0) (pa : LineAddr := 0) : State :=
  match path with
  | .port p => (s.bump 0 0x014 23 16).contractEv (srcPort p) part pa
  | .maint => s

/-- The model's own note of a direct access: the word read, and whether the access was refused (log entry 7). -/
def State.answerCsr (s : State) (v : BitVec 32) (failed : Bool) : State := s.modCsr fun c => { c with resp := some (v, failed) }

/-- A direct write of a word of the aperture. -/
def State.csrWriteTo (s : State) (path : CsrPath) (off : Nat) (v : BitVec 32) : State :=
  if s.trusted path then
    let (s, ok) := s.csrSet off v
    s.answerCsr 0 !ok
  else (s.untrusted path).answerCsr 0 true

/-- Byte offset of a word of a page. -/
def pageOff (n w : Nat) : Nat := n * 4096 + 4 * w
/-- Byte offset of a bit's own word (R419). -/
def aliasOff (n w b : Nat) : Nat := 0x200000 + ((n * 256 + w) * 32 + b) * 4

/-! ### Reads (R159, R160, R417) -/

/-- The line of the aperture at a byte offset: its 16 words (R159). -/
def State.csrLine (s : State) (path : CsrPath) (off : Nat) : State × Line :=
  let (s, v) := (List.range 16).foldl (fun (a : State × Nat) k =>
    let (s, x) := a.1.csrReadAt path (off + 4 * k)
    (s, a.2 + x.toNat * 2 ^ (32 * k))) (s, 0)
  (s, BitVec.ofNat 512 v)

/-- The island that holds a word is BUSY: a read of it waits (R417). -/
def State.csrHolds (s : State) (off : Nat) : Bool :=
  match (match spotOf off with
    | .word n w => islandOf n w
    | .bitAlias n w _ => islandOf n w
    | .hole => none) with
  | some k => s.islBusy k
  | none => false

/-- The completion of a request to the aperture comes to its port (R159). -/
def State.csrAnswered (s : State) (p : Fin 24) (h : Held) (st : Status) (d : Option Line) : State :=
  match d with
  | some l => (s.sendDat .datCur h.a false .i l false).retReq p h.a.part
  | none => s.niComplete p h .comp st 0

/-- The CSR block completes a request of a port. -/
def State.csrReply (s : State) (p : Fin 24) (h : Held) (st : Status) (d : Option Line) : State :=
  s.carry (.csrEnd p h st d) .csr (.port p) false fun s => s.csrAnswered p h st d

/-- A read is served, with the values at this instant. -/
def State.csrReadNow (s : State) (w : CsrWait) : State :=
  match w.who with
  | .port p h =>
    let (s, l) := s.csrLine (.port p) w.off
    s.csrReply p h .ok (some l)
  | .direct path =>
    let (s, v) := s.csrReadAt path w.off
    s.answerCsr v false
  | .instrument =>
    let (s, v) := s.csrReadAt .maint w.off
    s.modTst fun t => { t with insData := v, insStat := 2 }

/-- A read reaches the CSR block: served, or held until its island is not BUSY. -/
def State.csrAsk (s : State) (who : CsrReader) (off : Nat) : State :=
  if s.csrHolds off then s.modCsr fun c => { c with reads := c.reads ++ [⟨who, off⟩] } else s.csrReadNow ⟨who, off⟩

/-- The reads whose islands are no longer BUSY are served, in the order in which they came (R408, R417). -/
def State.csrReads (s : State) : State :=
  let go := s.csr.reads.filter fun w => !s.csrHolds w.off
  go.foldl State.csrReadNow (s.modCsr fun c => { c with reads := c.reads.filter fun w => s.csrHolds w.off })

/-- A direct read of a word of the aperture. -/
def State.csrRead (s : State) (path : CsrPath) (off : Nat) : State :=
  if s.trusted path then s.csrAsk (.direct path) off else (s.untrusted path).answerCsr 0 true

/-- An update of the CSR instrument (R453): ignored without GO, or while STATUS is busy. -/
def State.instrument (s : State) (dr : BitVec 60) : State :=
  if !dr.getLsbD 59 || s.tst.insStat == 1 then s
  else
    let off := 4 * (dr.extractLsb' 38 20).toNat
    if dr.getLsbD 58 then
      let (s, ok) := s.csrSet off (dr.extractLsb' 6 32)
      s.modTst fun t => { t with insStat := if ok then 2 else 3 }
    else (s.modTst fun t => { t with insStat := 1 }).csrAsk .instrument off

end Sys2Proof.Machine
end

