-- ==== Sys2Proof/Machine/Requests.lean ====
section
/-! DEFINITION. Requests and their companions at a port's network interface: the checks of R35 in their order, with R43, R44, R54, R68,
R70, R159, R340 and R358. -/

namespace Sys2Proof.Machine

/-! ### Checks 1 and 2 -/

/-- A REQ or DAT flit of an agent with its credit: discarded for a fence, which reclaims the credit (R358), or for a false source,
or it goes on. -/
def State.creditCheck (s : State) (p : Fin 24) (a : Agent) (q : PartId) (dat : Bool) : State × Bool :=
  match s.sourceCheck p a with
  | (t, true) => (t, true)
  | (t, false) =>
    if carries p a then (if dat then t.reclaimDat p q else t.reclaimReq p q, false) else (t, false)

/-! ### Check 7: the aperture (R20, R159, R405 to R407) -/

/-- OFF and LENM1 of a `WrPart`. -/
def wrOff (arg : BitVec 29) : Nat := (arg.extractLsb' 23 6).toNat
/-- LENM1. -/
def wrLenm1 (arg : BitVec 29) : Nat := (arg.extractLsb' 17 6).toNat

/-- A request that the CSR block serves, completed there (R159). -/
def State.csrTake (s : State) (p : Fin 24) (h : Held) : State :=
  let off := 64 * (h.a.pa.toNat % 2 ^ 16)
  if !s.trusted (.port p) then (s.untrusted (.port p) h.a.part h.a.pa).csrReply p h .failed none
  else if h.op = .rdCur then s.csrAsk (.port p h) off
  else if h.op = .wrPart ∧ wrOff h.a.arg % 4 = 0 ∧ wrLenm1 h.a.arg = 3 then
    let d : Line := match h.cd with | some l => l.data | none => 0
    let (s, ok) := s.csrSet (off + wrOff h.a.arg) (d.extractLsb' (8 * wrOff h.a.arg) 32)
    s.csrReply p h (if ok then .ok else .failed) none
  else s.csrReply p h .failed none

/-- A request to the aperture leaves for the CSR block, on the REQ network (R19, R20). -/
def State.csrServe (s : State) (p : Fin 24) (h : Held) : State := s.carry (.csr p h) (.port p) .csr false fun s => s.csrTake p h

/-! ### Checks 5 to 7, and on to admission -/

/-- A request that has passed check 4, held as `old` until now: discarded for its generation with its companion, counted once and no
credit back (R68, R70); held for its partition (R340); served by the CSR block; or on to the checks of the address. -/
def State.fromCheck5 (s : State) (p : Fin 24) (old : Option Held) (h : Held) : State :=
  if h.a.gen != (s.part h.a.part).gen then (s.modPort p (·.putHeld old none)).staleMsg h.a.part
  else if (s.part h.a.part).st != .run then s.modPort p (·.putHeld old (some { h with why := .partition }))
  else if !h.isDrain && s.inAperture h.a.pa then (s.modPort p (·.putHeld old none)).csrServe p h
  else s.enterAdmission p old h

/-- A companion that waits for the request. -/
def Port.companionOf (x : Port) (a : Agent) (tag : ATag) : Option Orphan := x.orphans.find? fun o => o.src == a && o.atag == tag

/-- A malformed request is completed with `Err` (R54): its companion is discarded, now or when it comes. -/
def State.errOut (s : State) (p : Fin 24) (h : Held) (cause : BitVec 8) : State :=
  let s := if cause = 0x05 then s.errPart h.a.part else s
  if needsCompanion h.op h.a.arg then
    match (s.port p).companionOf h.a.src h.a.atag with
    | some o =>
      (s.modPort p fun x => { x with orphans := x.orphans.erase o }).niComplete p { h with cd := some o.l } .err .ok
        (cause.zeroExtend 16)
    | none =>
      (s.modPort p fun x => { x with errDat := x.errDat ++ [(h.a.src, h.a.atag)] }).niComplete p h .err .ok (cause.zeroExtend 16)
  else s.niComplete p h .err .ok (cause.zeroExtend 16)

/-- A well-formed request with its companion, or without one that it needs (R43, R44). -/
def State.fromCheck4 (s : State) (p : Fin 24) (h : Held) : State :=
  if needsCompanion h.op h.a.arg then
    match (s.port p).companionOf h.a.src h.a.atag with
    | some o =>
      (s.modPort p fun x => { x with orphans := x.orphans.erase o }).fromCheck5 p none { h with cd := some o.l }
    | none => s.modPort p (·.putHeld none (some h))
  else s.fromCheck5 p none h

/-- A REQ flit arrives at port p (R35). -/
def State.reqArrive (s : State) (p : Fin 24) (op : ReqOp) (a : ReqArgs) : State :=
  if !(s.port p).up then s
  else match (s.linkTake p .req).creditCheck p a.src a.part false with
  | (s, false) => s
  | (s, true) =>
    let h : Held := { op := op, a := a, cd := none, at' := s.edge, why := .companion, counted := false }
    match s.malformed op a with
    | some c => s.errOut p h c
    | none => s.fromCheck4 p h

/-- A companion `DatWr` arrives at port p: STAT POISON, or any but OK, marks the data poisoned (R43, R44, R54). -/
def State.datWrArrive (s : State) (p : Fin 24) (f : DatArgs) : State :=
  let q : PartId := f.id.extractLsb' 12 6
  let tag : ATag := f.id.extractLsb' 0 12
  if !(s.port p).up then s
  else match (s.linkTake p .dati).creditCheck p f.agt q true with
  | (s, false) => s
  | (s, true) =>
    let l : PLine := ⟨f.data, f.stat != 0⟩
    if (s.port p).errDat.contains (f.agt, tag) then
      (s.modPort p fun x => { x with errDat := x.errDat.erase (f.agt, tag) }).retDat p q
    else match (s.port p).held.find? fun h => h.why == .companion && h.a.src == f.agt && h.a.atag == tag with
    | some h => s.fromCheck5 p (some h) { h with cd := some l }
    | none =>
      if (s.port p).errAny.contains (f.agt, tag) then
        (s.modPort p fun x => { x with errAny := x.errAny.erase (f.agt, tag) }).retDat p q
      else s.modPort p fun x => { x with orphans := x.orphans ++ [⟨f.agt, q, tag, l, s.edge⟩] }

/-! ### After a partition's state has changed (R340, R342) -/

/-- A request held for its partition is checked again: the partition runs, or its generation has passed. -/
def State.heldReady (s : State) (h : Held) : Bool :=
  h.why == .partition && ((s.part h.a.part).st == .run || h.a.gen != (s.part h.a.part).gen)

/-- The requests of a port that may go on do so in their arrival order, from check 5 on. -/
def State.recheckPort (s : State) (p : Fin 24) : State :=
  ((s.port p).held.filter s.heldReady).foldl (fun s h => s.fromCheck5 p (some h) h) s

end Sys2Proof.Machine
end

