-- ==== Sys2Proof/Machine/Deliver.lean ====
section
/-! DEFINITION. What the networks deliver, and their run (R19, R25, R292 to R302): every flit goes as far as links, credits and its
receiver let it, in the step of the command that sent it or that cleared its way (log entry 58). -/

namespace Sys2Proof.Machine

/-- A request reaches its slice. One of an agent fenced meanwhile is withdrawn (R355), one of a partition reset meanwhile ends (R306); a
slice that is fenced or being reset sends it
on to the slice that serves its set (R25, R362). -/
def State.reqDeliver (s : State) (i : Fin 17) (rq : Nat) (r : Req) : State :=
  if r.port.isSome && s.agFenced r.a.src then s.withdraw i r false
  else if s.oldGen r then s.endUnbound r
  else if s.slFenced i || (s.slice i).ctl.resetting then s.forward i rq r
  else s.ingressPush i rq r

/-- The transaction that a snoop belongs to is still open, and is the one that sent it. -/
def State.snpOpen (s : State) (f : SnpFlit) (age : Nat) : Bool :=
  match s.htid f.slice f.tid with
  | some (_, _, e) => e.age == age
  | none => false

/-- A snoop answer, a `CompAck` or a `DatDirty` of an agent that has been fenced on its way: it is discarded (R355, R375). -/
def State.fromFenced (s : State) : NetMsg → Bool
  | .answer _ _ f _ _ => s.agFenced f.src
  | .ack _ f => s.agFenced f.src
  | .dirty _ f _ => s.agFenced f.agt
  | _ => false

/-- A message reaches its receiver. -/
def State.receive (s : State) : NetMsg → State
  | .req i rq r => s.reqDeliver i rq r
  | .fetch _ f => s.rqArrive f
  | .snp f det age => if f.op == .qNotify || s.snpOpen f age then s.egressSnoop f det age else s
  | .rsp op a st gr info rk => s.sendRsp op a st gr info rk
  | .dat op a po gr d rk => s.sendDat op a po gr d rk
  | .answer p op f follows late => s.answerAt p op f follows late
  | .ack p f => s.ackAt p f
  | .dirty p f q => s.dirtyAt p f q
  | .fwd op f det => s.forwardedAt op f det
  | .write i id n mir => s.wqTake n mir i id
  | .ret f l => s.fetchReturn f l
  | .expiry i r => s.expiryAt i r
  | .drained r => s.writeMark r.w false true r.fenced
  | .csr p h => s.csrTake p h
  | .csrEnd p h st d => s.csrAnswered p h st d

/-- A message is delivered. -/
def State.deliver (s : State) (m : NetMsg) : State := if s.fromFenced m then s else s.receive m

/-- The receiver of a message takes it now: a request needs a place in its queue (R302). -/
def State.netRoom (s : State) : NetMsg → Bool
  | .req i rq r => s.slFenced i || (s.slice i).ctl.resetting || (s.slice i).laneRoom rq r
  | _ => true

/-- The networks run for at most `n` cycles, until nothing moves. -/
def State.netRun (s : State) : Nat → State
  | 0 => s
  | n + 1 =>
    if s.noc.bufs.isEmpty && s.noc.wait.isEmpty then s
    else
      let c := s.netCycle s.netRoom
      if c.2.2 then (c.2.1.foldl State.deliver c.1).netRun n else s

/-- Cycles in which every flit that can move has moved. -/
def netCycles : Nat := 65536

end Sys2Proof.Machine
end

