-- ==== Sys2Proof/Machine/Settle.lean ====
section
/-! DEFINITION. What follows from a command by itself, in the same step: the actions of severe sources, running moves and commands,
admission, the networks, power requests, and the outputs of the always-on island (R352, R426, R448, R449). -/

namespace Sys2Proof.Machine

/-- Rounds in which sources can become severe after one another: each does so once. -/
def dueRounds : Nat := 128

/-- A running LOAD and a running SAVE or RESTORE go on; while DISABLING no new request of agent 63 begins. -/
def State.engineSteps (s : State) : State := if s.glb.stt = .disabling then s else s.loadStep.parStep

/-- The boundary cells drive the outputs: WS_EXTEST or WS_CLAMP, while `efk_rst_cold_n` is low (R452). -/
def State.cellsDrive (s : State) : Bool := s.glb.coldLow && (s.tst.wir == 1 || s.tst.wir == 3)

/-- The outputs of R449, or what their boundary cells hold. -/
def State.setPins (s : State) : State :=
  let pin (k : Nat) (v : Bool) : Bool := if s.cellsDrive then Config.boundaryCell k else v
  { s with pins := { s.pins with
      alive := pin 0 s.flt.alive
      faultN := pin 1 (!s.unacked)
      irqFlt := pin 2 (!s.flt.log.isEmpty)
      irqCmd := pin 3 (s.flag 0 0x038 0 && s.fld 0 0x028 23 16 != 0) } }

/-- Everything that runs by itself takes its next step. -/
def State.selfSteps (s : State) : State :=
  let s := s.movePrep.liftHold.engineSteps
  let s := s.commitStep.startStep.disableStep.detWake
  let s := s.bcastStep.ltBackStep.portResetStep.slcResetStep.csrReads
  (s.eachPort State.recheckPort).pump

/-- What follows from a command. -/
def State.settle (s : State) : State :=
  ((((s.dueStep dueRounds).selfSteps.netRun netCycles).dueStep dueRounds).syncPower.idleWatch).setPins

/-- A command ends: what follows from it happens in the same step, no time passes, and the queue is as it was. -/
def commandEnd (s t : State) : Host.Outcome State Fault Refusal :=
  .next { t.settle with pending := s.pending, now := s.now }

end Sys2Proof.Machine
end

