-- ==== Sys2Proof/Machine/CmdCsr.lean ====
section
/-! DEFINITION. The meanings of commands. The register interface, descriptors, LIVETEST, the array commands and the wrapper. -/

namespace Sys2Proof.Machine

/-- A direct access to a bit's own word (R419). -/
def State.aliasTo (s : State) (path : CsrPath) (n w b : Nat) (wr : Option Bool) : State :=
  match wr with
  | some v => s.csrWriteTo path (aliasOff n w b) (if v then 1 else 0)
  | none => s.csrRead path (aliasOff n w b)

/-- An instruction is shifted into the wrapper; one whose condition does not hold acts as WS_BYPASS (R452). -/
def State.wrapper (s : State) (c : BitVec 3) : State :=
  let ok := c == 0 || (s.glb.coldLow && (c != 2 || !s.glb.fuse.dbgLock))
  s.modTst fun t => { t with wir := if ok then c else 0 }

/-- WRITE of a queue descriptor (R328). -/
def execQdescWrite (seq : BitVec 8) (home : Fin 16) (idx : BitVec 9) (s : State) : Host.Outcome State Fault Refusal :=
  commandEnd s (s.qdescCmd 1 seq home idx)

/-- READ of a queue descriptor (R328). -/
def execQdescRead (seq : BitVec 8) (home : Fin 16) (idx : BitVec 9) (s : State) : Host.Outcome State Fault Refusal :=
  commandEnd s (s.qdescCmd 2 seq home idx)

/-- CLEAR of a queue descriptor (R328). -/
def execQdescClear (seq : BitVec 8) (home : Fin 16) (idx : BitVec 9) (s : State) : Host.Outcome State Fault Refusal :=
  commandEnd s (s.qdescCmd 3 seq home idx)

/-- START of a LIVETEST (R458). -/
def execLivetestStart (seq : BitVec 8) (i dest : BitVec 5) (back : Bool) (s : State) : Host.Outcome State Fault Refusal :=
  commandEnd s (s.ltStart seq i dest back)

/-- The abort of a LIVETEST (R460). -/
def execLivetestAbort (seq : BitVec 8) (s : State) : Host.Outcome State Fault Refusal := commandEnd s (s.ltAbort seq)

/-- A BIST ends (R454). -/
def execBistDone (fails : List (Fin 10 × Nat)) (s : State) : Host.Outcome State Fault Refusal := commandEnd s (s.bistEnd fails)

/-- REMAPRD (R455). -/
def execRemaprd (seq : BitVec 8) (i : BitVec 5) (arr : BitVec 4) (s : State) : Host.Outcome State Fault Refusal :=
  commandEnd s (s.remapRd seq i arr)

/-- REMAPWR (R456). -/
def execRemapwr (seq : BitVec 8) (i : BitVec 5) (arr : BitVec 4) (s : State) : Host.Outcome State Fault Refusal :=
  commandEnd s (s.remapWr seq i arr)

/-- INJ (R457). -/
def execInj (seq : BitVec 8) (i : BitVec 5) (arr : BitVec 4) (s : State) : Host.Outcome State Fault Refusal :=
  commandEnd s (s.injCmd seq i arr)

/-- TRREAD (R462). -/
def execTrread (seq : BitVec 8) (i : BitVec 5) (s : State) : Host.Outcome State Fault Refusal := commandEnd s (s.trRead seq i)

/-- TRCLR (R461). -/
def execTrclr (seq : BitVec 8) (i : BitVec 5) (s : State) : Host.Outcome State Fault Refusal := commandEnd s (s.trClr seq i)

/-- TST_PCCLR (R463). -/
def execPcclr (mask : BitVec 8) (s : State) : Host.Outcome State Fault Refusal := commandEnd s (s.pcClr mask)

/-- A write of a page's CRCREF (R422). -/
def execCrcrefWrite (page : Fin 64) (v : BitVec 32) (s : State) : Host.Outcome State Fault Refusal :=
  commandEnd s (s.applyWord page.val 0xFF v 0xFFFFFFFF)

/-- A read of a mailbox's trigger (R414). -/
def execMailboxTriggerRead (path : CsrPath) (page : Fin 64) (word : BitVec 8) (s : State) : Host.Outcome State Fault Refusal :=
  commandEnd s (s.csrRead path (pageOff page.val word.toNat))

/-- An access to a bit's own word (R419, R420). -/
def execAliasAccess (path : CsrPath) (page : Fin 64) (word : BitVec 8) (bit : Fin 32) (wr : Option Bool)
    (s : State) : Host.Outcome State Fault Refusal :=
  commandEnd s (s.aliasTo path page.val word.toNat bit.val wr)

/-- A write of a register (R411 to R418). -/
def execCsrWrite (path : CsrPath) (page : Fin 64) (word : BitVec 8) (v : BitVec 32)
    (s : State) : Host.Outcome State Fault Refusal :=
  commandEnd s (s.csrWriteTo path (pageOff page.val word.toNat) v)

/-- An update of the CSR instrument (R453). -/
def execCsrInstrumentUpdate (dr : BitVec 60) (s : State) : Host.Outcome State Fault Refusal := commandEnd s (s.instrument dr)

/-- A pass of a page's running CRC ends (R422). -/
def execCrcPassEnd (page : Fin 64) (s : State) : Host.Outcome State Fault Refusal := commandEnd s (s.crcPass page.val)

/-- CRCV has stayed 0 for a second (R423). -/
def execCrcvStaleSecond (page : Fin 64) (s : State) : Host.Outcome State Fault Refusal := commandEnd s (s.crcStale page.val)

/-- A posted write takes effect (R415). -/
def execPostedWriteApply (isl : Fin 57) (s : State) : Host.Outcome State Fault Refusal := commandEnd s (s.postedApply isl.val)

/-- WS_BYPASS (R452). -/
def execWsBypass (s : State) : Host.Outcome State Fault Refusal := commandEnd s (s.wrapper 0)

/-- WS_EXTEST (R452). -/
def execWsExtest (s : State) : Host.Outcome State Fault Refusal := commandEnd s (s.wrapper 1)

/-- WS_INTEST (R452). -/
def execWsIntest (s : State) : Host.Outcome State Fault Refusal := commandEnd s (s.wrapper 2)

/-- WS_CLAMP (R452). -/
def execWsClamp (s : State) : Host.Outcome State Fault Refusal := commandEnd s (s.wrapper 3)

end Sys2Proof.Machine
end

