-- ==== Sys2Proof/Machine/CmdDram.lean ====
section
/-! DEFINITION. The meanings of commands. The write merging buffers and the channel controllers. -/

namespace Sys2Proof.Machine

/-- Age limits of merging-buffer entries pass (R247). -/
def execWmbAgeExpiry (i : Fin 17) (s : State) : Host.Outcome State Fault Refusal := commandEnd s (s.wmbAge i)

/-- A merging-buffer entry is issued (R247). -/
def execWmbIssue (i : Fin 17) (s : State) : Host.Outcome State Fault Refusal := commandEnd s (s.wmbIssueStep i)

/-- A controller accepts a merging-buffer entry (R247, R248). -/
def execWmbEntryAccepted (i : Fin 17) (s : State) : Host.Outcome State Fault Refusal := commandEnd s (s.wmbAcceptStep i)

/-- One dc of a controller (R267). -/
def execDramCommandIssue (n : Fin 16) (s : State) : Host.Outcome State Fault Refusal := commandEnd s (s.dcStep n)

/-- A DRAM read completes (R278 to R281, R285). -/
def execDramReadComplete (n : Fin 16) (err : BitVec 640) (s : State) : Host.Outcome State Fault Refusal :=
  commandEnd s (s.readComplete n err)

/-- A refresh falls due (R272). -/
def execRefreshDue (n : Fin 16) (r : Fin 4) (s : State) : Host.Outcome State Fault Refusal :=
  commandEnd s (s.refreshDue n r.val)

/-- An owed refresh is made up in an idle time (R272). -/
def execRefreshIdleMakeup (n : Fin 16) (r : Fin 4) (s : State) : Host.Outcome State Fault Refusal :=
  commandEnd s (s.refreshMakeup n r.val)

/-- The temperature is polled (R274). -/
def execMr4Poll (n : Fin 16) (hot : BitVec 4) (s : State) : Host.Outcome State Fault Refusal := commandEnd s (s.mr4Poll n hot)

/-- A rank signals an alert (R282). -/
def execAlert (n : Fin 16) (r : Fin 4) (ok : Bool) (s : State) : Host.Outcome State Fault Refusal :=
  commandEnd s (s.alertEv n r.val ok)

/-- A resync copies a line (R287). -/
def execResyncCopyLine (n : Fin 16) (s : State) : Host.Outcome State Fault Refusal := commandEnd s (s.resyncLine n)

/-- The DFI handshake ends (R275). -/
def execDfiInitComplete (n : Fin 16) (s : State) : Host.Outcome State Fault Refusal := commandEnd s (s.dfiDone n)

/-- A delay setting is answered (R442). -/
def execDelayDone (n : Fin 16) (pass : Bool) (s : State) : Host.Outcome State Fault Refusal :=
  commandEnd s (s.delayDone n pass false)

/-- A delay setting is not answered in time (R442). -/
def execDelayDoneLate (n : Fin 16) (s : State) : Host.Outcome State Fault Refusal := commandEnd s (s.delayDone n false true)

/-- A training ends (R275, R276). -/
def execTrainingDone (n : Fin 16) (s : State) : Host.Outcome State Fault Refusal := commandEnd s (s.trainDone n)

/-- TRAIN (R275). -/
def execTrain (n : Fin 16) (seq : BitVec 8) (s : State) : Host.Outcome State Fault Refusal := commandEnd s (s.trainCmd n seq)

/-- The abort of a TRAIN (R379). -/
def execTrainAbort (n : Fin 16) (seq : BitVec 8) (s : State) : Host.Outcome State Fault Refusal :=
  commandEnd s (s.trainAbort n seq)

/-- RESYNC (R287). -/
def execResync (n : Fin 16) (seq : BitVec 8) (s : State) : Host.Outcome State Fault Refusal := commandEnd s (s.resyncCmd n seq)

/-- The abort of a RESYNC (R287). -/
def execResyncAbort (n : Fin 16) (seq : BitVec 8) (s : State) : Host.Outcome State Fault Refusal :=
  commandEnd s (s.resyncAbort n seq)

/-- DCH_ELCLR (R283). -/
def execElogClear (n : Fin 16) (s : State) : Host.Outcome State Fault Refusal := commandEnd s (s.clearElog n)

/-- The reset of a channel (R399). -/
def execChannelReset (n : Fin 16) (seq : BitVec 8) (s : State) : Host.Outcome State Fault Refusal :=
  commandEnd s (s.chanResetCmd n seq)

/-- The abort of a channel reset (R399). -/
def execChannelResetAbort (n : Fin 16) (seq : BitVec 8) (s : State) : Host.Outcome State Fault Refusal :=
  commandEnd s (s.chanResetAbort n seq)

end Sys2Proof.Machine
end

