-- ==== Sys2Proof/Machine/CmdFault.lean ====
section
/-! DEFINITION. The meanings of commands. Faults, fences, moves, logs, network links. -/

namespace Sys2Proof.Machine

/-- A CORR event of a source (R351). -/
def execCorrEvent (src : BitVec 7) (s : State) : Host.Outcome State Fault Refusal := commandEnd s (s.corrEv src.toNat)

/-- An UNCOR event of a source (R351). -/
def execUncorEvent (src : BitVec 7) (s : State) : Host.Outcome State Fault Refusal := commandEnd s (s.uncorEv src.toNat)

/-- A tk whose count is a multiple of 100 (R354). -/
def execHeartbeatTick (s : State) : Host.Outcome State Fault Refusal := commandEnd s (s.heartbeat)

/-- An evacuation goes on (R364, R365). -/
def execEvacSetStep (s : State) : Host.Outcome State Fault Refusal := commandEnd s (s.evacStep)

/-- A port's copy of the table takes the watermark (R365). -/
def execWatermarkBroadcastArrival (p : Fin 24) (s : State) : Host.Outcome State Fault Refusal := commandEnd s (s.tablePort p)

/-- The marker of a port reaches the source (R365). -/
def execEvacMarkerArrival (p : Fin 24) (s : State) : Host.Outcome State Fault Refusal := commandEnd s (s.markerPort p)

/-- The release reaches the destination (R365). -/
def execEvacReleaseArrival (s : State) : Host.Outcome State Fault Refusal := commandEnd s (s.releaseArrive)

/-- The final step of an evacuation (R367). -/
def execEvacFinalStep (s : State) : Host.Outcome State Fault Refusal := commandEnd s (s.evacFinal)

/-- The copies of a takeover are made (R368). -/
def execTakeoverCopyDone (s : State) : Host.Outcome State Fault Refusal := commandEnd s (s.takeoverDone)

/-- A return ends (R370). -/
def execReturnComplete (s : State) : Host.Outcome State Fault Refusal := commandEnd s (s.returnDone)

/-- FENCE (R352). -/
def execFence (seq : BitVec 8) (src : BitVec 7) (s : State) : Host.Outcome State Fault Refusal :=
  commandEnd s (s.fenceCmd seq src.toNat)

/-- ACK (R353). -/
def execAck (seq : BitVec 8) (src : BitVec 7) (s : State) : Host.Outcome State Fault Refusal :=
  commandEnd s (s.ackCmd seq src.toNat)

/-- EVAC (R363). -/
def execEvac (seq : BitVec 8) (home : Fin 16) (dest : BitVec 5) (s : State) : Host.Outcome State Fault Refusal :=
  commandEnd s (s.evacCmd seq home dest)

/-- RETURN (R370). -/
def execReturnHome (seq : BitVec 8) (home : Fin 16) (dest : BitVec 5) (s : State) : Host.Outcome State Fault Refusal :=
  commandEnd s (s.returnCmd seq home dest)

/-- The abort of a move (R372). -/
def execMoveAbort (seq : BitVec 8) (s : State) : Host.Outcome State Fault Refusal := commandEnd s (s.moveAbortCmd seq)

/-- FLT_LOGPOP (R374). -/
def execLogPop (s : State) : Host.Outcome State Fault Refusal := commandEnd s (s.popLog)

/-- FLT_LWCLR (R361). -/
def execLostWriteClear (s : State) : Host.Outcome State Fault Refusal := commandEnd s (s.clearLost)

/-- A replay on a link of the network (R297). -/
def execNocLinkReplay (l : LinkId) (again : Bool) (s : State) : Host.Outcome State Fault Refusal :=
  commandEnd s (s.nocReplay l again)

/-- The lane test of a link ends (R298). -/
def execLaneTestDone (l : LinkId) (bad : Nat) (s : State) : Host.Outcome State Fault Refusal := commandEnd s (s.laneTest l bad)

end Sys2Proof.Machine
end

