-- ==== Sys2Proof/Machine/Flits.lean ====
section
/-! DEFINITION. The flits of a port to the bit (R38, R41, R46, R47, R49): the words that messages are laid out in, with their CRC, and
the command that the words of a flit from the agents stand for. -/

namespace Sys2Proof.Machine

/-! ### The check (R38) -/

/-- One bit into the CRC: polynomial 0x1021. -/
def crc16Bit (c : BitVec 16) (b : Bool) : BitVec 16 := if c.msb == b then c <<< 1 else (c <<< 1) ^^^ 0x1021

/-- The lowest `k` bits of a number into the CRC, highest first. -/
def crc16From (v : Nat) : Nat → BitVec 16 → BitVec 16
  | 0, c => c
  | k + 1, c => crc16From v k (crc16Bit c (v.testBit k))

/-- The CRC over all bits of a flit above bit 15: initial value 0xFFFF, highest bit first, no final inversion. -/
def crc16 {n : Nat} (w : BitVec n) : BitVec 16 := crc16From w.toNat n 0xFFFF

/-- A flit: what it says, and its CRC in bits [15:0]. -/
def flitOf {n : Nat} (w : BitVec n) : BitVec (n + 16) := w ++ crc16 w

/-- What a flit of `n + 16` bits says, none when its CRC fails. -/
def flitIn {n : Nat} (w : BitVec (n + 16)) : Option (BitVec n) :=
  if crc16 (w.extractLsb' 16 n) = w.extractLsb' 0 16 then some (w.extractLsb' 16 n) else none

/-! ### What the four kinds of flit say -/

/-- A REQ flit above its CRC: OPC, SRC, PART, GEN, ATAG, PA, ARG (R41). -/
def reqWord (opc : BitVec 5) (a : ReqArgs) : BitVec 112 := opc ++ a.src ++ a.part ++ a.gen ++ a.atag ++ a.pa ++ a.arg

/-- The fields of a REQ flit. -/
def reqOfWord (w : BitVec 112) : BitVec 5 × ReqArgs :=
  (w.extractLsb' 107 5, ⟨w.extractLsb' 101 6, w.extractLsb' 95 6, w.extractLsb' 87 8, w.extractLsb' 75 12, w.extractLsb' 29 46,
    w.extractLsb' 0 29⟩)

/-- An SNP flit above its CRC: OPC, DST, SLICE, TID, RAG, RATAG, RPART, RGEN, PA, RSVD (R46). -/
def snpWord (f : SnpFlit) : BitVec 112 :=
  f.op.code ++ f.dst ++ f.slice ++ f.tid ++ f.rag ++ f.ratag ++ f.rpart ++ f.rgen ++ f.pa ++ (0 : BitVec 5)

/-- The fields of an SNP flit; none for a reserved opcode. -/
def snpOfWord (w : BitVec 112) : Option SnpFlit :=
  (snpOpOf (w.extractLsb' 107 5)).map fun op =>
    ⟨op, w.extractLsb' 101 6, w.extractLsb' 96 5, w.extractLsb' 83 13, w.extractLsb' 77 6, w.extractLsb' 65 12, w.extractLsb' 59 6,
      w.extractLsb' 51 8, w.extractLsb' 5 46⟩

/-- An RSP flit above its CRC: OPC, SRC, DST, PART, GEN, ATAG, STAT, GRANT, LOC, INFO, RSVD (R47). -/
def rspWord (opc : BitVec 5) (f : RspArgs) : BitVec 112 :=
  opc ++ f.src ++ f.dst ++ f.part ++ f.gen ++ f.atag ++ f.stat ++ f.grant ++ f.loc ++ f.info ++ (0 : BitVec 1)

/-- The fields of an RSP flit. -/
def rspOfWord (w : BitVec 112) : BitVec 5 × RspArgs :=
  (w.extractLsb' 107 5, ⟨w.extractLsb' 101 6, w.extractLsb' 95 6, w.extractLsb' 89 6, w.extractLsb' 81 8, w.extractLsb' 69 12,
    w.extractLsb' 66 3, w.extractLsb' 63 3, w.extractLsb' 17 46, w.extractLsb' 1 16⟩)

/-- A DAT flit above its CRC: the line, then OPC, DIR, AGT, ID, GEN, CMP, STAT, GRANT, RSVD (R38, R49). -/
def datWord (opc : BitVec 5) (dir : Bool) (f : DatArgs) : BitVec 560 :=
  f.data ++ opc ++ BitVec.ofBool dir ++ f.agt ++ f.id ++ f.gen ++ BitVec.ofBool f.cmp ++ f.stat ++ f.grant ++ (0 : BitVec 3)

/-- The fields of a DAT flit: opcode, DIR, the rest. -/
def datOfWord (w : BitVec 560) : BitVec 5 × Bool × DatArgs :=
  (w.extractLsb' 43 5, w.getLsbD 42, ⟨w.extractLsb' 36 6, w.extractLsb' 18 18, w.extractLsb' 10 8, w.getLsbD 9, w.extractLsb' 6 3,
    w.extractLsb' 3 3, w.extractLsb' 48 512⟩)

/-! ### From flits to commands, and from Efkar's messages to flits -/

/-- The command that a request with opcode `op` is at port p. -/
def reqCommand (op : ReqOp) (p : Fin 24) (f : ReqArgs) : Instr :=
  match op with
  | .rdShd => .rdshd p f | .rdOwn => .rdown p f | .rdCur => .rdcur p f | .upgr => .upgr p f | .wrFull => .wrfull p f
  | .wrPart => .wrpart p f | .evClean => .evclean p f | .evDirty => .evdirty p f | .atom => .atom p f
  | .lockAcq => .lockacq p f | .lockRel => .lockrel p f | .qEnq => .qenq p f | .qDeq => .qdeq p f | .qWatch => .qwatch p f
  | .resv => .resv p f | .condWr => .condwr p f | .drainO => .draino p f | .drainE => .draine p f | .hint => .hint p f

/-- The command of a REQ flit at port p; none for a bad CRC, or a reserved opcode (log entry 19). -/
def reqFlitCommand (p : Fin 24) (w : BitVec 128) : Option Instr :=
  (flitIn (n := 112) w).bind fun v => (reqOpOf (reqOfWord v).1).map fun op => reqCommand op p (reqOfWord v).2

/-- The command of an RSP flit at port p; none for a bad CRC, or an opcode that agents do not send (R53, log entry 19). -/
def rspFlitCommand (p : Fin 24) (w : BitVec 128) : Option Instr :=
  (flitIn (n := 112) w).bind fun v =>
    match rspOpOf (rspOfWord v).1 with
    | some .rspI => some (.rspi p (rspOfWord v).2)
    | some .rspS => some (.rsps p (rspOfWord v).2)
    | some .rspFwdS => some (.rspfwds p (rspOfWord v).2)
    | some .rspFwdI => some (.rspfwdi p (rspOfWord v).2)
    | some .rspEvPend => some (.rspevpend p (rspOfWord v).2)
    | some .compAck => some (.compack p (rspOfWord v).2)
    | _ => none

/-- The command of a DAT flit at port p: to another agent with any opcode, to Efkar as `DatDirty` or `DatWr` (R53). -/
def datFlitCommand (p : Fin 24) (w : BitVec 576) : Option Instr :=
  (flitIn (n := 560) w).bind fun v =>
    let f := (datOfWord v).2.2
    if (datOfWord v).2.1 = false then some (.forwardedDat p (datOfWord v).1 f)
    else match datOpOf (datOfWord v).1 with
    | some .datDirty => some (.datdirty p f)
    | some .datWr => some (.datwr p f)
    | _ => none

/-- The bits that Efkar offers for a message on its SNP and RSPO channels, 128, or on its DATO channel, 576 (R36). -/
def Flit.bits : Flit → BitVec 128 ⊕ BitVec 576
  | .snp f => .inl (flitOf (snpWord f))
  | .rsp op f => .inl (flitOf (rspWord op.code f))
  | .dat op f => .inr (flitOf (datWord op.code false f))

end Sys2Proof.Machine
end

