-- ==== Sys2Proof/Machine/FlitIn.lean ====
section
/-! DEFINITION. The flits of a port's agents to the bit (R38, R53, R54, R431): what a REQ, an RSP and a DAT flit do, whatever their bits
are. The commands of the table are the flits that carry an opcode of theirs; a flit with another opcode, or with a bad CRC, has
no row (log entry 19), and is given its effect here. -/

namespace Sys2Proof.Machine

/-- A REQ flit with a reserved opcode is completed with `Err` 0x01: its credit goes back, and a companion is discarded, now or when it
comes (R54). -/
def State.reservedReq (s : State) (p : Fin 24) (a : ReqArgs) : State :=
  if !(s.port p).up then s
  else match (s.linkTake p .req).creditCheck p a.src a.part false with
  | (s, false) => s
  | (s, true) =>
    let o := (s.port p).companionOf a.src a.atag
    let s := s.modPort p fun x => match o with
      | some o => { x with orphans := x.orphans.erase o }
      | none => { x with errAny := x.errAny ++ [(a.src, a.atag)] }
    s.niComplete p { op := .hint, a := a, cd := o.map Orphan.l, at' := s.edge, why := .companion, counted := false } .err .ok 0x01

/-- An RSP or DAT flit that its agent may not send is discarded, a protocol fault against the port (R53). -/
def State.reservedFlit (s : State) (p : Fin 24) (c : PortChan) (a : Agent) : State :=
  if !(s.port p).up then s
  else match (s.linkTake p c).sourceCheck p a with
  | (s, false) => s
  | (s, true) => s.protPort p

/-- A DAT flit to another agent by its opcode field; one with a reserved opcode or with `DatWr` is discarded, a protocol fault against
the port (R53). -/
def State.forwardedCode (s : State) (p : Fin 24) (opc : BitVec 5) (f : DatArgs) : State :=
  match (datOpOf opc).filter (· ≠ .datWr) with
  | some op => s.forwardedArrive p op f
  | none =>
    if !(s.port p).up then s
    else
      let s := s.linkTake p .dati
      if s.portFenced p then s else s.protPort p

/-- A flit arrives on a channel with link number `n` (R430, R431): `v` is what it says, none when its CRC fails, and `f` what it does
when it is taken. -/
def State.linkIn {α : Type} (s : State) (p : Fin 24) (c : PortChan) (n : BitVec 5) (v : Option α) (f : α → State) : State :=
  match (s.port p).link.rxAt c with
  | none => s
  | some k =>
    if !(s.port p).up then s
    else match s.linkRefuses p c k n v.isNone, v with
    | some t, _ => t
    | none, some v => f v
    | none, none => s

/-- A REQ flit arrives (R35, R38, R54). -/
def State.reqFlit (s : State) (p : Fin 24) (n : BitVec 5) (w : BitVec 128) : State :=
  s.linkIn p .req n (flitIn (n := 112) w) fun v =>
    match reqOpOf (reqOfWord v).1 with
    | some op => s.reqArrive p op (reqOfWord v).2
    | none => s.reservedReq p (reqOfWord v).2

/-- An RSP flit arrives (R38, R53, R56). -/
def State.rspFlit (s : State) (p : Fin 24) (n : BitVec 5) (w : BitVec 128) : State :=
  s.linkIn p .rspi n (flitIn (n := 112) w) fun v =>
    let f := (rspOfWord v).2
    match rspOpOf (rspOfWord v).1 with
    | some .rspI => s.answerArrive p .rspI f
    | some .rspS => s.answerArrive p .rspS f
    | some .rspFwdS => s.answerArrive p .rspFwdS f
    | some .rspFwdI => s.answerArrive p .rspFwdI f
    | some .rspEvPend => s.answerArrive p .rspEvPend f
    | some .compAck => s.compAckArrive p f
    | some .comp => s.reservedFlit p .rspi f.src
    | some .retry => s.reservedFlit p .rspi f.src
    | some .err => s.reservedFlit p .rspi f.src
    | none => s.reservedFlit p .rspi f.src

/-- A DAT flit arrives (R38, R49, R53). -/
def State.datFlit (s : State) (p : Fin 24) (n : BitVec 5) (w : BitVec 576) : State :=
  s.linkIn p .dati n (flitIn (n := 560) w) fun v =>
    let f := (datOfWord v).2.2
    if (datOfWord v).2.1 = false then s.forwardedCode p (datOfWord v).1 f
    else match datOpOf (datOfWord v).1 with
    | some .datDirty => s.datDirtyArrive p f
    | some .datWr => s.datWrArrive p f
    | _ => s.reservedFlit p .dati f.agt

/-- The link layer of a channel (R431): on a channel of the agents the flit `w` arrives with number `n`, in bits [127:0] where the
channel is 128 bits wide; on a channel of Efkar the agents raise `rply` with `ack` at `n`. -/
def State.linkEvent (s : State) (p : Fin 24) (c : PortChan) (n : BitVec 5) (w : BitVec 576) : State :=
  match c with
  | .req => s.reqFlit p n (w.extractLsb' 0 128)
  | .rspi => s.rspFlit p n (w.extractLsb' 0 128)
  | .dati => s.datFlit p n w
  | .snp | .rspo | .dato => if (s.port p).up then s.linkResend p c n else s

/-! ### The link-layer outputs (R429) -/

/-- `clp<p>_req_ack`, `_rspi_ack`, `_dati_ack`. -/
def State.clpAck (s : State) (p : Fin 24) (c : PortChan) : BitVec 5 :=
  match (s.port p).link.rxAt c with | some k => k.last | none => 0x1F

/-- `clp<p>_req_rply`, `_rspi_rply`, `_dati_rply`. -/
def State.clpRply (s : State) (p : Fin 24) (c : PortChan) : Bool :=
  match (s.port p).link.rxAt c with | some k => k.rply | none => false

/-- `vld`, `flit` and `seq` of the SNP, RSPO and DATO channels, the flit of 128 bits zero-extended. -/
def State.clpOut (s : State) (p : Fin 24) (c : PortChan) : Bool × BitVec 576 × BitVec 5 :=
  match ((s.port p).link.txAt c).bind LinkTx.pin with
  | some (n, f) => (true, (match f.bits with | .inl w => w.zeroExtend 576 | .inr w => w), n)
  | none => (false, 0, 0)

/-- `clp<p>_crd_req_vld`, `_crd_req_part`, `_crd_dat_vld`, `_crd_dat_part` (R433). -/
def State.clpCrd (s : State) (p : Fin 24) : (Bool × PartId) × (Bool × PartId) :=
  let pin (q : Option PartId) : Bool × PartId := (q.isSome, q.getD 0)
  (pin (s.port p).cred.reqPulse, pin (s.port p).cred.datPulse)

end Sys2Proof.Machine
end

