-- ==== Sys2Proof/Machine/CmdMessages.lean ====
section
/-! DEFINITION. The meanings of commands. What else a port sees: answers, `CompAck`, data, credits, deadlines, its link layer. -/

namespace Sys2Proof.Machine

/-- `RspI` (R56, R199). -/
def execRspi (p : Fin 24) (f : RspArgs) (s : State) : Host.Outcome State Fault Refusal :=
  commandEnd s (s.answerArrive p .rspI f)

/-- `RspS` (R56, R199). -/
def execRsps (p : Fin 24) (f : RspArgs) (s : State) : Host.Outcome State Fault Refusal :=
  commandEnd s (s.answerArrive p .rspS f)

/-- `RspFwdS` (R56, R199). -/
def execRspfwds (p : Fin 24) (f : RspArgs) (s : State) : Host.Outcome State Fault Refusal :=
  commandEnd s (s.answerArrive p .rspFwdS f)

/-- `RspFwdI` (R56, R199). -/
def execRspfwdi (p : Fin 24) (f : RspArgs) (s : State) : Host.Outcome State Fault Refusal :=
  commandEnd s (s.answerArrive p .rspFwdI f)

/-- `RspEvPend` (R116, R199). -/
def execRspevpend (p : Fin 24) (f : RspArgs) (s : State) : Host.Outcome State Fault Refusal :=
  commandEnd s (s.answerArrive p .rspEvPend f)

/-- `CompAck` (R63). -/
def execCompack (p : Fin 24) (f : RspArgs) (s : State) : Host.Outcome State Fault Refusal := commandEnd s (s.compAckArrive p f)

/-- `DatDirty` to Efkar (R101). -/
def execDatdirty (p : Fin 24) (f : DatArgs) (s : State) : Host.Outcome State Fault Refusal :=
  commandEnd s (s.datDirtyArrive p f)

/-- A companion `DatWr` (R43, R44). -/
def execDatwr (p : Fin 24) (f : DatArgs) (s : State) : Host.Outcome State Fault Refusal := commandEnd s (s.datWrArrive p f)

/-- A DAT flit from one agent to another (R39, R53, R67). -/
def execForwardedDat (p : Fin 24) (opc : BitVec 5) (f : DatArgs) (s : State) : Host.Outcome State Fault Refusal :=
  commandEnd s (s.forwardedCode p opc f)

/-- A snoop credit (R434). -/
def execSnoopCredit (p : Fin 24) (s : State) : Host.Outcome State Fault Refusal := commandEnd s (s.snoopCreditIn p)

/-- The next snoop leaves the port (R246). -/
def execSnoopEgressSend (p : Fin 24) (s : State) : Host.Outcome State Fault Refusal := commandEnd s (s.snoopSend p)

/-- One pc of the credit signals (R433). -/
def execCreditReturnPulse (p : Fin 24) (s : State) : Host.Outcome State Fault Refusal := commandEnd s (s.creditPulse p)

/-- A report of a drained write reaches its port (R119). -/
def execDrainReport (i : Fin 17) (s : State) : Host.Outcome State Fault Refusal := commandEnd s (s.drainReportIn i)

/-- A snoop deadline passes at the port (R65). -/
def execSnoopDeadlineExpiry (p : Fin 24) (a : Agent) (s : State) : Host.Outcome State Fault Refusal :=
  commandEnd s (s.snoopDeadline p a)

/-- A report of an expired snoop reaches the slice (R122). -/
def execSnoopExpiryReport (i : Fin 17) (s : State) : Host.Outcome State Fault Refusal := commandEnd s (s.expiryReport i)

/-- A `CompAck` allowance passes (R177). -/
def execCompackAllowanceExpiry (p : Fin 24) (a : Agent) (s : State) : Host.Outcome State Fault Refusal :=
  commandEnd s (s.ackAllowance p a)

/-- A companion has not come in time (R44). -/
def execCompanionTimeout (p : Fin 24) (src : Agent) (atag : ATag) (s : State) : Host.Outcome State Fault Refusal :=
  commandEnd s (s.companionMissing p src atag)

/-- The request of a companion has not come in time (R44). -/
def execOrphanDatwrTimeout (p : Fin 24) (src : Agent) (atag : ATag) (s : State) : Host.Outcome State Fault Refusal :=
  commandEnd s (s.orphanLate p src atag)

/-- A replay on a channel of a port, or a flit that may need one (R430 to R432). -/
def execPortLinkReplayRequest (p : Fin 24) (c : PortChan) (f : LinkFlit) (s : State) :
    Host.Outcome State Fault Refusal :=
  commandEnd s (s.linkEvent p c f.seq f.bits)

/-- An acknowledgement on a channel of a port (R431). -/
def execPortLinkAck (p : Fin 24) (c : PortChan) (seq : BitVec 5) (s : State) : Host.Outcome State Fault Refusal :=
  commandEnd s (s.linkAck p c seq)

/-- The panic level of an I/O port (R271, R437). -/
def execPanicLevelChange (p : Fin 24) (lvl : BitVec 4) (s : State) : Host.Outcome State Fault Refusal :=
  commandEnd s (s.panicLevel p lvl)

end Sys2Proof.Machine
end

