-- ==== Sys2Proof/Machine/CmdPower.lean ====
section
/-! DEFINITION. The meanings of commands. Power domains, slice commands and resets. -/

namespace Sys2Proof.Machine

/-- The supply of a domain reports a state (R448). -/
def execPowerStatChange (k : Fin 50) (st : BitVec 2) (s : State) : Host.Outcome State Fault Refusal :=
  commandEnd s (s.powerStat k.val st)

/-- A supply has not followed its request (R448). -/
def execPowerStatMismatch (k : Fin 50) (s : State) : Host.Outcome State Fault Refusal := commandEnd s (s.powerMismatch k.val)

/-- A waking slice reports ready (R18, R402). -/
def execDomainReady (i : Fin 17) (s : State) : Host.Outcome State Fault Refusal := commandEnd s (s.domainReady i)

/-- A slice returns to RET (R403). -/
def execAutoSleep (i : Fin 17) (s : State) : Host.Outcome State Fault Refusal := commandEnd s (s.autoSleep i)

/-- SLEEP (R401). -/
def execSleep (i : Fin 17) (seq : BitVec 8) (s : State) : Host.Outcome State Fault Refusal := commandEnd s (s.sleepCmd i seq)

/-- SLEEPC (R401). -/
def execSleepc (i : Fin 17) (seq : BitVec 8) (s : State) : Host.Outcome State Fault Refusal := commandEnd s (s.sleepcCmd i seq)

/-- OFF (R401). -/
def execPowerOff (i : Fin 17) (seq : BitVec 8) (s : State) : Host.Outcome State Fault Refusal := commandEnd s (s.offCmd i seq)

/-- WAKE (R402). -/
def execWake (i : Fin 17) (seq : BitVec 8) (s : State) : Host.Outcome State Fault Refusal := commandEnd s (s.wakeCmd i seq)

/-- The reset of a slice (R397). -/
def execSliceReset (i : Fin 17) (seq : BitVec 8) (s : State) : Host.Outcome State Fault Refusal :=
  commandEnd s (s.slcResetCmd i seq)

/-- The reset of a port (R398). -/
def execPortReset (p : Fin 24) (seq : BitVec 8) (s : State) : Host.Outcome State Fault Refusal :=
  commandEnd s (s.portResetCmd p seq)

/-- The abort of a port reset (R398). -/
def execPortResetAbort (p : Fin 24) (seq : BitVec 8) (s : State) : Host.Outcome State Fault Refusal :=
  commandEnd s (s.portResetAbort p seq)

end Sys2Proof.Machine
end

