-- ==== Sys2Proof/Machine/CmdRequests.lean ====
section
/-! DEFINITION. The meanings of commands. Requests at a port (R35) and the token buckets (R299). -/

namespace Sys2Proof.Machine

/-- One tk at a bucket: RATE is added, up to DEPTH x 100 (R299). -/
def State.refill (s : State) (p : Fin 24) (q : PartId) (c : Bool) : State :=
  if s.regulates q c then
    s.modPort p fun x => x.setBucket q c (min (x.bucket q c + s.fld 58 (regOff q c) 27 16) (s.bucketTop q c))
  else s

/-- `RdShd` (R105) reaches port p: the checks of R35, then admission towards its slice. -/
def execRdshd (p : Fin 24) (f : ReqArgs) (s : State) : Host.Outcome State Fault Refusal := commandEnd s (s.reqArrive p .rdShd f)

/-- `RdOwn` (R106) reaches port p: the checks of R35, then admission towards its slice. -/
def execRdown (p : Fin 24) (f : ReqArgs) (s : State) : Host.Outcome State Fault Refusal := commandEnd s (s.reqArrive p .rdOwn f)

/-- `RdCur` (R107, R159) reaches port p: the checks of R35, then admission towards its slice. -/
def execRdcur (p : Fin 24) (f : ReqArgs) (s : State) : Host.Outcome State Fault Refusal := commandEnd s (s.reqArrive p .rdCur f)

/-- `Upgr` (R109) reaches port p: the checks of R35, then admission towards its slice. -/
def execUpgr (p : Fin 24) (f : ReqArgs) (s : State) : Host.Outcome State Fault Refusal := commandEnd s (s.reqArrive p .upgr f)

/-- `WrFull` (R110) reaches port p: the checks of R35, then admission towards its slice. -/
def execWrfull (p : Fin 24) (f : ReqArgs) (s : State) : Host.Outcome State Fault Refusal :=
  commandEnd s (s.reqArrive p .wrFull f)

/-- `WrPart` (R111, R159) reaches port p: the checks of R35, then admission towards its slice. -/
def execWrpart (p : Fin 24) (f : ReqArgs) (s : State) : Host.Outcome State Fault Refusal :=
  commandEnd s (s.reqArrive p .wrPart f)

/-- `EvClean` (R113) reaches port p: the checks of R35, then admission towards its slice. -/
def execEvclean (p : Fin 24) (f : ReqArgs) (s : State) : Host.Outcome State Fault Refusal :=
  commandEnd s (s.reqArrive p .evClean f)

/-- `EvDirty` (R114) reaches port p: the checks of R35, then admission towards its slice. -/
def execEvdirty (p : Fin 24) (f : ReqArgs) (s : State) : Host.Outcome State Fault Refusal :=
  commandEnd s (s.reqArrive p .evDirty f)

/-- `Atom` (R329, R330) reaches port p: the checks of R35, then admission towards its slice. -/
def execAtom (p : Fin 24) (f : ReqArgs) (s : State) : Host.Outcome State Fault Refusal := commandEnd s (s.reqArrive p .atom f)

/-- `LockAcq` (R314) reaches port p: the checks of R35, then admission towards its slice. -/
def execLockacq (p : Fin 24) (f : ReqArgs) (s : State) : Host.Outcome State Fault Refusal :=
  commandEnd s (s.reqArrive p .lockAcq f)

/-- `LockRel` (R315) reaches port p: the checks of R35, then admission towards its slice. -/
def execLockrel (p : Fin 24) (f : ReqArgs) (s : State) : Host.Outcome State Fault Refusal :=
  commandEnd s (s.reqArrive p .lockRel f)

/-- `QEnq` (R323) reaches port p: the checks of R35, then admission towards its slice. -/
def execQenq (p : Fin 24) (f : ReqArgs) (s : State) : Host.Outcome State Fault Refusal := commandEnd s (s.reqArrive p .qEnq f)

/-- `QDeq` (R324) reaches port p: the checks of R35, then admission towards its slice. -/
def execQdeq (p : Fin 24) (f : ReqArgs) (s : State) : Host.Outcome State Fault Refusal := commandEnd s (s.reqArrive p .qDeq f)

/-- `QWatch` (R325) reaches port p: the checks of R35, then admission towards its slice. -/
def execQwatch (p : Fin 24) (f : ReqArgs) (s : State) : Host.Outcome State Fault Refusal :=
  commandEnd s (s.reqArrive p .qWatch f)

/-- `Resv` (R331) reaches port p: the checks of R35, then admission towards its slice. -/
def execResv (p : Fin 24) (f : ReqArgs) (s : State) : Host.Outcome State Fault Refusal := commandEnd s (s.reqArrive p .resv f)

/-- `CondWr` (R157) reaches port p: the checks of R35, then admission towards its slice. -/
def execCondwr (p : Fin 24) (f : ReqArgs) (s : State) : Host.Outcome State Fault Refusal :=
  commandEnd s (s.reqArrive p .condWr f)

/-- `DrainO` (R120) reaches port p: the checks of R35, then admission towards its slice. -/
def execDraino (p : Fin 24) (f : ReqArgs) (s : State) : Host.Outcome State Fault Refusal :=
  commandEnd s (s.reqArrive p .drainO f)

/-- `DrainE` (R120) reaches port p: the checks of R35, then admission towards its slice. -/
def execDraine (p : Fin 24) (f : ReqArgs) (s : State) : Host.Outcome State Fault Refusal :=
  commandEnd s (s.reqArrive p .drainE f)

/-- `Hint` (R121) reaches port p: the checks of R35, then admission towards its slice. -/
def execHint (p : Fin 24) (f : ReqArgs) (s : State) : Host.Outcome State Fault Refusal := commandEnd s (s.reqArrive p .hint f)

/-- One tk at a token bucket (R299). -/
def execRegulatorRefill (p : Fin 24) (q : PartId) (c : Bool) (s : State) : Host.Outcome State Fault Refusal :=
  commandEnd s (s.refill p q c)

end Sys2Proof.Machine
end

