-- ==== Sys2Proof/Machine/CmdSlice.lean ====
section
/-! DEFINITION. The meanings of commands. What a slice does: arbiter, re-entry, engine, service unit, memory events, deadlines, sweeps. -/

namespace Sys2Proof.Machine

/-- The next activation of a slice (R184, R185): a retry if one is due, which goes ahead of every other, else the next transaction;
`again` says that only a retry is called for (R205). -/
def State.activationStep (s : State) (i : Fin 17) (lane : Fin 4) (again mism : Bool) : State :=
  if !s.sliceRuns i then s
  else match s.readyOf i true with
  | some t => s.checkedActivate i t lane true mism
  | none =>
    if again then s
    else match s.readyOf i false with
    | some t => s.checkedActivate i t lane false mism
    | none => s

/-- A command in a word that a slice holds, with its OP: it acts while the slice is awake; to a slice in RET it is a posted write, which
wakes it and takes effect once it is ON; a slice that is OFF takes none (R418). -/
def State.sliceCmd (s : State) (i : Fin 17) (o op : Nat) (seq : BitVec 8) (f : State → State) : State :=
  let d := (s.slice i).ctl.dom.a
  if d = .off then s
  else if d = .ret then (s.csrPut (slcPage i) (o / 4) (BitVec.ofNat 32 (seq.toNat * 2 ^ 24 + op)) none).1
  else f s

/-- One sc of the input arbiter (R303). -/
def execArbiterGrant (i : Fin 17) (s : State) : Host.Outcome State Fault Refusal := commandEnd s (s.arbiterStep i)

/-- One re-entry (R32). -/
def execReentry (i : Fin 17) (s : State) : Host.Outcome State Fault Refusal := commandEnd s (s.reentryStep i)

/-- An activation on a lane (R184, R205). -/
def execActivation (i : Fin 17) (lane : Fin 4) (mism : Bool) (s : State) : Host.Outcome State Fault Refusal :=
  commandEnd s (s.activationStep i lane false mism)

/-- The retry of an activation (R205, R206). -/
def execLaneRetry (i : Fin 17) (lane : Fin 4) (mism : Bool) (s : State) : Host.Outcome State Fault Refusal :=
  commandEnd s (s.activationStep i lane true mism)

/-- The service unit commits one operation (R309). -/
def execServiceCommit (i : Fin 17) (s : State) : Host.Outcome State Fault Refusal := commandEnd s (s.serviceStep i)

/-- A memory event (R201). -/
def execMemEvent (i : Fin 17) (s : State) : Host.Outcome State Fault Refusal := commandEnd s (s.memEventStep i)

/-- The deadline of a transaction (R124). -/
def execTmoExpiry (i : Fin 17) (tid : BitVec 13) (s : State) : Host.Outcome State Fault Refusal :=
  commandEnd s (s.tmoStep i tid.toNat)

/-- The deadline of a queued request (R126). -/
def execQueuedDeadline (i : Fin 17) (tid : BitVec 13) (s : State) : Host.Outcome State Fault Refusal :=
  commandEnd s (s.queuedDeadline i tid.toNat)

/-- The deadline of ingress-queued requests (R306). -/
def execIngressDeadline (i : Fin 17) (r : Fin 26) (s : State) : Host.Outcome State Fault Refusal :=
  commandEnd s (s.ingExpire i r.val)

/-- The tracker watchdog (R169). -/
def execTrackerWatchdog (i : Fin 17) (tid : BitVec 13) (s : State) : Host.Outcome State Fault Refusal :=
  commandEnd s (s.watchdogStep i tid.toNat)

/-- The deadline of a stale-eviction record (R116). -/
def execStaleRecordDeadline (i : Fin 17) (a : Agent) (atag : ATag) (s : State) : Host.Outcome State Fault Refusal :=
  commandEnd s (s.recordLate i a atag)

/-- A reservation's lifetime passes (R156). -/
def execReservationLifeExpiry (i : Fin 17) (a : Agent) (s : State) : Host.Outcome State Fault Refusal :=
  commandEnd s (s.resvLate i a)

/-- The ledger sweep of a fence ends (R316). -/
def execLedgerSweepDone (i : Fin 17) (s : State) : Host.Outcome State Fault Refusal := commandEnd s (s.ledgerSweep i)

/-- A scrub pass falls due (R373). -/
def execScrubPassDue (i : Fin 17) (s : State) : Host.Outcome State Fault Refusal := commandEnd s (s.scrubDue i)

/-- SUKCLR (R98). -/
def execSukclr (i : Fin 17) (seq : BitVec 8) (s : State) : Host.Outcome State Fault Refusal :=
  commandEnd s (s.sliceCmd i 0x204 1 seq fun s => s.sukclrCmd i seq)

/-- The abort of a SUKCLR (R379). -/
def execSukclrAbort (i : Fin 17) (seq : BitVec 8) (s : State) : Host.Outcome State Fault Refusal :=
  commandEnd s (s.sliceCmd i 0x204 2 seq fun s => s.sukclrAbortCmd i seq)

/-- ENABLE of an MSC (R252, R253). -/
def execMscEnable (i : Fin 17) (seq : BitVec 8) (s : State) : Host.Outcome State Fault Refusal :=
  commandEnd s (s.sliceCmd i 0x2A4 1 seq fun s => s.mscEnableCmd i seq)

/-- DISABLE of an MSC (R251, R252). -/
def execMscDisable (i : Fin 17) (seq : BitVec 8) (s : State) : Host.Outcome State Fault Refusal :=
  commandEnd s (s.sliceCmd i 0x2A4 2 seq fun s => s.mscDisableCmd i seq)

/-- The abort of an MSC command (R255). -/
def execMscAbort (i : Fin 17) (seq : BitVec 8) (s : State) : Host.Outcome State Fault Refusal :=
  commandEnd s (s.sliceCmd i 0x2A4 3 seq fun s => s.mscAbortCmd i seq)

/-- The drain of an MSC ends (R251). -/
def execMscDrainEnd (i : Fin 17) (s : State) : Host.Outcome State Fault Refusal := commandEnd s (s.mscDrainEndEv i)

/-- The init of an MSC ends (R253). -/
def execMscInitDone (i : Fin 17) (s : State) : Host.Outcome State Fault Refusal := commandEnd s (s.mscInitDoneEv i)

end Sys2Proof.Machine
end

