-- ==== Sys2Proof/Machine/CmdStart.lean ====
section
/-! DEFINITION. The meanings of commands. Resets of the block, start-up, COMMIT, ENABLE, DISABLE, BROADCAST, loading, partitions. -/

namespace Sys2Proof.Machine

/-- `efk_rst_cold_n` goes low (R394): nothing follows from it but the reset state. -/
def execColdResetAssert (s : State) : Host.Outcome State Fault Refusal := .next s.coldAssert

/-- `efk_rst_cold_n` is released (R381). -/
def execColdResetRelease (s : State) : Host.Outcome State Fault Refusal := commandEnd s (s.coldRelease)

/-- `efk_rst_warm_n` goes low (R395). -/
def execWarmResetAssert (s : State) : Host.Outcome State Fault Refusal := commandEnd s (s.warmAssert)

/-- `efk_rst_warm_n` is released (R381). -/
def execWarmResetRelease (s : State) : Host.Outcome State Fault Refusal := commandEnd s (s.warmRelease)

/-- The entry of a warm reset is complete (R395). -/
def execWarmEntryComplete (s : State) : Host.Outcome State Fault Refusal := commandEnd s (s.warmDone)

/-- The fuse macro gives a word (R445). -/
def execFuseWordAck (w : BitVec 32) (s : State) : Host.Outcome State Fault Refusal := commandEnd s (s.fuseWord w false)

/-- The fuse macro does not answer in time (R445). -/
def execFuseAckTimeout (s : State) : Host.Outcome State Fault Refusal := commandEnd s (s.fuseWord 0 true)

/-- An init program ends (R383). -/
def execInitProgramDone (i : Fin 17) (arr : Fin 10) (s : State) : Host.Outcome State Fault Refusal :=
  commandEnd s (s.initDone i arr)

/-- The Grammar Check of a bank ends (R209). -/
def execGrammarCheckDone (i : Fin 17) (bank : Bool) (s : State) : Host.Outcome State Fault Refusal :=
  commandEnd s (s.checkDone i bank)

/-- COMMIT (R465). -/
def execCommit (seq : BitVec 8) (s : State) : Host.Outcome State Fault Refusal := commandEnd s (s.commitCmd seq)

/-- ENABLE (R385). -/
def execEnable (seq : BitVec 8) (s : State) : Host.Outcome State Fault Refusal := commandEnd s (s.enableCmd seq)

/-- DISABLE (R387). -/
def execDisable (seq : BitVec 8) (s : State) : Host.Outcome State Fault Refusal := commandEnd s (s.disableCmd seq)

/-- The drain of a DISABLE is complete (R387). -/
def execDisableDrainComplete (s : State) : Host.Outcome State Fault Refusal := commandEnd s (s.disableDrained)

/-- BROADCAST SET (R389). -/
def execBroadcastSet (seq : BitVec 8) (all : Bool) (home : Fin 16) (s : State) : Host.Outcome State Fault Refusal :=
  commandEnd s (s.bcastSetCmd seq all home)

/-- A BROADCAST SET completes (R389). -/
def execBroadcastSetComplete (s : State) : Host.Outcome State Fault Refusal := commandEnd s (s.bcastSetDone)

/-- BROADCAST CLEAR (R390). -/
def execBroadcastClear (seq : BitVec 8) (all : Bool) (home : Fin 16) (s : State) : Host.Outcome State Fault Refusal :=
  commandEnd s (s.bcastClearCmd seq all home)

/-- The abort of a BROADCAST command (R390). -/
def execBroadcastAbort (seq : BitVec 8) (s : State) : Host.Outcome State Fault Refusal := commandEnd s (s.bcastAbortCmd seq)

/-- LOAD (R225). -/
def execLoad (seq : BitVec 8) (s : State) : Host.Outcome State Fault Refusal := commandEnd s (s.loadCmd seq)

/-- The abort of a LOAD (R227). -/
def execLoadAbort (seq : BitVec 8) (s : State) : Host.Outcome State Fault Refusal := commandEnd s (s.loadAbort seq)

/-- A LOAD has read its image (R223). -/
def execLoadImageReadDone (s : State) : Host.Outcome State Fault Refusal := commandEnd s (s.loadReadDone)

/-- SWITCH (R230). -/
def execSwitchBank (i : Fin 17) (seq : BitVec 8) (s : State) : Host.Outcome State Fault Refusal :=
  commandEnd s (s.sliceCmd i 0x280 1 seq fun s => s.switchCmd i seq)

/-- FREEZE (R341). -/
def execFreeze (seq : BitVec 8) (q : PartId) (s : State) : Host.Outcome State Fault Refusal := commandEnd s (s.freezeCmd seq q)

/-- THAW (R340). -/
def execThaw (seq : BitVec 8) (q : PartId) (s : State) : Host.Outcome State Fault Refusal := commandEnd s (s.thawCmd seq q)

/-- SAVE (R343). -/
def execSave (seq : BitVec 8) (q : PartId) (s : State) : Host.Outcome State Fault Refusal := commandEnd s (s.saveCmd seq q)

/-- RESTORE (R344). -/
def execRestore (seq : BitVec 8) (q : PartId) (s : State) : Host.Outcome State Fault Refusal :=
  commandEnd s (s.restoreCmd seq q)

/-- RESET of a partition (R342). -/
def execPartitionReset (seq : BitVec 8) (q : PartId) (s : State) : Host.Outcome State Fault Refusal :=
  commandEnd s (s.partResetCmd seq q)

/-- The abort of a partition command (R345). -/
def execPartitionAbort (seq : BitVec 8) (s : State) : Host.Outcome State Fault Refusal := commandEnd s (s.parAbort seq)

/-- The drain of a FREEZE is complete (R341). -/
def execFreezeDrainComplete (q : PartId) (s : State) : Host.Outcome State Fault Refusal := commandEnd s (s.freezeDrained q)

/-- The drain of a RESET is complete (R342). -/
def execPartitionResetDrainComplete (q : PartId) (s : State) : Host.Outcome State Fault Refusal :=
  commandEnd s (s.partResetDrained q)

end Sys2Proof.Machine
end

