-- ==== Sys2Proof/Machine/Dispatch.lean ====
section
/-! DEFINITION. One arm for each command: its meaning, by name. -/

namespace Sys2Proof.Machine

/-- The effect of a command on everything but the queue of commands that wait. -/
def exec (i : Instr) (s : State) : Host.Outcome State Fault Refusal :=
  match i with
  | .rdshd p f => Sys2Proof.Machine.execRdshd p f s
  | .rdown p f => Sys2Proof.Machine.execRdown p f s
  | .rdcur p f => Sys2Proof.Machine.execRdcur p f s
  | .upgr p f => Sys2Proof.Machine.execUpgr p f s
  | .wrfull p f => Sys2Proof.Machine.execWrfull p f s
  | .wrpart p f => Sys2Proof.Machine.execWrpart p f s
  | .evclean p f => Sys2Proof.Machine.execEvclean p f s
  | .evdirty p f => Sys2Proof.Machine.execEvdirty p f s
  | .atom p f => Sys2Proof.Machine.execAtom p f s
  | .lockacq p f => Sys2Proof.Machine.execLockacq p f s
  | .lockrel p f => Sys2Proof.Machine.execLockrel p f s
  | .qenq p f => Sys2Proof.Machine.execQenq p f s
  | .qdeq p f => Sys2Proof.Machine.execQdeq p f s
  | .qwatch p f => Sys2Proof.Machine.execQwatch p f s
  | .resv p f => Sys2Proof.Machine.execResv p f s
  | .condwr p f => Sys2Proof.Machine.execCondwr p f s
  | .draino p f => Sys2Proof.Machine.execDraino p f s
  | .draine p f => Sys2Proof.Machine.execDraine p f s
  | .hint p f => Sys2Proof.Machine.execHint p f s
  | .regulatorRefill p q c => Sys2Proof.Machine.execRegulatorRefill p q c s
  | .arbiterGrant sl => Sys2Proof.Machine.execArbiterGrant sl s
  | .reentry sl => Sys2Proof.Machine.execReentry sl s
  | .activation sl lane mism => Sys2Proof.Machine.execActivation sl lane mism s
  | .laneRetry sl lane mism => Sys2Proof.Machine.execLaneRetry sl lane mism s
  | .serviceCommit sl => Sys2Proof.Machine.execServiceCommit sl s
  | .memEvent sl => Sys2Proof.Machine.execMemEvent sl s
  | .rspi p f => Sys2Proof.Machine.execRspi p f s
  | .rsps p f => Sys2Proof.Machine.execRsps p f s
  | .rspfwds p f => Sys2Proof.Machine.execRspfwds p f s
  | .rspfwdi p f => Sys2Proof.Machine.execRspfwdi p f s
  | .rspevpend p f => Sys2Proof.Machine.execRspevpend p f s
  | .compack p f => Sys2Proof.Machine.execCompack p f s
  | .datdirty p f => Sys2Proof.Machine.execDatdirty p f s
  | .datwr p f => Sys2Proof.Machine.execDatwr p f s
  | .forwardedDat p opc f => Sys2Proof.Machine.execForwardedDat p opc f s
  | .snoopCredit p => Sys2Proof.Machine.execSnoopCredit p s
  | .snoopEgressSend p => Sys2Proof.Machine.execSnoopEgressSend p s
  | .creditReturnPulse p => Sys2Proof.Machine.execCreditReturnPulse p s
  | .drainReport sl => Sys2Proof.Machine.execDrainReport sl s
  | .snoopDeadlineExpiry p a => Sys2Proof.Machine.execSnoopDeadlineExpiry p a s
  | .snoopExpiryReport sl => Sys2Proof.Machine.execSnoopExpiryReport sl s
  | .compackAllowanceExpiry p a => Sys2Proof.Machine.execCompackAllowanceExpiry p a s
  | .tmoExpiry sl tid => Sys2Proof.Machine.execTmoExpiry sl tid s
  | .queuedDeadline sl tid => Sys2Proof.Machine.execQueuedDeadline sl tid s
  | .ingressDeadline sl r => Sys2Proof.Machine.execIngressDeadline sl r s
  | .trackerWatchdog sl tid => Sys2Proof.Machine.execTrackerWatchdog sl tid s
  | .companionTimeout p src atag => Sys2Proof.Machine.execCompanionTimeout p src atag s
  | .orphanDatwrTimeout p src atag => Sys2Proof.Machine.execOrphanDatwrTimeout p src atag s
  | .staleRecordDeadline sl a atag => Sys2Proof.Machine.execStaleRecordDeadline sl a atag s
  | .reservationLifeExpiry sl a => Sys2Proof.Machine.execReservationLifeExpiry sl a s
  | .wmbAgeExpiry sl => Sys2Proof.Machine.execWmbAgeExpiry sl s
  | .wmbIssue sl => Sys2Proof.Machine.execWmbIssue sl s
  | .wmbEntryAccepted sl => Sys2Proof.Machine.execWmbEntryAccepted sl s
  | .dramCommandIssue n => Sys2Proof.Machine.execDramCommandIssue n s
  | .dramReadComplete n err => Sys2Proof.Machine.execDramReadComplete n err s
  | .refreshDue n r => Sys2Proof.Machine.execRefreshDue n r s
  | .refreshIdleMakeup n r => Sys2Proof.Machine.execRefreshIdleMakeup n r s
  | .mr4Poll n hot => Sys2Proof.Machine.execMr4Poll n hot s
  | .alert n r ok => Sys2Proof.Machine.execAlert n r ok s
  | .panicLevelChange p lvl => Sys2Proof.Machine.execPanicLevelChange p lvl s
  | .resyncCopyLine n => Sys2Proof.Machine.execResyncCopyLine n s
  | .mscDrainEnd sl => Sys2Proof.Machine.execMscDrainEnd sl s
  | .mscInitDone sl => Sys2Proof.Machine.execMscInitDone sl s
  | .corrEvent src => Sys2Proof.Machine.execCorrEvent src s
  | .uncorEvent src => Sys2Proof.Machine.execUncorEvent src s
  | .evacSetStep => Sys2Proof.Machine.execEvacSetStep s
  | .evacFinalStep => Sys2Proof.Machine.execEvacFinalStep s
  | .takeoverCopyDone => Sys2Proof.Machine.execTakeoverCopyDone s
  | .returnComplete => Sys2Proof.Machine.execReturnComplete s
  | .broadcastSetComplete => Sys2Proof.Machine.execBroadcastSetComplete s
  | .freezeDrainComplete q => Sys2Proof.Machine.execFreezeDrainComplete q s
  | .partitionResetDrainComplete q => Sys2Proof.Machine.execPartitionResetDrainComplete q s
  | .disableDrainComplete => Sys2Proof.Machine.execDisableDrainComplete s
  | .heartbeatTick => Sys2Proof.Machine.execHeartbeatTick s
  | .crcPassEnd page => Sys2Proof.Machine.execCrcPassEnd page s
  | .crcvStaleSecond page => Sys2Proof.Machine.execCrcvStaleSecond page s
  | .postedWriteApply isl => Sys2Proof.Machine.execPostedWriteApply isl s
  | .powerStatChange k st => Sys2Proof.Machine.execPowerStatChange k st s
  | .powerStatMismatch k => Sys2Proof.Machine.execPowerStatMismatch k s
  | .domainReady sl => Sys2Proof.Machine.execDomainReady sl s
  | .autoSleep sl => Sys2Proof.Machine.execAutoSleep sl s
  | .nocLinkReplay l again => Sys2Proof.Machine.execNocLinkReplay l again s
  | .laneTestDone l bad => Sys2Proof.Machine.execLaneTestDone l bad s
  | .portLinkReplayRequest p c f => Sys2Proof.Machine.execPortLinkReplayRequest p c f s
  | .portLinkAck p c seq => Sys2Proof.Machine.execPortLinkAck p c seq s
  | .fuseWordAck w => Sys2Proof.Machine.execFuseWordAck w s
  | .fuseAckTimeout => Sys2Proof.Machine.execFuseAckTimeout s
  | .initProgramDone sl arr => Sys2Proof.Machine.execInitProgramDone sl arr s
  | .trainingDone n => Sys2Proof.Machine.execTrainingDone n s
  | .delayDone n pass => Sys2Proof.Machine.execDelayDone n pass s
  | .delayDoneLate n => Sys2Proof.Machine.execDelayDoneLate n s
  | .grammarCheckDone sl bank => Sys2Proof.Machine.execGrammarCheckDone sl bank s
  | .loadImageReadDone => Sys2Proof.Machine.execLoadImageReadDone s
  | .bistDone fails => Sys2Proof.Machine.execBistDone fails s
  | .warmEntryComplete => Sys2Proof.Machine.execWarmEntryComplete s
  | .coldResetAssert => Sys2Proof.Machine.execColdResetAssert s
  | .coldResetRelease => Sys2Proof.Machine.execColdResetRelease s
  | .warmResetAssert => Sys2Proof.Machine.execWarmResetAssert s
  | .warmResetRelease => Sys2Proof.Machine.execWarmResetRelease s
  | .commit seq => Sys2Proof.Machine.execCommit seq s
  | .enable seq => Sys2Proof.Machine.execEnable seq s
  | .disable seq => Sys2Proof.Machine.execDisable seq s
  | .load seq => Sys2Proof.Machine.execLoad seq s
  | .loadAbort seq => Sys2Proof.Machine.execLoadAbort seq s
  | .switchBank sl seq => Sys2Proof.Machine.execSwitchBank sl seq s
  | .sukclr sl seq => Sys2Proof.Machine.execSukclr sl seq s
  | .sukclrAbort sl seq => Sys2Proof.Machine.execSukclrAbort sl seq s
  | .mscEnable sl seq => Sys2Proof.Machine.execMscEnable sl seq s
  | .mscDisable sl seq => Sys2Proof.Machine.execMscDisable sl seq s
  | .mscAbort sl seq => Sys2Proof.Machine.execMscAbort sl seq s
  | .train n seq => Sys2Proof.Machine.execTrain n seq s
  | .trainAbort n seq => Sys2Proof.Machine.execTrainAbort n seq s
  | .resync n seq => Sys2Proof.Machine.execResync n seq s
  | .resyncAbort n seq => Sys2Proof.Machine.execResyncAbort n seq s
  | .qdescWrite seq home idx => Sys2Proof.Machine.execQdescWrite seq home idx s
  | .qdescRead seq home idx => Sys2Proof.Machine.execQdescRead seq home idx s
  | .qdescClear seq home idx => Sys2Proof.Machine.execQdescClear seq home idx s
  | .freeze seq q => Sys2Proof.Machine.execFreeze seq q s
  | .thaw seq q => Sys2Proof.Machine.execThaw seq q s
  | .save seq q => Sys2Proof.Machine.execSave seq q s
  | .restore seq q => Sys2Proof.Machine.execRestore seq q s
  | .partitionReset seq q => Sys2Proof.Machine.execPartitionReset seq q s
  | .partitionAbort seq => Sys2Proof.Machine.execPartitionAbort seq s
  | .fence seq src => Sys2Proof.Machine.execFence seq src s
  | .ack seq src => Sys2Proof.Machine.execAck seq src s
  | .evac seq home dest => Sys2Proof.Machine.execEvac seq home dest s
  | .returnHome seq home dest => Sys2Proof.Machine.execReturnHome seq home dest s
  | .moveAbort seq => Sys2Proof.Machine.execMoveAbort seq s
  | .broadcastSet seq all home => Sys2Proof.Machine.execBroadcastSet seq all home s
  | .broadcastClear seq all home => Sys2Proof.Machine.execBroadcastClear seq all home s
  | .broadcastAbort seq => Sys2Proof.Machine.execBroadcastAbort seq s
  | .sleep sl seq => Sys2Proof.Machine.execSleep sl seq s
  | .sleepc sl seq => Sys2Proof.Machine.execSleepc sl seq s
  | .powerOff sl seq => Sys2Proof.Machine.execPowerOff sl seq s
  | .wake sl seq => Sys2Proof.Machine.execWake sl seq s
  | .sliceReset sl seq => Sys2Proof.Machine.execSliceReset sl seq s
  | .portReset p seq => Sys2Proof.Machine.execPortReset p seq s
  | .portResetAbort p seq => Sys2Proof.Machine.execPortResetAbort p seq s
  | .channelReset n seq => Sys2Proof.Machine.execChannelReset n seq s
  | .channelResetAbort n seq => Sys2Proof.Machine.execChannelResetAbort n seq s
  | .livetestStart seq sl dest back => Sys2Proof.Machine.execLivetestStart seq sl dest back s
  | .livetestAbort seq => Sys2Proof.Machine.execLivetestAbort seq s
  | .remaprd seq sl arr => Sys2Proof.Machine.execRemaprd seq sl arr s
  | .remapwr seq sl arr => Sys2Proof.Machine.execRemapwr seq sl arr s
  | .inj seq sl arr => Sys2Proof.Machine.execInj seq sl arr s
  | .trread seq sl => Sys2Proof.Machine.execTrread seq sl s
  | .trclr seq sl => Sys2Proof.Machine.execTrclr seq sl s
  | .pcclr mask => Sys2Proof.Machine.execPcclr mask s
  | .logPop => Sys2Proof.Machine.execLogPop s
  | .lostWriteClear => Sys2Proof.Machine.execLostWriteClear s
  | .elogClear n => Sys2Proof.Machine.execElogClear n s
  | .crcrefWrite page v => Sys2Proof.Machine.execCrcrefWrite page v s
  | .mailboxTriggerRead path page word => Sys2Proof.Machine.execMailboxTriggerRead path page word s
  | .aliasAccess path page word bit wr => Sys2Proof.Machine.execAliasAccess path page word bit wr s
  | .csrWrite path page word v => Sys2Proof.Machine.execCsrWrite path page word v s
  | .csrInstrumentUpdate dr => Sys2Proof.Machine.execCsrInstrumentUpdate dr s
  | .wsBypass => Sys2Proof.Machine.execWsBypass s
  | .wsExtest => Sys2Proof.Machine.execWsExtest s
  | .wsIntest => Sys2Proof.Machine.execWsIntest s
  | .wsClamp => Sys2Proof.Machine.execWsClamp s
  | .ledgerSweepDone sl => Sys2Proof.Machine.execLedgerSweepDone sl s
  | .watermarkBroadcastArrival p => Sys2Proof.Machine.execWatermarkBroadcastArrival p s
  | .evacMarkerArrival p => Sys2Proof.Machine.execEvacMarkerArrival p s
  | .evacReleaseArrival => Sys2Proof.Machine.execEvacReleaseArrival s
  | .scrubPassDue sl => Sys2Proof.Machine.execScrubPassDue sl s
  | .dfiInitComplete n => Sys2Proof.Machine.execDfiInitComplete n s

end Sys2Proof.Machine
end

