-- ==== Sys2Proof/Machine/Step.lean ====
section
/-! DEFINITION. One step of the block: the command at the front of the queue, or one tick of the time base. -/

namespace Sys2Proof.Machine

/-- The time base advances by one tick (R162). -/
def State.tick (s : State) : State :=
  { s with now := s.now + 1, wraps := if s.now = BitVec.allOnes 48 then s.wraps + 1 else s.wraps }

/-- Take the command at the front of the queue and give it its effect; on an empty queue a tick passes (log entry 2). -/
def step (s : State) : Host.Outcome State Fault Refusal :=
  match s.pending with
  | [] => .next s.tick
  | c :: cs => exec c { s with pending := cs }

/-- The command that a word spells, put at the front of the queue; no word spells one. -/
def State.withFetchWord (s : State) (nbits w : Nat) : State :=
  match Sys2Proof.decodeTableWord nbits w with
  | some c => { s with pending := c :: s.pending }
  | none => s

end Sys2Proof.Machine
end

