-- ==== Sys2Proof/Safety.lean ====
section
/-! DEFINITION. What counts as a safe state, in the terms the statements use: the stores are in canonical form, the outputs say what
the logs hold, a state in which nothing runs by itself, and the
commands and conditions that several statements name. -/

namespace Sys2Proof.Safety

open Sys2Proof.Machine

/-- The DRAM's contents are in canonical form: addresses rise, and no entry equals what an unlisted address reads as. -/
def memoryOk (s : State) : Prop :=
  tabSorted none s.dram = true ∧ ∀ e ∈ s.dram, e.2 ≠ s.dramNone e.1

/-- The outputs of the always-on island say what they should (R354, R426, R449). -/
def pinsOk (s : State) : Prop := s.setPins = s

/-- A SAVE or a RESTORE that runs waits for lines of its image, or none runs. -/
def jobWaits (j : ParJob) : Prop :=
  match j with
  | .none => True
  | .save _ _ _ _ wrote _ => wrote = false
  | .saveHeader d => d = false
  | .checkHeader r => r.all = false
  | .checkBody r => r.all = false
  | .apply n => n ≠ 0

/-- A LOAD that runs waits for lines of its image or for checks, or none runs. -/
def loadWaits (l : Load) : Prop :=
  l.st.res = .running → l.sel ≠ 0 ∧ l.phase ≠ .waiting ∧ (l.phase = .checking → l.left ≠ 0)

/-- Nothing goes on by itself but a move that prepares its destination, and the power requests. -/
structure Still (s : State) : Prop where
  /-- no fault action is due -/
  due : s.flt.due = []
  /-- admission is held back only for the home of a takeover or a return that runs -/
  adm : ∀ h : Fin 16, s.glb.admHold.getLsbD h.val = true → ∃ m, s.flt.run = some m ∧ m.home = h ∧ evacLike m.kind = false
  /-- a LOAD that runs waits for lines of its image or for checks -/
  load : loadWaits s.glb.ld
  /-- a SAVE or a RESTORE that runs waits for lines -/
  job : jobWaits s.par.job
  /-- no COMMIT runs -/
  gc : s.glb.cmd.res = .running → s.glb.stt ≠ .ready ∧ s.glb.stt ≠ .committed
  /-- no start-up step is under way -/
  stt : s.glb.stt ≠ .init ∧ s.glb.stt ≠ .train ∧ s.glb.stt ≠ .load
  /-- while a DISABLE runs no MSC is ON -/
  msc : s.glb.stt = .disabling → ∀ i, (s.slice i).mem.ctl.mode ≠ .on
  /-- no exit sweep runs -/
  sweep : s.glb.bc.sweep = []
  /-- a LIVETEST that is to go back waits for a move -/
  back : s.tst.phase = .back → s.flt.run ≠ none
  /-- no port is being reset, and none of its requests could go on -/
  ports : ∀ p, (s.port p).resetting = false ∧
    ∀ h ∈ (s.port p).held, h.why ≠ .admission ∧ s.heldReady h = false
  /-- no flit is on the networks -/
  net : s.noc.bufs = [] ∧ s.noc.wait = []
  /-- the slices of DET homes are awake -/
  det : s.glb.det = true → ∀ i, (s.homesOf i).any s.detHome = true → (s.slice i).asleep = false ∧ (s.slice i).ctl.dom.c = .on
  /-- every read of a register that waits, waits for an island that is BUSY -/
  reads : ∀ w ∈ s.csr.reads, s.csrHolds w.off = true
  /-- no slice waits for its reset or returns to RET by itself -/
  slices : ∀ i, (s.slice i).ctl.resetWait = false ∧ (s.slice i).ctl.autoRet = false

/-- A state in which no move waits to prepare its destination, no load, partition job, start-up step, exit sweep, reset or power request
goes on by itself, and no request at a port could go on: what a command does is then all that happens in its step. -/
structure Quiet (s : State) : Prop extends Still s where
  /-- no move waits to prepare its destination -/
  run : ∀ m, s.flt.run = some m → m.checked = true ∨ (m.phase ≠ .prepare ∧ m.phase ≠ .copy)
  /-- every domain whose supply has settled has the state it should have -/
  supply : ∀ k < 50, s.pdStat k = s.pdMode k → s.pdMode k = s.pdWant k
  /-- every link carries flits -/
  links : (s.noc.links.all fun e => e.2.carries) = true

/-- A CORR event of source n now is the first of its window (R351). -/
def firstOfWindow (s : State) (n : Nat) : Bool := (s.src n).count = 0 || s.sevWindow ≤ s.since (s.src n).ws

/-- The number of CORR events of source n in its window after one more (R351). -/
def corrCount (s : State) (n : Nat) : Nat := if firstOfWindow s n then 1 else (s.src n).count + 1

/-- One more CORR event leaves source n below the count at which it becomes severe (R351). -/
def mild (s : State) (n : Nat) : Prop := corrCount s n < s.fld 59 0x100 31 24

/-- The memory side of every slice is empty: no write and no fetch waits in it. -/
def memIdle (s : State) : Prop :=
  ∀ i, (s.slice i).mem.wmb = [] ∧ (s.slice i).mem.wtWait = [] ∧ (s.slice i).mem.fetchWait = [] ∧ (s.slice i).mem.fetchHold = []

/-- The state without the move that runs, and without the hold on admission that it keeps. -/
def withoutMove (s : State) : State :=
  (s.modFlt fun f => { f with run := none }).modGlb fun g => { g with admHold := 0 }

/-- The command that brings a snoop answer with opcode `op` to port p. -/
def answerCmd (op : RspOp) (p : Fin 24) (f : RspArgs) : Option Instr :=
  match op with
  | .rspI => some (.rspi p f) | .rspS => some (.rsps p f) | .rspFwdS => some (.rspfwds p f) | .rspFwdI => some (.rspfwdi p f)
  | .rspEvPend => some (.rspevpend p f) | .comp => none | .compAck => none | .retry => none | .err => none

/-- Port p is up, carries agent a, and neither is fenced: a flit of the agent passes checks 1 and 2 (R35). -/
structure FlitPasses (s : State) (p : Fin 24) (a : Agent) : Prop where
  up : (s.port p).up = true
  own : carries p a = true
  port : s.portFenced p = false
  agent : s.agFenced a = false

/-- A request with opcode `op` that has passed check 4 passes the others (R35), for home h on slice i, which is awake. -/
structure Admissible (s : State) (p : Fin 24) (op : ReqOp) (f : ReqArgs) (h : Fin 16) (i : Fin 17) : Prop where
  gen : f.gen = (s.part f.part).gen
  run : (s.part f.part).st = .run
  addr : reqIsDrain op = false → s.inAperture f.pa = false ∧ s.homed f.pa = true ∧
    ∀ r, s.detRgn f.pa = some r → (s.rgnAgents r).contains f.src = true ∧ s.flag 60 (4 * f.part.toNat) 30 = true
  home : s.reqHome op f = some h
  slice : (if reqIsDrain op then s.serving h else s.routedSlice p h f.pa) = some i
  awake : (s.slice i).asleep = false
  room : ((s.slice i).ing p.val).direct.length < 8
  token : s.tokenOk p f.part (s.detReq op f.pa) = true
  credit : s.creditOk h f.part (s.detReq op f.pa) = true

/-- State t is s after the admission of a request at port p to the ingress queue of home h's slice i (R60, R119, R120, R165, R299, R302);
nothing else has changed but the port's own records. -/
def admitted (s t : State) (p : Fin 24) (op : ReqOp) (f : ReqArgs) (cd : Option PLine) (h : Fin 16) (i : Fin 17) :
    Prop :=
  let c := s.detReq op f.pa
  (∃ r : Req, ((t.slice i).ing p.val).direct = ((s.slice i).ing p.val).direct ++ [(r, (s.slice i).arb.sc)] ∧ r.kind = .req op ∧
    r.a = f ∧ r.port = some p ∧ r.home = h ∧ r.rk = c ∧ r.adm = s.now + 1 ∧ r.cd = cd ∧ r.fwd = false ∧
    (reqCounted op = true → r.wid = (s.port p).nextWid)) ∧
  ((t.slice i).ing p.val).fwd = ((s.slice i).ing p.val).fwd ∧ (t.slice i).trk = (s.slice i).trk ∧
  t.homeUsed h f.part c = s.homeUsed h f.part c + 1 ∧
  (t.port p).bucket f.part c = (if s.regulates f.part c then (s.port p).bucket f.part c - 100 else (s.port p).bucket f.part c) ∧
  (t.port p).writes = (s.port p).writes ++ (if reqCounted op then [⟨(s.port p).nextWid, f.src, false, false, false⟩] else []) ∧
  (reqIsDrain op = false → (t.port p).drains = (s.port p).drains) ∧ (t.port p).cred = (s.port p).cred ∧
  (t.port p).egress = (s.port p).egress ∧ (∀ q, q ≠ p → t.port q = s.port q) ∧ (∀ j, j ≠ i → t.slice j = s.slice j) ∧
  t.regs = s.regs ∧ t.chans = s.chans ∧ t.dram = s.dram ∧ t.glb = s.glb ∧ t.flt = s.flt ∧ t.par.parts = s.par.parts

/-- The state with every link of the networks in order. -/
def linksInOrder (s : State) : State := { s with noc := { s.noc with links := [] } }

/-- Whether an answer with opcode `op` leaves its agent no holder (R199). -/
def leaves (op : RspOp) : Bool := op == .rspI || op == .rspEvPend

end Sys2Proof.Safety
end

