-- ==== Sys2Proof/Certificates/Slice0/Obligations.lean ====
section
/-! DEFINITION. The statements about the block, for the provers. A statement about every state assumes only that nothing goes on by itself
beside the command (Quiet), and what it says of the state and the operands. -/

open Sys2Proof Sys2Proof.Machine Sys2Proof.Safety

/-- A step takes the command at the front of the queue and gives it its effect, on the state with the rest of the queue. -/
def Obligations.StepRunsFront : Prop :=
  ∀ (s : State) (c : Instr) (cs : List Instr), s.pending = c :: cs → step s = exec c { s with pending := cs }

/-- Every step answers a next state, whatever the state and the command: no command stops the block. On an empty queue a tick of the
time base passes and nothing else changes but the model's count of its wraps (the model's choice, log entries 2 and 11); no command takes time or touches the queue, and a cold reset
starts the time base at zero (R162). -/
def Obligations.EveryStepAnswers : Prop :=
  ∀ (s : State), (s.pending = [] → step s = .next { s with
      now := s.now + 1, wraps := if s.now = BitVec.allOnes 48 then s.wraps + 1 else s.wraps }) ∧
    ∀ c cs, s.pending = c :: cs → ∃ t, step s = .next t ∧ t.pending = cs ∧
      t.now = if c = .coldResetAssert then 0 else s.now

/-- R426: every step leaves `efk_irq_cmd` high exactly where GLB_IRQEN.CMD is 1 and GLB_DONE.COUNT is not zero, and `efk_irq_flt` high
exactly where the fault log holds an entry, as R354 says; with them `efk_fault_n` is low exactly where
a severe source is not acknowledged. While `efk_rst_cold_n` is low and WS_EXTEST or WS_CLAMP is in force, the boundary cells drive them
instead (R452). -/
def Obligations.OutputsFollowState : Prop :=
  ∀ (s t : State), pinsOk s → step s = .next t → pinsOk t ∧ (t.cellsDrive = false →
    (t.pins.irqCmd = true ↔ t.flag 0 0x038 0 = true ∧ t.fld 0 0x028 23 16 ≠ 0) ∧ (t.pins.irqFlt = true ↔ t.flt.log ≠ []) ∧
    (t.pins.faultN = false ↔ t.unacked = true))

/-- What a cold reset leaves (R5, R162, R381, R447): STATE is RESET with `efk_rst_cold_n` low, the time base is zero, home n is served by
slice n and slice 16 serves none, no partition is enabled, the fault log is empty and no source is severe or fenced; the outputs follow the
state and the DRAM's contents are in canonical form. That unlisted DRAM reads as zero is the model's choice (log entry 4). -/
def Obligations.ResetState : Prop :=
  State.reset.pending = [] ∧ State.reset.glb.stt = .reset ∧ State.reset.glb.coldLow = true ∧ State.reset.now = 0 ∧
  (∀ h : Fin 16, State.reset.serving h = some (h.castLE (by decide)) ∧ State.reset.degraded h = false) ∧
  State.reset.homesOf 16 = [] ∧ (∀ q, State.reset.partEn q = false) ∧ State.reset.flt.log = [] ∧
  (∀ n, (State.reset.src n).severe = false ∧ (State.reset.src n).fenced = false) ∧ (∀ p, (State.reset.port p).up = false) ∧
  (∀ i, (State.reset.slice i).mem.ctl.mode = .off ∧ (State.reset.slice i).trk = []) ∧ pinsOk State.reset ∧ memoryOk State.reset

/-- R394, R447, R381, R452, R395: a cold reset is possible in every state; the block is then as after power-up, but for the commands that
wait, the level of the warm-reset pin, the wrapper, and the states the supplies report. The release of the cold reset puts the wrapper into
WS_BYPASS; it begins the fuse step, the first word requested at the next tk edge, unless the warm-reset pin is low. The release of the
warm-reset pin begins the fuse step where the cold reset is released and the entry of the warm reset is complete. Outside RESET the
release of a pin that is not low changes nothing. -/
def Obligations.ResetsOfTheBlock : Prop :=
  (∀ (s : State), ∃ t, exec .coldResetAssert s = .next t ∧ t.glb.stt = .reset ∧ t.glb.coldLow = true ∧ t.regs = [] ∧ t.dram = [] ∧
    t.flt.log = [] ∧ t.flt.src = [] ∧ t.par.parts = [] ∧ (∀ p, t.port p = Port.zero) ∧ (∀ i, t.slice i = Slice.zero) ∧
    (∀ n, t.chan n = Chan.zero) ∧ t.csr = State.reset.csr ∧
    (t.cellsDrive = false → t.pins.alive = false ∧ t.pins.faultN = true ∧ t.pins.irqFlt = false ∧ t.pins.irqCmd = false) ∧ t.pending = s.pending ∧ t.now = 0 ∧ t.glb.warmLow = s.glb.warmLow ∧ t.tst.wir = s.tst.wir ∧
    t.pins.pdStat = s.pins.pdStat) ∧
  (∀ (s : State), Quiet s → s.glb.stt = .reset →
    let start (g : Glb) : Glb := { g with stt := .fuse, fuse := { g.fuse with req := s.edge } }
    (s.glb.coldLow = true → s.glb.warmLow = false → s.glb.warmEntry = false → exec .coldResetRelease s = .next
      ((s.modGlb fun g => start { g with coldLow := false }).modTst fun t => { t with wir := 0 }).setPins) ∧
    (s.glb.coldLow = true → s.glb.warmLow = true → exec .coldResetRelease s = .next
      ((s.modGlb fun g => { g with coldLow := false }).modTst fun t => { t with wir := 0 }).setPins) ∧
    (s.glb.coldLow = false → s.glb.warmLow = true → s.glb.warmEntry = false →
      exec .warmResetRelease s = .next (s.modGlb fun g => start { g with warmLow := false }).setPins) ∧
    (s.glb.coldLow = true ∨ s.glb.warmEntry = true → s.glb.warmLow = true →
      exec .warmResetRelease s = .next (s.modGlb fun g => { g with warmLow := false }).setPins)) ∧
  (∀ (s : State), Quiet s → s.glb.stt ≠ .reset → s.glb.coldLow = false → s.glb.warmLow = false →
    exec .coldResetRelease s = .next s.setPins ∧ exec .warmResetRelease s = .next s.setPins)

/-- R395, R396, R148: a warm reset begins by stopping every port and voiding its credits; a slice in RET is woken (R404),
and otherwise slices, channels, DRAM, registers and logs stand until its entry is complete. Then start-up begins again unless a reset pin is low; the fault log, the remap tables, the lost-write tables and
the results of training are as they were, every rank is in self-refresh, the write that waited in a controller is in the DRAM, and the rest
of the DRAM is as it was; registers, sources, ports and trackers have their reset values. Of writes it covers one that waits in a controller,
and no other in a controller or a slice. -/
def Obligations.WarmResetKeepsLogAndMemory : Prop :=
  ∀ (s : State), Quiet s → s.glb.coldLow = false →
    (s.glb.warmLow = false → ∃ t, exec .warmResetAssert s = .next t ∧ t.glb.warmLow = true ∧ t.glb.warmEntry = true ∧
      (∀ p, (t.port p).up = false ∧ (t.port p).link = PortLink.zero ∧ (t.port p).snpCred = 0 ∧ (t.port p).cred = PortCred.zero) ∧
      (∀ i, t.slice i = if (s.slice i).ctl.dom.a = .ret then { s.slice i with ctl := { (s.slice i).ctl with waking := true } }
        else s.slice i) ∧ t.chans = s.chans ∧ t.dram = s.dram ∧ t.regs = s.regs ∧ t.flt = s.flt) ∧
    (s.glb.warmEntry = true → (∀ i, (s.slice i).ctl.dom.a ≠ .ret) → memIdle s → (∃ n w, (s.chan n).wq = [w] ∧ w.copy = false ∧ ∀ m, m ≠ n → (s.chan m).wq = []) →
      ∃ t, exec .warmEntryComplete s = .next t ∧
      t.glb.stt = (if s.glb.warmLow then .reset else .fuse) ∧ t.glb.wasWarm = true ∧ t.glb.warmEntry = false ∧ t.now = s.now ∧
      t.flt.log = s.flt.log ∧ t.flt.src = [] ∧ t.regs = [] ∧ (∀ p, t.port p = Port.zero) ∧
      (∀ i, (t.slice i).ar.remap = (s.slice i).ar.remap ∧ (t.slice i).trk = []) ∧
      (∀ n w, (s.chan n).wq = [w] → t.dramGet n w.cla = w.l ∧ ∀ m k, (m, k) ≠ (n, w.cla) → t.dramGet m k = s.dramGet m k) ∧
      (∀ n, (t.chan n).lost = (s.chan n).lost ∧ (t.chan n).trn.res = (s.chan n).trn.res ∧ (t.chan n).wq = [] ∧
        ∀ r < s.ranks n, ((t.chan n).rank r).selfRef = true))

/-- R445, R381, R382: in the fuse step a word that the macro gives within 50 tk of its request is stored and the next is requested; one that
comes later, or whose absence is noted 50 tk after the request, is stored as 0 and noted as late; its absence is not noted before. With the
last word the bundle is latched: init and the training of every channel begin, full unless the reset was warm. A bundle that does not pass its
check is an UNCOR event of the network island, and gives the substitute values: no key hash, one usable partition, no spare slice, no DET, the
debug and the aperture lock, no trusted port; one with a late word never passes. -/
def Obligations.FuseWordsInTurn : Prop :=
  ∀ (s : State) (w : BitVec 32), Quiet s → s.glb.stt = .fuse → s.glb.fuse.done = false →
    let late := s.reached (s.glb.fuse.req + 51)
    (s.glb.fuse.idx < 15 →
      exec (.fuseWordAck w) s = .next (s.modGlb fun g => { g with fuse := { g.fuse with
        words := tabSet 0 g.fuse.words g.fuse.idx (if late then 0 else w), idx := g.fuse.idx + 1, req := s.edge
        late := g.fuse.late || late } }).setPins ∧
      (s.reached (s.glb.fuse.req + 50) = true → exec .fuseAckTimeout s = .next (s.modGlb fun g => { g with fuse := { g.fuse with
        words := tabSet 0 g.fuse.words g.fuse.idx 0, idx := g.fuse.idx + 1, req := s.edge, late := true } }).setPins) ∧
      (s.reached (s.glb.fuse.req + 50) = false → exec .fuseAckTimeout s = .next s.setPins)) ∧
    (s.glb.fuse.idx = 15 → (s.slice 0).ar.init ≠ 0x3FF →
      ∀ c, c = .fuseWordAck w ∨ c = .fuseAckTimeout ∧ s.reached (s.glb.fuse.req + 50) = true → ∃ t, exec c s = .next t ∧
        t.glb.stt = .init ∧ t.glb.fuse.done = true ∧ (t.glb.fuse.ok = true → late = false ∧ s.glb.fuse.late = false ∧ c = .fuseWordAck w) ∧
        t.glb.fuse.ok = ({ s.glb.fuse with words := tabSet 0 s.glb.fuse.words 15 (if late ∨ c = .fuseAckTimeout then 0 else w)
                                           late := s.glb.fuse.late || late || decide (c = .fuseAckTimeout) } : Fuse).check ∧
        (t.glb.fuse.ok = false → (∀ k, t.glb.fuse.keyHash k = 0) ∧ t.glb.fuse.maxPart = 1 ∧ t.glb.fuse.spare = false ∧
          t.glb.fuse.detPermit = false ∧ t.glb.fuse.dbgLock = true ∧ t.glb.fuse.apLock = true ∧ t.glb.fuse.trust = 0 ∧
          (t.src srcNet).severe = true) ∧
        ∀ n, (t.chan n).trn.phase = (if s.glb.wasWarm then .read else .dfi) ∧ (t.chan n).trn.valid = false ∧
          (t.chan n).trn.full = !s.glb.wasWarm)

/-- R383: the init program of an array whose domain is powered, after the fuse step and outside a reset or a test of the slice, leaves the
array empty and sets its INIT bit; no other array, and no remap table, changes. R209: the check of a bank that passes makes it VALID and reports
0 in SLC_GCREP; one that fails makes the slice severe. The arrays, in order: snoop filter, replacement words, tracker, ledger, queue
descriptors, MSC tags, MSC data, bank 0, bank 1, trace buffer; a bank that is empty holds the base grammar. R381: start-up goes from INIT to TRAIN with the last array, from
TRAIN to LOAD with the last channel, where both banks of every slice take the base grammar, and from LOAD to READY with the last check,
when a pass over the pages has given their CRC. -/
def Obligations.InitAndCheckEnd : Prop :=
  (∀ (s : State) (i : Fin 17) (arr : Fin 10) (bank : Bool), Quiet s → (s.slice i).ctl.resetting = false →
    (s.slice i).ctl.testing = false →
    ((s.slice i).ar.init.getLsbD arr.val = false → s.pdOn (arrayDomain i arr.val) = true → s.glb.stt ≠ .reset → s.glb.stt ≠ .fuse →
      s.usableSlice i = true → ∃ x, exec (.initProgramDone i arr) s = .next (s.modSlice i fun _ => x).setPins ∧
        (∀ k < 10, x.ar.init.getLsbD k = ((s.slice i).ar.init.getLsbD k || k == arr.val)) ∧
        x.ar.sf = (if arr = 0 then [] else (s.slice i).ar.sf) ∧ x.ar.repl = (if arr = 1 then [] else (s.slice i).ar.repl) ∧
        x.trk = (if arr = 2 then [] else (s.slice i).trk) ∧ x.ar.ledger = (if arr = 3 then [] else (s.slice i).ar.ledger) ∧
        x.ar.desc = (if arr = 4 then [] else (s.slice i).ar.desc) ∧
        x.ar.msc = (if arr = 5 ∨ arr = 6 then [] else (s.slice i).ar.msc) ∧
        (∀ a < 1024, x.uc.clause false a = if arr = 7 then baseWord a else (s.slice i).uc.clause false a) ∧
        (∀ a < 1024, x.uc.clause true a = if arr = 8 then baseWord a else (s.slice i).uc.clause true a) ∧
        (arr ≠ 9 → x.trace = (s.slice i).trace) ∧ (arr = 9 → x.trace.recs = []) ∧
        x.ar.remap = (s.slice i).ar.remap ∧ x.uc.active = (s.slice i).uc.active ∧ x.ctl = (s.slice i).ctl ∧ x.mem = (s.slice i).mem) ∧
    ((s.slice i).uc.due = bankBit bank → s.glb.ld.st.res ≠ .running → s.flt.run = none →
      ∃ t, exec (.grammarCheckDone i bank) s = .next t ∧
        ((s.slice i).uc.check bank = none → t = (s.modSlice i fun x => { x with uc := { x.uc with
          gcRule := 0, gcVte := 0, gcClause := 0, gcStep := 0, due := 0, valid := x.uc.valid ||| bankBit bank } }).setPins) ∧
        ((s.slice i).uc.check bank ≠ none → (t.src (srcSlice i)).severe = true))) ∧
  ∀ (s : State) (i : Fin 17) (arr : Fin 10) (bank : Bool) (n : Fin 16), Quiet (s.modGlb fun g => { g with stt := .ready }) →
    s.usableSlice i = true → (s.slice i).ctl.resetting = false → (s.slice i).ctl.testing = false → s.flt.run = none →
    (s.glb.stt = .init → (s.slice i).ar.init.getLsbD arr.val = false → s.pdOn (arrayDomain i arr.val) = true →
      ∃ t, exec (.initProgramDone i arr) s = .next t ∧ (t.slice i).ar.init.getLsbD arr.val = true ∧
        (∀ j, j ≠ i → t.slice j = s.slice j) ∧ t.chans = s.chans ∧ t.flt = s.flt ∧
        t.glb.stt = if ∀ j, s.usableSlice j = true → (t.slice j).ar.init = 0x3FF then .train else .init) ∧
    (s.glb.stt = .train → (s.chan n).trn.phase = .latched → (s.chan n).trn.fail = false → (s.chan n).resetting = false →
      (s.chan n).trn.st.res ≠ .running → ∃ t, exec (.trainingDone n) s = .next t ∧ (t.chan n).trn.valid = true ∧
        (∀ m, m ≠ n → t.chan m = s.chan m) ∧ t.flt = s.flt ∧
        ((∃ m, m ≠ n ∧ ((s.chan m).trn.phase ≠ .idle ∨ (s.chan m).trn.valid = false)) → t.glb.stt = .train ∧ t.slices = s.slices) ∧
        ((∀ m, m ≠ n → (s.chan m).trn.phase = .idle ∧ (s.chan m).trn.valid = true) → t.glb.stt = .load ∧
          ∀ j, s.usableSlice j = true → t.slice j = { s.slice j with uc := (s.slice j).uc.base } ∧ (t.slice j).uc.due = 3)) ∧
    (s.glb.stt = .load → (s.slice i).uc.due = bankBit bank → (s.slice i).uc.check bank = none → ∃ t,
      exec (.grammarCheckDone i bank) s = .next t ∧ (t.slice i).uc.due = 0 ∧ (∀ j, j ≠ i → t.slice j = s.slice j) ∧ t.chans = s.chans ∧
        t.flt = s.flt ∧
        ((∃ j, j ≠ i ∧ s.usableSlice j = true ∧ (s.slice j).uc.due ≠ 0) → t.glb.stt = .load) ∧
        ((∀ j, j ≠ i → s.usableSlice j = true → (s.slice j).uc.due = 0) → t.glb.stt = .ready ∧
          ∀ k < 64, s.pageAwake k = true → t.rcrc k = t.pageCrc k))

/-- R465, R388, R422: a COMMIT in READY or COMMITTED, no write posted, whose checks pass makes the block COMMITTED: DET mode is what
GLB_DETCFG sets, and CRCREF of every page is its CRC as the latest pass gave it; here the memory layout is the first one, or the one that ran last (R387). One whose
checks fail leaves it READY, refused with the lowest code, and each failing check is logged as a configuration fault. In any other state the
command is refused with CAUSE 0; while another runs, or with the SEQ of the last one, it is ignored and CMDREF says so. -/
def Obligations.CommitChecksConfiguration : Prop :=
  ∀ (s : State) (seq : BitVec 8), Quiet s →
    (s.glb.cmd.accepts seq = true → s.glb.stt = .ready ∨ s.glb.stt = .committed → s.glb.cmd.held = none → s.csr.posted = [] →
      (s.commitFails = [] → s.glb.layout = [] ∨ s.glb.layout = s.layoutRegs → ∃ t, exec (.commit seq) s = .next t ∧
        t.glb.stt = .committed ∧ t.glb.cmd.res = .completed ∧ t.glb.cmd.refused = false ∧ t.glb.cmd.rseq = seq ∧ t.glb.det = s.detEn ∧
        (∀ n < 64, t.reg n 0xFF = s.rcrc n) ∧ (∀ i, (t.slice i).trk = (s.slice i).trk ∧ (t.slice i).ar = (s.slice i).ar ∧
          (t.slice i).mem = (s.slice i).mem ∧ (t.slice i).uc = (s.slice i).uc) ∧ t.ports = s.ports ∧ t.chans = s.chans ∧ t.dram = s.dram ∧
        t.par = s.par ∧ t.flt = s.flt) ∧
      (∀ c cs, s.commitFails = c :: cs → s.flt.log.length ≤ 250 → ∃ t, exec (.commit seq) s = .next t ∧ t.glb.stt = .ready ∧
        t.glb.cmd.res = .completed ∧ t.glb.cmd.refused = true ∧ t.glb.cmd.cause = c ∧ t.glb.cmd.rseq = seq ∧ t.glb.det = s.glb.det ∧
        t.flt.log = s.flt.log ++ (c :: cs).map (fun _ => ⟨0x0C, 57, 63, 0, 0, s.now⟩) ∧ t.slices = s.slices ∧ t.ports = s.ports ∧
        t.chans = s.chans ∧ t.par = s.par)) ∧
    (s.glb.cmd.accepts seq = true → s.glb.stt ≠ .ready → s.glb.stt ≠ .committed →
      exec (.commit seq) s = .next (s.gcRefuse seq 0).setPins) ∧
    (s.glb.cmd.accepts seq = false → exec (.commit seq) s = .next (s.modGlb fun g => { g with cmd := { g.cmd with cmdref := true } }).setPins)

/-- R385, R59: ENABLE of a committed block with no failed training, no slice that is severe or has failed its check, and no port up, whose
serving slices are all initialised, makes it ENABLED, brings every port up and issues each enabled partition its REQ and data credits; where
a serving slice is not initialised it is refused with CAUSE 0x11, and in any other state of the block with CAUSE 0x10. -/
def Obligations.EnableBringsPortsUp : Prop :=
  ∀ (s : State) (seq : BitVec 8), Quiet s → s.glb.cmd.accepts seq = true →
    (s.glb.stt = .committed → (∀ n, (s.chan n).trn.fail = false) →
      (∀ i, (s.src (srcSlice i)).severe = false ∧ (s.slice i).ctl.sound = true) →
      (∀ p, (s.port p).up = false) →
      (s.servingReady = true → s.glb.cmd.held = none → ∃ t, exec (.enable seq) s = .next t ∧ t.glb.stt = .enabled ∧
        t.glb.everEnabled = true ∧ t.glb.cmd.res = .completed ∧ t.glb.cmd.refused = false ∧ t.glb.cmd.rseq = seq ∧
        (∀ p, (t.port p).up = true) ∧
        (∀ p q, s.partEn q = true → ((t.port p).rIss q).toNat = s.rLimit p q ∧ ((t.port p).dIss q).toNat = s.dLimit p q) ∧
        (∀ p q, s.partEn q = false → (t.port p).rIss q = 0) ∧ t.dram = s.dram ∧ t.flt = s.flt ∧ t.par = s.par) ∧
      (s.servingReady = false → exec (.enable seq) s = .next (s.gcRefuse seq 0x11).setPins)) ∧
    (s.glb.stt ≠ .committed → exec (.enable seq) s = .next (s.gcRefuse seq 0x10).setPins)

/-- R387: DISABLE of an enabled block whose enabled partitions are all FROZEN and in which no move runs begins the drain, driving every MSC
that is ON to DRAIN; while a move runs it is refused with CAUSE 0x21, else while an enabled partition is not FROZEN with 0x20, and in a block
that is not ENABLED with 0. The drain is complete, and leaves the block READY, once no slice has a tracker entry, a stale-eviction record, a write
in its merging buffer or before it, or an MSC that is not OFF; before, nothing happens. -/
def Obligations.DisableDrains : Prop :=
  ∀ (s : State) (seq : BitVec 8), Quiet s →
    (s.glb.cmd.accepts seq = true →
      (s.glb.stt = .enabled → s.flt.run = none → s.allFrozen = true → ∃ t, exec (.disable seq) s = .next t ∧ t.glb.stt = .disabling ∧
        t.glb.cmd.res = .running ∧ t.glb.cmd.rseq = seq ∧ (∀ i, (t.slice i).mem.ctl.mode =
          if (s.slice i).mem.ctl.mode = .on then .drain else (s.slice i).mem.ctl.mode) ∧
        (∀ i, (t.slice i).trk = (s.slice i).trk) ∧ t.regs = s.regs ∧ t.ports = s.ports ∧ t.chans = s.chans ∧ t.dram = s.dram) ∧
      (s.glb.stt = .enabled → s.flt.run ≠ none → exec (.disable seq) s = .next (s.gcRefuse seq 0x21).setPins) ∧
      (s.glb.stt = .enabled → s.flt.run = none → s.allFrozen = false → exec (.disable seq) s = .next (s.gcRefuse seq 0x20).setPins) ∧
      (s.glb.stt ≠ .enabled → exec (.disable seq) s = .next (s.gcRefuse seq 0).setPins)) ∧
    (s.glb.stt = .disabling → exec .disableDrainComplete s = .next
      (if ∀ i, (s.slice i).ents = [] ∧ (s.slice i).recs = [] ∧ (s.slice i).mem.wmb = [] ∧ (s.slice i).mem.wtWait = [] ∧ (s.slice i).mem.ctl.mode = .off then
        (s.modGlb fun g => { g with stt := .ready, cmd := g.cmd.complete }).done 0 else s).setPins)

/-- R389: a BROADCAST SET puts the home, or all, in BROADCAST at once; it completes when no transaction of a home it covers that had selected
its verb before is left, and not before. R390: a CLEAR of homes that need no sweep takes them out at once; one that needs a sweep begins it at
set 0 of each home that needs it, the homes staying in BROADCAST; its abort ends the sweep and leaves them in BROADCAST. An abort that finds no
command running reads NOTHING. -/
def Obligations.Broadcast : Prop :=
  (∀ (s : State) (seq : BitVec 8) (all : Bool) (h : Fin 16), Quiet s →
    (s.glb.bc.st.accepts seq = true → ∃ b, exec (.broadcastSet seq all h) s = .next (s.modBc fun _ => b).setPins ∧
      b.st = s.glb.bc.st.accept seq ∧ (∀ k : Fin 16, (b.all || b.homes.getLsbD k.val) = (s.inBcast k || all || k == h))) ∧
    (s.glb.bc.st.res = .running → s.glb.bc.st.held = none → exec .broadcastSetComplete s = .next
      (if ∀ i, ∀ e ∈ (s.slice i).ents, s.beforeSet e.2 = false then
        (s.modBc fun b => { b with st := { b.st with res := .completed } }).done 0 else s).setPins) ∧
    (s.glb.bc.st.accepts seq = true → s.sweptBy all h = [] → ∃ t, exec (.broadcastClear seq all h) s = .next t ∧
      t.glb.bc.st = (s.glb.bc.st.accept seq).complete ∧ t.glb.bc.all = (s.glb.bc.all && !all) ∧
      t.glb.bc.homes = (if all then s.glb.bc.homes else s.glb.bc.homes &&& ~~~(BitVec.ofNat 16 (2 ^ h.val))) ∧
      t.slices = s.slices ∧ t.ports = s.ports ∧ t.chans = s.chans ∧ t.flt = s.flt) ∧
    (s.glb.bc.st.accepts seq = true → s.sweptBy all h ≠ [] → ∃ t, exec (.broadcastClear seq all h) s = .next t ∧
      t.glb.bc.st = s.glb.bc.st.accept seq ∧ t.glb.bc.sweep = (s.sweptBy all h).map (fun k => (k, 0)) ∧ t.glb.bc.all = s.glb.bc.all ∧
      t.glb.bc.homes = s.glb.bc.homes ∧ (∀ i, (t.slice i).trk = (s.slice i).trk ∧ (t.slice i).ar = (s.slice i).ar ∧
        (t.slice i).mem = (s.slice i).mem) ∧ t.ports = s.ports ∧ t.chans = s.chans ∧ t.dram = s.dram ∧ t.flt = s.flt ∧ t.regs = s.regs) ∧
    (s.glb.bc.st.res ≠ .running → seq ≠ s.glb.bc.st.rseq → exec (.broadcastAbort seq) s = .next
      (s.modBc fun b => { b with st := { b.st with res := .nothing, rseq := seq } }).setPins)) ∧
  ∀ (s : State) (seq : BitVec 8), Quiet (s.modBc fun b => { b with sweep := [] }) → s.glb.bc.sweep ≠ [] → s.glb.bc.st.res = .running →
    seq ≠ s.glb.bc.st.rseq → exec (.broadcastAbort seq) s = .next ((s.modBc fun b =>
      { b with st := { b.st with res := .aborted, held := none }, sweep := [], clearAll := false, clearHome := none }).done 0).setPins

/-- R225, R229: a LOAD of a committed block whose selected slices are awake and not dropped makes the inactive bank of each of them not VALID
and reads the image from the channels at once; in an ENABLED block, where a selected slice has a transaction in its inactive bank, it makes the
banks not VALID and waits; in a block that is neither it is refused with cause 0x08. R223: an image that is refused ends the LOAD with the
cause, and the banks stay not VALID. R224, R225: one that is
accepted is in the inactive banks of the slices selected, and their checks begin. R227: an abort ends a LOAD, and the banks stay not VALID. R230: a SWITCH makes the inactive bank active
where it is VALID and no evacuation or LIVETEST uses the slice; otherwise it is refused with CAUSE 0. -/
def Obligations.LoadAndSwitchOfMicrocode : Prop :=
  (∀ (s : State) (seq : BitVec 8), Quiet s →
    let sel (i : Fin 17) : Bool := (s.fld 0 0x20C 16 0).testBit i.val
    let begun (t : State) : Prop := t.glb.ld.st = { s.glb.ld.st.accept seq with cmdref := false } ∧
      t.glb.ld.sel = BitVec.ofNat 17 (s.fld 0 0x20C 16 0) ∧
      (∀ i, (t.slice i).uc.active = (s.slice i).uc.active ∧ (t.slice i).uc.valid =
        if sel i then (s.slice i).uc.valid &&& ~~~bankBit (!(s.slice i).uc.active) else (s.slice i).uc.valid) ∧
      t.regs = s.regs ∧ t.ports = s.ports ∧ t.chans = s.chans ∧ t.dram = s.dram ∧ t.flt = s.flt
    (s.glb.ld.st.accepts seq = true →
      (∀ i, sel i = true → s.loadDrops i = false ∧ (s.slice i).asleep = false) → s.fld 0 0x20C 16 0 ≠ 0 →
      (s.glb.stt = .committed → ∃ t, exec (.load seq) s = .next t ∧ begun t ∧ t.glb.ld.phase = .reading ∧ t.glb.ld.rd.all = true) ∧
      (∀ i, s.glb.stt = .enabled → sel i = true → (s.slice i).oldUsers ≠ 0 → ∃ t, exec (.load seq) s = .next t ∧ begun t ∧
        t.glb.ld.phase = .waiting)) ∧
    (s.glb.ld.st.accepts seq = true → s.glb.ld.st.held = none → s.glb.stt ≠ .committed → s.glb.stt ≠ .enabled →
      ∃ t, exec (.load seq) s = .next t ∧ t.glb.ld.st.res = .completed ∧ t.glb.ld.st.rseq = seq ∧ t.glb.ld.st.cause = 0x08 ∧
        t.slices = s.slices) ∧
    (s.glb.ld.st.res = .running → s.glb.ld.st.held = none → s.glb.ld.phase = .reading → s.glb.ld.rd.all = true →
      imageCause s.glb.ld.rd s.glb.fuse ≠ 0 → ∃ t, exec .loadImageReadDone s = .next t ∧ t.glb.ld.st.res = .completed ∧
        t.glb.ld.st.rseq = s.glb.ld.st.rseq ∧ t.glb.ld.st.cause = imageCause s.glb.ld.rd s.glb.fuse ∧ t.glb.ld.phase = .idle ∧
        (∀ i, (t.slice i).uc.valid = (s.slice i).uc.valid ∧ (t.slice i).uc.active = (s.slice i).uc.active)) ∧
    (s.glb.ld.st.res = .running → s.glb.ld.st.held = none → s.glb.ld.phase = .reading → s.glb.ld.rd.all = true →
      ∃ t, exec .loadImageReadDone s = .next t ∧
        (∀ i, ∀ a < 1024, (t.slice i).uc.clause (s.slice i).uc.active a = (s.slice i).uc.clause (s.slice i).uc.active a ∧
          (t.slice i).uc.clause (!(s.slice i).uc.active) a =
            if s.glb.ld.sel.getLsbD i.val then s.glb.ld.rd.clause a else (s.slice i).uc.clause (!(s.slice i).uc.active) a) ∧
        (imageCause s.glb.ld.rd s.glb.fuse = 0 → t.glb.ld.st = s.glb.ld.st ∧ t.glb.ld.phase = .checking ∧ t.glb.ld.left = s.glb.ld.sel ∧
          t.glb.ld.sel = s.glb.ld.sel ∧ (∀ i, (t.slice i).uc.due = if s.glb.ld.sel.getLsbD i.val
            then (s.slice i).uc.due ||| bankBit (!(s.slice i).uc.active) else (s.slice i).uc.due)) ∧
        (∀ i, (t.slice i).uc.valid = (s.slice i).uc.valid ∧ (t.slice i).uc.active = (s.slice i).uc.active ∧ (t.slice i).trk = (s.slice i).trk ∧
          (t.slice i).ar = (s.slice i).ar ∧ (t.slice i).mem = (s.slice i).mem) ∧ t.ports = s.ports ∧ t.chans = s.chans ∧ t.dram = s.dram ∧
        t.flt = s.flt) ∧
    (s.glb.ld.st.res = .running → seq ≠ s.glb.ld.st.rseq → ∃ t, exec (.loadAbort seq) s = .next t ∧ t.glb.ld.st.res = .aborted ∧
      t.glb.ld.st.rseq = s.glb.ld.st.rseq ∧ t.glb.ld.phase = .idle ∧ (∀ i, (t.slice i).uc.valid = (s.slice i).uc.valid))) ∧
  (∀ (s : State) (i : Fin 17) (seq : BitVec 8), Quiet s → (s.slice i).ctl.dom.a = .on → (s.slice i).uc.st.accepts seq = true →
    exec (.switchBank i seq) s = .next (
      if (s.slice i).uc.valid &&& bankBit (!(s.slice i).uc.active) = 0 ∨ s.evacOrLt i = true then
        (s.modSlice i fun x => { x with uc := { x.uc with st := x.uc.st.refuse seq 0 } }).done (slcPage i)
      else (s.modSlice i fun x => { x with uc := { x.uc with
        active := !x.uc.active, st := (x.uc.st.accept seq).complete } }).done (slcPage i)).setPins)

/-- R339, R341, R342, R340, R156, R306, R69: a FREEZE of a running partition, and a RESET of a running or frozen one, stop it and clear its
reservations, a RESET advancing its generation; a drain that is complete leaves it FROZEN, or as it was before its RESET with the credits of
every port that is up issued again; a THAW lets a frozen one run; a command that is given in a wrong state is refused with CAUSE 0x01, and one
given while another runs is ignored and sets CMDREF. An abort of a FREEZE lets the partition run again (R345). No port holds a request of the partition here. A request of the partition that a RESET
meets in an ingress queue leaves it, binds no entry, and its completion is discarded at its port and counted. -/
def Obligations.PartitionStates : Prop :=
  ∀ (s : State) (seq : BitVec 8) (q : PartId), Quiet s → (∀ p, ∀ k ∈ (s.port p).held, k.a.part ≠ q) →
    (s.par.cmd.accepts seq = true →
      ((s.part q).st = .run → ∃ t, exec (.freeze seq q) s = .next t ∧ (t.part q) = { s.part q with st := .freezing } ∧
        t.par.cmd.res = .running ∧ t.par.cmd.rseq = seq ∧ t.par.running = some q ∧ (∀ r, r ≠ q → t.part r = s.part r) ∧
        (∀ i, (t.slice i).resv = (s.slice i).resv.filter fun r => r.part != q) ∧ t.ports = s.ports ∧ t.regs = s.regs ∧
        t.chans = s.chans ∧ t.dram = s.dram ∧ t.flt = s.flt) ∧
      ((s.part q).st = .run ∨ (s.part q).st = .frozen → (∀ i, (s.slice i).ingress = [] ∧ (s.slice i).wakeHold = []) →
        ∃ t, exec (.partitionReset seq q) s = .next t ∧
        t.part q = { s.part q with st := .resetting, gen := (s.part q).gen + 1, wasFrozen := decide ((s.part q).st = .frozen) } ∧
        t.par.cmd.res = .running ∧ t.par.cmd.rseq = seq ∧ t.par.running = some q ∧ (∀ r, r ≠ q → t.part r = s.part r) ∧
        (∀ i, (t.slice i).resv = (s.slice i).resv.filter fun r => r.part != q) ∧ t.regs = s.regs ∧ t.chans = s.chans ∧
        t.dram = s.dram ∧ t.flt = s.flt) ∧
      ((s.part q).st = .frozen → s.par.cmd.held = none → ∃ t, exec (.thaw seq q) s = .next t ∧
        t.part q = { s.part q with st := .run } ∧ t.par.cmd.res = .completed ∧ t.par.cmd.rseq = seq ∧ t.par.cmd.refused = false ∧
        (∀ r, r ≠ q → t.part r = s.part r) ∧ t.slices = s.slices ∧ t.ports = s.ports ∧ t.chans = s.chans ∧ t.flt = s.flt) ∧
      ((s.part q).st ≠ .run → exec (.freeze seq q) s = .next (s.parRefuse seq 0x01).setPins) ∧
      ((s.part q).st ≠ .frozen → ∀ c ∈ [Instr.thaw seq q, .save seq q, .restore seq q],
        exec c s = .next (s.parRefuse seq 0x01).setPins) ∧
      ((s.part q).st ≠ .run → (s.part q).st ≠ .frozen → exec (.partitionReset seq q) s = .next (s.parRefuse seq 0x01).setPins)) ∧
    (s.par.cmd.accepts seq = false → ∀ c ∈ [Instr.freeze seq q, .thaw seq q, .save seq q, .restore seq q, .partitionReset seq q],
      exec c s = .next (s.modPar fun x => { x with cmd := { x.cmd with cmdref := true } }).setPins) ∧
    ((s.part q).st = .freezing → s.partDrained q false = true → s.par.cmd.held = none → ∃ t,
      exec (.freezeDrainComplete q) s = .next t ∧ t.part q = { s.part q with st := .frozen } ∧ t.par.cmd.res = .completed ∧
      t.par.running = none ∧ t.slices = s.slices ∧ t.ports = s.ports) ∧
    ((s.part q).st = .resetting → s.partDrained q true = true → s.par.cmd.held = none → ∃ t,
      exec (.partitionResetDrainComplete q) s = .next t ∧
      t.part q = { s.part q with st := if (s.part q).wasFrozen then .frozen else .run } ∧
      t.par.cmd.res = .completed ∧ (s.partEn q = true → ∀ p, (s.port p).up = true →
        ((t.port p).rIss q).toNat = s.rLimit p q ∧ ((t.port p).dIss q).toNat = s.dLimit p q) ∧ t.slices = s.slices) ∧
    (∀ (i : Fin 17) (p : Fin 24) (r : Req) (k : Nat), s.par.cmd.accepts seq = true → (s.part q).st = .run ∨ (s.part q).st = .frozen →
      (∀ p, (s.port p).held = []) → (∀ j, (s.slice j).wakeHold = []) → (∀ j, j ≠ i → (s.slice j).ingress = []) →
      (s.slice i).ingress = [(p.val, ⟨[(r, k)], []⟩)] → r.port = some p → r.a.part = q → r.a.gen = (s.part q).gen →
      carries p r.a.src = true → s.agFenced r.a.src = false → s.portFenced p = false → ∃ t, exec (.partitionReset seq q) s = .next t ∧
        (t.slice i).ing p.val = ⟨[], []⟩ ∧ (t.slice i).trk = (s.slice i).trk ∧ (t.part q).st = .resetting ∧
        (t.part q).stale = (if (s.part q).stale = 0xFF then 0xFF else (s.part q).stale + 1) ∧ (t.port p).link = (s.port p).link) ∧
    (s.par.cmd.res = .running → seq ≠ s.par.cmd.rseq → s.par.job = .none → s.par.running = some q → (s.part q).st = .freezing → ∃ t,
      exec (.partitionAbort seq) s = .next t ∧ t.part q = { s.part q with st := .run } ∧ t.par.cmd = s.par.cmd.abort ∧
      t.par.running = none ∧ (∀ r, r ≠ q → t.part r = s.part r) ∧ t.slices = s.slices ∧ t.ports = s.ports ∧ t.chans = s.chans ∧
      t.dram = s.dram ∧ t.flt = s.flt)

/-- R343: a SAVE of a frozen partition that holds no lock and no queue begins with its header line, written by agent 63 with MAGIC zero; one
whose image does not fit PAR_SAVELEN is refused with CAUSE 0x02. R344: a RESTORE begins with a read of the header line by agent 63. Both are
refused with CAUSE 0x08 while a move runs. R345: an abort of a SAVE whose true header is not on its way lets the
line that is being written be the last; one of a RESTORE that has applied nothing ends it. The image begins at a line of a home
that an awake slice serves, with a place in the queue of agent 63's engines there; no array holds an injected error. -/
def Obligations.SaveAndRestoreBegin : Prop :=
  ∀ (s : State) (seq : BitVec 8) (q : PartId) (h : Fin 16) (i : Fin 17), Quiet s → (∀ j, (s.slice j).ar.inj = []) → (s.part q).st = .frozen →
    s.homed s.saveBase = true → s.inAperture s.saveBase = false → s.homeOf s.saveBase = h → s.servingSlice h s.saveBase = some i →
    (s.slice i).asleep = false → ((s.slice i).ing 25).direct.length < 8 →
    (s.par.cmd.accepts seq = true → s.imageBody q = [] → s.flt.run = none → 1 ≤ s.saveLen → ∃ t r, exec (.save seq q) s = .next t ∧
      t.par.cmd.res = .running ∧ t.par.cmd.rseq = seq ∧ t.par.running = some q ∧
      t.par.job = .save s.saveBase 0 [] (s.imageHeader q [] saveMagic) false false ∧
      ((t.slice i).ing 25).direct = ((s.slice i).ing 25).direct ++ [(r, (s.slice i).arb.sc)] ∧ r.kind = .req .wrFull ∧
      r.a.src = 63 ∧ r.a.pa = s.saveBase ∧ r.cd = some ⟨s.imageHeader q [] 0, false⟩ ∧ t.ports = s.ports ∧ t.chans = s.chans ∧
      t.dram = s.dram ∧ t.flt = s.flt) ∧
    (s.par.cmd.accepts seq = true → s.saveLen < (s.imageBody q).length + 1 →
      exec (.save seq q) s = .next (s.parRefuse seq 0x02).setPins) ∧
    (s.par.cmd.accepts seq = true → s.flt.run = none → ∃ t r, exec (.restore seq q) s = .next t ∧ t.par.cmd.res = .running ∧
      t.par.cmd.rseq = seq ∧ t.par.running = some q ∧
      ((t.slice i).ing 25).direct = ((s.slice i).ing 25).direct ++ [(r, (s.slice i).arb.sc)] ∧ r.kind = .req .rdCur ∧
      r.a.src = 63 ∧ r.a.pa = s.saveBase ∧ t.ports = s.ports ∧ t.chans = s.chans ∧ t.dram = s.dram ∧ t.flt = s.flt) ∧
    (s.par.cmd.accepts seq = true → s.flt.run ≠ none → exec (.restore seq q) s = .next (s.parRefuse seq 0x08).setPins ∧
      ((s.imageBody q).length + 1 ≤ s.saveLen → exec (.save seq q) s = .next (s.parRefuse seq 0x08).setPins)) ∧
    (s.par.cmd.res = .running → seq ≠ s.par.cmd.rseq → s.par.running = some q →
      (∀ b n rest hd, s.par.job = .save b n rest hd false false → exec (.partitionAbort seq) s =
        .next (s.modPar fun x => { x with job := .save b n rest hd false true }).setPins) ∧
      (∀ rd, s.par.job = .checkHeader rd ∨ s.par.job = .checkBody rd → ∃ t, exec (.partitionAbort seq) s = .next t ∧
        t.par.cmd.res = .aborted ∧ t.par.cmd.rseq = s.par.cmd.rseq ∧ t.par.job = .none ∧ t.par.running = none ∧ t.part q = s.part q ∧
        t.slices = s.slices ∧ t.ports = s.ports ∧ t.chans = s.chans ∧ t.dram = s.dram ∧ t.flt = s.flt))

/-- R36, R38, R41, R46, R47, R49, R53: the bits of a flit read back. A REQ flit with its CRC is the command of its opcode with every field at
every value, and one with a reserved opcode is none; so for the answers, `CompAck`, `DatDirty`, `DatWr` and data between agents; and an SNP
flit of Efkar says what the snoop says. A flit that is a command does, with the link number that is expected, what the
command does. -/
def Obligations.FlitsCarryMessages : Prop :=
  (∀ (p : Fin 24) (op : ReqOp) (a : ReqArgs), reqFlitCommand p (flitOf (reqWord (reqCode op) a)) = some (reqCommand op p a)) ∧
  (∀ (p : Fin 24) (opc : BitVec 5) (a : ReqArgs), 0x13 ≤ opc.toNat → reqFlitCommand p (flitOf (reqWord opc a)) = none) ∧
  (∀ (p : Fin 24) (op : RspOp) (a : RspArgs) (c : Instr), answerCmd op p a = some c →
    rspFlitCommand p (flitOf (rspWord op.code a)) = some c) ∧
  (∀ (p : Fin 24) (a : RspArgs), rspFlitCommand p (flitOf (rspWord RspOp.compAck.code a)) = some (.compack p a)) ∧
  (∀ (p : Fin 24) (a : DatArgs), datFlitCommand p (flitOf (datWord DatOp.datDirty.code true a)) = some (.datdirty p a) ∧
    datFlitCommand p (flitOf (datWord DatOp.datWr.code true a)) = some (.datwr p a)) ∧
  (∀ (p : Fin 24) (opc : BitVec 5) (a : DatArgs), datFlitCommand p (flitOf (datWord opc false a)) = some (.forwardedDat p opc a)) ∧
  (∀ f : SnpFlit, (flitIn (n := 112) (flitOf (snpWord f))).bind snpOfWord = some f) ∧
  (∀ (s : State) (p : Fin 24) (w : BitVec 128) (d : BitVec 576) (c : Instr),
    (reqFlitCommand p w = some c → exec c s = commandEnd s (s.reqFlit p ((s.port p).link.req.last + 1) w)) ∧
    (rspFlitCommand p w = some c → exec c s = commandEnd s (s.rspFlit p ((s.port p).link.rspi.last + 1) w)) ∧
    (datFlitCommand p d = some c → exec c s = commandEnd s (s.datFlit p ((s.port p).link.dati.last + 1) d)))

/-- R35, R43, R50, R60, R119, R165, R299, R302: a request of any opcode that passes the checks, with its companion if it needs one, is
admitted: it takes a token and a home credit and joins its port's queue at its slice, where there is a place; a counted write is noted at the
port. Its port holds no other request of its agent or of its line. Of the counted write's number the model keeps a count of its own (log entry
18). -/
def Obligations.RequestIsAdmitted : Prop :=
  ∀ (s : State) (p : Fin 24) (op : ReqOp) (f : ReqArgs) (o : Option Orphan) (h : Fin 16) (i : Fin 17), Quiet s → FlitPasses s p f.src →
    (∀ k ∈ (s.port p).held, k.a.src ≠ f.src ∧ k.a.pa ≠ f.pa) → s.malformed op f = none → Admissible s p op f h i →
    (if needsCompanion op f.arg then (s.port p).companionOf f.src f.atag = o ∧ o ≠ none else o = none) →
    ∃ t, exec (reqCommand op p f) s = .next t ∧ admitted s t p op f (o.map (·.l)) h i ∧ (t.port p).held = (s.port p).held ∧
      (t.port p).orphans = (match o with | some k => (s.port p).orphans.erase k | none => (s.port p).orphans)

/-- R43, R44, R54: a companion for which no request of its port waits waits itself; one whose request was answered with Err is discarded and
its data credit goes back; one whose request, the only one its port holds, waits for it lets that go on, and where nothing else stands in its
way the request is admitted with the data. 1,000 tk after it came a request without its companion is completed with Err 0x07, its REQ credit
back, and a companion without its request is discarded, its data credit back; each is a protocol fault of the port. -/
def Obligations.CompanionsAndTheirRequests : Prop :=
  (∀ (s : State) (p : Fin 24) (f : DatArgs) (q : PartId) (tag : ATag), Quiet s → FlitPasses s p f.agt → f.id = q ++ tag →
    ((s.port p).errDat.contains (f.agt, tag) = false → (s.port p).errAny.contains (f.agt, tag) = false → (∀ k ∈ (s.port p).held, ¬ (k.why = .companion ∧ k.a.src = f.agt ∧ k.a.atag = tag)) →
      ∃ x, exec (.datwr p f) s = .next (s.modPort p fun _ => x).setPins ∧
      x.orphans = (s.port p).orphans ++ [⟨f.agt, q, tag, ⟨f.data, f.stat != 0⟩, s.now + 1⟩] ∧ x.held = (s.port p).held ∧
      x.cred = (s.port p).cred ∧ x.egress = (s.port p).egress ∧ x.writes = (s.port p).writes) ∧
    ((s.port p).errDat.contains (f.agt, tag) = true → ((s.port p).dIss q).toNat ≤ s.dLimit p q → ∃ x,
      exec (.datwr p f) s = .next (s.modPort p fun _ => x).setPins ∧ x.errDat = (s.port p).errDat.erase (f.agt, tag) ∧
      x.cred.datDue = (s.port p).cred.datDue ++ [(q, 1)] ∧ x.orphans = (s.port p).orphans ∧ x.held = (s.port p).held ∧
      x.dIss q = (s.port p).dIss q) ∧
    (∀ (k : Held) (h : Fin 16) (i : Fin 17), (s.port p).errDat.contains (f.agt, tag) = false → (s.port p).held = [k] →
      k.why = .companion → k.a.src = f.agt → k.a.atag = tag → Admissible s p k.op k.a h i → ∃ t, exec (.datwr p f) s = .next t ∧
      admitted s t p k.op k.a (some ⟨f.data, f.stat != 0⟩) h i ∧ (t.port p).held = [] ∧ (t.port p).orphans = (s.port p).orphans)) ∧
  (∀ (s : State) (p : Fin 24) (a : Agent) (tag : ATag), Quiet s → mild s (srcPort p) → (s.port p).up = true →
    (∀ h : Held, (s.port p).held = [h] → h.why = .companion → h.a.src = a → h.a.atag = tag → s.reached (h.at' + 1000) = true →
      h.cd = none → portOf a = some p → s.agFenced a = false → h.a.gen = (s.part h.a.part).gen →
      ((s.port p).rIss h.a.part).toNat ≤ s.rLimit p h.a.part → ∃ t, exec (.companionTimeout p a tag) s = .next t ∧ (t.port p).held = [] ∧
        (t.port p).link.rspo = (s.port p).link.rspo.push (.rsp .err ⟨63, a, h.a.part, h.a.gen, tag, 0, 0, h.a.pa, 7⟩) ∧
        (t.port p).cred.reqDue = (s.port p).cred.reqDue ++ [(h.a.part, 1)] ∧ (t.src (srcPort p)).corr = ((s.src (srcPort p)).count1 false).corr ∧
        (∀ q, q ≠ p → t.port q = s.port q) ∧ t.slices = s.slices ∧ t.chans = s.chans ∧ t.dram = s.dram ∧ t.par = s.par ∧ t.glb = s.glb) ∧
    (∀ o : Orphan, (s.port p).orphans = [o] → o.src = a → o.atag = tag → s.reached (o.at' + 1000) = true →
      ((s.port p).dIss o.part).toNat ≤ s.dLimit p o.part → ∃ t, exec (.orphanDatwrTimeout p a tag) s = .next t ∧
        (t.port p).orphans = [] ∧ (t.port p).cred.datDue = (s.port p).cred.datDue ++ [(o.part, 1)] ∧
        (t.src (srcPort p)).corr = ((s.src (srcPort p)).count1 false).corr ∧ (t.port p).held = (s.port p).held ∧
        (∀ q, q ≠ p → t.port q = s.port q) ∧ t.slices = s.slices ∧ t.chans = s.chans ∧ t.dram = s.dram ∧ t.par = s.par ∧ t.glb = s.glb))

/-- R35 (checks 2 to 5, 8 to 10), R20, R40, R53, R54, R68, R70, R172, R340: what happens to a request that does not pass: from an agent of
another port a protocol fault of the port, and no more; malformed, an Err with the cause and its REQ credit back, its companion discarded with
its data credit back, now or when it comes; without its companion, it waits. Of requests that need no companion: of another generation, it is
counted and no credit goes back; of a partition that does not run, it waits; to an address that maps to no home, or in a DET region that is
not its agent's, Comp FAILED and a log entry; to a home that no slice serves, Comp FENCED. A REQ flit with a reserved opcode is completed with
Err 0x01, its REQ credit back; an RSP or DAT flit with an opcode that agents do not send to Efkar is a protocol fault of the port, and no
more. -/
def Obligations.RequestIsTurnedAway : Prop :=
  (∀ (s : State) (p : Fin 24) (op : ReqOp) (f : ReqArgs), Quiet s → (s.port p).up = true → s.portFenced p = false →
    (carries p f.src = false → mild s (srcPort p) → exec (reqCommand op p f) s = .next ((s.linkTake p .req).protPort p).setPins) ∧
    (FlitPasses s p f.src →
      (∀ c, s.malformed op f = some c → f.gen = (s.part f.part).gen → ((s.port p).rIss f.part).toNat ≤ s.rLimit p f.part →
        ((s.port p).dIss f.part).toNat ≤ s.dLimit p f.part → ∃ t, exec (reqCommand op p f) s = .next t ∧
          (t.port p).link.rspo = (s.port p).link.rspo.push (.rsp .err ⟨63, f.src, f.part, f.gen, f.atag, 0, 0, f.pa, c.zeroExtend 16⟩) ∧
          (t.port p).cred.reqDue = (s.port p).cred.reqDue ++ [(f.part, 1)] ∧ (t.port p).held = (s.port p).held ∧
          (needsCompanion op f.arg = false → (t.port p).errDat = (s.port p).errDat ∧ (t.port p).orphans = (s.port p).orphans ∧
            (t.port p).cred.datDue = (s.port p).cred.datDue) ∧
          (needsCompanion op f.arg = true → (s.port p).companionOf f.src f.atag = none →
            (t.port p).errDat = (s.port p).errDat ++ [(f.src, f.atag)] ∧ (t.port p).cred.datDue = (s.port p).cred.datDue) ∧
          (∀ o, needsCompanion op f.arg = true → (s.port p).companionOf f.src f.atag = some o →
            (t.port p).orphans = (s.port p).orphans.erase o ∧ (t.port p).cred.datDue = (s.port p).cred.datDue ++ [(f.part, 1)]) ∧
          (∀ q, q ≠ p → t.port q = s.port q) ∧ t.slices = s.slices ∧ t.chans = s.chans ∧ t.dram = s.dram ∧ t.flt = s.flt ∧
          t.regs = s.regs) ∧
      (s.malformed op f = none → needsCompanion op f.arg = true → (s.port p).companionOf f.src f.atag = none → ∃ k,
        exec (reqCommand op p f) s = .next ((s.linkTake p .req).modPort p fun x => { x with held := x.held ++ [k] }).setPins ∧
        k.op = op ∧ k.a = f ∧ k.why = .companion ∧ k.cd = none ∧ k.at' = s.now + 1) ∧
      (s.malformed op f = none → needsCompanion op f.arg = false →
        (f.gen ≠ (s.part f.part).gen → exec (reqCommand op p f) s = .next ((s.linkTake p .req).staleMsg f.part).setPins) ∧
        (f.gen = (s.part f.part).gen → (s.part f.part).st ≠ .run → ∃ k,
          exec (reqCommand op p f) s = .next ((s.linkTake p .req).modPort p fun x => { x with held := x.held ++ [k] }).setPins ∧
          k.op = op ∧ k.a = f ∧ k.why = .partition) ∧
        (let det : Bool := match s.detRgn f.pa with
            | none => false
            | some r => !(s.rgnAgents r).contains f.src || !s.flag 60 (4 * f.part.toNat) 30
          let failed : Bool := !reqIsDrain op && (!s.homed f.pa || det)
          f.gen = (s.part f.part).gen → (s.part f.part).st = .run → (reqIsDrain op = false → s.inAperture f.pa = false) →
          ((s.port p).rIss f.part).toNat ≤ s.rLimit p f.part → (failed = true ∨ s.reqHome op f = none) →
          s.flt.log.length < 256 → ∃ t, exec (reqCommand op p f) s = .next t ∧
            (t.port p).link.rspo = (s.port p).link.rspo.push (.rsp .comp ⟨63, f.src, f.part, f.gen, f.atag,
              if failed then Status.failed.code else Status.fenced.code, 0, f.pa, 0⟩) ∧
            (t.port p).cred.reqDue = (s.port p).cred.reqDue ++ [(f.part, 1)] ∧ (t.port p).held = (s.port p).held ∧
            t.flt.log = s.flt.log ++ (if failed then [⟨0x0B, BitVec.ofNat 7 (srcPort p), f.src, f.part, f.pa, s.now⟩] else []) ∧
            t.regs = (if failed && s.homed f.pa then (s.bump 0 0x178 15 8).regs else s.regs) ∧
            (∀ q, q ≠ p → t.port q = s.port q) ∧ t.slices = s.slices ∧ t.chans = s.chans ∧ t.dram = s.dram)))) ∧
  (∀ (s : State) (p : Fin 24) (opc : BitVec 5),
    (∀ a : ReqArgs, Quiet s → FlitPasses s p a.src → 0x13 ≤ opc.toNat → a.gen = (s.part a.part).gen → (s.port p).companionOf a.src a.atag = none →
      ((s.port p).rIss a.part).toNat ≤ s.rLimit p a.part → ∃ x,
        exec (.portLinkReplayRequest p .req ⟨(s.port p).link.req.last + 1, (flitOf (reqWord opc a)).zeroExtend 576⟩) s =
          .next (s.modPort p fun _ => x).setPins ∧
        x.errAny = (s.port p).errAny ++ [(a.src, a.atag)] ∧
        x.link.rspo = (s.port p).link.rspo.push (.rsp .err ⟨63, a.src, a.part, a.gen, a.atag, 0, 0, a.pa, 1⟩) ∧
        x.cred.reqDue = (s.port p).cred.reqDue ++ [(a.part, 1)] ∧ x.held = (s.port p).held ∧ x.orphans = (s.port p).orphans) ∧
    (∀ a : RspArgs, Quiet s → FlitPasses s p a.src → mild s (srcPort p) → (opc = RspOp.comp.code ∨ opc = RspOp.retry.code ∨ opc = RspOp.err.code ∨ 9 ≤ opc.toNat) →
      exec (.portLinkReplayRequest p .rspi ⟨(s.port p).link.rspi.last + 1, (flitOf (rspWord opc a)).zeroExtend 576⟩) s =
        .next ((s.linkTake p .rspi).protPort p).setPins) ∧
    (∀ a : DatArgs, Quiet s → FlitPasses s p a.agt → mild s (srcPort p) → opc ≠ DatOp.datDirty.code → opc ≠ DatOp.datWr.code →
      exec (.portLinkReplayRequest p .dati ⟨(s.port p).link.dati.last + 1, flitOf (datWord opc true a)⟩) s =
        .next ((s.linkTake p .dati).protPort p).setPins))

/-- R299: at each tk a bucket that regulates gains RATE hundredths, up to DEPTH x 100; no other bucket changes, and no
bucket that does not regulate does. R433: each pc of the credit
signals gives one REQ credit and one data credit back, those that fell due first leading, and leaves the signals idle where none is due; in the same
pc each channel of Efkar drives the next flit that it has to send (R429). -/
def Obligations.BucketsRefillAndCreditsReturn : Prop :=
  (∀ (s : State) (p : Fin 24) (q : PartId) (c : Bool), Quiet s → s.flag 58 (regOff q c) 31 = true → ∃ x,
    exec (.regulatorRefill p q c) s = .next (s.modPort p fun _ => x).setPins ∧
    x.bucket q c = min ((s.port p).bucket q c + s.fld 58 (regOff q c) 27 16) (100 * s.fld 58 (regOff q c) 9 0) ∧
    (∀ q' c', (q', c') ≠ (q, c) → x.bucket q' c' = (s.port p).bucket q' c') ∧ x.held = (s.port p).held ∧ x.cred = (s.port p).cred ∧
    x.egress = (s.port p).egress ∧ x.link = (s.port p).link) ∧
  (∀ (s : State) (p : Fin 24) (q : PartId) (c : Bool), Quiet s → s.regulates q c = false →
    exec (.regulatorRefill p q c) s = .next s.setPins) ∧
  (∀ (s : State) (p : Fin 24), Quiet s → (s.port p).up = true → ∃ c, exec (.creditReturnPulse p) s = .next (s.modPort p fun x =>
      { x with link := x.link.pc, cred := c }).setPins ∧ c.rissued = (s.port p).cred.rissued ∧ c.dissued = (s.port p).cred.dissued ∧
    ((s.port p).cred.reqDue = [] → c.reqPulse = none ∧ c.reqDue = []) ∧
    ((s.port p).cred.datDue = [] → c.datPulse = none ∧ c.datDue = []) ∧
    (∀ q n l, (s.port p).cred.reqDue = (q, n) :: l → c.reqPulse = some q ∧ c.reqDue = if n ≤ 1 then l else (q, n - 1) :: l) ∧
    (∀ q n l, (s.port p).cred.datDue = (q, n) :: l → c.datPulse = some q ∧ c.datDue = if n ≤ 1 then l else (q, n - 1) :: l))

/-- R56, R187, R199, R466, R70: a well-formed answer that its transaction awaits, to the one snoop recorded at its port, for an agent that
the entry covers: ACKCNT falls by 2, or by 1 where its `DatDirty` has come first, the agent is awaited no more, LA is the answer, RspI and
RspEvPend take the agent out of the working entry, and a transaction that waits for MSG goes on. One that its transaction does not await is
a fault of the agent, and one that names no open transaction is only counted as stale; of both, no snoop to the agent is at the port. -/
def Obligations.AnswerReachesItsTransaction : Prop :=
  ∀ (s : State) (p : Fin 24) (op : RspOp) (f : RspArgs) (c : Instr), Quiet s → answerCmd op p f = some c → FlitPasses s p f.src →
    (s.htid (f.loc.extractLsb' 13 5) (f.loc.extractLsb' 0 13) = none → (∀ g ∈ (s.port p).egress, g.f.dst ≠ f.src) →
      exec c s = .next ((s.linkTake p .rspi).staleMsg f.part).setPins) ∧
    (∀ i n e, s.htid (f.loc.extractLsb' 13 5) (f.loc.extractLsb' 0 13) = some (i, n, e) → e.r.port ≠ none → f.part = e.r.a.part →
      f.gen = e.r.a.gen → f.gen = (s.part f.part).gen →
      (e.awaits f.src = none → (∀ g ∈ (s.port p).egress, g.f.dst ≠ f.src) → mild s (srcAgent f.src) →
        exec c s = .next ((s.linkTake p .rspi).protAgent f.src e.r.a.part e.r.a.pa).setPins) ∧
      (∀ w g, e.awaits f.src = some w → (s.port p).egress = [g] → g.isFor f.src i n = true → g.sent = true → g.rspIn = false →
        g.reported = false → s.answerGen g f.part f.gen = true → answerBad w.anon w.op op f = false → e.we.covers f.src = true →
        e.stat ≠ .awaiting → (g.datIn = true → ∀ k ∈ e.h.await, k.ag = f.src → k.got = true) → s.flag 63 0x140 31 = false →
        (s.slice i).ar.inj = [] → ∃ t e',
          exec c s = .next t ∧ t.ent i n = some e' ∧ e'.x.ack = e.x.ack - (if g.datIn then 1 else 2) ∧
          e'.h.await = e.h.await.filter (fun k => k.ag != f.src) ∧ e'.m.la = op.code.extractLsb' 0 3 ∧
          e'.we = (if leaves op then e.we.drop f.src else e.we) ∧ e'.r = e.r ∧ e'.opens = true ∧ e'.h.cs = e.h.cs ∧
          (∀ me tm sv pc, e.stat = .parked true me tm sv false pc → e'.stat = .ready false ∧ e'.pc = e.pc + 1) ∧
          (∀ k, k ≠ n → t.ent i k = s.ent i k) ∧ (∀ j, j ≠ i → t.slice j = s.slice j) ∧ (∀ q, q ≠ p → t.port q = s.port q) ∧
          t.regs = s.regs ∧ t.chans = s.chans ∧ t.dram = s.dram ∧ t.glb = s.glb ∧ t.flt = s.flt ∧ t.par = s.par))

/-- R101, R190, R199, R245, R246: a DatDirty with the whole line, before the answer that its transaction awaits: ACKCNT falls by 1, DD is
set, the line becomes the data handle's and enters the empty write merging buffer, and its answer-area line is freed. -/
def Obligations.DirtyDataIsTaken : Prop :=
  ∀ (s : State) (p : Fin 24) (f : DatArgs) (i : Fin 17) (n : Nat) (e : Trk) (g : EgSnp), Quiet s → FlitPasses s p f.agt →
    s.htid (f.id.extractLsb' 13 5) (f.id.extractLsb' 0 13) = some (i, n, e) → e.r.port ≠ none → f.gen = e.r.a.gen →
    f.gen = (s.part e.r.a.part).gen → e.awaitsDat f.agt = true → (s.port p).egress = [g] → g.isFor f.agt i n = true → g.datIn = false →
    g.rspIn = false → g.area = true → g.sent = true → (g.f.rag = 63 ∨ g.f.rgen = f.gen) → f.stat = 0 → f.grant = 0 →
    e.we.covers f.agt = true → e.h.absorbed = [] → e.r.kind ≠ .req .wrFull → e.m.fwdd = false → e.stat ≠ .awaiting →
    s.chLost e.r.home = false → (s.slice i).mem.wtWait = [] → (s.slice i).mem.wmb = [] → (s.slice i).ar.inj = [] →
    (∀ k ∈ (s.slice i).ents, k.1 ≠ n → k.2.r.a.pa ≠ e.r.a.pa) → s.flag 63 0x140 31 = false → ∃ t e', exec (.datdirty p f) s = .next t ∧
      t.ent i n = some e' ∧ e'.x.ack = e.x.ack - 1 ∧ e'.x.dd = true ∧ e'.h.dh = some ⟨.wmb, ⟨f.data, false⟩⟩ ∧ e'.we = e.we ∧
      (t.slice i).mem.wmb = [⟨(s.slice i).mem.nextWmb, .line e.r.a.pa, e.r.home, ⟨f.data, false⟩, s.now, [], false, false, false, (s.slice i).wantOf (.line e.r.a.pa) e.r.home, 0, 0⟩] ∧
      (t.port p).egress = [{ g with datIn := true, area := false }] ∧ (∀ k, k ≠ n → t.ent i k = s.ent i k) ∧
      (∀ q, q ≠ p → t.port q = s.port q) ∧ t.regs = s.regs ∧ t.chans = s.chans ∧ t.dram = s.dram ∧ t.glb = s.glb ∧ t.flt = s.flt ∧
      t.par = s.par

/-- R63, R70, R133, R201: a CompAck of the subject of a line's open transaction, which has no read-combining group, sets its flag CA and
wakes it where it waits for MSG; one whose line no transaction has open is counted as stale and is a protocol fault of the port. -/
def Obligations.CompAckSetsCa : Prop :=
  ∀ (s : State) (p : Fin 24) (f : RspArgs) (i : Fin 17), Quiet s → FlitPasses s p f.src → f.gen = (s.part f.part).gen →
    s.servingSlice (s.homeOf f.loc) f.loc = some i → (s.slice i).asleep = false → s.flag 63 0x140 31 = false →
    (∀ n e, (s.slice i).ar.inj = [] → (s.slice i).opener f.loc = some (n, e) → s.ent i n = some e → e.r.a.src = f.src → e.r.a.part = f.part → e.r.a.gen = f.gen →
      e.r.port ≠ none → e.h.grp = none → ∃ x e', exec (.compack p f) s = .next ((s.modPort p fun _ => x).setEnt i n (some e')).setPins ∧
        e'.x = { e.x with ca := true } ∧ e'.r = e.r ∧ e'.h = e.h ∧ e'.we = e.we ∧ e'.opens = e.opens ∧
        (∀ me tm sv pc, e.stat = .parked true me tm sv false pc → e'.stat = .ready false ∧ e'.pc = e.pc + 1) ∧
        x.held = (s.port p).held ∧ x.egress = (s.port p).egress ∧ x.cred = (s.port p).cred ∧ x.writes = (s.port p).writes ∧
        (∀ k ∈ x.acks, k ∈ (s.port p).acks ∧ ¬ (k.ag = f.src ∧ k.part = f.part ∧ k.atag = f.atag ∧ k.gen = f.gen))) ∧
    ((s.slice i).opener f.loc = none → mild s (srcPort p) → ∃ x,
      exec (.compack p f) s = .next (((s.modPort p fun _ => x).staleMsg f.part).protPort p f.part f.loc).setPins ∧
      x.held = (s.port p).held ∧ x.egress = (s.port p).egress ∧ x.cred = (s.port p).cred)

/-- R39, R53, R65, R67, R69, R355: data from one agent to another goes out unchanged at the port of the agent it names, whose link is up,
and marks the snoops whose answer it belongs to, where no snoop of the port it came in at waits for a line of the answer area. With an agent
that is fenced, or a generation that is not its partition's, it is sent to nobody, and the latter is counted. A fenced port's flit is
discarded. With a reserved opcode, as DatWr, or for an agent that no port carries it is discarded too, a protocol fault of the port. -/
def Obligations.ForwardedDataPasses : Prop :=
  ∀ (s : State) (p : Fin 24) (opc : BitVec 5) (f : DatArgs), Quiet s → (s.port p).up = true →
    (s.portFenced p = true → exec (.forwardedDat p opc f) s = .next (s.linkTake p .dati).setPins) ∧
    (s.portFenced p = false → mild s (srcPort p) →
      datOpOf opc = none ∨ datOpOf opc = some .datWr ∨ portOf f.agt = none →
      exec (.forwardedDat p opc f) s = .next ((s.linkTake p .dati).protPort p).setPins) ∧
    (∀ op d, s.portFenced p = false → datOpOf opc = some op → op ≠ .datWr → portOf f.agt = some d →
      (∀ g ∈ (s.port p).egress, g.waitsArea = false) →
      (s.agFenced f.agt = true ∨ f.gen ≠ (s.part (f.id.extractLsb' 12 6)).gen → ∃ t, exec (.forwardedDat p opc f) s = .next t ∧
        (∀ q, (t.port q).link.dato = (s.port q).link.dato) ∧ t.slices = s.slices ∧
        t.par = (if s.agFenced f.agt then s else s.staleMsg (f.id.extractLsb' 12 6)).par) ∧
      (s.agFenced f.agt = false → f.gen = (s.part (f.id.extractLsb' 12 6)).gen → (s.port d).up = true →
        ∃ t, exec (.forwardedDat p opc f) s = .next t ∧ (t.port d).link.dato = (s.port d).link.dato.push (.dat op f) ∧
          (t.port p).egress = ((s.port p).egress.map fun g =>
            if g.f.op ≠ .qNotify ∧ g.f.rag = f.agt ∧ g.f.rpart = f.id.extractLsb' 12 6 ∧ g.f.ratag = f.id.extractLsb' 0 12 ∧ g.f.rgen = f.gen
            then { g with fwdIn := true } else g).filter (fun g => !g.over) ∧
          (∀ q, q ≠ p → (t.port q).egress = (s.port q).egress) ∧ (∀ q, q ≠ p → q ≠ d → t.port q = s.port q) ∧
          (∀ q, (t.port q).held = (s.port q).held ∧ (t.port q).cred = (s.port q).cred ∧ (t.port q).link.rspo = (s.port q).link.rspo) ∧
          t.slices = s.slices ∧ t.regs = s.regs ∧ t.chans = s.chans ∧ t.dram = s.dram ∧ t.par = s.par ∧ t.flt = s.flt ∧ t.glb = s.glb))

/-- R246, R355, R69: of the snoops at a port, none of which waits for a line of the answer area, the next leaves with one snoop credit, and
stays recorded until its answer; a QNotify leaves no record; a snoop to a fenced agent is dropped, and so is one whose generation is not its
partition's, which is counted as stale. Without a credit nothing is sent. -/
def Obligations.SnoopsLeaveForCredits : Prop :=
  ∀ (s : State) (p : Fin 24) (g : EgSnp), Quiet s → (s.port p).up = true → (s.port p).nextSnoop = some g →
    (∀ k ∈ (s.port p).egress, k.waitsArea = false) → (∀ k ∈ (s.port p).link.snp.waiting, ∃ f, k = .snp f) →
    (s.agFenced g.f.dst = true →
      exec (.snoopEgressSend p) s = .next (s.modPort p fun x => { x with egress := x.egress.erase g }).setPins) ∧
    (s.agFenced g.f.dst = false → g.f.anon = true ∨ g.f.rgen = (s.part g.f.rpart).gen →
      ((s.port p).snpCred = 0 → exec (.snoopEgressSend p) s = .next s.setPins) ∧
      ((s.port p).snpCred ≠ 0 → exec (.snoopEgressSend p) s = .next (s.modPort p fun x =>
        { x with snpCred := x.snpCred - 1, link := { x.link with snp := x.link.snp.push (.snp g.f) }
                 egress := if g.f.op = .qNotify then x.egress.erase g
                           else x.egress.map fun k => if k = g then { k with sent := true } else k }).setPins)) ∧
    (s.agFenced g.f.dst = false → g.f.anon = false → g.f.rgen ≠ (s.part g.f.rpart).gen → exec (.snoopEgressSend p) s =
      .next ((s.modPort p fun x => { x with egress := x.egress.erase g }).staleMsg g.f.rpart).setPins)

/-- R434: each pc of `clp<p>_snpcrd` gives one snoop credit of the port, which holds at most 255; one beyond is ignored and counted as a
protocol fault of the port. -/
def Obligations.SnoopCreditsAreHeld : Prop :=
  ∀ (s : State) (p : Fin 24), Quiet s → (s.port p).up = true →
    ((s.port p).snpCred < 255 → exec (.snoopCredit p) s = .next (s.modPort p fun x => { x with snpCred := x.snpCred + 1 }).setPins) ∧
    (255 ≤ (s.port p).snpCred → mild s (srcPort p) → exec (.snoopCredit p) s = .next (s.protPort p).setPins ∧
      (∀ q, ((s.protPort p).port q).snpCred = (s.port q).snpCred) ∧
      ((s.protPort p).src (srcPort p)).corr = ((s.src (srcPort p)).count1 false).corr)

/-- R431, R432, R350: on a channel that Efkar sends on, where no flit waits behind the unacknowledged ones, an acknowledgement frees the flits
up to the number it names, and a replay that the agents ask for does so too and drives the others again. A flit whose CRC fails, and one
whose number is not the expected one, is discarded and makes Efkar ask for a replay; while one is awaited a flit with another number is
discarded alone. Each replay is a CORR event of the port. The third bad CRC in a row on one flit makes the port severe; another number
does not count toward the three. R435: while the port is down it asks for no replay. -/
def Obligations.PortLinkAcknowledges : Prop :=
  ∀ (s : State) (p : Fin 24) (c : PortChan) (n : BitVec 5) (w : BitVec 576), Quiet s →
    (∀ k a b fl, (s.port p).up = true → (s.port p).link.txAt c = some k → k.unacked = a ++ (n, fl) :: b → (∀ e ∈ a, e.1 ≠ n) →
      k.waiting = [] →
      exec (.portLinkAck p c n) s = .next (s.modPort p fun x => { x with link := x.link.tx c fun k =>
        { k with unacked := b, wire := k.wire.filter fun e => b.any (·.1 == e.1) } }).setPins ∧
      (mild s (srcPort p) → exec (.portLinkReplayRequest p c ⟨n, w⟩) s = .next ((s.corrEv (srcPort p)).modPort p fun x =>
        { x with link := x.link.tx c fun k => { k with unacked := b, wire := b } }).setPins)) ∧
    (∀ k bad, (c, k, bad) ∈ [(PortChan.req, (s.port p).link.req, (flitIn (n := 112) (w.extractLsb' 0 128)).isNone),
        (.rspi, (s.port p).link.rspi, (flitIn (n := 112) (w.extractLsb' 0 128)).isNone),
        (.dati, (s.port p).link.dati, (flitIn (n := 560) w).isNone)] →
      mild s (srcPort p) → (s.port p).up = true →
      (k.waitReplay = true → n ≠ k.last + 1 → exec (.portLinkReplayRequest p c ⟨n, w⟩) s = .next s.setPins) ∧
      (k.waitReplay = false → n ≠ k.last + 1 → bad = false → k.badRun < 3 → exec (.portLinkReplayRequest p c ⟨n, w⟩) s =
        .next ((s.corrEv (srcPort p)).modPort p fun x =>
          { x with link := x.link.rx c fun k => { k with waitReplay := true, rply := true } }).setPins) ∧
      (k.waitReplay = false ∨ n = k.last + 1 → bad = true →
        (k.badRun < 2 → exec (.portLinkReplayRequest p c ⟨n, w⟩) s = .next ((s.corrEv (srcPort p)).modPort p fun x =>
          { x with link := x.link.rx c fun k => { k with waitReplay := true, rply := true, badRun := k.badRun + 1 } }).setPins) ∧
        (k.badRun = 2 → (s.src (srcPort p)).severe = false → s.fld 59 0x104 5 4 = 0 → s.fld 59 0x104 3 2 = 0 → s.fld 59 0x104 1 0 = 0 →
          ∃ t, exec (.portLinkReplayRequest p c ⟨n, w⟩) s = .next t ∧ (t.src (srcPort p)).severe = true ∧
            (t.port p).link = (s.port p).link.rx c (fun k => { k with waitReplay := true, rply := true, badRun := 0 }) ∧
            t.slices = s.slices ∧ t.chans = s.chans ∧ t.dram = s.dram))) ∧
    ((s.port p).up = false → exec (.portLinkReplayRequest p c ⟨n, w⟩) s = .next s.setPins ∧
      exec (.portLinkAck p c n) s = .next s.setPins)

/-- R65, R122, R189, R350: the deadline of the one snoop at a port passes before what its answer owes has come: a report leaves for the
slice, once; the snoop of a retired transaction leaves with it. The report is a CORR event of the agent and leaves the transaction, where
it is still open, to be written UK. R177: a CompAck allowance that passes is a CORR event of the agent, and runs no more. R271, R437: the panic level of an
I/O port whose link is up is compared with its two thresholds: at or above the upper one panic begins, else at or below the lower one it
ends, between them it stands; of a port whose link is down the level is kept alone. -/
def Obligations.DeadlinesAndLevelsAtThePort : Prop :=
  (∀ (s : State) (p : Fin 24) (a : Agent) (i : Fin 17), Quiet s →
    (∀ g d, (s.port p).egress = [g] → g.f.dst = a → g.f.op ≠ .qNotify → g.reported = false → g.arrived = false → g.dl = some d →
      s.reached d = true → g.f.slice = BitVec.ofNat 5 i.val → exec (.snoopDeadlineExpiry p a) s = .next ((s.modPort p fun x =>
        { x with egress := if g.gone then [] else [{ g with reported := true }] }).modSlice i fun x =>
          { x with expRep := x.expRep ++ [⟨g.f.tid.toNat, g.age, a⟩] }).setPins) ∧
    (∀ r l e, (s.slice i).ar.inj = [] → (s.slice i).expRep = r :: l → r.ag ≠ 63 → mild s (srcAgent r.ag) → s.ent i r.tid = some e → ∃ t,
      exec (.snoopExpiryReport i) s = .next t ∧
      t.ent i r.tid = some (if e.opens ∧ e.age = r.age then { e with x := { e.x with ukm := true } } else e) ∧
      (t.slice i).expRep = l ∧ (t.src (srcAgent r.ag)).corr = ((s.src (srcAgent r.ag)).count1 false).corr ∧
      (∀ k, k ≠ r.tid → t.ent i k = s.ent i k) ∧ (∀ j, j ≠ i → t.slice j = s.slice j) ∧ t.ports = s.ports ∧ t.chans = s.chans ∧
      t.dram = s.dram ∧ t.glb = s.glb ∧ t.par = s.par)) ∧
  (∀ (s : State) (p : Fin 24) (a : Agent) (lvl : BitVec 4), Quiet s →
    (∀ k d, (s.port p).acks = [k] → k.ag = a → k.dl = some d → s.reached d = true → a ≠ 63 → mild s (srcAgent a) →
      exec (.compackAllowanceExpiry p a) s = .next ((s.modPort p fun x => { x with acks := [] }).corrEv (srcAgent a) k.part k.pa).setPins) ∧
    (16 ≤ p.val → p.val ≤ 19 → exec (.panicLevelChange p lvl) s = .next (s.modPort p fun x =>
      { x with panicLvl := lvl, panic := if x.up = false then x.panic
                                         else if s.fld (prtPage p) 0x300 11 8 ≤ lvl.toNat then true
                                         else if lvl.toNat ≤ s.fld (prtPage p) 0x300 3 0 then false else x.panic }).setPins))

/-- R119, R120: a report that a write has drained marks it at its port, where it is forgotten once it has completed too; a DrainE that
waited for it alone gets its result, 1 where a write it counts was fenced, and wakes. -/
def Obligations.DrainReportsArrive : Prop :=
  ∀ (s : State) (i : Fin 17) (r : DrainRep) (l : List DrainRep) (w : WriteRec), Quiet s → (s.slice i).mem.drainRep = r :: l →
    (∀ j, (s.slice j).ar.inj = []) → r.w.wid ≠ 0 → (s.port r.w.port).writes = [w] → w.wid = r.w.wid →
    ((s.port r.w.port).drains = [] → exec (.drainReport i) s = .next ((s.modSlice i fun x =>
      { x with mem := { x.mem with drainRep := l } }).modPort r.w.port fun x => { x with
        writes := if w.completed then [] else [{ w with drained := true, fenced := w.fenced || r.fenced }] }).setPins) ∧
    (∀ d j n e me tm sv pc, (s.port r.w.port).drains = [d] → d.evict = true → d.waits = [r.w.wid] → d.place = some (j, n) →
      s.ent j n = some e → e.stat = .parked false me tm true sv pc → e.m.memEv = [] → ∃ t e', exec (.drainReport i) s = .next t ∧
        (t.port r.w.port).drains = [] ∧ t.ent j n = some e' ∧ e'.stat = .ready false ∧ e'.pc = e.pc + 1 ∧
        e'.x = { e.x with f1 := if d.fenced || r.fenced then 1 else 0 } ∧ (∀ k, k ≠ n → t.ent j k = s.ent j k) ∧ t.regs = s.regs ∧
        t.chans = s.chans ∧ t.dram = s.dram ∧ t.glb = s.glb ∧ t.flt = s.flt)

/-- R28, R30, R203, R204, R302, R303: an sc of the arbiter grants the one request that waits, which is no eviction, Hint or drain: where no
request has its line open or waits for it, it makes its first pass: it takes the lowest free entry, opens the line with the entry that the
directory holds, and its verb's entry clause is next, when it needs no way or a way is free for it. One whose line is open joins the line's
queue. With nothing waiting an sc passes. -/
def Obligations.ArbiterGrantsFirstPass : Prop :=
  ∀ (s : State) (i : Fin 17), Quiet s → s.sliceRuns i = true → s.flag 63 0x140 31 = false → (s.slice i).sw.busy = false →
    (s.slice i).ar.inj = [] → s.flt.run = none →
    ((∀ rq, (s.slice i).ing rq = ⟨[], []⟩) → ∃ t, exec (.arbiterGrant i) s = .next t ∧ (t.slice i).arb.sc = (s.slice i).arb.sc + 1 ∧
      (t.slice i).trk = (s.slice i).trk ∧ (∀ j, j ≠ i → t.slice j = s.slice j) ∧ t.ports = s.ports ∧ t.chans = s.chans ∧
      t.dram = s.dram ∧ t.glb = s.glb ∧ t.flt = s.flt ∧ t.par = s.par ∧ t.regs = s.regs) ∧
    (∀ (p : Fin 24) (r : Req) (k : Nat) (op : ReqOp), (∀ rq, rq ≠ p.val → (s.slice i).ing rq = ⟨[], []⟩) →
      (s.slice i).ing p.val = ⟨[(r, k)], []⟩ → s.ingressExpired i r = false → r.kind = .req op → reqIsEvict op = false →
      reqIsDrain op = false → op ≠ .hint → s.servingSlice r.home r.a.pa = some i →
      ((s.slice i).lineBusy r.a.pa = false → (∀ w < 16, ((s.slice i).sfGet (sfSet r.a.pa) w).dir.ok = true) → (s.degraded r.home = false ∨ degradedRefuses op = false) →
        (reqClaims op = false ∨ (s.readDir i r.home r.a.pa).2 ≠ none ∨ s.unkept r.home = true ∨
            ∃ w < 16, s.wayOk r.home r.rk w = true ∧ ((s.slice i).sfGet (sfSet r.a.pa) w).dir = .un ∧
              (s.slice i).wayHolder (sfSet r.a.pa) w = none) →
        ((s.slice i).uc.vt r.kind.opc (s.readDir i r.home r.a.pa).1.code r.rk).v = true → ∃ t e,
          exec (.arbiterGrant i) s = .next t ∧ t.ent i (s.slice i).nextTid = some e ∧ e.r = r ∧ e.opens = true ∧ e.stat = .ready false ∧
          e.we = (s.readDir i r.home r.a.pa).1 ∧ e.x.f0 = r.a.arg.extractLsb' 13 16 ∧ e.pc = bit1 (s.slice i).uc.active ++
            ((s.slice i).uc.vt r.kind.opc (s.readDir i r.home r.a.pa).1.code r.rk).entry ∧ e.h.cs = false ∧
          (∀ m, m ≠ (s.slice i).nextTid → t.ent i m = s.ent i m) ∧ (t.slice i).ing p.val = ⟨[], []⟩ ∧
          (t.slice i).arb.sc = (s.slice i).arb.sc + 1 ∧ t.ports = s.ports ∧ t.chans = s.chans ∧ t.dram = s.dram ∧ t.glb = s.glb ∧
          t.flt = s.flt ∧ t.par = s.par ∧ t.regs = s.regs) ∧
      (∀ n e, (s.slice i).opener r.a.pa = some (n, e) → s.ent i n = some e → e.h.grp = none → ∃ t k,
          exec (.arbiterGrant i) s = .next t ∧
          t.ent i (s.slice i).nextTid = some k ∧ k.r = r ∧ k.opens = false ∧ k.stat = .queued ∧
          (∀ m, m ≠ (s.slice i).nextTid → t.ent i m = s.ent i m) ∧ (t.slice i).ing p.val = ⟨[], []⟩ ∧ t.ports = s.ports ∧
          t.chans = s.chans ∧ t.dram = s.dram ∧ t.glb = s.glb ∧ t.flt = s.flt ∧ t.par = s.par ∧ t.regs = s.regs))

/-- R32, R89, R124, R126, R127, R306: an eligible request of a home with a snoop filter that has its line open and finds the ways of its
set UN takes the lowest, and the verb of its working entry is selected: UK where its set is marked, else no entry. A queued request whose
deadline has passed is completed and gone, and so is one whose deadline passes in the ingress queue: with Comp TIMEOUT where its normal completion carries no data, logged as ended by its deadline, its REQ credit back. -/
def Obligations.QueuedRequestsGoOnOrEnd : Prop :=
  ∀ (s : State) (i : Fin 17) (n : BitVec 13) (e : Trk) (p : Fin 24), Quiet s → s.sliceRuns i = true → s.flag 63 0x140 31 = false →
    (s.slice i).ar.inj = [] → s.flt.log.length < 256 →
    ((s.slice i).trk = [(n.toNat, some e)] → e.stat = .eligible → s.expired e = false → e.opens = true → e.r.rk = false →
      e.wv = false → s.detHome e.r.home = false → s.unkept e.r.home = false → e.h.noDir = false →
      (∀ w < 16, ((s.slice i).sfGet (sfSet e.r.a.pa) w).dir = .un) →
      let we : Dir := if (s.slice i).suk (sfSet e.r.a.pa) then .uk else .un
      ((s.slice i).uc.vt e.r.kind.opc we.code false).v = true → ∃ t e', exec (.reentry i) s = .next t ∧
        t.ent i n.toNat = some e' ∧ e'.stat = .ready false ∧ e'.wv = true ∧ e'.way = 0 ∧ e'.we = we ∧ e'.r = e.r ∧ e'.opens = true ∧
        t.ports = s.ports ∧ t.chans = s.chans ∧ t.dram = s.dram ∧ t.glb = s.glb ∧ t.flt = s.flt ∧ t.par = s.par ∧ t.regs = s.regs) ∧
    (∀ r op, r.kind = .req op → reqDat op = none → reqCounted op = false → r.port = some p → r.cd = none → r.wid = 0 → r.rk = false →
      FlitPasses s p r.a.src → r.a.gen = (s.part r.a.part).gen → ((s.port p).rIss r.a.part).toNat ≤ s.rLimit p r.a.part →
      reqIsDrain op = false →
      let rsp : Flit := .rsp .comp ⟨63, r.a.src, r.a.part, r.a.gen, r.a.atag, 5, 0, r.a.pa, 0⟩
      ((s.slice i).trk = [(n.toNat, some e)] → e.r = r → e.stat = .queued → e.opens = false → s.expired e = true → e.h.cs = false →
        e.h.grp = none → e.wv = false → (s.slice i).recs = [] → (∀ q, (s.port q).egress = []) → ∃ t, exec (.queuedDeadline i n) s = .next t ∧
          t.ent i n.toNat = none ∧ (t.port p).link.rspo = (s.port p).link.rspo.push rsp ∧
          (t.port p).cred.reqDue = (s.port p).cred.reqDue ++ [(r.a.part, 1)] ∧
          t.homeUsed r.home r.a.part false = s.homeUsed r.home r.a.part false - 1 ∧
          t.flt.log = s.flt.log ++ [⟨0x09, BitVec.ofNat 7 i.val, 63, r.a.part, r.a.pa, s.now⟩] ∧
          (∀ q, q ≠ p → t.port q = s.port q) ∧ t.dram = s.dram ∧ t.glb = s.glb) ∧
      (∀ k : Fin 26, (s.slice i).ing k.val = ⟨[(r, 0)], []⟩ → s.ingressExpired i r = true → ∃ t, exec (.ingressDeadline i k) s = .next t ∧
          (t.slice i).ing k.val = ⟨[], []⟩ ∧ (t.port p).link.rspo = (s.port p).link.rspo.push rsp ∧
          (t.port p).cred.reqDue = (s.port p).cred.reqDue ++ [(r.a.part, 1)] ∧
          t.homeUsed r.home r.a.part false = s.homeUsed r.home r.a.part false - 1 ∧
          t.flt.log = s.flt.log ++ [⟨0x09, BitVec.ofNat 7 i.val, 63, r.a.part, r.a.pa, s.now⟩] ∧
          (∀ q, q ≠ p → t.port q = s.port q) ∧ (t.slice i).trk = (s.slice i).trk ∧ t.chans = s.chans ∧ t.dram = s.dram ∧
          t.glb = s.glb))

/-- R184, R186, R192 to R196, R198, R205, R206: an activation of a ready transaction, and the retry of one, runs the clause its PC names.
NEXT goes on at the next clause with the X slot's result, JMP at its target, and WAIT parks the transaction where nothing it waits for has
happened. The D slots WRITE, OWN, SHARE, DROP, UN and UK change the working entry and the grant, and with W = 1 the way that the transaction
holds takes the entry, less the fenced agents, and the replacement word turns away from the way. FETCH of a line that the MSC holds brings
the line to the data handle and its MEM event; any other fetch enters its channel's read queue. A send to the service unit appends
the operation with the entry's F0; a counted snoop to one agent takes a line of its port's answer area, its deadline runs, and two answers
are counted as owed. DONE with a `Comp` of an uncounted request sends the completion with the grant and ends the transaction, its
REQ and home credits back. Where the copies of the lane disagree nothing commits, the lane is named, and the activation is tried again
ahead of all others. -/
def Obligations.ActivationRunsClause : Prop :=
  ∀ (s : State) (i : Fin 17) (lane : Fin 4) (n : BitVec 13) (e : Trk) (c : Clause) (again : Bool), Quiet s → s.sliceRuns i = true →
    s.flag 63 0x140 31 = false → (s.slice i).ar.inj = [] → s.readyOf i true = (if again then some n.toNat else none) →
    (again = false → s.readyOf i false = some n.toNat) → s.ent i n.toNat = some e →
    Clause.dec ((s.slice i).uc.clause (e.pc.getLsbD 10) (e.pc.extractLsb' 0 10).toNat) = c →
    let cmd : Bool → Instr := fun mism => if again then .laneRetry i lane mism else .activation i lane mism
    let e' := e.putX (e.runX s.now c.x) e.x
    let go (st : TStat) (pc : BitVec 11) : Prop :=
      c.c = .next ∧ pc = e.pc + 1 ∧ st = .ready false ∨ (∃ a, c.c = .jmp a ∧ pc = e.pc.extractLsb' 10 1 ++ a ∧ st = .ready false) ∨
        (∃ m me tm sv q d tpc, c.c = .wait m me tm sv q d tpc ∧ pc = e.pc ∧ st = .parked m me tm sv q tpc ∧
          (m = true → if q then e'.x.ack ≠ 0 else e.m.latch = false) ∧ (me = true → e.m.memEv = []) ∧
          (sv = true → e.m.svc = false) ∧ (tm = true → s.expired e = false))
    let dir (d : Dir) (g : Grant) (w : Bool) : Prop :=
      (c.d.dop = 0 ∧ d = e.we ∧ g = e.m.gr ∧ w = false) ∨ (w = (c.d.w && e.wv && !e.h.noDir) ∧
        ((c.d.dop = 1 ∧ d = e.we ∧ g = e.m.gr) ∨ (c.d.dop = 2 ∧ e.r.a.src ≠ 63 ∧ d = .ex e.r.a.src ∧ g = .e) ∨
         (c.d.dop = 3 ∧ e.grouped = false ∧ e.we.share e.r.a.src = (d, g)) ∨
         (c.d.dop = 4 ∧ c.d.arg = 0 ∧ d = e.we.drop e.r.a.src ∧ g = e.m.gr) ∨ (c.d.dop = 5 ∧ d = .un ∧ g = e.m.gr) ∨
         (c.d.dop = 6 ∧ d = .uk ∧ g = e.m.gr)))
    let same (t : State) : Prop :=
      (∀ k, k ≠ n.toNat → t.ent i k = s.ent i k) ∧ t.dram = s.dram ∧ t.glb = s.glb ∧ t.flt = s.flt ∧ t.par = s.par ∧ t.regs = s.regs
    let set := sfSet e.r.a.pa
    (∀ st pc d g w, go st pc → dir d g w → c.m = none → ∃ t, exec (cmd false) s = .next t ∧
      t.ent i n.toNat = some { e' with stat := st, pc := pc, we := d, m := { e.m with gr := g },
                                       h := if w then { e.h with dirWritten := true } else e.h } ∧
      (∀ k l, l < 16 → (t.slice i).sfGet k l = if w ∧ k = set ∧ l = e.way.toNat then
        (if s.cleanDir d = .un then ⟨0, .un⟩ else ⟨sfTag e.r.a.pa, s.cleanDir d⟩) else (s.slice i).sfGet k l) ∧
      (∀ k, (t.slice i).replGet k = if w ∧ k = set then plruTouch e.way.toNat ((s.slice i).replGet set) else (s.slice i).replGet k) ∧
      (t.slice i).mem = (s.slice i).mem ∧ (t.slice i).svcq = (s.slice i).svcq ∧ (∀ j, j ≠ i → t.slice j = s.slice j) ∧
      t.ports = s.ports ∧ t.chans = s.chans ∧ same t) ∧
    (∀ st pc, go st pc → c.m = none → c.d.dop = 8 → (e.x.dd && e.h.dh.isSome) = false →
      let gone (t : State) (dh : Option Handle) : Prop := exec (cmd false) s = .next t ∧ same t ∧
        t.ent i n.toNat = some { e' with stat := st, pc := pc, h := { e.h with dh := dh, fetching := true, fetchDead := false } } ∧
        (t.slice i).ar = (s.slice i).ar ∧ (∀ j, j ≠ i → t.slice j = s.slice j) ∧ t.ports = s.ports
      (∀ w, s.lineHit i e.r.home e.r.a.pa = some w →
        let m := (s.slice i).mscGet (mscSet e.r.a.pa) w
        let pois := m.st == .poisoned
        ∃ t, gone t (some ⟨.mscWay (mscSet e.r.a.pa) w, ⟨m.data, pois⟩⟩) ∧ t.chans = s.chans ∧ (t.slice i).mem =
          { (s.slice i).mem with memq := (s.slice i).mem.memq ++ [⟨n.toNat, if pois then .poison else .ok, none, true⟩] }) ∧
      (let f : FetchReq := ⟨i, .trk n.toNat, .line e.r.a.pa, e.r.home, e.r.rk, false, false⟩
       ∀ ch cla mir, s.lineHit i e.r.home e.r.a.pa = none → (e.r.kind = .req .rdShd → s.fld (slcPage i) 0x214 2 0 = 0) →
        s.flag 60 (4 * e.r.a.part.toNat) 29 = false → (s.slice i).holdsFetch f = false → s.fetchPlace f = some (ch, cla, mir) →
        s.rqRoom ch e.r.rk = true → i.val = ch.val → ∃ t, gone t e.h.dh ∧ (t.slice i).mem = (s.slice i).mem ∧
          t.chan ch = (s.chan ch).rqPush f mir cla ∧ (∀ k, k ≠ ch → t.chan k = s.chan k))) ∧
    (∀ st pc m, go st pc → c.m = some m → m.cls = 0 → m.tgt = 9 → c.d.dop = 0 → ∃ t, exec (cmd false) s = .next t ∧
      t.ent i n.toNat = some { e' with stat := st, pc := pc } ∧
      (t.slice (s.svcSlice i)).svcq = (s.slice (s.svcSlice i)).svcq ++ [⟨n.toNat, i, m.opc, e.x.f0⟩] ∧
      (∀ j, j ≠ i → j ≠ s.svcSlice i → t.slice j = s.slice j) ∧ t.ports = s.ports ∧ t.chans = s.chans ∧ same t) ∧
    (∀ m op (a : Agent) p, c.c = .next → c.m = some m → m.cls = 1 → m.cnt = true → m.tgt ≠ 5 → m.tgt ≠ 6 → c.d.dop = 0 →
      snpOpOf m.opc = some op → op ≠ .qNotify → s.target e m = [a] → portOf a = some p → (s.port p).areaUsed < 256 →
      (∀ g ∈ (s.port p).egress, g.waitsArea = false) →
      let an := m.anon || e.r.port.isNone
      ∃ t, exec (cmd false) s = .next t ∧ t.ent i n.toNat = some { e' with
          stat := .ready false, pc := e.pc + 1, x := { e'.x with ack := e.x.ack + 2 }
          h := { e.h with await := e.h.await.filter (fun k => k.ag != a) ++ [⟨a, op, an, true, true, false, false⟩] } } ∧
        (∃ g : EgSnp, (t.port p).egress = (s.port p).egress ++ [g] ∧ g.f.op = op ∧ g.f.dst = a ∧ g.f.pa = e.r.a.pa ∧
          g.f.slice = BitVec.ofNat 5 i.val ∧ g.f.tid = n ∧ g.f.rag = (if an then 63 else e.r.a.src) ∧ g.det = e.r.rk ∧ g.area = true ∧
          g.sent = false ∧ g.dl = some (s.after (s.snpDl p a))) ∧
        (∀ q, q ≠ p → t.port q = s.port q) ∧ (∀ j, j ≠ i → t.slice j = s.slice j) ∧ t.chans = s.chans ∧ same t) ∧
    (∀ m p op d g, c.c = .done 0 → c.m = some m → m.cls = 2 → m.opc = RspOp.comp.code → m.cmp = true → m.ifs = false →
      dir d g false → (s.slice i).trk = [(n.toNat, some e)] → (s.slice i).recs = [] → (∀ q, (s.port q).egress = []) →
      e.h.cs = false → e.m.tmo = false → e.h.grp = none → e.wv = false → e.x.ukm = false → e.r.kind = .req op → reqCounted op = false → reqIsDrain op = false →
      e.r.port = some p → e.r.cd = none → e.r.wid = 0 → e.r.rk = false → FlitPasses s p e.r.a.src →
      e.r.a.gen = (s.part e.r.a.part).gen → ((s.port p).rIss e.r.a.part).toNat ≤ s.rLimit p e.r.a.part → ∃ t, exec (cmd false) s = .next t ∧
        t.ent i n.toNat = none ∧ (t.port p).link.rspo = (s.port p).link.rspo.push (.rsp .comp ⟨63, e.r.a.src, e.r.a.part, e.r.a.gen,
          e.r.a.atag, (statusOf m.stat).code, (if m.gsrc then g else (grantOf m.grant).getD .i).code, e.r.a.pa, bit1 m.fwd |>.zeroExtend 16⟩) ∧
        (t.port p).cred.reqDue = (s.port p).cred.reqDue ++ [(e.r.a.part, 1)] ∧
        t.homeUsed e.r.home e.r.a.part false = s.homeUsed e.r.home e.r.a.part false - 1 ∧
        (∀ q, q ≠ p → t.port q = s.port q) ∧ t.dram = s.dram ∧ t.glb = s.glb ∧ t.flt = s.flt ∧ t.par = s.par) ∧
    (again = false → mild s (srcSlice i) → ∃ t, exec (.activation i lane true) s = .next t ∧
      t.ent i n.toNat = some { e with stat := .ready true } ∧ (t.slice i).lmm = (s.slice i).lmm ||| BitVec.ofNat 4 (2 ^ lane.val) ∧
      (t.src (srcSlice i)).corr = ((s.src (srcSlice i)).count1 false).corr ∧ (∀ k, k ≠ n.toNat → t.ent i k = s.ent i k) ∧
      (∀ j, j ≠ i → t.slice j = s.slice j) ∧ t.ports = s.ports ∧ t.chans = s.chans ∧ t.dram = s.dram ∧ t.glb = s.glb ∧ t.par = s.par)

/-- R309, R311, R313, R314, R315, R318, R201, R320 to R332, R155, R157: a LockAcq of a lock without an entry takes a FREE way as HELD by its subject, of one HELD by
another it answers BUSY and the owner, of an ORPHANED one it takes it over and says so; a LockRel of its holder frees the entry, and of a lock
without an entry it fails with cause 0x05. The result reaches the transaction as SVC: LockAcq and LockRel are what OPC of its
send says (R195). QEnq of a queue that has room writes its line at TAIL and answers the new count, the watcher of the threshold is
notified and disarmed, and the data credit goes back; a full queue answers BUSY with the count. QDeq of an empty queue answers BUSY, of
another it reads the line at HEAD; the line that comes back before the deadline is the result. QWatch arms, answers 1 where the threshold is
met already, BUSY where another watcher stands, and disarms its own. Resv goes on with result 1 or fails for a granule of several homes;
CondWr goes on where its subject's reservation holds, which ends either way; Atom makes the new line the transaction's and the old one the
result. A queue request that names no queue of its partition fails with its cause. The oldest memory action that has completed reaches its transaction as MEM: a fetch brings its line, and a write its
status. -/
def Obligations.ServicesAndMemoryEvents : Prop :=
  ∀ (s : State) (i : Fin 17) (n : BitVec 13) (e : Trk), Quiet s → s.blockRuns = true → (s.slice i).asleep = false →
    s.slFenced i = false → (s.slice i).ar.inj = [] → s.ent i n.toNat = some e → e.m.memEv = [] →
    (∀ me tm sv pc opc f0 op, e.stat = .parked false me tm true sv pc → (s.slice i).svcq = [⟨n.toNat, i, opc, f0⟩] → e.r.kind = .req op →
      let ends (t : State) (k : Trk) (info : BitVec 16) (st : Status) (l : Option PLine) : Prop := exec (.serviceCommit i) s = .next t ∧
        t.ent i n.toNat = some { k with stat := .ready false, pc := e.pc + 1, x := { e.x with f1 := info },
                                        m := { e.m with svc := false, svcStat := st, svcLine := l, ev := 2 } } ∧
        (t.slice i).svcq = [] ∧ (∀ k, k ≠ n.toNat → t.ent i k = s.ent i k) ∧ (∀ j, j ≠ i → t.slice j = s.slice j) ∧ t.chans = s.chans ∧
        t.dram = s.dram ∧ t.glb = s.glb ∧ t.flt = s.flt ∧ t.par = s.par
      let done (info : BitVec 16) (st : Status) (l : Nat → Option Lock) : Prop := ∃ t, ends t e info st none ∧ t.ports = s.ports ∧
        ∀ k, (t.slice i).lock (ledgerSet (s.claOf e.r.a.pa)) k = l k
      let answers (info : BitVec 16) (st : Status) : Prop := ∃ t, ends t e info st none ∧ t.ports = s.ports ∧
        (t.slice i).ar = (s.slice i).ar ∧ (t.slice i).resv = (s.slice i).resv ∧ (t.slice i).mem = (s.slice i).mem
      let a : ReqArgs := { e.r.a with arg := f0 ++ e.r.a.arg.extractLsb' 0 13 }
      let own (r : Resv) : Bool := r.ag == a.src && r.home == e.r.home
      let c := s.claOf e.r.a.pa
      let old := (s.slice i).lock (ledgerSet c)
      (reqOpOf opc = some .lockAcq →
        (∀ w, (s.slice i).findLock c = none → (s.slice i).locksOf e.r.a.part < s.fld 60 (0x200 + 4 * e.r.a.part.toNat) 26 16 →
          (s.slice i).freeLock c = some w → done 0 .ok fun k => if k = w then some (.heldBy (ledgerTag c) e.r.a) else old k) ∧
        (∀ w l, (s.slice i).findLock c = some (w, l) →
          ((s.lockReads l).1 = .held → done (l.owner.zeroExtend 16) .busy old) ∧
          ((s.lockReads l).1 = .orphaned → done ((0 : BitVec 8) ++ (s.lockReads l).2 ++ l.owner) .orphaned
            fun k => if k = w then some (.heldBy (ledgerTag c) e.r.a) else old k))) ∧
      (reqOpOf opc = some .lockRel →
        (∀ w, (s.slice i).findLock c = some (w, .heldBy (ledgerTag c) e.r.a) → (s.lockReads (.heldBy (ledgerTag c) e.r.a)).1 = .held →
          done 0 .ok fun k => if k = w then none else old k) ∧
        ((s.slice i).findLock c = none → done 0x0500 .failed old)) ∧
      (∀ qop, reqOpOf opc = some qop → qop = .qEnq ∨ qop = .qDeq ∨ qop = .qWatch →
        (∀ cause, s.queueFor i a = (cause, none) → answers (cause ++ (0 : BitVec 8)) .failed) ∧
        (∀ cause k q, s.queueFor i a = (cause, some (k, q)) →
          (qop = .qEnq →
            (q.count = q.ring → answers (satCount q.count) .busy) ∧
            (∀ p l, q.count ≠ q.ring → s.chLost e.r.home = false → (s.slice i).mem.wmb.length < 128 → (s.slice i).mem.wtWait = [] →
              (s.slice i).wmbOf (.ring e.r.home (q.entry q.tail.toNat)) e.r.home = [] → e.r.port = some p → e.r.cd = some l →
              e.h.cdDone = false → ((s.port p).dIss a.part).toNat ≤ s.dLimit p a.part →
              (∀ x, ∀ g ∈ (s.port x).egress, g.waitsArea = false) →
              let fires := q.wv && decide (q.count + 1 = q.threshold)
              ∃ t, ends t { e with h := { e.h with cdDone := true } } (satCount (q.count + 1)) .ok none ∧
                (t.slice i).desc k = { q with tail := q.tail + 1, wv := q.wv && !fires } ∧
                (∃ w : WmbEnt, (t.slice i).mem.wmb = (s.slice i).mem.wmb ++ [w] ∧ w.addr = .ring e.r.home (q.entry q.tail.toNat) ∧
                  w.home = e.r.home ∧ w.l = l ∧ w.writes = e.r.wId.toList ∧ w.issued = false) ∧
                (t.port p).cred.datDue = (s.port p).cred.datDue ++ [(a.part, 1)] ∧
                ∀ x, ((t.port x).egress.map EgSnp.f = (s.port x).egress.map EgSnp.f ++
                  if fires ∧ portOf q.wagt = some x then [q.notify a.pa] else []))) ∧
          (qop = .qDeq →
            (q.count = 0 → answers 0 .busy) ∧
            (let f : FetchReq := ⟨i, .svc (svcKey i n.toNat), .ring e.r.home (q.entry q.head.toNat), e.r.home, e.r.rk, false, false⟩
             ∀ ch cla mir, q.count ≠ 0 → s.chLost e.r.home = false → (s.slice i).holdsFetch f = false →
              s.fetchPlace f = some (ch, cla, mir) → s.rqRoom ch e.r.rk = true → i.val = ch.val → ∃ t, exec (.serviceCommit i) s = .next t ∧
                t.ent i n.toNat = some e ∧ (t.slice i).svcq = [] ∧ (t.slice i).ar = (s.slice i).ar ∧ t.chan ch = (s.chan ch).rqPush f mir cla ∧
                (∀ k, k ≠ ch → t.chan k = s.chan k) ∧ (∀ j, j ≠ i → t.slice j = s.slice j) ∧ t.ports = s.ports)) ∧
          (qop = .qWatch →
            let cur := q.wgen == (s.part q.part).gen
            (a.arg.getLsbD 28 = true → (q.threshold ≤ q.count → answers 1 .ok) ∧
              (q.count < q.threshold → (q.wv && q.wagt != a.src && !s.agFenced q.wagt && cur) = true → answers 0 .busy) ∧
              (q.count < q.threshold → (q.wv && q.wagt != a.src && !s.agFenced q.wagt && cur) = false → ∃ t, ends t e 0 .ok none ∧
                (t.slice i).desc k = { q with wv := true, wagt := a.src, watag := a.atag, wgen := a.gen } ∧ t.ports = s.ports)) ∧
            (a.arg.getLsbD 28 = false → ((q.wv && q.wagt == a.src) = false → answers 2 .ok) ∧
              ((q.wv && q.wagt == a.src) = true → ∃ t, ends t e 0 (if cur then .ok else .stalegen) none ∧
                (t.slice i).desc k = { q with wv := false } ∧ t.ports = s.ports))))) ∧
      (reqOpOf opc = some .resv → (a.arg.getLsbD 28 && !s.granuleOk a.pa) = false → answers 1 .ok) ∧
      (reqOpOf opc = some .resv → (a.arg.getLsbD 28 && !s.granuleOk a.pa) = true → answers 0x0600 .failed) ∧
      (reqOpOf opc = some .condWr →
        let ok := (s.slice i).resv.any fun r => own r && s.resvLive r && r.holds a.pa && r.part == a.part && r.gen == a.gen
        ∃ t, ends t e (if ok then 1 else 0) (if ok then .ok else .busy) none ∧ t.ports = s.ports ∧
          (t.slice i).resv = (s.slice i).resv.filter (fun r => !own r)) ∧
      (∀ base cd p, reqOpOf opc = some .atom → e.line = some base → e.r.cd = some cd → e.r.port = some p → e.h.cdDone = false →
        ((s.port p).dIss a.part).toNat ≤ s.dLimit p a.part →
        ∃ t, ends t { e with h := { e.h with cdDone := true, dh := some ⟨.slot, atomLine a.arg base cd⟩ } } 0 .ok (some base) ∧
          (t.port p).cred.datDue = (s.port p).cred.datDue ++ [(a.part, 1)])) ∧
    (∀ me tm pc l ms, e.stat = .parked false me tm true false pc → (s.slice i).mem.memq = ⟨svcKey i n.toNat, .ok, some l, true⟩ :: ms →
      s.expired e = false → ∃ t, exec (.memEvent i) s = .next t ∧ t.ent i n.toNat = some { e with
        stat := .ready false, pc := e.pc + 1, x := { e.x with f1 := if l.pois then 3 else 1 },
        m := { e.m with svc := false, svcStat := .ok, svcLine := some l, ev := 2 } } ∧ (t.slice i).mem.memq = ms ∧
        (∀ j, j ≠ i → t.slice j = s.slice j) ∧ t.ports = s.ports ∧ t.chans = s.chans ∧ t.dram = s.dram ∧ t.glb = s.glb) ∧
    (∀ tm sv q pc l ms, e.stat = .parked false true tm sv q pc → (s.slice i).mem.memq = ⟨n.toNat, .ok, some l, true⟩ :: ms →
      e.h.fetchDead = false → e.m.fwdd = false → e.h.grp = none → ∃ t, exec (.memEvent i) s = .next t ∧ t.ent i n.toNat = some { e with
        stat := .ready false, pc := e.pc + 1, m := { e.m with ev := 1, ms := 0 },
        h := { e.h with fetching := false, dh := some ⟨.slot, l⟩ } } ∧ (t.slice i).mem.memq = ms ∧
        (∀ k, k ≠ n.toNat → t.ent i k = s.ent i k) ∧ (∀ j, j ≠ i → t.slice j = s.slice j) ∧ t.ports = s.ports ∧ t.chans = s.chans ∧
        t.dram = s.dram ∧ t.glb = s.glb ∧ t.flt = s.flt ∧ t.par = s.par ∧ t.regs = s.regs) ∧
    (∀ tm sv q pc st ms, e.stat = .parked false true tm sv q pc → (s.slice i).mem.memq = ⟨n.toNat, st, none, false⟩ :: ms →
      ∃ t, exec (.memEvent i) s = .next t ∧ t.ent i n.toNat = some { e with
        stat := .ready false, pc := e.pc + 1
        m := { e.m with ev := 1, ms := match st with | .ok => 0 | .poison => 1 | .fenced => 2 } } ∧ (t.slice i).mem.memq = ms ∧
        (∀ k, k ≠ n.toNat → t.ent i k = s.ent i k) ∧ (∀ j, j ≠ i → t.slice j = s.slice j) ∧ t.ports = s.ports ∧ t.chans = s.chans ∧
        t.dram = s.dram ∧ t.glb = s.glb ∧ t.flt = s.flt ∧ t.par = s.par ∧ t.regs = s.regs)

/-- R116, R124, R156, R169, R192, R201: a deadline that passes at a WAIT which names TMO, where nothing else it waits for has happened, takes
the WAIT's TMO way. An entry still bound 100 tk after its deadline, which awaits no answer, has no group and is no member of one, is logged
as stuck, completed where it has no completion, with Comp TIMEOUT where its normal completion carries no data, and freed, and the slice
becomes severe. A stale-eviction record of the reserve whose deadline passes is cleared, a protocol fault of the agent. A reservation whose
lifetime passes is lost and counted. -/
def Obligations.SliceDeadlines : Prop :=
  ∀ (s : State) (i : Fin 17) (n : BitVec 13) (e : Trk) (a : Agent) (tag : ATag), Quiet s →
    (s.ent i n.toNat = some e → s.sliceRuns i = true → s.expired e = true → (s.slice i).ar.inj = [] →
      (∀ m me sv q tpc, e.stat = .parked m me true sv q tpc → (m = true → if q then e.x.ack ≠ 0 else e.m.latch = false) →
        (me = true → e.m.memEv = []) → (sv = true → e.m.svc = false) → (∀ k ∈ (s.slice i).mem.memq, k.tid ≠ n.toNat) →
        exec (.tmoExpiry i n) s = .next (s.setEnt i n.toNat (some { e with
          stat := .ready false, pc := e.pc.extractLsb' 10 1 ++ tpc, m := { e.m with ev := 3, tmo := true } })).setPins) ∧
      (s.reached (e.h.expiry + 100) = true → e.stat ≠ .record → (∀ o, e.stat ≠ .joined o) → e.h.await = [] → e.h.grp = none →
        (s.slice i).recs = [] → (∀ q, (s.port q).egress = []) → s.flag 63 0x140 31 = false → s.flt.log.length < 253 →
        (s.src (srcSlice i)).severe = false → s.fld 59 0x104 7 6 ≠ 1 → s.homesOf i ≠ [] →
        let ends (t : State) : Prop := exec (.trackerWatchdog i n) s = .next t ∧ t.ent i n.toNat = none ∧
          (t.src (srcSlice i)).severe = true ∧ (∀ q, e.r.port ≠ some q → t.port q = s.port q) ∧ t.dram = s.dram ∧
          t.flt.log = s.flt.log ++ [⟨0x08, BitVec.ofNat 7 i.val, 63, e.r.a.part, e.r.a.pa, s.now⟩,
            ⟨0x02, BitVec.ofNat 7 i.val, 63, e.r.a.part, e.r.a.pa, s.now⟩, ⟨0x03, BitVec.ofNat 7 i.val, 63, 0, 0, s.now⟩] ∧
          (e.opens = false → e.wv = false → e.r.kind ≠ .backInv → (∀ k ∈ (s.slice i).ents, k.1 ≠ n.toNat → k.2.r.a.pa ≠ e.r.a.pa) → ∀ k, k ≠ n.toNat → t.ent i k = s.ent i k)
        (e.h.cs = true → ∃ t, ends t) ∧
        (∀ p op, e.h.cs = false → e.r.kind = .req op → reqDat op = none → op ≠ .upgr → reqIsDrain op = false → e.r.port = some p →
          e.r.wid = 0 → e.r.rk = false → FlitPasses s p e.r.a.src → e.r.a.gen = (s.part e.r.a.part).gen → ∃ t, ends t ∧
          (t.port p).link.rspo =
            (s.port p).link.rspo.push (.rsp .comp ⟨63, e.r.a.src, e.r.a.part, e.r.a.gen, e.r.a.atag, 5, 0, e.r.a.pa, 0⟩)))) ∧
    (∀ r, (s.slice i).recs = [r] → r.ag = a → r.atag = tag → s.reached r.dl = true → r.place = none → a ≠ 63 → mild s (srcAgent a) →
      (∀ k ∈ (s.slice i).ents, ∀ b, k.2.stat ≠ .setRetry b) → exec (.staleRecordDeadline i a tag) s =
        .next ((s.modSlice i fun x => { x with recs := [] }).corrEv (srcAgent a) 0 r.pa).setPins) ∧
    (∀ k, (s.slice i).resv = [k] → k.ag = a → s.resvLive k = false → exec (.reservationLifeExpiry i a) s =
      .next ((s.modSlice i fun x => { x with resv := [] }).bump (slcPage i) 0x224 7 0).setPins)

/-- R98, R316, R373, R379: in a slice that is awake, SUKCLR is accepted and begins at set 0; its abort ends it and is counted; the end of a
ledger sweep that met no injected error leaves every lock that an agent swept for held ORPHANED with reason 0b01, and no other changed; a scrub pass that is due begins
with every set to visit. R251 to R255: ENABLE turns an initialised MSC that is OFF, with no way filled at the next epoch, ON at that epoch,
one that is not initialised to INIT; DISABLE drains one that is ON; the end of the drain leaves it OFF and drops the ways whose fill is
pending, the end of the init leaves it ON at the next epoch and empty; an abort of a DISABLE leaves it ON and drops those ways. -/
def Obligations.SweepsAndMsc : Prop :=
  ∀ (s : State) (i : Fin 17) (seq : BitVec 8), Quiet s → (s.slice i).asleep = false →
    ((s.slice i).sw.sfSt.accepts seq = true → exec (.sukclr i seq) s =
      .next (s.modSlice i fun x => { x with sw := { x.sw with sfSt := x.sw.sfSt.accept seq, suk := some 0 } }).setPins) ∧
    ((s.slice i).sw.sfSt.res = .running → seq ≠ (s.slice i).sw.sfSt.rseq → exec (.sukclrAbort i seq) s =
      .next ((s.modSlice i fun x => { x with sw := { x.sw with sfSt := x.sw.sfSt.abort, suk := none } }).done (slcPage i)).setPins) ∧
    ((s.slice i).ar.inj = [] → ∃ l, exec (.ledgerSweepDone i) s = .next (s.modSlice i fun x => { x with
        ar := { x.ar with ledger := l }, sw := { x.sw with ledgerAgents := [] } }).setPins ∧
      l = (s.slice i).ar.ledger.map fun e => (e.1, e.2.map fun k =>
        if k.st = .held ∧ k.owner ∈ (s.slice i).sw.ledgerAgents then { k with st := .orphaned, why := 0b01 } else k)) ∧
    (s.glb.stt = .enabled → s.reached ((s.slice i).sw.scrubAt + BitVec.ofNat 48 (100000 * s.fld 59 0x108 11 0)) = true →
      s.slFenced i = false → (s.slice i).ctl.resetting = false → (s.slice i).ctl.testing = false → exec (.scrubPassDue i) s =
        .next (s.modSlice i fun x => { x with sw := { x.sw with scrubLeft := 16384, scrubAt := s.edge } }).setPins) ∧
    ((s.slice i).mem.ctl.st.accepts seq = true → (s.slice i).mem.ctl.st.held = none →
      ((s.slice i).mem.ctl.mode = .off → (s.slice i).ctl.dom.c = .on → (s.slice i).ar.init.extractLsb' 5 2 = 3 →
        (s.slice i).filledAt ((s.slice i).mem.ctl.epoch + 1) = 0 → s.glb.stt ≠ .disabling → ∃ m, exec (.mscEnable i seq) s =
          .next ((s.modMsc i fun _ => m).done (slcPage i)).setPins ∧ m.mode = .on ∧ m.epoch = (s.slice i).mem.ctl.epoch + 1 ∧
          m.st.res = .completed ∧ m.st.rseq = seq ∧ m.st.refused = false) ∧
      ((s.slice i).mem.ctl.mode = .off → ((s.slice i).ctl.dom.c ≠ .on ∨ (s.slice i).ar.init.extractLsb' 5 2 ≠ 3) →
        exec (.mscEnable i seq) s = .next (s.modMsc i fun m => { m with mode := .init, st := m.st.accept seq }).syncPower.setPins) ∧
      ((s.slice i).mem.ctl.mode = .on → ∃ t, exec (.mscDisable i seq) s = .next t ∧ (t.slice i).mem.ctl.mode = .drain ∧
        (t.slice i).mem.ctl.st = { (s.slice i).mem.ctl.st.accept seq with refused := (s.slice i).mem.ctl.st.refused } ∧ (t.slice i).mem.ctl.epoch = (s.slice i).mem.ctl.epoch ∧
        (∀ w ∈ (t.slice i).mem.wmb, w.drain = true) ∧ (t.slice i).ar = (s.slice i).ar ∧ (t.slice i).trk = (s.slice i).trk ∧
        (∀ j, j ≠ i → t.slice j = s.slice j) ∧ t.ports = s.ports ∧ t.chans = s.chans ∧ t.dram = s.dram ∧ t.regs = s.regs)) ∧
    ((s.slice i).mem.ctl.st.res = .running → (s.slice i).mem.ctl.st.held = none →
      ((s.slice i).mem.ctl.mode = .drain → (∀ w ∈ (s.slice i).mem.wmb, w.drain = false) → ∃ t, exec (.mscDrainEnd i) s = .next t ∧
        (t.slice i).mem.ctl.mode = .off ∧ (t.slice i).mem.ctl.st.res = .completed ∧ (t.slice i).mem.ctl.epoch = (s.slice i).mem.ctl.epoch ∧
        (t.slice i).mem.wmb = (s.slice i).mem.wmb ∧ (t.slice i).ar.msc = ((s.slice i).ar.msc.filter fun e => e.2.st != .pending) ∧ (∀ j, j ≠ i → t.slice j = s.slice j) ∧ t.ports = s.ports ∧ t.chans = s.chans ∧
        t.dram = s.dram ∧ t.glb = s.glb ∧ t.flt = s.flt) ∧
      ((s.slice i).mem.ctl.mode = .init → (i.val = 16 ∨ s.pdOn (3 * i.val + 2) = true) → s.glb.stt ≠ .disabling → ∃ t,
        exec (.mscInitDone i) s = .next t ∧
        (t.slice i).mem.ctl.mode = .on ∧ (t.slice i).mem.ctl.epoch = (s.slice i).mem.ctl.epoch + 1 ∧ (t.slice i).ar.msc = [] ∧
        (t.slice i).ar.init = (s.slice i).ar.init ||| 0x060 ∧ (t.slice i).mem.ctl.st.res = .completed ∧
        (∀ j, j ≠ i → t.slice j = s.slice j) ∧ t.ports = s.ports ∧ t.chans = s.chans ∧ t.dram = s.dram) ∧
      ((s.slice i).mem.ctl.mode = .drain → seq ≠ (s.slice i).mem.ctl.st.rseq → s.glb.stt ≠ .disabling → ∃ t, exec (.mscAbort i seq) s = .next t ∧
        (t.slice i).mem.ctl.mode = .on ∧ (t.slice i).mem.ctl.st.res = .aborted ∧
        (t.slice i).ar = { (s.slice i).ar with msc := (s.slice i).ar.msc.filter fun e => e.2.st != .pending } ∧
        (∀ w ∈ (t.slice i).mem.wmb, w.drain = false) ∧ (∀ j, j ≠ i → t.slice j = s.slice j) ∧ t.ports = s.ports ∧ t.chans = s.chans ∧
        t.dram = s.dram))

/-- R328, R8, R322, R377: a descriptor command of a home that a slice serves, which is awake and has room for it, is sent to it as a request of agent
63 and runs; a WRITE whose
descriptor breaks a rule is refused with the cause; for a home that no slice serves, or a DEGRADED one, it ends aborted. At its commit a
WRITE stores the 128 bits, a READ shows the descriptor, and a CLEAR empties the queue and takes its watch off; the command completes. -/
def Obligations.DescriptorCommands : Prop :=
  ∀ (s : State) (seq : BitVec 8) (h : Fin 16) (idx : BitVec 9), Quiet s →
    (s.svc.accepts seq = true →
      (∀ i, s.degraded h = false → s.serving h = some i → (s.slice i).asleep = false → s.glb.route.active = false → ((s.slice i).ing 24).direct.length < 8 →
        (∀ op c, (op = 2 ∧ c = Instr.qdescRead seq h idx ∨ op = 3 ∧ c = Instr.qdescClear seq h idx ∨
            op = 1 ∧ c = Instr.qdescWrite seq h idx ∧ ((QDesc.dec s.qdescRegs).v = false ∨ s.descCause h i idx.toNat (QDesc.dec s.qdescRegs) = 0)) →
          ∃ t r, exec c s = .next t ∧ t.svc = s.qdescAccept op seq ∧ ((t.slice i).ing 24).direct =
            ((s.slice i).ing 24).direct ++ [(r, (s.slice i).arb.sc)] ∧ r.kind = .qdesc op idx seq s.qdescRegs ∧ r.a.src = 63 ∧ r.home = h ∧
            r.port = none ∧ (t.slice i).trk = (s.slice i).trk ∧ (t.slice i).ar = (s.slice i).ar ∧ (∀ j, j ≠ i → t.slice j = s.slice j) ∧
            t.regs = s.regs ∧ t.ports = s.ports ∧ t.chans = s.chans ∧ t.dram = s.dram) ∧
        ((QDesc.dec s.qdescRegs).v = true → s.descCause h i idx.toNat (QDesc.dec s.qdescRegs) ≠ 0 → exec (.qdescWrite seq h idx) s =
          .next (({ s with svc := s.svc.refuse seq (s.descCause h i idx.toNat (QDesc.dec s.qdescRegs)) } : State).done 61).setPins)) ∧
      (s.serving h = none ∨ s.degraded h = true → exec (.qdescRead seq h idx) s =
        .next (({ s with svc := (s.qdescAccept 2 seq).abort } : State).done 61).setPins)) ∧
    (∀ i (n : BitVec 13) e op sq val opc f0, s.blockRuns = true → (s.slice i).asleep = false → s.slFenced i = false → (s.slice i).ar.inj = [] →
      (s.slice i).svcq = [⟨n.toNat, i, opc, f0⟩] → (s.slice i).trk = [(n.toNat, some e)] → e.stat = .atSvc → e.r.kind = .qdesc op idx sq val →
      e.r.port = none → e.x.ukm = false → e.wv = false → e.h.grp = none → (s.slice i).recs = [] → (∀ q, (s.port q).egress = []) →
      s.flag 63 0x140 31 = false → s.svc.res = .running → s.svc.held = none → ∃ t, exec (.serviceCommit i) s = .next t ∧
        t.ent i n.toNat = none ∧ (t.slice i).svcq = [] ∧ t.svc.res = .completed ∧ t.svc.rseq = s.svc.rseq ∧
        (∀ k, k ≠ idx.toNat → tabGet 0 (t.slice i).ar.desc k = tabGet 0 (s.slice i).ar.desc k) ∧
        (op = 1 → tabGet 0 (t.slice i).ar.desc idx.toNat = val) ∧
        (op = 2 → t.qdescRegs = tabGet 0 (s.slice i).ar.desc idx.toNat ∧ (t.slice i).ar.desc = (s.slice i).ar.desc) ∧
        (op = 3 → tabGet 0 (t.slice i).ar.desc idx.toNat =
          ({ (s.slice i).desc idx.toNat with head := 0, tail := 0, wv := false }).enc) ∧ t.ports = s.ports ∧ t.dram = s.dram ∧
        t.glb = s.glb ∧ t.flt = s.flt)

/-- R247: an entry past the age limit of SLC_WMBCFG that is not issued becomes due, and no other. The entry that is issued is an eligible
one that a DET fetch, else another fetch, matches, where there is one. R247, R248, R264: an issued entry of an unmirrored, unfenced channel
with room joins its write queue, where no other write of the line is queued, in place of a correction writeback or a copy of the line there,
and leaves the buffer; the writes it holds are reported as drained. -/
def Obligations.WmbEntriesReachTheirChannel : Prop :=
  (∀ (s : State) (i : Fin 17), Quiet s →
    ∃ l, exec (.wmbAgeExpiry i) s = .next (s.modSlice i fun x => { x with mem := { x.mem with wmb := l } }).setPins ∧
      l.length = (s.slice i).mem.wmb.length ∧
      ∀ (k : Nat) (e : WmbEnt), (s.slice i).mem.wmb[k]? = some e →
        l[k]? = some { e with due := e.due ||
          (!e.issued && s.reached e.age && decide (s.fld (slcPage i) 0x2B0 9 0 < s.since e.age)) }) ∧
  (∀ (s : State) (i : Fin 17) (w : WmbEnt), Quiet s → w ∈ (s.slice i).mem.wmb → s.wmbEligible i w = true →
    ∃ v, v ∈ (s.slice i).mem.wmb ∧ s.wmbEligible i v = true ∧
      (w.want.getLsbD 1 = true → v.want.getLsbD 1 = true) ∧ (w.want ≠ 0 → v.want ≠ 0) ∧
      exec (.wmbIssue i) s = .next (s.modSlice i (·.modWmb v.id fun e => { e with issued := true })).setPins) ∧
  (∀ (s : State) (i : Fin 17) (w : WmbEnt) (n : Fin 16) (cla : Nat), Quiet s → (s.slice i).mem.wmb = [w] → w.issued = true →
    w.home = n → s.memCla w.addr = cla → w.acc = 0 → w.sent = 0 → s.mirrored n = false → s.chFenced n = false →
    (s.chan n).wq.length < 64 → (∀ e ∈ (s.chan n).wq, e.cla = cla → e.corr = true ∨ e.copy = true) → (s.slice i).mem.fetchHold = [] → (s.slice i).mem.wtWait = [] →
    ∃ t, exec (.wmbEntryAccepted i) s = .next t ∧
      (t.chan n).wq = ((s.chan n).wq.filter fun e => !(e.cla == cla && (e.corr || e.copy))) ++
        [⟨(s.chan n).nextId, cla, w.addr, w.l, (s.chan n).dc, (s.chan n).rq.any fun r => r.cla == cla && r.arr == (s.chan n).dc && r.cls.isNone,
          false, false⟩] ∧
      (t.slice i).mem.wmb = [] ∧
      (t.slice i).mem.drainRep = (s.slice i).mem.drainRep ++ w.writes.map (⟨·, false⟩) ∧
      (∀ m, m ≠ n → t.chan m = s.chan m) ∧ (∀ j, j ≠ i → t.slice j = s.slice j) ∧ t.regs = s.regs ∧ t.dram = s.dram ∧
      t.ports = s.ports ∧ t.flt = s.flt ∧ t.par = s.par ∧ t.glb = s.glb)

/-- R267, R270, R280: a dc of a channel that has one write to do and no refresh to send, whose bank is ready for it, issues the write: the
DRAM holds its line, every other line stands. One that has one fetch to do issues it: the line is read and returns in its turn. That one
command is issued in each dc is the model's choice (log entry 11). -/
def Obligations.QueuedAccessIsIssued : Prop :=
  ∀ (s : State) (n : Fin 16), Quiet s → s.chFenced n = false →
    let dc := max ((s.chan n).dc + 1) (s.dcNow n)
    (∀ r, ((s.chan n).rank r).due = 0 ∧ ((s.chan n).rank r).cls1 = false ∧ ((s.chan n).rank r).makeup = false ∧
      ((s.chan n).rank r).selfRef = false ∧ ((s.chan n).rank r).busy ≤ dc) →
    (∀ w, (s.chan n).rq = [] → (s.chan n).wq = [w] → (s.chan n).need (s.coord n w.cla) = .col →
      ({ s.chan n with dc := dc } : Chan).colOk (s.timing n) (s.coord n w.cla) true = true →
      (∀ e ∈ (s.chan (buddy n)).rq ++ (s.chan (buddy n)).inflight, e.f.mir = false) →
      (∀ i, ∀ f ∈ (s.slice i).mem.fetchWait, f.mir = false) → ∃ t, exec (.dramCommandIssue n) s = .next t ∧
        t.dramGet n w.cla = w.l ∧ (∀ m k, (m, k) ≠ (n, w.cla) → t.dramGet m k = s.dramGet m k) ∧ (t.chan n).wq = [] ∧
        (t.chan n).dc = dc ∧ (∀ m, m ≠ n → t.chan m = s.chan m) ∧ t.slices = s.slices ∧ t.regs = s.regs ∧ t.ports = s.ports ∧
        t.flt = s.flt ∧ t.glb = s.glb ∧ t.par = s.par) ∧
    (∀ e, (s.chan n).rq = [e] → (s.chan n).wq = [] → (s.chan n).need (s.coord n e.cla) = .col →
      ({ s.chan n with dc := dc } : Chan).colOk (s.timing n) (s.coord n e.cla) false = true → (∀ i, (s.slice i).mem.fetchWait = []) →
      ∃ t c, exec (.dramCommandIssue n) s = .next t ∧ (t.chan n).rq = [] ∧
        (t.chan n).inflight = (s.chan n).inflight ++ [{ e with cls := some c, got := some (s.dramGet n e.cla) }] ∧
        (t.chan n).dc = dc ∧ (∀ m, m ≠ n → t.chan m = s.chan m) ∧ t.dram = s.dram ∧ t.slices = s.slices ∧ t.regs = s.regs ∧
        t.ports = s.ports ∧ t.flt = s.flt ∧ t.glb = s.glb ∧ t.par = s.par)

/-- R278 to R281, R201: the oldest read returns to the slice that fetched it, as its burst decodes with the bits that have flipped: a clean line
raises MEM OK; a poisoned one MEM POISON and is counted; a corrected one MEM OK, and it goes back to the DRAM as a correction writeback; one
that cannot be read raises MEM POISON and makes an unmirrored channel severe, whatever its data reads as (log entry 14). A burst without
a flipped bit decodes to the line that was written, poisoned or not. -/
def Obligations.ReadReturnsToSlice : Prop :=
  (∀ (x8 : Bool) (l : PLine), readBurst x8 l 0 = if l.pois then .poison l.data else .ok l.data) ∧
  ∀ (s : State) (n : Fin 16) (e : RdEnt) (es : List RdEnt) (i : Fin 17) (tid : Nat) (pa : LineAddr) (l : PLine) (err : BitVec 640),
    Quiet s → (s.chan n).inflight = e :: es → e.f.slice = i → e.f.fetchFor = .trk tid → e.f.addr = .line pa → e.f.mir = false →
    e.got = some l → (s.slice i).mem.ctl.mode = .off →
    let found := readBurst (s.flag (dchPage n) 0x100 6) l err
    let back (m : MemStat) (k : PLine) : Slice → Slice := fun x =>
      { x with mem := { x.mem with memq := x.mem.memq ++ [⟨tid, m, some k, true⟩] } }
    (∀ v, found = .ok v → exec (.dramReadComplete n err) s = .next
      ((s.modChan n fun c => { c with inflight := es }).modSlice i (back .ok ⟨v, false⟩)).setPins) ∧
    (∀ v, found = .poison v → exec (.dramReadComplete n err) s = .next
      (((s.bump (dchPage n) 0x180 11 6).modChan n fun c => { c with inflight := es }).modSlice i (back .poison ⟨v, true⟩)).setPins) ∧
    (∀ v dev, found = .corrected v dev → mild s (srcChan n) → s.chFenced n = false → e.past = false → (s.chan n).wq = [] →
      ∃ t, exec (.dramReadComplete n err) s = .next t ∧
        (t.slice i).mem.memq = (s.slice i).mem.memq ++ [⟨tid, .ok, some ⟨v, false⟩, true⟩] ∧ (t.chan n).inflight = es ∧
        (t.chan n).wq = [⟨(s.chan n).nextId, e.cla, .line pa, ⟨v, false⟩, (s.chan n).dc,
          (s.chan n).rq.any fun r => r.cla == e.cla && r.arr == (s.chan n).dc && r.cls.isNone, true, false⟩] ∧
        (t.src (srcChan n)).corr = ((s.src (srcChan n)).count1 false).corr ∧
        (∀ m, m ≠ n → t.chan m = s.chan m) ∧ (∀ j, j ≠ i → t.slice j = s.slice j) ∧ t.dram = s.dram ∧ t.ports = s.ports ∧
        t.par = s.par) ∧
    (found = .lost → s.mirrored n = false → (s.src (srcChan n)).severe = false → s.fld 59 0x104 3 2 = 0 →
      ∃ t v, exec (.dramReadComplete n err) s = .next t ∧
        (t.slice i).mem.memq = (s.slice i).mem.memq ++ [⟨tid, .poison, some ⟨v, true⟩, true⟩] ∧ (t.chan n).inflight = es ∧
        (t.src (srcChan n)).severe = true ∧ (∀ m, m ≠ n → t.chan m = s.chan m) ∧ (∀ j, j ≠ i → t.slice j = s.slice j) ∧
        t.dram = s.dram ∧ t.ports = s.ports ∧ t.par = s.par)

/-- R272, R273, R274: a refresh that falls due for a rank is counted, is in class 1 where the channel owes as many as it may postpone, those that are
due and not sent among them, and the
next falls due an interval later; owed refreshes are made up in an idle time; the poll of the temperature, 32 microseconds after the last, notes
what MR4 says; nothing but the channel changes. R282, R283: an alert whose replay succeeds is counted, logged with the line of the
rank's last command and reported as one CORR event of the channel; the rank's run of failed replays ends. One whose replay fails, before the
third in a row, adds to the run. -/
def Obligations.RefreshAndAlerts : Prop :=
  (∀ (s : State) (n : Fin 16) (r : Fin 4) (hot : BitVec 4), Quiet s → r.val < s.ranks n →
    let k := (s.chan n).rank r.val
    let c := s.chan n
    (k.selfRef = false → c.refOn = true → k.dueAt ≤ s.dcNow n →
      let h := if c.polled < k.dueAt then c.hotNext else c.hot
      exec (.refreshDue n r) s = .next (s.modChan n fun c => { (c.modRank r.val fun k =>
        { k with due := k.due + 1, dueAt := k.dueAt + s.refreshEvery n h
                 cls1 := k.cls1 || decide (s.postMax n ≤ k.owed + k.due) }) with hot := h }).setPins) ∧
    (k.owed ≠ 0 → s.rankFetches n r.val = false → s.fld (dchPage n) 0x154 27 16 ≤ s.dcNow n - k.lastFetch →
      exec (.refreshIdleMakeup n r) s = .next (s.modChan n (·.modRank r.val fun k => { k with makeup := true })).setPins) ∧
    (c.refOn = true → c.polled + s.dcOf n 32000 ≤ s.dcNow n → exec (.mr4Poll n hot) s = .next (s.modChan n fun c =>
      { c with hotNext := (List.range (s.ranks n)).any (hot.getLsbD ·), polled := s.dcNow n, lastCmd := [] }).setPins)) ∧
  (∀ (s : State) (n : Fin 16) (r : Fin 4) (ok : Bool), Quiet s → mild s (srcChan n) → tabGet 0 (s.chan n).replays r.val < 2 →
    ∃ t, exec (.alert n r ok) s = .next t ∧
      tabGet 0 (t.chan n).replays r.val = (if ok then 0 else tabGet 0 (s.chan n).replays r.val + 1) ∧
      (∀ q, q ≠ r.val → tabGet 0 (t.chan n).replays q = tabGet 0 (s.chan n).replays q) ∧
      (t.chan n).elog = (s.chan n).elog.record 2 0xF (BitVec.ofNat 2 r.val) (tabGet (0, false) (s.chan n).lastCmd r.val).2
        (tabGet (0, false) (s.chan n).lastCmd r.val).1 ∧
      (t.src (srcChan n)).corr = ((s.src (srcChan n)).count1 false).corr ∧ (t.chan n).rq = (s.chan n).rq ∧
      (t.chan n).wq = (s.chan n).wq ∧ (∀ m, m ≠ n → t.chan m = s.chan m) ∧ t.slices = s.slices ∧ t.dram = s.dram ∧
      t.ports = s.ports ∧ t.glb = s.glb ∧ t.par = s.par)

/-- R287: a RESYNC of a fenced half that has completed a full training, while its partner serves, begins at the first line. The read of a
line joins the partner's queue, where no write of it is on its way; the line that was read is queued for the half as a copy; a line that has
been copied raises WM, and the last one ends the fence and the command. An abort leaves the channel as fenced as it was, with the contents
it holds. -/
def Obligations.ResyncCopiesTheMirror : Prop :=
  ∀ (s : State) (n : Fin 16) (seq : BitVec 8), Quiet s → s.mirrored n = true →
    let m := buddy n
    let wm := (s.chan n).mir.wm
    let half := s.capacity m / 2
    (s.chFenced n = true → s.chFenced m = false → (s.chan n).mir.st.accepts seq = true → (s.chan n).trn.valid = true →
      (s.chan n).trn.full = true → (s.chan n).trn.fail = false → (s.chan n).trn.phase = .idle → (s.chan n).resetting = false →
      ∃ c, exec (.resync n seq) s = .next (s.modChan n fun _ => c).setPins ∧ c.mir = ⟨(s.chan n).mir.st.accept seq, .resync, 0, none⟩ ∧
        (∀ r, r < s.ranks n → (c.rank r).selfRef = false) ∧ c.rq = (s.chan n).rq ∧ c.wq = (s.chan n).wq) ∧
    ((s.chan n).mir.mode = .resync →
      ((s.chan n).mir.copy = none → memIdle s → s.rqRoom m false = true → ∃ t, exec (.resyncCopyLine n) s = .next t ∧
        (t.chan n).mir.copy = some ⟨if wm < half then half + wm else wm - half, .reading, false⟩ ∧ (t.chan n).mir.wm = wm ∧
        (∃ e, (t.chan m).rq = (s.chan m).rq ++ [e] ∧ e.cla = wm ∧ e.f.fetchFor = .copy ∧ e.mirror = decide (half ≤ wm)) ∧
        (∀ k, k ≠ n → k ≠ m → t.chan k = s.chan k) ∧ t.slices = s.slices ∧ t.dram = s.dram ∧ t.ports = s.ports ∧ t.flt = s.flt) ∧
      (∀ k l, (s.chan n).mir.copy = some k → k.phase = .got l → k.stale = false → s.wqRoom n k.dst = true →
        exec (.resyncCopyLine n) s = .next (s.modChan n fun c => { c with
          wq := c.wq ++ [⟨c.nextId, k.dst, .ring n k.dst, l, c.dc, false, false, true⟩], nextId := c.nextId + 1
          mir := { c.mir with copy := some { k with phase := .writing } } }).setPins) ∧
      (∀ k, (s.chan n).mir.copy = some k → k.phase = .done →
        (wm + 1 < s.capacity m → memIdle s → ∃ t, exec (.resyncCopyLine n) s = .next t ∧ (t.chan n).mir.wm = wm + 1 ∧
          t.dram = s.dram ∧ t.slices = s.slices ∧ t.flt = s.flt) ∧
        (s.capacity m ≤ wm + 1 → (s.chan n).mir.st.held = none → ∃ t, exec (.resyncCopyLine n) s = .next t ∧ t.chFenced n = false ∧
          (t.chan n).mir.mode = .none ∧ (t.chan n).mir.st.res = .completed ∧ t.dram = s.dram ∧ t.slices = s.slices ∧
          (∀ k, k ≠ n → t.chan k = s.chan k)))) ∧
    (seq ≠ (s.chan n).mir.st.rseq →
      ((s.chan n).mir.st.res ≠ .running →
        exec (.resyncAbort n seq) s = .next (s.modMir n fun c => { c with res := .nothing, rseq := seq }).setPins) ∧
      ((s.chan n).mir.st.res = .running → memIdle s → (s.chan n).rq = [] → (s.chan n).wq = [] →
        ∃ t, exec (.resyncAbort n seq) s = .next t ∧ (t.chan n).mir.mode = .none ∧
        (t.chan n).mir.st.res = .aborted ∧ t.chFenced n = s.chFenced n ∧ t.dram = s.dram ∧ t.ports = s.ports ∧ t.flt = s.flt))

/-- R275, R276, R442, R379: a TRAIN of a channel that is fenced or not yet enabled begins a full training with the DFI handshake, the handshake's end begins the read sweep at the first
code of the first lane of the first rank, a setting that is answered leads to the next lane's (a passing code is noted, a late one fails every
lane; the sideband's valid falls), a training after a warm reset that is latched becomes valid, and an abort stops one that runs. -/
def Obligations.TrainingGoesOn : Prop :=
  ∀ (s : State) (n : Fin 16) (seq : BitVec 8) (pass : Bool), Quiet s →
    ((s.chan n).trn.st.accepts seq = true → (s.chFenced n = true ∨ s.glb.everEnabled = false) → (s.chan n).trn.phase = .idle →
      s.glb.stt ≠ .reset → s.glb.stt ≠ .fuse →
      ∃ c, exec (.train n seq) s = .next (s.modChan n fun _ => c).setPins ∧ c.initStart = true ∧ c.trn.phase = .dfi ∧
        c.trn.st = (s.chan n).trn.st.accept seq ∧ c.trn.valid = false ∧ c.trn.fail = false ∧ c.trn.full = true ∧ c.trn.res = [] ∧ c.refOn = false ∧
        c.rq = (s.chan n).rq ∧ c.wq = (s.chan n).wq ∧ c.mir = (s.chan n).mir) ∧
    ((s.chan n).trn.phase = .dfi → ∃ c, exec (.dfiInitComplete n) s = .next (s.modChan n fun _ => c).setPins ∧
      c.trn = { (s.chan n).trn with phase := .read } ∧ c.initStart = false ∧ c.dly.vld = true) ∧
    ((s.chan n).trn.phase = .read ∨ (s.chan n).trn.phase = .write → (s.chan n).trn.code < 127 → (s.chan n).trn.lane < 9 →
      (∃ c, exec (.delayDone n pass) s = .next (s.modChan n fun _ => c).setPins ∧ c.trn.lane = (s.chan n).trn.lane + 1 ∧
        c.trn.code = (s.chan n).trn.code ∧ c.trn.rank = (s.chan n).trn.rank ∧ c.trn.phase = (s.chan n).trn.phase ∧ c.dly.vld = false ∧
        c.trn.passed = (if pass then (s.chan n).trn.passed ++ [128 * (s.chan n).trn.lane + (s.chan n).trn.code]
          else (s.chan n).trn.passed)) ∧
      (∃ c, exec (.delayDoneLate n) s = .next (s.modChan n fun _ => c).setPins ∧ c.trn.lane = (s.chan n).trn.lane + 1 ∧
        c.trn.passed = (s.chan n).trn.passed ∧ c.dly.vld = false ∧ c.trn.lateCodes = (s.chan n).trn.lateCodes ++ [(s.chan n).trn.code])) ∧
    ((s.chan n).trn.phase = .latched → (s.chan n).trn.full = false → (s.chan n).trn.fail = false → (s.chan n).resetting = false →
      (s.chan n).trn.st.res ≠ .running → ∃ c, exec (.trainingDone n) s = .next (s.modChan n fun _ => c).setPins ∧
        c.trn = { (s.chan n).trn with phase := .idle, valid := true } ∧ c.dly.vld = false) ∧
    ((s.chan n).trn.st.res = .running → seq ≠ (s.chan n).trn.st.rseq → exec (.trainAbort n seq) s = .next
      ((s.modChan n fun c => { c with trn := { c.trn with phase := .idle, st := c.trn.st.abort }
                                      dly := ⟨false, 0, 0, false, 0⟩, initStart := false }).done (dchPage n)).setPins)

/-- R283, R399: DCH_ELCLR empties the error log. A channel reset of a fenced channel with nothing queued keeps it fenced, ends what it
ran and starts a full training; an abort ends it with the channel fenced still. -/
def Obligations.ChannelReset : Prop :=
  ∀ (s : State) (n : Fin 16) (seq : BitVec 8), Quiet s →
    exec (.elogClear n) s = .next (s.modChan n fun c => { c with elog := ⟨false, false, 0, 0xF, 0, false, 0⟩ }).setPins ∧
    ((s.chan n).rst.accepts seq = true → s.chFenced n = true → memIdle s → (s.chan n).wq = [] → (s.chan n).rq = [] →
      ∃ t, exec (.channelReset n seq) s = .next t ∧ (t.chan n).rst = (s.chan n).rst.accept seq ∧ (t.chan n).resetting = true ∧
        (t.chan n).trn.phase = .dfi ∧ (t.chan n).trn.full = true ∧ (t.chan n).rq = [] ∧ (t.chan n).wq = [] ∧
        (t.chan n).mir.mode = .none ∧ t.chFenced n = true ∧ (∀ m, m ≠ n → m ≠ buddy n → t.chan m = s.chan m) ∧ t.dram = s.dram ∧
        t.ports = s.ports ∧ t.glb = s.glb ∧ t.par = s.par) ∧
    ((s.chan n).rst.res = .running → seq ≠ (s.chan n).rst.rseq → exec (.channelResetAbort n seq) s = .next
      ((s.modChan n fun c => { c with rst := c.rst.abort, trn := { c.trn with phase := .idle }
                                      dly := ⟨false, 0, 0, false, 0⟩, initStart := false, resetting := false }).done (dchPage n)).setPins)

/-- R351, R413, R374: a CORR event is counted in its source's window and in FLT_SRCSTAT, the first of a window is logged, and below the
count of FLT_SEVCFG nothing else happens. R351, R352, R374, R449: an UNCOR event makes its source severe, whatever it counted before: the
event and the severity are logged, the source is not acknowledged, and `efk_fault_n` is asserted; where FLT_ACTCFG sets no action for the unit
nothing else changes. -/
def Obligations.CorrAndUncorEvents : Prop :=
  (∀ (s : State) (src : BitVec 7), Quiet s → mild s src.toNat →
    exec (.corrEvent src) s = .next (
      let t := s.modSrc src.toNat fun x => { (x.count1 false) with
        count := corrCount s src.toNat, ws := if firstOfWindow s src.toNat then s.now else x.ws }
      if firstOfWindow s src.toNat then t.log 0x01 src.toNat else t).setPins) ∧
  (∀ (s : State) (src : BitVec 7), Quiet s →
    (∀ i : Fin 17, src.toNat = i.val → s.homesOf i ≠ [] ∧ s.fld 59 0x104 7 6 ≠ 1) → s.fld 59 0x104 5 4 = 0 → s.fld 59 0x104 3 2 = 0 →
    s.fld 59 0x104 1 0 = 0 → (s.src src.toNat).severe = false → (s.src src.toNat).acked = false → s.flt.log.length ≤ 254 →
    ∃ t, exec (.uncorEvent src) s = .next t ∧ (t.src src.toNat).severe = true ∧ (t.src src.toNat).fenced = (s.src src.toNat).fenced ∧
      (t.src src.toNat).uncor = ((s.src src.toNat).count1 true).uncor ∧ (∀ m, m ≠ src.toNat → t.src m = s.src m) ∧
      t.flt.log = s.flt.log ++ [⟨0x02, src, srcAg src.toNat, 0, 0, s.now⟩, ⟨0x03, src, srcAg src.toNat, 0, 0, s.now⟩] ∧ t.flt.due = [] ∧
      t.pins.faultN = false ∧ t.flt.run = s.flt.run ∧ t.regs = s.regs ∧ t.glb = s.glb ∧ t.slices = s.slices ∧
      t.ports = s.ports ∧ t.chans = s.chans ∧ t.dram = s.dram ∧ t.par = s.par)

/-- R352, R360, R286, R353: a FENCE of an unmirrored channel with nothing queued fences it and puts every rank into self-refresh; the command completes
and is counted. An ACK marks a severe source as acknowledged and no other. A FENCE or an ACK of a number that names no unit is refused with
CAUSE 0x01. -/
def Obligations.FenceAndAck : Prop :=
  ∀ (s : State) (seq : BitVec 8) (src : BitVec 7) (n : Fin 16), Quiet s → s.flt.cmd.accepts seq = true →
    (s.mirrored n = false → s.chFenced n = false → memIdle s → (s.chan n).wq = [] → (s.chan n).rq = [] →
      (s.chan (buddy n)).mir.mode ≠ .resync → s.flt.cmd.held = none →
      ∃ t, exec (.fence seq (BitVec.ofNat 7 (srcChan n))) s = .next t ∧ t.chFenced n = true ∧ t.flt.cmd.res = .completed ∧
        t.flt.cmd.rseq = seq ∧ (∀ r, r < s.ranks n → ((t.chan n).rank r).selfRef = true) ∧ (t.chan n).rq = [] ∧ (t.chan n).wq = [] ∧
        (∀ m, m ≠ n → m ≠ buddy n → t.chan m = s.chan m) ∧ t.dram = s.dram ∧ t.ports = s.ports ∧ t.glb = s.glb) ∧
    (src.toNat ≤ 57 ∨ (64 ≤ src.toNat ∧ src.toNat ≤ 126) → exec (.ack seq src) s = .next
      (((s.modFlt fun x => { x with cmd := (x.cmd.accept seq).complete }).modSrc src.toNat fun x =>
        { x with acked := x.acked || x.severe }).done 59).setPins) ∧
    (57 < src.toNat → ¬ (64 ≤ src.toNat ∧ src.toNat ≤ 126) →
      exec (.fence seq src) s = .next ((s.modFlt fun x => { x with cmd := x.cmd.refuse seq 0x01 }).done 59).setPins ∧
      exec (.ack seq src) s = .next ((s.modFlt fun x => { x with cmd := x.cmd.refuse seq 0x01 }).done 59).setPins)

/-- R352, R355, R316, R357: a FENCE of an agent that no slice holds anything of marks it fenced and logs it, and in every slice a ledger
sweep and a presence sweep of every set begin for it. -/
def Obligations.FenceOfAgentSweeps : Prop :=
  ∀ (s : State) (seq : BitVec 8) (a : Agent) (p : Fin 24), Quiet s → s.flt.cmd.accepts seq = true → portOf a = some p →
    s.flt.cmd.held = none → (s.src (srcAgent a)).fenced = false → (s.port p).held = [] → (s.port p).orphans = [] → s.flt.log.length < 256 →
    (∀ i, (s.slice i).trk = [] ∧ (s.slice i).recs = [] ∧ (s.slice i).ingress = [] ∧ (s.slice i).ar.desc = [] ∧
      (s.slice i).asleep = false ∧ s.slFenced i = false) → (∀ q, (s.port q).egress = []) →
    ∃ t, exec (.fence seq (BitVec.ofNat 7 (srcAgent a))) s = .next t ∧ t.agFenced a = true ∧ t.flt.cmd.res = .completed ∧
      (∀ i, (t.slice i).sw.ledgerAgents = (s.slice i).sw.ledgerAgents ++ [a] ∧
        (t.slice i).sw.presAgents = (s.slice i).sw.presAgents ++ [a] ∧ (t.slice i).sw.presLeft = 16384) ∧
      t.flt.log = s.flt.log ++ [⟨0x04, BitVec.ofNat 7 (srcAgent a), a, 0, 0, s.now⟩] ∧ t.chans = s.chans ∧ t.dram = s.dram ∧
      t.par = s.par ∧ t.glb = s.glb

/-- R363, R370, R372: an EVAC and a RETURN begin a move of the home from the slice that serves it to the free slice named, which is woken;
FLT_MOVE names it and the command runs. An abort that finds no move of a command reads NOTHING; one of
an EVAC rolls it back: the home stays where it was, the sets that had moved are unknown there, and the command ends ABORTED. -/
def Obligations.MoveBegins : Prop :=
  (∀ (s : State) (seq : BitVec 8) (h : Fin 16) (i d : Fin 17), Quiet s → s.flt.run = none → s.tst.phase = .none →
    s.flt.cmd.accepts seq = true → s.flt.log.length < 256 → s.serving h = some i → s.isFree d = true → (s.slice d).asleep = true →
    (s.src (srcSlice i)).severe = false → s.glb.ld.st.res = .nothing →
    (s.degraded h = false → s.homesOf i = [h] → ∃ t m, exec (.evac seq h (BitVec.ofNat 5 d.val)) s = .next t ∧ t.flt.run = some m ∧ m.kind = .evac ∧
      m.home = h ∧ m.src = i ∧ m.dst = d ∧ m.phase = .prepare ∧ m.cmd = true ∧ m.checked = false ∧ t.flt.cmd = s.flt.cmd.accept seq ∧
      t.flt.lastKind = .evac ∧ (t.slice d).ctl.waking = true ∧ t.regs = s.regs ∧ t.chans = s.chans ∧ t.ports = s.ports ∧
      t.dram = s.dram ∧ t.glb = s.glb) ∧
    (s.degraded h = true → ∃ t m, exec (.returnHome seq h (BitVec.ofNat 5 d.val)) s = .next t ∧ t.flt.run = some m ∧ m.kind = .ret ∧
      m.home = h ∧ m.src = i ∧ m.dst = d ∧ m.phase = .copy ∧ m.cmd = true ∧ t.flt.cmd = s.flt.cmd.accept seq ∧
      t.glb.admHold.getLsbD h.val = true ∧ (t.slice d).ctl.waking = true ∧ t.chans = s.chans ∧ t.dram = s.dram) ∧
    (s.flt.cmd.rseq ≠ seq → exec (.moveAbort seq) s = .next
      (s.modFlt fun x => { x with cmd := { x.cmd with res := .nothing, rseq := seq } }).setPins)) ∧
  ∀ (s : State) (seq : BitVec 8) (m : Move), Quiet (withoutMove s) → s.glb.admHold = 0 → s.flt.run = some m → m.kind = .evac → m.cmd = true →
    m.src ≠ m.dst → s.flt.cmd.res = .running → seq ≠ s.flt.cmd.rseq → s.tst.phase = .none → memIdle s →
    (∀ j, (s.slice j).trk = [] ∧ (s.slice j).recs = [] ∧ (s.slice j).ingress = [] ∧ (s.slice j).wakeHold = []) →
    let moved := if s.glb.route.active then s.glb.route.wm.toNat else 0
    ∃ t, exec (.moveAbort seq) s = .next t ∧ t.flt.run = none ∧ t.flt.cmd = s.flt.cmd.abort ∧ t.flt.lastRb = true ∧
      t.glb.route.active = false ∧ (∀ p, (t.port p).route.active = false) ∧ (∀ h, t.serving h = s.serving h) ∧
      (∀ k < 16384, (t.slice m.src).suk k = (decide (k < moved) || (s.slice m.src).suk k)) ∧ t.chans = s.chans ∧ t.dram = s.dram

/-- R364, R365: how an evacuation goes on. Once the destination is prepared the route becomes active with watermark 0 and set 0 is held; a
set that is quiet moves, the watermark passes it, and every port is told; a port's copy takes the watermark and its marker sets out; the
marker reaches the source; once every marker has, the release reaches the destination; then the next set is held. -/
def Obligations.EvacuationGoesSetBySet : Prop :=
  ∀ (s : State) (m : Move) (p : Fin 24) (k : Nat), Quiet s → s.flt.run = some m → m.kind = .evac → m.checked = true →
    (m.phase = .prepare → s.destReady m.dst = true → (s.slice m.src).asleep = false →
      exec .evacSetStep s = .next (((s.modSlice m.src fun x => { x with resv := [] }).modGlb fun g =>
        { g with route := ⟨true, m.home, BitVec.ofNat 5 m.dst.val, 0⟩ }).modFlt fun f =>
          { f with run := some { m with phase := .hold 0 } }).setPins) ∧
    (m.phase = .hold k → s.setQuiet m.src m.home k = true → (s.slice m.src).trk = [] → (s.slice m.src).ingress = [] →
      (s.slice m.src).wakeHold = [] → (s.slice m.src).recs = [] → (s.slice m.src).ar.inj = [] →
      (∀ w < 16, ((s.slice m.src).sfGet k w).dir.ok = true) → m.src ≠ m.dst →
      ∃ t m', exec .evacSetStep s = .next t ∧ t.flt.run = some m' ∧ m'.phase = .spread k ∧ (∀ q, q ∈ m'.tell ∧ q ∈ m'.mark) ∧
        t.glb.route = ⟨true, m.home, BitVec.ofNat 5 m.dst.val, BitVec.ofNat 15 (k + 1)⟩ ∧
        (∀ w < 16, ((t.slice m.dst).sfGet k w).dir = ((s.slice m.src).sfGet k w).dir ∧
          (((s.slice m.src).sfGet k w).dir ≠ .un → ((t.slice m.dst).sfGet k w).tag = ((s.slice m.src).sfGet k w).tag) ∧
          (t.slice m.src).sfGet k w = ⟨0, .un⟩) ∧
        t.dram = s.dram ∧ t.chans = s.chans ∧ t.ports = s.ports) ∧
    (p ∈ m.tell → exec (.watermarkBroadcastArrival p) s = .next ((s.modPort p fun x =>
      { x with route := s.glb.route, marker := true }).modFlt fun f => { f with run := some { m with tell := m.tell.filter (· ≠ p) } }).setPins) ∧
    (m.phase = .spread k → (s.port p).marker = true → p ∈ m.mark → (s.slice m.src).trk = [] → (s.slice m.src).ingress = [] →
      (s.slice m.src).wakeHold = [] → ∃ t m', exec (.evacMarkerArrival p) s = .next t ∧ t.flt.run = some m' ∧ p ∉ m'.mark ∧
        m'.tell = m.tell ∧ m'.phase = .spread k ∧ (t.port p).marker = false ∧ (∀ q, q ≠ p → t.port q = s.port q) ∧ t.glb = s.glb ∧
        t.chans = s.chans ∧ t.dram = s.dram) ∧
    (m.phase = .spread k → m.mark = [] → exec .evacReleaseArrival s = .next
      (s.modFlt fun f => { f with run := some { m with released := true } }).setPins) ∧
    (m.phase = .spread k → m.released = true → m.tell = [] → m.sent ≤ m.passed → exec .evacSetStep s = .next
      (s.modFlt fun f => { f with run := some { m with phase := if k + 1 < 16384 then .hold (k + 1) else .final } }).setPins)

/-- R367, R368, R370: at the end of an evacuation, of a takeover and of a return the destination serves the home with its service state, which
the source held, or, for a DEGRADED home, the slice that had been fenced (R370); the
move is over and admission of the home is no longer held; after a takeover or a return every set of the destination is unknown and the home
is not DEGRADED. -/
def Obligations.MoveEndsAtDestination : Prop :=
  ∀ (s : State) (m : Move), Quiet (withoutMove s) → s.flt.run = some m → m.src ≠ m.dst → (∀ i, (s.slice i).recs = []) →
    (s.slice m.src).trk = [] → (s.slice m.src).ingress = [] → (s.slice m.dst).ingress = [] → (s.slice m.src).wakeHold = [] →
    (s.slice m.dst).wakeHold = [] → (∀ i, (s.slice i).ar.inj = []) → memIdle s → s.par.job = .none →
    s.flt.log.length < 256 →
    (m.kind = .evac → m.phase = .final → s.glb.admHold = 0 → (s.src (srcSlice m.src)).severe = false → ∃ t, exec .evacFinalStep s = .next t ∧ t.serving m.home = some m.dst ∧
      t.flt.run = none ∧ t.glb.route.active = false ∧ (t.slice m.dst).ar.ledger = (s.slice m.src).ar.ledger ∧
      (t.slice m.dst).ar.desc = (s.slice m.src).ar.desc ∧ (∀ h, h ≠ m.home → t.serving h = s.serving h) ∧ t.dram = s.dram) ∧
    (∀ r, s.glb.admHold = BitVec.ofNat 16 (2 ^ m.home.val) → m.checked = true → s.destReady m.dst = true → r ≠ m.dst →
      (m.kind = .takeover → (s.retainedOf m.home).getD m.src = r → ∃ t, exec .takeoverCopyDone s = .next t ∧ t.serving m.home = some m.dst ∧ t.flt.run = none ∧
        t.degraded m.home = false ∧ t.glb.admHold = 0 ∧ (t.slice m.dst).ar.ledger = (s.slice r).ar.ledger ∧
        (t.slice m.dst).ar.desc = (s.slice r).ar.desc ∧ t.retainedOf m.home = none ∧ (∀ k < 16384, (t.slice m.dst).suk k = true) ∧
        t.dram = s.dram) ∧
      (m.kind = .ret → s.degraded m.home = true → s.retainedOf m.home = some r → m.cmd = true → s.flt.cmd.held = none → ∃ t, exec .returnComplete s = .next t ∧
        t.serving m.home = some m.dst ∧ t.flt.run = none ∧ t.degraded m.home = false ∧ t.glb.admHold = 0 ∧
        t.flt.cmd.res = .completed ∧ (t.slice m.dst).ar.ledger = (s.slice r).ar.ledger ∧
        (t.slice m.dst).ar.desc = (s.slice r).ar.desc ∧ t.retainedOf m.home = none ∧ (∀ k < 16384, (t.slice m.dst).suk k = true) ∧ t.dram = s.dram))

/-- R374, R361, R354: FLT_LOGPOP drops the oldest entry of the log, FLT_LWCLR empties the lost-write table that FLT_LWSEL names, and a tk
whose count is a multiple of 100 toggles `efk_alive` unless a severe source stands unmasked and unacknowledged. -/
def Obligations.LogsAndHeartbeat : Prop :=
  ∀ (s : State), Quiet s →
    exec .logPop s = .next (s.modFlt fun f => { f with log := f.log.drop 1 }).setPins ∧
    exec .lostWriteClear s = .next (s.modChan (Fin.ofNat 16 (s.fld 59 0x184 12 9)) fun c => { c with lost := [] }).setPins ∧
    (s.glb.everEnabled = true → s.now.toNat % 100 = 0 →
      exec .heartbeatTick s = .next (s.modFlt fun f =>
        { f with stopped := !s.standing.isEmpty, alive := if s.standing.isEmpty then !f.alive else f.alive }).setPins)

/-- R379, R452, R455, R456, R457, R461, R462, R463: an array command that nothing forbids completes, and is counted: REMAPRD shows the remap
entry that TST_AOPND names, REMAPWR writes it and clears the array's INIT bit, INJ flips check bits of the word in a grant of its own, TRREAD shows a trace record,
TRCLR empties the trace buffer; of a slice that does not exist, or is OFF, it is refused with cause 1. TST_PCCLR clears the counters it names.
A wrapper instruction takes effect while `efk_rst_cold_n` is low, WS_INTEST only without the debug lock, and acts as WS_BYPASS otherwise. -/
def Obligations.ArrayCommandsAndWrapper : Prop :=
  ∀ (s : State) (seq : BitVec 8) (i : Fin 17) (a : Fin 10), Quiet s → s.tstClosed = false →
    let sn := BitVec.ofNat 5 i.val
    let an := BitVec.ofNat 4 a.val
    let ended (t : Tst) : Tst := { t with acmd := (t.acmd.accept seq).complete, aopndL := t.aopnd }
    (s.tst.acmd.accepts seq = true → s.tst.acmd.held = none →
      ((s.slice i).ctl.dom.a ≠ .off →
        exec (.remaprd seq sn an) s = .next ((s.modTst fun t => { ended t with
          ares := remapBits ((s.slice i).ar.remapAt a s.opndEntry) }).done 63).setPins ∧
        (s.remapOk i = true → s.opndWord.toNat < arrayWords a → ∃ x, exec (.remapwr seq sn an) s = .next (((s.modTst ended).modSlice i fun _ =>
            x).done 63).setPins ∧ x.ar.remapAt a s.opndEntry = ⟨s.tst.aopnd.getLsbD 19 && !((s.slice i).ar.remapAt a s.opndEntry).ret,
            ((s.slice i).ar.remapAt a s.opndEntry).ret, s.opndWord⟩ ∧
          (∀ b k, k < 16 → (b, k) ≠ (a, s.opndEntry) → x.ar.remapAt b k = (s.slice i).ar.remapAt b k) ∧
          (∀ k < 10, x.ar.init.getLsbD k = ((s.slice i).ar.init.getLsbD k && k != a.val)) ∧ x.ar.sf = (s.slice i).ar.sf ∧
          x.trk = (s.slice i).trk ∧ x.ctl = (s.slice i).ctl ∧ x.mem = (s.slice i).mem ∧ x.uc = (s.slice i).uc) ∧
        (a ≠ 9 → s.opndWord.toNat < arrayWords a → s.tst.aopnd.extractLsb' 24 8 &&& checkMask a.val ≠ 0 → ∃ t l,
          exec (.inj seq sn an) s = .next t ∧ t.tst.acmd = (s.tst.acmd.accept seq).complete ∧ (t.slice i).ar = { (s.slice i).ar with inj := l } ∧
          (t.slice i).trk = (s.slice i).trk ∧ (t.slice i).arb.sc = (s.slice i).arb.sc + (if s.sliceRuns i then 1 else 0) ∧
          (∀ j, j ≠ i → t.slice j = s.slice j) ∧ t.ports = s.ports ∧ t.chans = s.chans ∧ t.dram = s.dram ∧ t.glb = s.glb ∧
          (a, s.opndWord, s.tst.aopnd.extractLsb' 24 8 &&& checkMask a.val) ∈ l ∧
          (∀ e ∈ (s.slice i).ar.inj, (e.1, e.2.1) ≠ (a, s.opndWord) → e ∈ l)) ∧
        ((s.slice i).ar.init.getLsbD 9 = true → exec (.trread seq sn) s = .next ((s.modTst fun t => { ended t with
          ares := (s.slice i).trace.at' (s.tst.aopnd.extractLsb' 0 12), wrapped := (s.slice i).trace.wrapped
          stopped := (s.slice i).trace.stopped, wptr := (s.slice i).trace.wptr }).done 63).setPins) ∧
        exec (.trclr seq sn) s = .next (((s.modTst ended).modSlice i fun x =>
          { x with trace := ⟨[], 0, false, false, none, 0⟩ }).done 63).setPins) ∧
      ((s.slice i).ctl.dom.a = .off → ∀ c ∈ [Instr.remaprd seq sn an, .remapwr seq sn an, .inj seq sn an, .trread seq sn, .trclr seq sn],
        exec c s = .next ((s.modTst fun t => { t with acmd := t.acmd.refuse seq 1 }).done 63).setPins)) ∧
    (∀ mask : BitVec 8, ∃ l, exec (.pcclr mask) s = .next (s.modTst fun t => { t with pc := l }).setPins ∧
      ∀ k < 8, tabGet 0 l k = if mask.getLsbD k then 0 else tabGet 0 s.tst.pc k) ∧
    exec .wsBypass s = .next (s.modTst fun t => { t with wir := 0 }).setPins ∧
    (s.glb.coldLow = true → exec .wsExtest s = .next (s.modTst fun t => { t with wir := 1 }).setPins ∧
      exec .wsClamp s = .next (s.modTst fun t => { t with wir := 3 }).setPins ∧
      exec .wsIntest s = .next (s.modTst fun t => { t with wir := if s.glb.fuse.dbgLock then 0 else 2 }).setPins) ∧
    (s.glb.coldLow = false → ∀ c ∈ [Instr.wsExtest, .wsIntest, .wsClamp], exec c s = .next (s.modTst fun t => { t with wir := 0 }).setPins)

/-- R294, R297, R298: in a cycle at most one flit leaves a router by one output, one of the DET virtual channels before the others, and only
over a link that carries flits into a place that is free. A replay on a link or a crossing is counted and is a CORR event of the network island, or of the port
whose crossing it is; one that
succeeds ends the run of failures. A lane test that finds wires its spares can take gives them its spares, a CORR event, and calls for the
last replay; where it finds more, or where the last replay fails, the link fails, is logged where it is a link between routers, and its
source becomes severe. -/
def Obligations.NetworkLinks : Prop :=
  (∀ (s : State) (room : NetMsg → Bool) (a b : NetHead), b ∈ s.netWinners room →
    (a ∈ s.netWinners room → a.meets b = true → a = b) ∧
    (a ∈ s.netHeads → s.mayLeave room a = true → a.meets b = true → a.vc / 2 ≤ b.vc / 2) ∧
    (b.f.out < 4 → s.vcRoom (vcKey b.f.net.val (neighbour b.at' b.f.out) (facing b.f.out) b.vc) = true) ∧
    (4 ≤ b.f.out → room b.f.msg = true)) ∧
  ∀ (s : State) (l : LinkId) (bad : Nat), Quiet (linksInOrder s) → mild s (linkSrc l) → (s.link l).failed = false →
    let fails (t : State) : Prop := (t.link l).failed = true ∧ (t.src (linkSrc l)).severe = true ∧
      ((linkLogs l).isSome = true → t.noc.logged.isSome = true) ∧ t.slices = s.slices ∧ t.ports = s.ports ∧ t.chans = s.chans ∧ t.glb = s.glb
    let still : Prop := (s.src (linkSrc l)).severe = false ∧ s.fld 59 0x104 5 4 = 0 ∧ s.fld 59 0x104 1 0 = 0
    ((s.link l).fails ≠ 2 → ∃ t, exec (.nocLinkReplay l false) s = .next t ∧ (t.link l).fails = 0 ∧
      (t.link l).spares = (s.link l).spares ∧ (t.link l).failed = false ∧ (t.src (linkSrc l)).corr = ((s.src (linkSrc l)).count1 false).corr ∧
      t.slices = s.slices ∧ t.ports = s.ports ∧ t.chans = s.chans ∧ t.glb = s.glb) ∧
    ((s.link l).fails < 2 → ∃ t, exec (.nocLinkReplay l true) s = .next t ∧ (t.link l).fails = (s.link l).fails + 1 ∧
      (t.link l).spares = (s.link l).spares ∧ (t.link l).failed = false ∧ (t.src (linkSrc l)).corr = ((s.src (linkSrc l)).count1 false).corr ∧
      t.slices = s.slices ∧ t.ports = s.ports ∧ t.chans = s.chans ∧ t.glb = s.glb) ∧
    ((s.link l).fails = 3 → still → ∃ t, exec (.nocLinkReplay l true) s = .next t ∧ fails t) ∧
    ((s.link l).fails = 2 → (s.link l).spares + bad ≤ 2 → ∃ t, exec (.laneTestDone l bad) s = .next t ∧
      (t.link l).fails = 3 ∧ (t.link l).spares = (s.link l).spares + bad ∧ (t.link l).failed = false ∧
      (bad = 0 → t.flt = s.flt) ∧ (bad ≠ 0 → (t.src (linkSrc l)).corr = ((s.src (linkSrc l)).count1 false).corr) ∧
      t.slices = s.slices ∧ t.ports = s.ports ∧ t.chans = s.chans ∧ t.glb = s.glb) ∧
    ((s.link l).fails = 2 → 2 < (s.link l).spares + bad → still → ∃ t, exec (.laneTestDone l bad) s = .next t ∧ fails t)

/-- R400, R401, R402, R448: a SLEEP, SLEEPC, OFF or WAKE that nothing forbids completes, and is counted: SLEEP puts domains A and B into RET,
SLEEPC domain C into OFF with the MSC's arrays lost and their INIT bits cleared, OFF, of a slice that serves no set of a home, all domains into OFF; the requests to the power
controller follow. A SLEEP that something forbids, and a SLEEPC of a slice that serves a DET home or whose MSC is not OFF, is refused with its
cause. A WAKE of a slice whose domains are ON, or that is not there, completes at once; of one that has
a domain in RET or OFF it runs until the domains report ready. -/
def Obligations.PowerCommands : Prop :=
  ∀ (s : State) (i : Fin 17) (seq : BitVec 8), Quiet s → (s.slice i).ctl.fn.accepts seq = true → (s.slice i).ctl.fn.held = none →
    (s.sleepCause i = 0 → exec (.sleep i seq) s = .next ((s.modSlice i fun x => { x with ctl := { x.ctl with
        fn := (x.ctl.fn.accept seq).complete, dom := ⟨.ret, .ret, if i.val = 16 then .ret else x.ctl.dom.c⟩,
        autoRet := false, idleSince := none } }).done (slcPage i)).syncPower.setPins) ∧
    (s.sleepCause i ≠ 0 → exec (.sleep i seq) s = .next ((s.modSlice i fun x => { x with ctl := { x.ctl with
        fn := x.ctl.fn.refuse seq (s.sleepCause i) } }).done (slcPage i)).setPins) ∧
    (i.val < 16 → (s.slice i).mem.ctl.mode = .off → (s.homesOf i).any s.detHome = false → ∃ t, exec (.sleepc i seq) s = .next t ∧ (t.slice i).ctl.dom =
        { (s.slice i).ctl.dom with c := .off } ∧ (t.slice i).ctl.fn.res = .completed ∧ (t.slice i).ctl.fn.rseq = seq ∧
        (t.slice i).ar.msc = [] ∧ (∀ k < 10, (t.slice i).ar.init.getLsbD k = ((s.slice i).ar.init.getLsbD k && k != 5 && k != 6)) ∧
        (t.slice i).ar.sf = (s.slice i).ar.sf ∧ (t.slice i).ar.ledger = (s.slice i).ar.ledger ∧ (t.slice i).trk = (s.slice i).trk ∧
        (∀ j, j ≠ i → t.slice j = s.slice j) ∧ t.ports = s.ports ∧ t.chans = s.chans ∧ t.dram = s.dram) ∧
    ((s.homesOf i).any s.detHome = true ∨ (s.slice i).mem.ctl.mode ≠ .off → exec (.sleepc i seq) s = .next ((s.modSlice i fun x =>
      { x with ctl := { x.ctl with fn := x.ctl.fn.refuse seq (if (s.homesOf i).any s.detHome then 0x01 else 0x05) } }).done (slcPage i)).setPins) ∧
    (s.servesSome i = false → (s.slice i).ctl.retained = none → ∃ t, exec (.powerOff i seq) s = .next t ∧
        (t.slice i).ctl.dom = ⟨.off, .off, .off⟩ ∧ (t.slice i).ctl.fn.res = .completed ∧ (t.slice i).ar.init = 0 ∧ (t.slice i).ar.sf = [] ∧
        (t.slice i).ar.remap = (s.slice i).ar.remap ∧ (t.slice i).trk = [] ∧ (∀ j, j ≠ i → t.slice j = s.slice j) ∧
        t.ports = s.ports ∧ t.chans = s.chans ∧ t.dram = s.dram) ∧
    ((s.slice i).asleep = false ∧ (i.val = 16 ∨ (s.slice i).ctl.dom.c ≠ .off) ∨ s.usableSlice i = false → exec (.wake i seq) s = .next ((s.modSlice i fun x => { x with ctl := { x.ctl with
        fn := (x.ctl.fn.accept seq).complete } }).done (slcPage i)).setPins) ∧
    ((s.slice i).asleep = true → s.usableSlice i = true → exec (.wake i seq) s = .next (s.modSlice i fun x => { x with ctl := { x.ctl with
        fn := x.ctl.fn.accept seq, waking := true, fromOff := x.ctl.fromOff || x.ctl.dom.a == .off
        wakeC := i.val ≠ 16 && x.ctl.dom.c == .off } }).syncPower.setPins) ∧
    ((s.slice i).asleep = false → i.val < 16 → (s.slice i).ctl.dom.c = .off → exec (.wake i seq) s = .next (s.modSlice i fun x =>
      { x with ctl := { x.ctl with fn := x.ctl.fn.accept seq, wakeC := true } }).syncPower.setPins)

/-- R18, R301, R402, R403, R448: what the power controller reports is read back, with the time from which it differs from the request, and the
next requests follow; one that has differed for longer than 1,000 tk is an UNCOR event of the slice. A waking slice whose supply is there reports ready: A and B are ON, its WAKE completes, and the
requests held for it join their queues in order. A slice that woke by itself and has been idle for its time returns to RET. -/
def Obligations.PowerReports : Prop :=
  ∀ (s : State) (i : Fin 17) (k : Fin 50) (st : BitVec 2),
    (Quiet s →
      let now : Pwr := if st = 0 then .on else if st = 1 then .ret else .off
      exec (.powerStatChange k st) s =
        .next (({ s with pins := ({ s.pins with pdStat := tabSet .on s.pins.pdStat k.val now } : Pins).noted s.pins k.val s.edge } :
          State).syncPower.setPins)) ∧
    (∀ t0, Quiet s → tabGet none s.pins.pdSince k.val = some t0 → s.reached (t0 + 1000) = true → (s.src (srcSlice (pdSlice k.val))).severe = false → s.fld 59 0x104 7 6 = 0 →
      s.homesOf (pdSlice k.val) ≠ [] → ∃ t, exec (.powerStatMismatch k) s = .next t ∧
        (t.src (srcSlice (pdSlice k.val))).severe = true ∧ t.slices = s.slices ∧ t.ports = s.ports ∧ t.chans = s.chans ∧ t.dram = s.dram) ∧
    (Quiet s → (s.slice i).ctl.waking = true → (∀ d ∈ pdOf i, s.pdOn d = true) → (s.slice i).ctl.fromOff = false → (s.slice i).ctl.wakeC = false →
      (s.slice i).ctl.fn.res = .running → (s.slice i).ctl.fn.held = none → (s.slice i).ctl.resetting = false → (s.slice i).ingress = [] →
      (∀ p r, (s.slice i).wakeHold = [(p, r)] → r.fwd = false → ∃ t, exec (.domainReady i) s = .next t ∧
        (t.slice i).ctl.dom.a = .on ∧ (t.slice i).ctl.dom.b = .on ∧ (t.slice i).ctl.waking = false ∧ (t.slice i).ctl.fn.res = .completed ∧
        (t.slice i).wakeHold = [] ∧ (t.slice i).ing p = ⟨[(r, (s.slice i).arb.sc)], []⟩ ∧ (t.slice i).trk = (s.slice i).trk ∧
        (t.slice i).ar = (s.slice i).ar ∧ (∀ j, j ≠ i → t.slice j = s.slice j) ∧ t.ports = s.ports ∧ t.chans = s.chans ∧ t.dram = s.dram)) ∧
    (∀ t0, Quiet (s.modSlice i fun x => { x with ctl := { x.ctl with autoRet := false } }) → (s.slice i).ctl.autoRet = true →
      (s.slice i).ctl.idleSince = some t0 → s.reached (t0 + BitVec.ofNat 48 (100 * s.fld (slcPage i) 0x10C 15 0)) = true → s.flag (slcPage i) 0x10C 31 = true →
      s.sleepCause i = 0 → (s.slice i).asleep = false → exec (.autoSleep i) s = .next (s.modSlice i fun x => { x with ctl := { x.ctl with
        dom := ⟨.ret, .ret, if i.val = 16 then .ret else x.ctl.dom.c⟩, autoRet := false, idleSince := none } }).syncPower.setPins)

/-- R209, R397, R398, R425, R461: the reset of a slice that serves no home empties it and starts its init programs, with bank 0 of its
microcode active and VALID as at reset; its remap tables and its trace buffer stay; with retained service state, or for a slice that is not there, it is refused with its cause. The reset of a port takes its link
down and fences it and its agents, and runs until the sweeps have ended; its abort before that leaves the port fenced with its link down. -/
def Obligations.ResetOfSliceAndPort : Prop :=
  (∀ (s : State) (p : Fin 24) (seq : BitVec 8), Quiet (s.modPort p fun x => { x with resetting := false }) →
    (s.port p).rst.res = .running → (s.port p).resetting = true → seq ≠ (s.port p).rst.rseq → exec (.portResetAbort p seq) s =
      .next ((s.modPort p fun x => { x with rst := x.rst.abort, resetting := false }).done (prtPage p)).setPins) ∧
  ∀ (s : State) (i : Fin 17) (p : Fin 24) (seq : BitVec 8), Quiet s →
    ((s.slice i).ctl.fn.accepts seq = true →
      (s.homesOf i = [] → s.flt.run = none → s.tst.phase = .none → (s.slice i).ctl.retained = none → s.usableSlice i = true →
        s.glb.ld.st.res ≠ .running → ∃ t, exec (.sliceReset i seq) s = .next t ∧ (t.slice i).ctl.resetting = true ∧
        (t.slice i).ctl.resetWait = false ∧ (t.slice i).ctl.fn = (s.slice i).ctl.fn.accept seq ∧ (t.slice i).ar.init = 0 ∧
        (t.slice i).ar.sf = [] ∧ (t.slice i).ar.ledger = [] ∧ (t.slice i).ar.desc = [] ∧ (t.slice i).ar.remap = (s.slice i).ar.remap ∧
        (t.slice i).trk = [] ∧ (t.slice i).mem.wmb = [] ∧ (t.slice i).mem.ctl.mode = .off ∧ (t.slice i).uc.valid = 3 ∧ (t.slice i).uc.active = false ∧
        (t.slice i).trace = (s.slice i).trace ∧ (∀ j, j ≠ i → t.slice j = s.slice j) ∧ t.ports = s.ports ∧ t.chans = s.chans ∧
        t.dram = s.dram ∧ t.flt = s.flt) ∧
      (s.slcResetCause i ≠ 0 → exec (.sliceReset i seq) s = .next ((s.modSlice i fun x => { x with ctl := { x.ctl with
        fn := x.ctl.fn.refuse seq (s.slcResetCause i) } }).done (slcPage i)).setPins)) ∧
    ((s.port p).rst.accepts seq = true → (∀ q, (s.port q).held = [] ∧ (s.port q).orphans = [] ∧ (s.port q).egress = []) →
      (∀ j, (s.slice j).trk = [] ∧ (s.slice j).recs = [] ∧ (s.slice j).ingress = [] ∧ (s.slice j).ar.desc = [] ∧
        (s.slice j).asleep = false ∧ s.slFenced j = false) → (∀ a ∈ agentsOf p, (s.src (srcAgent a)).fenced = false) → ∃ t,
      exec (.portReset p seq) s = .next t ∧ (t.port p).up = false ∧ (t.port p).resetting = true ∧
        (t.port p).rst = (s.port p).rst.accept seq ∧ t.portFenced p = true ∧ (∀ a ∈ agentsOf p, t.agFenced a = true) ∧
        (∀ j, ∀ a ∈ agentsOf p, a ∈ (t.slice j).sw.ledgerAgents) ∧ (∀ q, q ≠ p → t.port q = s.port q) ∧ t.chans = s.chans ∧
        t.dram = s.dram ∧ t.par = s.par ∧ t.glb = s.glb)

/-- R411, R412, R413, R415, R416, R418, R350: a write of a word of ST fields while they are open, or of LV fields in any state, through a
trusted path: in a word of the network island the fields take the value, but for one that breaks a rule, which keeps its own and is a
configuration fault; a word of another island is posted to it, and its registers stand; while that island is BUSY the write is refused and
counted. A write of ST fields while they are closed changes nothing but WIGN of the page. A write of SQ fields clears them, SEQ apart, where
it names their value, and otherwise changes nothing. -/
def Obligations.RegisterWrites : Prop :=
  ∀ (s : State) (path : CsrPath) (page : Fin 64) (w : BitVec 8) (v : BitVec 32), Quiet s →
    let fs := regFields page.val w.toNat
    let st := ∀ f ∈ fs, f.kind = .st
    (s.trusted path = true → w.toNat < 0xF0 → fs ≠ [] → (∀ f ∈ fs, f.kind ≠ .wo) → s.tstClosed = false → s.flt.run = none →
      s.tst.phase = .none → (s.glb.det = true → (page.val, w.toNat) ≠ (0, 0x5C)) → (page.val = 17 → s.dark 16 = false) →
      (s.stOpen = false → st → s.roNow page.val w.toNat = 0 → (∀ k, islandOf page.val w.toNat = some k → s.islBusy k = false) →
        ∃ t, exec (.csrWrite path page w v) s = .next t ∧
          (t.reg page.val 0xFD).getLsbD 14 = true ∧ (∀ n k, k < 256 → (n, k) ≠ (page.val, 0xFD) → t.reg n k = s.reg n k) ∧
          t.csr.resp = some (0, false) ∧ t.csr.posted = s.csr.posted ∧ t.slices = s.slices ∧ t.ports = s.ports ∧ t.chans = s.chans ∧
          t.dram = s.dram ∧ t.flt = s.flt ∧ t.par = s.par ∧ t.glb = s.glb) ∧
      (islandOf page.val w.toNat = none → (∀ f ∈ fs, f.kind = .sq) → sqSelected page.val w.toNat = false →
        let old := s.reg page.val w.toNat
        ∃ t, exec (.csrWrite path page w v) s = .next t ∧
          t.reg page.val w.toNat = (if v &&& sqMask page.val w.toNat = old &&& sqMask page.val w.toNat then
            old &&& ~~~(sqMask page.val w.toNat &&& 0x00FFFFFF) else old) ∧
          (∀ n k, k < 256 → (n, k) ≠ (page.val, w.toNat) → t.reg n k = s.reg n k) ∧ t.csr.resp = some (0, false) ∧
          t.slices = s.slices ∧ t.ports = s.ports ∧ t.chans = s.chans ∧ t.dram = s.dram ∧ t.flt = s.flt ∧ t.par = s.par ∧ t.glb = s.glb) ∧
      let new := s.newFields page.val w.toNat v 0xFFFFFFFF
      (islandOf page.val w.toNat = none → (∀ f ∈ fs, f.kind ≠ .sq) → (s.stOpen = true ∨ ¬ st) → s.flt.log.length < 256 → ∃ t, exec (.csrWrite path page w v) s = .next t ∧
        t.reg page.val w.toNat = new.1 ∧ t.csr.resp = some (0, false) ∧ t.csr.posted = s.csr.posted ∧
        (new.2 = false → t.flt = s.flt ∧ ∀ n k, k < 256 → (n, k) ≠ (page.val, w.toNat) → t.reg n k = s.reg n k) ∧
        (new.2 = true → t.flt.log = s.flt.log ++ [⟨0x0C, 57, 63, 0, 0, s.now⟩] ∧ (t.reg page.val 0xFD).getLsbD 15 = true) ∧
        t.slices = s.slices ∧ t.chans = s.chans ∧ t.dram = s.dram ∧ t.par = s.par ∧
        (∀ p, (t.port p).held = (s.port p).held ∧ (t.port p).egress = (s.port p).egress)) ∧
      (∀ k, islandOf page.val w.toNat = some k → (s.stOpen = true ∨ ¬ st) → s.dark k = false → (∀ i, islSlice k = some i → (s.slice i).ctl.dom.a = .on) →
        (s.islBusy k = false → ∃ t, exec (.csrWrite path page w v) s = .next t ∧
          t.csr.posted = s.csr.posted ++ [⟨k, page.val, w.toNat, v, none, false, false⟩] ∧ t.csr.resp = some (0, false) ∧
          t.regs = s.regs ∧ t.slices = s.slices ∧ t.ports = s.ports ∧ t.chans = s.chans ∧ t.dram = s.dram ∧ t.flt = s.flt ∧
          t.par = s.par) ∧
        (s.islBusy k = true → exec (.csrWrite path page w v) s =
          .next ((s.bump 0 0x014 15 8).modCsr fun c => { c with resp := some (0, true) }).setPins)))

/-- R415, R417, R421, R422, R423: the first posted write of an island takes effect there. A pass over a page stores its CRC; it lets a posted
write that had taken effect before it began go, so that a read that waited for it is served, and marks one that has; where the page is covered and the CRC differs from CRCREF its source
becomes severe and the page says so. CRCV that has stayed 0 for a second is a contract event. A write of CRCREF sets it and CRCV, and the pass
under way is not compared. -/
def Obligations.PostedWritesAndConfigurationCrc : Prop :=
  ∀ (s : State) (k : Fin 57) (n : Fin 64) (v : BitVec 32), Quiet s →
    (∀ x l, s.csr.posted = x :: l → x.isl = k.val → x.applied = false → x.bit = none → islandOf x.page x.word = some k.val → x.word < 0xF0 →
      (∀ i, islSlice k.val = some i → (s.slice i).ctl.dom.a = .on) → (∀ f ∈ regFields x.page x.word, f.kind ≠ .sq ∧ f.kind ≠ .wo) →
      ∃ t, exec (.postedWriteApply k) s = .next t ∧ t.reg x.page x.word = (s.newFields x.page x.word x.v 0xFFFFFFFF).1 ∧
        t.csr.posted.head? = some { x with applied := true } ∧ t.csr.posted.length = s.csr.posted.length ∧ t.chans = s.chans ∧
        t.dram = s.dram ∧ t.par = s.par ∧ (∀ j, (t.slice j).trk = (s.slice j).trk)) ∧
    (∀ x path off, s.pageAwake n.val = true → tabGet false s.csr.crcWait n.val = true ∨ s.crcv n.val = false ∨ s.pageCrc n.val = s.reg n.val 0xFF →
      s.csr.posted = [x] → x.page = n.val → x.passSeen = true → s.csr.reads = [⟨.direct path, off⟩] → ∃ t v,
      exec (.crcPassEnd n) s = .next t ∧ t.csr.posted = [] ∧ t.csr.reads = [] ∧ t.csr.resp = some (v, false) ∧ t.slices = s.slices ∧
        t.ports = s.ports ∧ t.chans = s.chans ∧ t.dram = s.dram) ∧
    (s.pageAwake n.val = true → s.csr.reads = [] →
      (tabGet false s.csr.crcWait n.val = true ∨ s.crcv n.val = false ∨ s.pageCrc n.val = s.reg n.val 0xFF → ∃ c,
        exec (.crcPassEnd n) s = .next (s.modCsr fun _ => c).setPins ∧ tabGet 0 c.rcrc n.val = s.pageCrc n.val ∧
        (∀ m, m ≠ n.val → tabGet 0 c.rcrc m = tabGet 0 s.csr.rcrc m) ∧ c.crcv = s.csr.crcv ∧ tabGet false c.crcWait n.val = false ∧
        (s.csr.posted = [] → c.posted = []) ∧
        (∀ x, s.csr.posted = [x] → c.posted = if x.page = n.val then (if x.passSeen then [] else [{ x with passSeen := x.applied }]) else [x])) ∧
      (tabGet false s.csr.crcWait n.val = false → s.crcv n.val = true → s.pageCrc n.val ≠ s.reg n.val 0xFF → 17 ≤ crcSource n.val →
        s.fld 59 0x104 5 4 = 0 → s.fld 59 0x104 3 2 = 0 → (s.src (crcSource n.val)).severe = false → ∃ t, exec (.crcPassEnd n) s = .next t ∧
        (t.src (crcSource n.val)).severe = true ∧ tabGet 0 t.csr.rcrc n.val = s.pageCrc n.val ∧ (t.reg n.val 0xFD).getLsbD 16 = true ∧
        t.slices = s.slices ∧ t.ports = s.ports ∧ t.chans = s.chans ∧ t.dram = s.dram)) ∧
    (s.glb.stt = .enabled → s.crcv n.val = false → s.reached (tabGet 0 s.csr.staleAt n.val + 100000000) = true → ∃ l,
      exec (.crcvStaleSecond n) s = .next ((s.modCsr fun c => { c with staleAt := l }).log 0x0B (crcSource n.val)).setPins ∧
      tabGet 0 l n.val = s.edge ∧ ∀ m, m ≠ n.val → tabGet 0 l m = tabGet 0 s.csr.staleAt m) ∧
    (∃ c, exec (.crcrefWrite n v) s = .next ((s.setReg n.val 0xFF v).modCsr fun _ => c).setPins ∧ tabGet false c.crcv n.val = true ∧
      tabGet false c.crcWait n.val = true ∧ (∀ m, m ≠ n.val → tabGet false c.crcv m = tabGet false s.csr.crcv m) ∧
      c.posted = s.csr.posted ∧ c.rcrc = s.csr.rcrc)

/-- R414, R419, R420, R453, R409: a read of a mailbox's trigger returns its word and keeps all of the mailbox's words for the path; a bit's own
word reads as the bit; a word with SQ, MB or WO fields is not reached that way, which is counted, and the bit of another island is posted
to it as a write of that bit; a word of the network island takes it at once. A read of an island that is BUSY waits. The CSR instrument reads and writes a word as the maintenance path does, and shows that it has ended. -/
def Obligations.OtherRegisterAccesses : Prop :=
  ∀ (s : State) (path : CsrPath) (page : Fin 64) (w : BitVec 8) (b : Fin 32), Quiet s → s.tstClosed = false →
    (s.trusted path = true → s.csrHolds (pageOff page.val w.toNat) = true → exec (.mailboxTriggerRead path page w) s =
      .next (s.modCsr fun c => { c with reads := c.reads ++ [⟨.direct path, pageOff page.val w.toNat⟩] }).setPins) ∧
    ((∀ k, islandOf page.val w.toNat = some k → s.islBusy k = false) →
    (s.trusted path = true →
      (∀ k, mailboxOf page.val w.toNat = some (w.toNat, k) → ∃ c, exec (.mailboxTriggerRead path page w) s =
          .next (s.modCsr fun _ => c).setPins ∧ c.resp = some (s.wordNow page.val w.toNat, false) ∧
        ((s.modCsr fun _ => c).snap path (256 * page.val + w.toNat) = some ((List.range k).map fun j => s.wordNow page.val (w.toNat + j))) ∧
        c.posted = s.csr.posted ∧ c.rcrc = s.csr.rcrc ∧ c.crcv = s.csr.crcv) ∧
      (regFields page.val w.toNat ≠ [] →
        (aliasBarred page.val w.toNat = false → exec (.aliasAccess path page w b none) s = .next (s.modCsr fun c =>
          { c with resp := some (if (s.wordNow page.val w.toNat).getLsbD b.val then 1 else 0, false) }).setPins) ∧
        (∀ wr, aliasBarred page.val w.toNat = true → exec (.aliasAccess path page w b wr) s = .next ((s.bump 0 0x014 7 0).modCsr fun c =>
          { c with resp := some (0, false) }).setPins) ∧
        (∀ x, aliasBarred page.val w.toNat = false → islandOf page.val w.toNat = none → w.toNat < 0xF0 → s.stOpen = true →
          s.flt.run = none → s.tst.phase = .none → ∃ t, exec (.aliasAccess path page w b (some x)) s = .next t ∧
          t.csr.resp = some (0, false) ∧ t.reg page.val w.toNat =
            (s.newFields page.val w.toNat (if x then 0xFFFFFFFF else 0) (BitVec.ofNat 32 (2 ^ b.val))).1 ∧ t.chans = s.chans ∧
          t.dram = s.dram) ∧
        (∀ x k, aliasBarred page.val w.toNat = false → islandOf page.val w.toNat = some k → s.dark k = false → s.stOpen = true →
          s.flt.run = none → s.tst.phase = .none → (∀ i, islSlice k = some i → (s.slice i).ctl.dom.a = .on) → ∃ t,
          exec (.aliasAccess path page w b (some x)) s = .next t ∧ t.csr.resp = some (0, false) ∧ t.csr.posted =
            s.csr.posted ++ [⟨k, page.val, w.toNat, if x then 0xFFFFFFFF else 0, some b, false, false⟩] ∧ t.regs = s.regs ∧
          t.slices = s.slices ∧ t.ports = s.ports ∧ t.chans = s.chans ∧ t.dram = s.dram ∧ t.flt = s.flt))) ∧
    (∀ dr : BitVec 60, dr.extractLsb' 38 20 = BitVec.ofNat 20 (1024 * page.val + w.toNat) →
      (dr.getLsbD 59 = false → exec (.csrInstrumentUpdate dr) s = .next s.setPins) ∧
      (s.tst.insStat ≠ 1 → dr.getLsbD 59 = true → dr.getLsbD 58 = false → mailboxOf page.val w.toNat = none → exec (.csrInstrumentUpdate dr) s =
        .next (s.modTst fun t => { t with insData := s.wordNow page.val w.toNat, insStat := 2 }).setPins) ∧
      (∀ k, s.tst.insStat ≠ 1 → dr.getLsbD 59 = true → dr.getLsbD 58 = true → islandOf page.val w.toNat = some k → s.dark k = false →
        regFields page.val w.toNat ≠ [] → s.stOpen = true → s.flt.run = none → s.tst.phase = .none →
        (∀ i, islSlice k = some i → (s.slice i).ctl.dom.a = .on) → ∃ t, exec (.csrInstrumentUpdate dr) s = .next t ∧ t.tst.insStat = 2 ∧
        t.csr.posted = s.csr.posted ++ [⟨k, page.val, w.toNat, dr.extractLsb' 6 32, none, false, false⟩] ∧ t.regs = s.regs ∧
        t.slices = s.slices ∧ t.ports = s.ports ∧ t.chans = s.chans ∧ t.dram = s.dram ∧ t.flt = s.flt)))

/-- R454, R455, R458, R459, R460, R379: a LIVETEST of a slice that serves no home enters its TEST phase at once, the slice under test and its
domains wanted; of one that serves a home it begins to move the home to the free slice named. The end of BIST gives each failing word a spare,
notes the arrays without one, and the arrays are filled again. An abort that finds no LIVETEST reads NOTHING; one in the MOVE phase while the
destination is still prepared rolls the move back. -/
def Obligations.LiveTest : Prop :=
  ∀ (s : State) (seq : BitVec 8) (i d : Fin 17) (back : Bool), s.tstClosed = false →
    (Quiet s → s.tst.lt.accepts seq = true → s.flt.run = none → s.tst.phase = .none → s.slFenced i = false →
      (s.src (srcSlice i)).severe = false → (s.slice i).ctl.retained = none → (s.slice i).ctl.resetting = false → s.usableSlice i = true →
      (s.homesOf i = [] → (s.glb.ld.st.res = .running → s.glb.ld.sel.getLsbD i.val = false) → ∃ t, exec (.livetestStart seq (BitVec.ofNat 5 i.val) (BitVec.ofNat 5 d.val) back) s = .next t ∧
        t.tst.phase = .test ∧ t.tst.lt = s.tst.lt.accept seq ∧ (t.slice i).ctl.testing = true ∧ (t.slice i).trk = (s.slice i).trk ∧
        (∀ j, j ≠ i → t.slice j = s.slice j) ∧ t.flt = s.flt ∧ t.ports = s.ports ∧ t.chans = s.chans ∧ t.dram = s.dram) ∧
      (∀ h, s.homesOf i = [h] → s.degraded h = false → s.isFree d = true → i ≠ d → (s.slice d).asleep = true → s.glb.ld.st.res = .nothing →
        s.flt.log.length < 256 → ∃ t m, exec (.livetestStart seq (BitVec.ofNat 5 i.val) (BitVec.ofNat 5 d.val) back) s = .next t ∧
        t.tst.phase = .move ∧ t.tst.lt = s.tst.lt.accept seq ∧ t.tst.ltHome = some h ∧ t.tst.ltBack = back ∧ t.flt.run = some m ∧
        m.kind = .ltMove ∧ m.home = h ∧ m.src = i ∧ m.dst = d ∧ m.phase = .prepare ∧ (t.slice d).ctl.waking = true ∧ t.chans = s.chans ∧
        t.dram = s.dram ∧ t.glb = s.glb)) ∧
    (Quiet s → (List.finRange 17).find? s.bistRuns = some i → ∀ fails : List (Fin 10 × Nat), ∃ t, exec (.bistDone fails) s = .next t ∧
      t.tst.failArr = ((s.slice i).ar.bist fails).failArr ∧ t.tst.pass = (t.tst.failArr == 0) ∧ (t.slice i).ar.init = 0 ∧
      (t.slice i).ar.remap = ((s.slice i).ar.bist fails).ar.remap ∧ (t.slice i).ctl.testing = true ∧
      (fails = [] → t.tst.failArr = 0 ∧ (t.slice i).ar.remap = (s.slice i).ar.remap ∧ t.tst.repaired = 0) ∧
      (∀ a n, fails = [(a, n)] → n < arrayWords a → (∀ k < 16, (s.slice i).ar.remapAt a k = ⟨false, false, 0⟩) →
        (t.slice i).ar.remapAt a 0 = ⟨true, false, BitVec.ofNat 18 n⟩ ∧ t.tst.repaired = 1 ∧ t.tst.failArr = 0) ∧
      (∀ j, j ≠ i → t.slice j = s.slice j) ∧ t.ports = s.ports ∧ t.chans = s.chans ∧ t.dram = s.dram ∧ t.glb = s.glb) ∧
    (Quiet s → s.tst.lt.res ≠ .running → seq ≠ s.tst.lt.rseq → exec (.livetestAbort seq) s = .next (s.modTst fun t =>
      { t with lt := { t.lt with res := .nothing, rseq := seq } }).setPins) ∧
    (∀ m : Move, Quiet (withoutMove s) → s.glb.admHold = 0 → s.flt.run = some m → m.kind = .ltMove → m.phase = .prepare → m.cmd = false → m.src = i → m.dst = d → i ≠ d →
      s.tst.phase = .move → s.tst.lt.res = .running → seq ≠ s.tst.lt.rseq → s.tst.lt.held = none → s.tst.ltAborted = false →
      s.glb.route.wm = 0 → (∀ j, (s.slice j).trk = [] ∧ (s.slice j).recs = [] ∧ (s.slice j).ingress = [] ∧ (s.slice j).wakeHold = []) →
      memIdle s → ∃ t, exec (.livetestAbort seq) s = .next t ∧ t.flt.run = none ∧ t.tst.phase = .none ∧ t.tst.lt.res = .aborted ∧
      t.tst.lt.rseq = s.tst.lt.rseq ∧ t.glb.route.active = false ∧ (∀ h, t.serving h = s.serving h) ∧ t.chans = s.chans ∧ t.dram = s.dram)

/-- R407: a CSR request from a port whose bit of the fuse bundle's mask is 0 reads and writes nothing, is completed FAILED, is counted in
GLB_ACCERR.UNTRUST and is logged as a contract event of the port: as a register access, and as a request of any opcode to the aperture, whose
credits go back. -/
def Obligations.UntrustedPortIsRefused : Prop :=
  ∀ (s : State) (p : Fin 24), Quiet s → s.glb.fuse.trust.getLsbD p.val = false →
    (∀ (page : Fin 64) (w : BitVec 8) (v : BitVec 32) (b : Fin 32) (wr : Option Bool),
      ∀ c ∈ [Instr.csrWrite (.port p) page w v, .mailboxTriggerRead (.port p) page w, .aliasAccess (.port p) page w b wr],
        exec c s = .next (((s.bump 0 0x014 23 16).log 0x0B (srcPort p)).modCsr fun c => { c with resp := some (0, true) }).setPins) ∧
    (∀ (op : ReqOp) (f : ReqArgs) (o : Option Orphan), reqIsDrain op = false → FlitPasses s p f.src → s.malformed op f = none →
      (if needsCompanion op f.arg then (s.port p).companionOf f.src f.atag = o ∧ o ≠ none else o = none) →
      f.gen = (s.part f.part).gen → (s.part f.part).st = .run → s.inAperture f.pa = true →
      ((s.port p).rIss f.part).toNat ≤ s.rLimit p f.part → ((s.port p).dIss f.part).toNat ≤ s.dLimit p f.part →
      s.flt.log.length < 256 → ∃ t, exec (reqCommand op p f) s = .next t ∧
        (t.port p).link.rspo = (s.port p).link.rspo.push
          (.rsp .comp ⟨63, f.src, f.part, f.gen, f.atag, Status.failed.code, 0, f.pa, 0⟩) ∧
        (t.port p).cred.reqDue = (s.port p).cred.reqDue ++ [(f.part, 1)] ∧
        (t.port p).cred.datDue = (s.port p).cred.datDue ++ (if o = none then [] else [(f.part, 1)]) ∧
        t.regs = (s.bump 0 0x014 23 16).regs ∧
        t.flt.log = s.flt.log ++ [⟨0x0B, BitVec.ofNat 7 (srcPort p), 63, f.part, f.pa, s.now⟩] ∧ t.csr = s.csr ∧ t.slices = s.slices ∧
        t.chans = s.chans ∧ t.dram = s.dram ∧ t.par = s.par ∧ t.glb = s.glb ∧ ∀ q, q ≠ p → t.port q = s.port q)
end

