-- ==== Sys2Proof/Laws/PerInstr.lean ====
section
/-! SUPPORT. For each command, which operands make it well-formed: only nine rows name something that their operand types leave
open, and of those a port's agent is told by the map of agents to ports that the machine uses. -/

namespace Sys2Proof.Laws

/-- The operands of a command name what exists. -/
def Wf.Named : Instr → Prop
  | .forwardedDat _ opc _ => opc.toNat < 5
  | .corrEvent src => src.toNat ≤ 57 ∨ (64 ≤ src.toNat ∧ src.toNat ≤ 126)
  | .uncorEvent src => src.toNat ≤ 57 ∨ (64 ≤ src.toNat ∧ src.toNat ≤ 126)
  | .snoopDeadlineExpiry p a => Machine.carries p a = true
  | .compackAllowanceExpiry p a => Machine.carries p a = true
  | .nocLinkReplay l _ => linkExists l = true
  | .laneTestDone l _ => linkExists l = true
  | .bistDone fs => ∀ f ∈ fs, f.2 < arrayWords f.1 + 16
  | .powerStatChange _ st => st ≠ 3
  | _ => True

/-- A command is well-formed exactly if its operands name what exists. -/
def Wf.Statement (i : Instr) : Prop := i.wf = true ↔ Wf.Named i

theorem spanHas_eq : ∀ (p : Fin 24) (a : Agent), spanHas p a = Machine.carries p a := by decide +kernel

theorem namesSource_iff (n : Nat) : namesSource n = true ↔ n ≤ 57 ∨ (64 ≤ n ∧ n ≤ 126) := by simp [namesSource]

theorem Wf.wf_iff (i : Instr) (c : Bool) (r : IllFormed) (h : i.illFormed = if c then none else some r) : i.wf = true ↔ c = true := by
  cases c <;> simp_all [Instr.wf]

theorem Wf.always (i : Instr) (h : i.illFormed = none) : i.wf = true ↔ True := by simp [Instr.wf, h]

theorem Wf.rdshd (p : Fin 24) (f : ReqArgs) : Wf.Statement (.rdshd p f) := Wf.always _ rfl
theorem Wf.rdown (p : Fin 24) (f : ReqArgs) : Wf.Statement (.rdown p f) := Wf.always _ rfl
theorem Wf.rdcur (p : Fin 24) (f : ReqArgs) : Wf.Statement (.rdcur p f) := Wf.always _ rfl
theorem Wf.upgr (p : Fin 24) (f : ReqArgs) : Wf.Statement (.upgr p f) := Wf.always _ rfl
theorem Wf.wrfull (p : Fin 24) (f : ReqArgs) : Wf.Statement (.wrfull p f) := Wf.always _ rfl
theorem Wf.wrpart (p : Fin 24) (f : ReqArgs) : Wf.Statement (.wrpart p f) := Wf.always _ rfl
theorem Wf.evclean (p : Fin 24) (f : ReqArgs) : Wf.Statement (.evclean p f) := Wf.always _ rfl
theorem Wf.evdirty (p : Fin 24) (f : ReqArgs) : Wf.Statement (.evdirty p f) := Wf.always _ rfl
theorem Wf.atom (p : Fin 24) (f : ReqArgs) : Wf.Statement (.atom p f) := Wf.always _ rfl
theorem Wf.lockacq (p : Fin 24) (f : ReqArgs) : Wf.Statement (.lockacq p f) := Wf.always _ rfl
theorem Wf.lockrel (p : Fin 24) (f : ReqArgs) : Wf.Statement (.lockrel p f) := Wf.always _ rfl
theorem Wf.qenq (p : Fin 24) (f : ReqArgs) : Wf.Statement (.qenq p f) := Wf.always _ rfl
theorem Wf.qdeq (p : Fin 24) (f : ReqArgs) : Wf.Statement (.qdeq p f) := Wf.always _ rfl
theorem Wf.qwatch (p : Fin 24) (f : ReqArgs) : Wf.Statement (.qwatch p f) := Wf.always _ rfl
theorem Wf.resv (p : Fin 24) (f : ReqArgs) : Wf.Statement (.resv p f) := Wf.always _ rfl
theorem Wf.condwr (p : Fin 24) (f : ReqArgs) : Wf.Statement (.condwr p f) := Wf.always _ rfl
theorem Wf.draino (p : Fin 24) (f : ReqArgs) : Wf.Statement (.draino p f) := Wf.always _ rfl
theorem Wf.draine (p : Fin 24) (f : ReqArgs) : Wf.Statement (.draine p f) := Wf.always _ rfl
theorem Wf.hint (p : Fin 24) (f : ReqArgs) : Wf.Statement (.hint p f) := Wf.always _ rfl
theorem Wf.regulatorRefill (p : Fin 24) (q : PartId) (c : Bool) : Wf.Statement (.regulatorRefill p q c) := Wf.always _ rfl
theorem Wf.arbiterGrant (s : Fin 17) : Wf.Statement (.arbiterGrant s) := Wf.always _ rfl
theorem Wf.reentry (s : Fin 17) : Wf.Statement (.reentry s) := Wf.always _ rfl
theorem Wf.activation (s : Fin 17) (lane : Fin 4) (mism : Bool) : Wf.Statement (.activation s lane mism) := Wf.always _ rfl
theorem Wf.laneRetry (s : Fin 17) (lane : Fin 4) (mism : Bool) : Wf.Statement (.laneRetry s lane mism) := Wf.always _ rfl
theorem Wf.serviceCommit (s : Fin 17) : Wf.Statement (.serviceCommit s) := Wf.always _ rfl
theorem Wf.memEvent (s : Fin 17) : Wf.Statement (.memEvent s) := Wf.always _ rfl
theorem Wf.rspi (p : Fin 24) (f : RspArgs) : Wf.Statement (.rspi p f) := Wf.always _ rfl
theorem Wf.rsps (p : Fin 24) (f : RspArgs) : Wf.Statement (.rsps p f) := Wf.always _ rfl
theorem Wf.rspfwds (p : Fin 24) (f : RspArgs) : Wf.Statement (.rspfwds p f) := Wf.always _ rfl
theorem Wf.rspfwdi (p : Fin 24) (f : RspArgs) : Wf.Statement (.rspfwdi p f) := Wf.always _ rfl
theorem Wf.rspevpend (p : Fin 24) (f : RspArgs) : Wf.Statement (.rspevpend p f) := Wf.always _ rfl
theorem Wf.compack (p : Fin 24) (f : RspArgs) : Wf.Statement (.compack p f) := Wf.always _ rfl
theorem Wf.datdirty (p : Fin 24) (f : DatArgs) : Wf.Statement (.datdirty p f) := Wf.always _ rfl
theorem Wf.datwr (p : Fin 24) (f : DatArgs) : Wf.Statement (.datwr p f) := Wf.always _ rfl
theorem Wf.forwardedDat (p : Fin 24) (opc : BitVec 5) (f : DatArgs) : Wf.Statement (.forwardedDat p opc f) := by
  by_cases h : 4 < opc.toNat <;> simp [Wf.Statement, Wf.Named, Instr.wf, Instr.illFormed, h] <;> omega
theorem Wf.snoopCredit (p : Fin 24) : Wf.Statement (.snoopCredit p) := Wf.always _ rfl
theorem Wf.snoopEgressSend (p : Fin 24) : Wf.Statement (.snoopEgressSend p) := Wf.always _ rfl
theorem Wf.creditReturnPulse (p : Fin 24) : Wf.Statement (.creditReturnPulse p) := Wf.always _ rfl
theorem Wf.drainReport (s : Fin 17) : Wf.Statement (.drainReport s) := Wf.always _ rfl
theorem Wf.snoopDeadlineExpiry (p : Fin 24) (a : Agent) : Wf.Statement (.snoopDeadlineExpiry p a) :=
  (Wf.wf_iff _ (spanHas p a) _ rfl).trans (by rw [spanHas_eq]; rfl)
theorem Wf.snoopExpiryReport (s : Fin 17) : Wf.Statement (.snoopExpiryReport s) := Wf.always _ rfl
theorem Wf.compackAllowanceExpiry (p : Fin 24) (a : Agent) : Wf.Statement (.compackAllowanceExpiry p a) :=
  (Wf.wf_iff _ (spanHas p a) _ rfl).trans (by rw [spanHas_eq]; rfl)
theorem Wf.tmoExpiry (s : Fin 17) (tid : BitVec 13) : Wf.Statement (.tmoExpiry s tid) := Wf.always _ rfl
theorem Wf.queuedDeadline (s : Fin 17) (tid : BitVec 13) : Wf.Statement (.queuedDeadline s tid) := Wf.always _ rfl
theorem Wf.ingressDeadline (s : Fin 17) (r : Fin 26) : Wf.Statement (.ingressDeadline s r) := Wf.always _ rfl
theorem Wf.trackerWatchdog (s : Fin 17) (tid : BitVec 13) : Wf.Statement (.trackerWatchdog s tid) := Wf.always _ rfl
theorem Wf.companionTimeout (p : Fin 24) (src : Agent) (atag : ATag) : Wf.Statement (.companionTimeout p src atag) := Wf.always _ rfl
theorem Wf.orphanDatwrTimeout (p : Fin 24) (src : Agent) (atag : ATag) : Wf.Statement (.orphanDatwrTimeout p src atag) := Wf.always _ rfl
theorem Wf.staleRecordDeadline (s : Fin 17) (a : Agent) (atag : ATag) : Wf.Statement (.staleRecordDeadline s a atag) := Wf.always _ rfl
theorem Wf.reservationLifeExpiry (s : Fin 17) (a : Agent) : Wf.Statement (.reservationLifeExpiry s a) := Wf.always _ rfl
theorem Wf.wmbAgeExpiry (s : Fin 17) : Wf.Statement (.wmbAgeExpiry s) := Wf.always _ rfl
theorem Wf.wmbIssue (s : Fin 17) : Wf.Statement (.wmbIssue s) := Wf.always _ rfl
theorem Wf.wmbEntryAccepted (s : Fin 17) : Wf.Statement (.wmbEntryAccepted s) := Wf.always _ rfl
theorem Wf.dramCommandIssue (n : Fin 16) : Wf.Statement (.dramCommandIssue n) := Wf.always _ rfl
theorem Wf.dramReadComplete (n : Fin 16) (err : BitVec 640) : Wf.Statement (.dramReadComplete n err) := Wf.always _ rfl
theorem Wf.refreshDue (n : Fin 16) (r : Fin 4) : Wf.Statement (.refreshDue n r) := Wf.always _ rfl
theorem Wf.refreshIdleMakeup (n : Fin 16) (r : Fin 4) : Wf.Statement (.refreshIdleMakeup n r) := Wf.always _ rfl
theorem Wf.mr4Poll (n : Fin 16) (hot : BitVec 4) : Wf.Statement (.mr4Poll n hot) := Wf.always _ rfl
theorem Wf.alert (n : Fin 16) (r : Fin 4) (ok : Bool) : Wf.Statement (.alert n r ok) := Wf.always _ rfl
theorem Wf.panicLevelChange (p : Fin 24) (lvl : BitVec 4) : Wf.Statement (.panicLevelChange p lvl) := Wf.always _ rfl
theorem Wf.resyncCopyLine (n : Fin 16) : Wf.Statement (.resyncCopyLine n) := Wf.always _ rfl
theorem Wf.mscDrainEnd (s : Fin 17) : Wf.Statement (.mscDrainEnd s) := Wf.always _ rfl
theorem Wf.mscInitDone (s : Fin 17) : Wf.Statement (.mscInitDone s) := Wf.always _ rfl
theorem Wf.corrEvent (src : BitVec 7) : Wf.Statement (.corrEvent src) := (Wf.wf_iff _ (namesSource src.toNat) _ rfl).trans (namesSource_iff _)
theorem Wf.uncorEvent (src : BitVec 7) : Wf.Statement (.uncorEvent src) := (Wf.wf_iff _ (namesSource src.toNat) _ rfl).trans (namesSource_iff _)
theorem Wf.evacSetStep : Wf.Statement .evacSetStep := Wf.always _ rfl
theorem Wf.evacFinalStep : Wf.Statement .evacFinalStep := Wf.always _ rfl
theorem Wf.takeoverCopyDone : Wf.Statement .takeoverCopyDone := Wf.always _ rfl
theorem Wf.returnComplete : Wf.Statement .returnComplete := Wf.always _ rfl
theorem Wf.broadcastSetComplete : Wf.Statement .broadcastSetComplete := Wf.always _ rfl
theorem Wf.freezeDrainComplete (q : PartId) : Wf.Statement (.freezeDrainComplete q) := Wf.always _ rfl
theorem Wf.partitionResetDrainComplete (q : PartId) : Wf.Statement (.partitionResetDrainComplete q) := Wf.always _ rfl
theorem Wf.disableDrainComplete : Wf.Statement .disableDrainComplete := Wf.always _ rfl
theorem Wf.heartbeatTick : Wf.Statement .heartbeatTick := Wf.always _ rfl
theorem Wf.crcPassEnd (page : Fin 64) : Wf.Statement (.crcPassEnd page) := Wf.always _ rfl
theorem Wf.crcvStaleSecond (page : Fin 64) : Wf.Statement (.crcvStaleSecond page) := Wf.always _ rfl
theorem Wf.postedWriteApply (isl : Fin 57) : Wf.Statement (.postedWriteApply isl) := Wf.always _ rfl
theorem Wf.powerStatChange (k : Fin 50) (st : BitVec 2) : Wf.Statement (.powerStatChange k st) := by
  by_cases h : st = 3 <;> simp [Wf.Statement, Wf.Named, Instr.wf, Instr.illFormed, h]
theorem Wf.powerStatMismatch (k : Fin 50) : Wf.Statement (.powerStatMismatch k) := Wf.always _ rfl
theorem Wf.domainReady (s : Fin 17) : Wf.Statement (.domainReady s) := Wf.always _ rfl
theorem Wf.autoSleep (s : Fin 17) : Wf.Statement (.autoSleep s) := Wf.always _ rfl
theorem Wf.nocLinkReplay (l : LinkId) (again : Bool) : Wf.Statement (.nocLinkReplay l again) := Wf.wf_iff _ (linkExists l) _ rfl
theorem Wf.laneTestDone (l : LinkId) (bad : Nat) : Wf.Statement (.laneTestDone l bad) := Wf.wf_iff _ (linkExists l) _ rfl
theorem Wf.portLinkReplayRequest (p : Fin 24) (c : PortChan) (f : LinkFlit) : Wf.Statement (.portLinkReplayRequest p c f) := Wf.always _ rfl
theorem Wf.portLinkAck (p : Fin 24) (c : PortChan) (seq : BitVec 5) : Wf.Statement (.portLinkAck p c seq) := Wf.always _ rfl
theorem Wf.fuseWordAck (w : BitVec 32) : Wf.Statement (.fuseWordAck w) := Wf.always _ rfl
theorem Wf.fuseAckTimeout : Wf.Statement .fuseAckTimeout := Wf.always _ rfl
theorem Wf.initProgramDone (s : Fin 17) (arr : Fin 10) : Wf.Statement (.initProgramDone s arr) := Wf.always _ rfl
theorem Wf.trainingDone (n : Fin 16) : Wf.Statement (.trainingDone n) := Wf.always _ rfl
theorem Wf.delayDone (n : Fin 16) (pass : Bool) : Wf.Statement (.delayDone n pass) := Wf.always _ rfl
theorem Wf.delayDoneLate (n : Fin 16) : Wf.Statement (.delayDoneLate n) := Wf.always _ rfl
theorem Wf.grammarCheckDone (s : Fin 17) (bank : Bool) : Wf.Statement (.grammarCheckDone s bank) := Wf.always _ rfl
theorem Wf.loadImageReadDone : Wf.Statement .loadImageReadDone := Wf.always _ rfl
theorem Wf.bistDone (fails : List (Fin 10 × Nat)) : Wf.Statement (.bistDone fails) :=
  (Wf.wf_iff _ (fails.all fun f => decide (f.2 < arrayWords f.1 + 16)) _ rfl).trans (by simp [Wf.Named])
theorem Wf.warmEntryComplete : Wf.Statement .warmEntryComplete := Wf.always _ rfl
theorem Wf.coldResetAssert : Wf.Statement .coldResetAssert := Wf.always _ rfl
theorem Wf.coldResetRelease : Wf.Statement .coldResetRelease := Wf.always _ rfl
theorem Wf.warmResetAssert : Wf.Statement .warmResetAssert := Wf.always _ rfl
theorem Wf.warmResetRelease : Wf.Statement .warmResetRelease := Wf.always _ rfl
theorem Wf.commit (seq : BitVec 8) : Wf.Statement (.commit seq) := Wf.always _ rfl
theorem Wf.enable (seq : BitVec 8) : Wf.Statement (.enable seq) := Wf.always _ rfl
theorem Wf.disable (seq : BitVec 8) : Wf.Statement (.disable seq) := Wf.always _ rfl
theorem Wf.load (seq : BitVec 8) : Wf.Statement (.load seq) := Wf.always _ rfl
theorem Wf.loadAbort (seq : BitVec 8) : Wf.Statement (.loadAbort seq) := Wf.always _ rfl
theorem Wf.switchBank (s : Fin 17) (seq : BitVec 8) : Wf.Statement (.switchBank s seq) := Wf.always _ rfl
theorem Wf.sukclr (s : Fin 17) (seq : BitVec 8) : Wf.Statement (.sukclr s seq) := Wf.always _ rfl
theorem Wf.sukclrAbort (s : Fin 17) (seq : BitVec 8) : Wf.Statement (.sukclrAbort s seq) := Wf.always _ rfl
theorem Wf.mscEnable (s : Fin 17) (seq : BitVec 8) : Wf.Statement (.mscEnable s seq) := Wf.always _ rfl
theorem Wf.mscDisable (s : Fin 17) (seq : BitVec 8) : Wf.Statement (.mscDisable s seq) := Wf.always _ rfl
theorem Wf.mscAbort (s : Fin 17) (seq : BitVec 8) : Wf.Statement (.mscAbort s seq) := Wf.always _ rfl
theorem Wf.train (n : Fin 16) (seq : BitVec 8) : Wf.Statement (.train n seq) := Wf.always _ rfl
theorem Wf.trainAbort (n : Fin 16) (seq : BitVec 8) : Wf.Statement (.trainAbort n seq) := Wf.always _ rfl
theorem Wf.resync (n : Fin 16) (seq : BitVec 8) : Wf.Statement (.resync n seq) := Wf.always _ rfl
theorem Wf.resyncAbort (n : Fin 16) (seq : BitVec 8) : Wf.Statement (.resyncAbort n seq) := Wf.always _ rfl
theorem Wf.qdescWrite (seq : BitVec 8) (home : Fin 16) (idx : BitVec 9) : Wf.Statement (.qdescWrite seq home idx) := Wf.always _ rfl
theorem Wf.qdescRead (seq : BitVec 8) (home : Fin 16) (idx : BitVec 9) : Wf.Statement (.qdescRead seq home idx) := Wf.always _ rfl
theorem Wf.qdescClear (seq : BitVec 8) (home : Fin 16) (idx : BitVec 9) : Wf.Statement (.qdescClear seq home idx) := Wf.always _ rfl
theorem Wf.freeze (seq : BitVec 8) (q : PartId) : Wf.Statement (.freeze seq q) := Wf.always _ rfl
theorem Wf.thaw (seq : BitVec 8) (q : PartId) : Wf.Statement (.thaw seq q) := Wf.always _ rfl
theorem Wf.save (seq : BitVec 8) (q : PartId) : Wf.Statement (.save seq q) := Wf.always _ rfl
theorem Wf.restore (seq : BitVec 8) (q : PartId) : Wf.Statement (.restore seq q) := Wf.always _ rfl
theorem Wf.partitionReset (seq : BitVec 8) (q : PartId) : Wf.Statement (.partitionReset seq q) := Wf.always _ rfl
theorem Wf.partitionAbort (seq : BitVec 8) : Wf.Statement (.partitionAbort seq) := Wf.always _ rfl
theorem Wf.fence (seq : BitVec 8) (src : BitVec 7) : Wf.Statement (.fence seq src) := Wf.always _ rfl
theorem Wf.ack (seq : BitVec 8) (src : BitVec 7) : Wf.Statement (.ack seq src) := Wf.always _ rfl
theorem Wf.evac (seq : BitVec 8) (home : Fin 16) (dest : BitVec 5) : Wf.Statement (.evac seq home dest) := Wf.always _ rfl
theorem Wf.returnHome (seq : BitVec 8) (home : Fin 16) (dest : BitVec 5) : Wf.Statement (.returnHome seq home dest) := Wf.always _ rfl
theorem Wf.moveAbort (seq : BitVec 8) : Wf.Statement (.moveAbort seq) := Wf.always _ rfl
theorem Wf.broadcastSet (seq : BitVec 8) (all : Bool) (home : Fin 16) : Wf.Statement (.broadcastSet seq all home) := Wf.always _ rfl
theorem Wf.broadcastClear (seq : BitVec 8) (all : Bool) (home : Fin 16) : Wf.Statement (.broadcastClear seq all home) := Wf.always _ rfl
theorem Wf.broadcastAbort (seq : BitVec 8) : Wf.Statement (.broadcastAbort seq) := Wf.always _ rfl
theorem Wf.sleep (s : Fin 17) (seq : BitVec 8) : Wf.Statement (.sleep s seq) := Wf.always _ rfl
theorem Wf.sleepc (s : Fin 17) (seq : BitVec 8) : Wf.Statement (.sleepc s seq) := Wf.always _ rfl
theorem Wf.powerOff (s : Fin 17) (seq : BitVec 8) : Wf.Statement (.powerOff s seq) := Wf.always _ rfl
theorem Wf.wake (s : Fin 17) (seq : BitVec 8) : Wf.Statement (.wake s seq) := Wf.always _ rfl
theorem Wf.sliceReset (s : Fin 17) (seq : BitVec 8) : Wf.Statement (.sliceReset s seq) := Wf.always _ rfl
theorem Wf.portReset (p : Fin 24) (seq : BitVec 8) : Wf.Statement (.portReset p seq) := Wf.always _ rfl
theorem Wf.portResetAbort (p : Fin 24) (seq : BitVec 8) : Wf.Statement (.portResetAbort p seq) := Wf.always _ rfl
theorem Wf.channelReset (n : Fin 16) (seq : BitVec 8) : Wf.Statement (.channelReset n seq) := Wf.always _ rfl
theorem Wf.channelResetAbort (n : Fin 16) (seq : BitVec 8) : Wf.Statement (.channelResetAbort n seq) := Wf.always _ rfl
theorem Wf.livetestStart (seq : BitVec 8) (s dest : BitVec 5) (back : Bool) : Wf.Statement (.livetestStart seq s dest back) := Wf.always _ rfl
theorem Wf.livetestAbort (seq : BitVec 8) : Wf.Statement (.livetestAbort seq) := Wf.always _ rfl
theorem Wf.remaprd (seq : BitVec 8) (s : BitVec 5) (arr : BitVec 4) : Wf.Statement (.remaprd seq s arr) := Wf.always _ rfl
theorem Wf.remapwr (seq : BitVec 8) (s : BitVec 5) (arr : BitVec 4) : Wf.Statement (.remapwr seq s arr) := Wf.always _ rfl
theorem Wf.inj (seq : BitVec 8) (s : BitVec 5) (arr : BitVec 4) : Wf.Statement (.inj seq s arr) := Wf.always _ rfl
theorem Wf.trread (seq : BitVec 8) (s : BitVec 5) : Wf.Statement (.trread seq s) := Wf.always _ rfl
theorem Wf.trclr (seq : BitVec 8) (s : BitVec 5) : Wf.Statement (.trclr seq s) := Wf.always _ rfl
theorem Wf.pcclr (mask : BitVec 8) : Wf.Statement (.pcclr mask) := Wf.always _ rfl
theorem Wf.logPop : Wf.Statement .logPop := Wf.always _ rfl
theorem Wf.lostWriteClear : Wf.Statement .lostWriteClear := Wf.always _ rfl
theorem Wf.elogClear (n : Fin 16) : Wf.Statement (.elogClear n) := Wf.always _ rfl
theorem Wf.crcrefWrite (page : Fin 64) (v : BitVec 32) : Wf.Statement (.crcrefWrite page v) := Wf.always _ rfl
theorem Wf.mailboxTriggerRead (path : CsrPath) (page : Fin 64) (word : BitVec 8) : Wf.Statement (.mailboxTriggerRead path page word) := Wf.always _ rfl
theorem Wf.aliasAccess (path : CsrPath) (page : Fin 64) (word : BitVec 8) (bit : Fin 32) (wr : Option Bool) : Wf.Statement (.aliasAccess path page word bit wr) := Wf.always _ rfl
theorem Wf.csrWrite (path : CsrPath) (page : Fin 64) (word : BitVec 8) (v : BitVec 32) : Wf.Statement (.csrWrite path page word v) := Wf.always _ rfl
theorem Wf.csrInstrumentUpdate (dr : BitVec 60) : Wf.Statement (.csrInstrumentUpdate dr) := Wf.always _ rfl
theorem Wf.wsBypass : Wf.Statement .wsBypass := Wf.always _ rfl
theorem Wf.wsExtest : Wf.Statement .wsExtest := Wf.always _ rfl
theorem Wf.wsIntest : Wf.Statement .wsIntest := Wf.always _ rfl
theorem Wf.wsClamp : Wf.Statement .wsClamp := Wf.always _ rfl
theorem Wf.ledgerSweepDone (s : Fin 17) : Wf.Statement (.ledgerSweepDone s) := Wf.always _ rfl
theorem Wf.watermarkBroadcastArrival (p : Fin 24) : Wf.Statement (.watermarkBroadcastArrival p) := Wf.always _ rfl
theorem Wf.evacMarkerArrival (p : Fin 24) : Wf.Statement (.evacMarkerArrival p) := Wf.always _ rfl
theorem Wf.evacReleaseArrival : Wf.Statement .evacReleaseArrival := Wf.always _ rfl
theorem Wf.scrubPassDue (s : Fin 17) : Wf.Statement (.scrubPassDue s) := Wf.always _ rfl
theorem Wf.dfiInitComplete (n : Fin 16) : Wf.Statement (.dfiInitComplete n) := Wf.always _ rfl

end Sys2Proof.Laws
end

