-- ==== Sys2Proof/Laws/State.lean ====
section
/-! SUPPORT. One lemma for each field of the state after each elementary update, and for each reader: later proofs cite these and
unfold no update. -/

namespace Sys2Proof.Machine

/-! ### `modPort` -/

@[simp] theorem modPort_pending (s : State) (p : Fin 24) (f : Port → Port) : (s.modPort p f).pending = s.pending := rfl
@[simp] theorem modPort_now (s : State) (p : Fin 24) (f : Port → Port) : (s.modPort p f).now = s.now := rfl
@[simp] theorem modPort_freeCtr (s : State) (p : Fin 24) (f : Port → Port) : (s.modPort p f).freeCtr = s.freeCtr := rfl
@[simp] theorem modPort_passNo (s : State) (p : Fin 24) (f : Port → Port) : (s.modPort p f).passNo = s.passNo := rfl
@[simp] theorem modPort_wraps (s : State) (p : Fin 24) (f : Port → Port) : (s.modPort p f).wraps = s.wraps := rfl
@[simp] theorem modPort_glb (s : State) (p : Fin 24) (f : Port → Port) : (s.modPort p f).glb = s.glb := rfl
@[simp] theorem modPort_regs (s : State) (p : Fin 24) (f : Port → Port) : (s.modPort p f).regs = s.regs := rfl
@[simp] theorem modPort_slices (s : State) (p : Fin 24) (f : Port → Port) : (s.modPort p f).slices = s.slices := rfl
@[simp] theorem modPort_chans (s : State) (p : Fin 24) (f : Port → Port) : (s.modPort p f).chans = s.chans := rfl
@[simp] theorem modPort_dram (s : State) (p : Fin 24) (f : Port → Port) : (s.modPort p f).dram = s.dram := rfl
@[simp] theorem modPort_noc (s : State) (p : Fin 24) (f : Port → Port) : (s.modPort p f).noc = s.noc := rfl
@[simp] theorem modPort_flt (s : State) (p : Fin 24) (f : Port → Port) : (s.modPort p f).flt = s.flt := rfl
@[simp] theorem modPort_par (s : State) (p : Fin 24) (f : Port → Port) : (s.modPort p f).par = s.par := rfl
@[simp] theorem modPort_svc (s : State) (p : Fin 24) (f : Port → Port) : (s.modPort p f).svc = s.svc := rfl
@[simp] theorem modPort_tst (s : State) (p : Fin 24) (f : Port → Port) : (s.modPort p f).tst = s.tst := rfl
@[simp] theorem modPort_csr (s : State) (p : Fin 24) (f : Port → Port) : (s.modPort p f).csr = s.csr := rfl
@[simp] theorem modPort_pins (s : State) (p : Fin 24) (f : Port → Port) : (s.modPort p f).pins = s.pins := rfl
@[simp] theorem modPort_reg (s : State) (p : Fin 24) (f : Port → Port) (m v : Nat) : (s.modPort p f).reg m v = s.reg m v := rfl
@[simp] theorem modPort_fld (s : State) (p : Fin 24) (f : Port → Port) (m o hi lo : Nat) : (s.modPort p f).fld m o hi lo = s.fld m o hi lo := rfl
@[simp] theorem modPort_flag (s : State) (p : Fin 24) (f : Port → Port) (m o b : Nat) : (s.modPort p f).flag m o b = s.flag m o b := rfl
@[simp] theorem modPort_src (s : State) (p : Fin 24) (f : Port → Port) (k : Nat) : (s.modPort p f).src k = s.src k := rfl
@[simp] theorem modPort_slice (s : State) (p : Fin 24) (f : Port → Port) (j : Fin 17) : (s.modPort p f).slice j = s.slice j := rfl
@[simp] theorem modPort_chan (s : State) (p : Fin 24) (f : Port → Port) (m : Fin 16) : (s.modPort p f).chan m = s.chan m := rfl
@[simp] theorem modPort_part (s : State) (p : Fin 24) (f : Port → Port) (q : PartId) : (s.modPort p f).part q = s.part q := rfl
@[simp] theorem modPort_serving (s : State) (p : Fin 24) (f : Port → Port) (h : Fin 16) : (s.modPort p f).serving h = s.serving h := rfl

/-! ### `modSlice` -/

@[simp] theorem modSlice_pending (s : State) (i : Fin 17) (f : Slice → Slice) : (s.modSlice i f).pending = s.pending := rfl
@[simp] theorem modSlice_now (s : State) (i : Fin 17) (f : Slice → Slice) : (s.modSlice i f).now = s.now := rfl
@[simp] theorem modSlice_freeCtr (s : State) (i : Fin 17) (f : Slice → Slice) : (s.modSlice i f).freeCtr = s.freeCtr := rfl
@[simp] theorem modSlice_passNo (s : State) (i : Fin 17) (f : Slice → Slice) : (s.modSlice i f).passNo = s.passNo := rfl
@[simp] theorem modSlice_wraps (s : State) (i : Fin 17) (f : Slice → Slice) : (s.modSlice i f).wraps = s.wraps := rfl
@[simp] theorem modSlice_glb (s : State) (i : Fin 17) (f : Slice → Slice) : (s.modSlice i f).glb = s.glb := rfl
@[simp] theorem modSlice_regs (s : State) (i : Fin 17) (f : Slice → Slice) : (s.modSlice i f).regs = s.regs := rfl
@[simp] theorem modSlice_ports (s : State) (i : Fin 17) (f : Slice → Slice) : (s.modSlice i f).ports = s.ports := rfl
@[simp] theorem modSlice_chans (s : State) (i : Fin 17) (f : Slice → Slice) : (s.modSlice i f).chans = s.chans := rfl
@[simp] theorem modSlice_dram (s : State) (i : Fin 17) (f : Slice → Slice) : (s.modSlice i f).dram = s.dram := rfl
@[simp] theorem modSlice_noc (s : State) (i : Fin 17) (f : Slice → Slice) : (s.modSlice i f).noc = s.noc := rfl
@[simp] theorem modSlice_flt (s : State) (i : Fin 17) (f : Slice → Slice) : (s.modSlice i f).flt = s.flt := rfl
@[simp] theorem modSlice_par (s : State) (i : Fin 17) (f : Slice → Slice) : (s.modSlice i f).par = s.par := rfl
@[simp] theorem modSlice_svc (s : State) (i : Fin 17) (f : Slice → Slice) : (s.modSlice i f).svc = s.svc := rfl
@[simp] theorem modSlice_tst (s : State) (i : Fin 17) (f : Slice → Slice) : (s.modSlice i f).tst = s.tst := rfl
@[simp] theorem modSlice_csr (s : State) (i : Fin 17) (f : Slice → Slice) : (s.modSlice i f).csr = s.csr := rfl
@[simp] theorem modSlice_pins (s : State) (i : Fin 17) (f : Slice → Slice) : (s.modSlice i f).pins = s.pins := rfl
@[simp] theorem modSlice_reg (s : State) (i : Fin 17) (f : Slice → Slice) (m v : Nat) : (s.modSlice i f).reg m v = s.reg m v := rfl
@[simp] theorem modSlice_fld (s : State) (i : Fin 17) (f : Slice → Slice) (m o hi lo : Nat) : (s.modSlice i f).fld m o hi lo = s.fld m o hi lo := rfl
@[simp] theorem modSlice_flag (s : State) (i : Fin 17) (f : Slice → Slice) (m o b : Nat) : (s.modSlice i f).flag m o b = s.flag m o b := rfl
@[simp] theorem modSlice_src (s : State) (i : Fin 17) (f : Slice → Slice) (k : Nat) : (s.modSlice i f).src k = s.src k := rfl
@[simp] theorem modSlice_port (s : State) (i : Fin 17) (f : Slice → Slice) (q : Fin 24) : (s.modSlice i f).port q = s.port q := rfl
@[simp] theorem modSlice_chan (s : State) (i : Fin 17) (f : Slice → Slice) (m : Fin 16) : (s.modSlice i f).chan m = s.chan m := rfl
@[simp] theorem modSlice_part (s : State) (i : Fin 17) (f : Slice → Slice) (q : PartId) : (s.modSlice i f).part q = s.part q := rfl
@[simp] theorem modSlice_serving (s : State) (i : Fin 17) (f : Slice → Slice) (h : Fin 16) : (s.modSlice i f).serving h = s.serving h := rfl

/-! ### `modChan` -/

@[simp] theorem modChan_pending (s : State) (n : Fin 16) (f : Chan → Chan) : (s.modChan n f).pending = s.pending := rfl
@[simp] theorem modChan_now (s : State) (n : Fin 16) (f : Chan → Chan) : (s.modChan n f).now = s.now := rfl
@[simp] theorem modChan_freeCtr (s : State) (n : Fin 16) (f : Chan → Chan) : (s.modChan n f).freeCtr = s.freeCtr := rfl
@[simp] theorem modChan_passNo (s : State) (n : Fin 16) (f : Chan → Chan) : (s.modChan n f).passNo = s.passNo := rfl
@[simp] theorem modChan_wraps (s : State) (n : Fin 16) (f : Chan → Chan) : (s.modChan n f).wraps = s.wraps := rfl
@[simp] theorem modChan_glb (s : State) (n : Fin 16) (f : Chan → Chan) : (s.modChan n f).glb = s.glb := rfl
@[simp] theorem modChan_regs (s : State) (n : Fin 16) (f : Chan → Chan) : (s.modChan n f).regs = s.regs := rfl
@[simp] theorem modChan_ports (s : State) (n : Fin 16) (f : Chan → Chan) : (s.modChan n f).ports = s.ports := rfl
@[simp] theorem modChan_slices (s : State) (n : Fin 16) (f : Chan → Chan) : (s.modChan n f).slices = s.slices := rfl
@[simp] theorem modChan_dram (s : State) (n : Fin 16) (f : Chan → Chan) : (s.modChan n f).dram = s.dram := rfl
@[simp] theorem modChan_noc (s : State) (n : Fin 16) (f : Chan → Chan) : (s.modChan n f).noc = s.noc := rfl
@[simp] theorem modChan_flt (s : State) (n : Fin 16) (f : Chan → Chan) : (s.modChan n f).flt = s.flt := rfl
@[simp] theorem modChan_par (s : State) (n : Fin 16) (f : Chan → Chan) : (s.modChan n f).par = s.par := rfl
@[simp] theorem modChan_svc (s : State) (n : Fin 16) (f : Chan → Chan) : (s.modChan n f).svc = s.svc := rfl
@[simp] theorem modChan_tst (s : State) (n : Fin 16) (f : Chan → Chan) : (s.modChan n f).tst = s.tst := rfl
@[simp] theorem modChan_csr (s : State) (n : Fin 16) (f : Chan → Chan) : (s.modChan n f).csr = s.csr := rfl
@[simp] theorem modChan_pins (s : State) (n : Fin 16) (f : Chan → Chan) : (s.modChan n f).pins = s.pins := rfl
@[simp] theorem modChan_reg (s : State) (n : Fin 16) (f : Chan → Chan) (m v : Nat) : (s.modChan n f).reg m v = s.reg m v := rfl
@[simp] theorem modChan_fld (s : State) (n : Fin 16) (f : Chan → Chan) (m o hi lo : Nat) : (s.modChan n f).fld m o hi lo = s.fld m o hi lo := rfl
@[simp] theorem modChan_flag (s : State) (n : Fin 16) (f : Chan → Chan) (m o b : Nat) : (s.modChan n f).flag m o b = s.flag m o b := rfl
@[simp] theorem modChan_src (s : State) (n : Fin 16) (f : Chan → Chan) (k : Nat) : (s.modChan n f).src k = s.src k := rfl
@[simp] theorem modChan_port (s : State) (n : Fin 16) (f : Chan → Chan) (q : Fin 24) : (s.modChan n f).port q = s.port q := rfl
@[simp] theorem modChan_slice (s : State) (n : Fin 16) (f : Chan → Chan) (j : Fin 17) : (s.modChan n f).slice j = s.slice j := rfl
@[simp] theorem modChan_part (s : State) (n : Fin 16) (f : Chan → Chan) (q : PartId) : (s.modChan n f).part q = s.part q := rfl
@[simp] theorem modChan_serving (s : State) (n : Fin 16) (f : Chan → Chan) (h : Fin 16) : (s.modChan n f).serving h = s.serving h := rfl

/-! ### `modGlb` -/

@[simp] theorem modGlb_pending (s : State) (f : Glb → Glb) : (s.modGlb f).pending = s.pending := rfl
@[simp] theorem modGlb_now (s : State) (f : Glb → Glb) : (s.modGlb f).now = s.now := rfl
@[simp] theorem modGlb_freeCtr (s : State) (f : Glb → Glb) : (s.modGlb f).freeCtr = s.freeCtr := rfl
@[simp] theorem modGlb_passNo (s : State) (f : Glb → Glb) : (s.modGlb f).passNo = s.passNo := rfl
@[simp] theorem modGlb_wraps (s : State) (f : Glb → Glb) : (s.modGlb f).wraps = s.wraps := rfl
@[simp] theorem modGlb_glb (s : State) (f : Glb → Glb) : (s.modGlb f).glb = f s.glb := rfl
@[simp] theorem modGlb_regs (s : State) (f : Glb → Glb) : (s.modGlb f).regs = s.regs := rfl
@[simp] theorem modGlb_ports (s : State) (f : Glb → Glb) : (s.modGlb f).ports = s.ports := rfl
@[simp] theorem modGlb_slices (s : State) (f : Glb → Glb) : (s.modGlb f).slices = s.slices := rfl
@[simp] theorem modGlb_chans (s : State) (f : Glb → Glb) : (s.modGlb f).chans = s.chans := rfl
@[simp] theorem modGlb_dram (s : State) (f : Glb → Glb) : (s.modGlb f).dram = s.dram := rfl
@[simp] theorem modGlb_noc (s : State) (f : Glb → Glb) : (s.modGlb f).noc = s.noc := rfl
@[simp] theorem modGlb_flt (s : State) (f : Glb → Glb) : (s.modGlb f).flt = s.flt := rfl
@[simp] theorem modGlb_par (s : State) (f : Glb → Glb) : (s.modGlb f).par = s.par := rfl
@[simp] theorem modGlb_svc (s : State) (f : Glb → Glb) : (s.modGlb f).svc = s.svc := rfl
@[simp] theorem modGlb_tst (s : State) (f : Glb → Glb) : (s.modGlb f).tst = s.tst := rfl
@[simp] theorem modGlb_csr (s : State) (f : Glb → Glb) : (s.modGlb f).csr = s.csr := rfl
@[simp] theorem modGlb_pins (s : State) (f : Glb → Glb) : (s.modGlb f).pins = s.pins := rfl
@[simp] theorem modGlb_reg (s : State) (f : Glb → Glb) (m v : Nat) : (s.modGlb f).reg m v = s.reg m v := rfl
@[simp] theorem modGlb_fld (s : State) (f : Glb → Glb) (m o hi lo : Nat) : (s.modGlb f).fld m o hi lo = s.fld m o hi lo := rfl
@[simp] theorem modGlb_flag (s : State) (f : Glb → Glb) (m o b : Nat) : (s.modGlb f).flag m o b = s.flag m o b := rfl
@[simp] theorem modGlb_src (s : State) (f : Glb → Glb) (k : Nat) : (s.modGlb f).src k = s.src k := rfl
@[simp] theorem modGlb_port (s : State) (f : Glb → Glb) (q : Fin 24) : (s.modGlb f).port q = s.port q := rfl
@[simp] theorem modGlb_slice (s : State) (f : Glb → Glb) (j : Fin 17) : (s.modGlb f).slice j = s.slice j := rfl
@[simp] theorem modGlb_chan (s : State) (f : Glb → Glb) (m : Fin 16) : (s.modGlb f).chan m = s.chan m := rfl
@[simp] theorem modGlb_part (s : State) (f : Glb → Glb) (q : PartId) : (s.modGlb f).part q = s.part q := rfl

/-! ### `modFlt` -/

@[simp] theorem modFlt_pending (s : State) (f : Flt → Flt) : (s.modFlt f).pending = s.pending := rfl
@[simp] theorem modFlt_now (s : State) (f : Flt → Flt) : (s.modFlt f).now = s.now := rfl
@[simp] theorem modFlt_freeCtr (s : State) (f : Flt → Flt) : (s.modFlt f).freeCtr = s.freeCtr := rfl
@[simp] theorem modFlt_passNo (s : State) (f : Flt → Flt) : (s.modFlt f).passNo = s.passNo := rfl
@[simp] theorem modFlt_wraps (s : State) (f : Flt → Flt) : (s.modFlt f).wraps = s.wraps := rfl
@[simp] theorem modFlt_glb (s : State) (f : Flt → Flt) : (s.modFlt f).glb = s.glb := rfl
@[simp] theorem modFlt_regs (s : State) (f : Flt → Flt) : (s.modFlt f).regs = s.regs := rfl
@[simp] theorem modFlt_ports (s : State) (f : Flt → Flt) : (s.modFlt f).ports = s.ports := rfl
@[simp] theorem modFlt_slices (s : State) (f : Flt → Flt) : (s.modFlt f).slices = s.slices := rfl
@[simp] theorem modFlt_chans (s : State) (f : Flt → Flt) : (s.modFlt f).chans = s.chans := rfl
@[simp] theorem modFlt_dram (s : State) (f : Flt → Flt) : (s.modFlt f).dram = s.dram := rfl
@[simp] theorem modFlt_noc (s : State) (f : Flt → Flt) : (s.modFlt f).noc = s.noc := rfl
@[simp] theorem modFlt_flt (s : State) (f : Flt → Flt) : (s.modFlt f).flt = f s.flt := rfl
@[simp] theorem modFlt_par (s : State) (f : Flt → Flt) : (s.modFlt f).par = s.par := rfl
@[simp] theorem modFlt_svc (s : State) (f : Flt → Flt) : (s.modFlt f).svc = s.svc := rfl
@[simp] theorem modFlt_tst (s : State) (f : Flt → Flt) : (s.modFlt f).tst = s.tst := rfl
@[simp] theorem modFlt_csr (s : State) (f : Flt → Flt) : (s.modFlt f).csr = s.csr := rfl
@[simp] theorem modFlt_pins (s : State) (f : Flt → Flt) : (s.modFlt f).pins = s.pins := rfl
@[simp] theorem modFlt_reg (s : State) (f : Flt → Flt) (m v : Nat) : (s.modFlt f).reg m v = s.reg m v := rfl
@[simp] theorem modFlt_fld (s : State) (f : Flt → Flt) (m o hi lo : Nat) : (s.modFlt f).fld m o hi lo = s.fld m o hi lo := rfl
@[simp] theorem modFlt_flag (s : State) (f : Flt → Flt) (m o b : Nat) : (s.modFlt f).flag m o b = s.flag m o b := rfl
@[simp] theorem modFlt_port (s : State) (f : Flt → Flt) (q : Fin 24) : (s.modFlt f).port q = s.port q := rfl
@[simp] theorem modFlt_slice (s : State) (f : Flt → Flt) (j : Fin 17) : (s.modFlt f).slice j = s.slice j := rfl
@[simp] theorem modFlt_chan (s : State) (f : Flt → Flt) (m : Fin 16) : (s.modFlt f).chan m = s.chan m := rfl
@[simp] theorem modFlt_part (s : State) (f : Flt → Flt) (q : PartId) : (s.modFlt f).part q = s.part q := rfl
@[simp] theorem modFlt_serving (s : State) (f : Flt → Flt) (h : Fin 16) : (s.modFlt f).serving h = s.serving h := rfl

/-! ### `modPar` -/

@[simp] theorem modPar_pending (s : State) (f : Par → Par) : (s.modPar f).pending = s.pending := rfl
@[simp] theorem modPar_now (s : State) (f : Par → Par) : (s.modPar f).now = s.now := rfl
@[simp] theorem modPar_freeCtr (s : State) (f : Par → Par) : (s.modPar f).freeCtr = s.freeCtr := rfl
@[simp] theorem modPar_passNo (s : State) (f : Par → Par) : (s.modPar f).passNo = s.passNo := rfl
@[simp] theorem modPar_wraps (s : State) (f : Par → Par) : (s.modPar f).wraps = s.wraps := rfl
@[simp] theorem modPar_glb (s : State) (f : Par → Par) : (s.modPar f).glb = s.glb := rfl
@[simp] theorem modPar_regs (s : State) (f : Par → Par) : (s.modPar f).regs = s.regs := rfl
@[simp] theorem modPar_ports (s : State) (f : Par → Par) : (s.modPar f).ports = s.ports := rfl
@[simp] theorem modPar_slices (s : State) (f : Par → Par) : (s.modPar f).slices = s.slices := rfl
@[simp] theorem modPar_chans (s : State) (f : Par → Par) : (s.modPar f).chans = s.chans := rfl
@[simp] theorem modPar_dram (s : State) (f : Par → Par) : (s.modPar f).dram = s.dram := rfl
@[simp] theorem modPar_noc (s : State) (f : Par → Par) : (s.modPar f).noc = s.noc := rfl
@[simp] theorem modPar_flt (s : State) (f : Par → Par) : (s.modPar f).flt = s.flt := rfl
@[simp] theorem modPar_par (s : State) (f : Par → Par) : (s.modPar f).par = f s.par := rfl
@[simp] theorem modPar_svc (s : State) (f : Par → Par) : (s.modPar f).svc = s.svc := rfl
@[simp] theorem modPar_tst (s : State) (f : Par → Par) : (s.modPar f).tst = s.tst := rfl
@[simp] theorem modPar_csr (s : State) (f : Par → Par) : (s.modPar f).csr = s.csr := rfl
@[simp] theorem modPar_pins (s : State) (f : Par → Par) : (s.modPar f).pins = s.pins := rfl
@[simp] theorem modPar_reg (s : State) (f : Par → Par) (m v : Nat) : (s.modPar f).reg m v = s.reg m v := rfl
@[simp] theorem modPar_fld (s : State) (f : Par → Par) (m o hi lo : Nat) : (s.modPar f).fld m o hi lo = s.fld m o hi lo := rfl
@[simp] theorem modPar_flag (s : State) (f : Par → Par) (m o b : Nat) : (s.modPar f).flag m o b = s.flag m o b := rfl
@[simp] theorem modPar_src (s : State) (f : Par → Par) (k : Nat) : (s.modPar f).src k = s.src k := rfl
@[simp] theorem modPar_port (s : State) (f : Par → Par) (q : Fin 24) : (s.modPar f).port q = s.port q := rfl
@[simp] theorem modPar_slice (s : State) (f : Par → Par) (j : Fin 17) : (s.modPar f).slice j = s.slice j := rfl
@[simp] theorem modPar_chan (s : State) (f : Par → Par) (m : Fin 16) : (s.modPar f).chan m = s.chan m := rfl
@[simp] theorem modPar_serving (s : State) (f : Par → Par) (h : Fin 16) : (s.modPar f).serving h = s.serving h := rfl

/-! ### `modTst` -/

@[simp] theorem modTst_pending (s : State) (f : Tst → Tst) : (s.modTst f).pending = s.pending := rfl
@[simp] theorem modTst_now (s : State) (f : Tst → Tst) : (s.modTst f).now = s.now := rfl
@[simp] theorem modTst_freeCtr (s : State) (f : Tst → Tst) : (s.modTst f).freeCtr = s.freeCtr := rfl
@[simp] theorem modTst_passNo (s : State) (f : Tst → Tst) : (s.modTst f).passNo = s.passNo := rfl
@[simp] theorem modTst_wraps (s : State) (f : Tst → Tst) : (s.modTst f).wraps = s.wraps := rfl
@[simp] theorem modTst_glb (s : State) (f : Tst → Tst) : (s.modTst f).glb = s.glb := rfl
@[simp] theorem modTst_regs (s : State) (f : Tst → Tst) : (s.modTst f).regs = s.regs := rfl
@[simp] theorem modTst_ports (s : State) (f : Tst → Tst) : (s.modTst f).ports = s.ports := rfl
@[simp] theorem modTst_slices (s : State) (f : Tst → Tst) : (s.modTst f).slices = s.slices := rfl
@[simp] theorem modTst_chans (s : State) (f : Tst → Tst) : (s.modTst f).chans = s.chans := rfl
@[simp] theorem modTst_dram (s : State) (f : Tst → Tst) : (s.modTst f).dram = s.dram := rfl
@[simp] theorem modTst_noc (s : State) (f : Tst → Tst) : (s.modTst f).noc = s.noc := rfl
@[simp] theorem modTst_flt (s : State) (f : Tst → Tst) : (s.modTst f).flt = s.flt := rfl
@[simp] theorem modTst_par (s : State) (f : Tst → Tst) : (s.modTst f).par = s.par := rfl
@[simp] theorem modTst_svc (s : State) (f : Tst → Tst) : (s.modTst f).svc = s.svc := rfl
@[simp] theorem modTst_tst (s : State) (f : Tst → Tst) : (s.modTst f).tst = f s.tst := rfl
@[simp] theorem modTst_csr (s : State) (f : Tst → Tst) : (s.modTst f).csr = s.csr := rfl
@[simp] theorem modTst_pins (s : State) (f : Tst → Tst) : (s.modTst f).pins = s.pins := rfl
@[simp] theorem modTst_reg (s : State) (f : Tst → Tst) (m v : Nat) : (s.modTst f).reg m v = s.reg m v := rfl
@[simp] theorem modTst_fld (s : State) (f : Tst → Tst) (m o hi lo : Nat) : (s.modTst f).fld m o hi lo = s.fld m o hi lo := rfl
@[simp] theorem modTst_flag (s : State) (f : Tst → Tst) (m o b : Nat) : (s.modTst f).flag m o b = s.flag m o b := rfl
@[simp] theorem modTst_src (s : State) (f : Tst → Tst) (k : Nat) : (s.modTst f).src k = s.src k := rfl
@[simp] theorem modTst_port (s : State) (f : Tst → Tst) (q : Fin 24) : (s.modTst f).port q = s.port q := rfl
@[simp] theorem modTst_slice (s : State) (f : Tst → Tst) (j : Fin 17) : (s.modTst f).slice j = s.slice j := rfl
@[simp] theorem modTst_chan (s : State) (f : Tst → Tst) (m : Fin 16) : (s.modTst f).chan m = s.chan m := rfl
@[simp] theorem modTst_part (s : State) (f : Tst → Tst) (q : PartId) : (s.modTst f).part q = s.part q := rfl
@[simp] theorem modTst_serving (s : State) (f : Tst → Tst) (h : Fin 16) : (s.modTst f).serving h = s.serving h := rfl

/-! ### `modCsr` -/

@[simp] theorem modCsr_pending (s : State) (f : Csr → Csr) : (s.modCsr f).pending = s.pending := rfl
@[simp] theorem modCsr_now (s : State) (f : Csr → Csr) : (s.modCsr f).now = s.now := rfl
@[simp] theorem modCsr_freeCtr (s : State) (f : Csr → Csr) : (s.modCsr f).freeCtr = s.freeCtr := rfl
@[simp] theorem modCsr_passNo (s : State) (f : Csr → Csr) : (s.modCsr f).passNo = s.passNo := rfl
@[simp] theorem modCsr_wraps (s : State) (f : Csr → Csr) : (s.modCsr f).wraps = s.wraps := rfl
@[simp] theorem modCsr_glb (s : State) (f : Csr → Csr) : (s.modCsr f).glb = s.glb := rfl
@[simp] theorem modCsr_regs (s : State) (f : Csr → Csr) : (s.modCsr f).regs = s.regs := rfl
@[simp] theorem modCsr_ports (s : State) (f : Csr → Csr) : (s.modCsr f).ports = s.ports := rfl
@[simp] theorem modCsr_slices (s : State) (f : Csr → Csr) : (s.modCsr f).slices = s.slices := rfl
@[simp] theorem modCsr_chans (s : State) (f : Csr → Csr) : (s.modCsr f).chans = s.chans := rfl
@[simp] theorem modCsr_dram (s : State) (f : Csr → Csr) : (s.modCsr f).dram = s.dram := rfl
@[simp] theorem modCsr_noc (s : State) (f : Csr → Csr) : (s.modCsr f).noc = s.noc := rfl
@[simp] theorem modCsr_flt (s : State) (f : Csr → Csr) : (s.modCsr f).flt = s.flt := rfl
@[simp] theorem modCsr_par (s : State) (f : Csr → Csr) : (s.modCsr f).par = s.par := rfl
@[simp] theorem modCsr_svc (s : State) (f : Csr → Csr) : (s.modCsr f).svc = s.svc := rfl
@[simp] theorem modCsr_tst (s : State) (f : Csr → Csr) : (s.modCsr f).tst = s.tst := rfl
@[simp] theorem modCsr_csr (s : State) (f : Csr → Csr) : (s.modCsr f).csr = f s.csr := rfl
@[simp] theorem modCsr_pins (s : State) (f : Csr → Csr) : (s.modCsr f).pins = s.pins := rfl
@[simp] theorem modCsr_reg (s : State) (f : Csr → Csr) (m v : Nat) : (s.modCsr f).reg m v = s.reg m v := rfl
@[simp] theorem modCsr_fld (s : State) (f : Csr → Csr) (m o hi lo : Nat) : (s.modCsr f).fld m o hi lo = s.fld m o hi lo := rfl
@[simp] theorem modCsr_flag (s : State) (f : Csr → Csr) (m o b : Nat) : (s.modCsr f).flag m o b = s.flag m o b := rfl
@[simp] theorem modCsr_src (s : State) (f : Csr → Csr) (k : Nat) : (s.modCsr f).src k = s.src k := rfl
@[simp] theorem modCsr_port (s : State) (f : Csr → Csr) (q : Fin 24) : (s.modCsr f).port q = s.port q := rfl
@[simp] theorem modCsr_slice (s : State) (f : Csr → Csr) (j : Fin 17) : (s.modCsr f).slice j = s.slice j := rfl
@[simp] theorem modCsr_chan (s : State) (f : Csr → Csr) (m : Fin 16) : (s.modCsr f).chan m = s.chan m := rfl
@[simp] theorem modCsr_part (s : State) (f : Csr → Csr) (q : PartId) : (s.modCsr f).part q = s.part q := rfl
@[simp] theorem modCsr_serving (s : State) (f : Csr → Csr) (h : Fin 16) : (s.modCsr f).serving h = s.serving h := rfl

/-! ### `setReg` -/

@[simp] theorem setReg_pending (s : State) (n w : Nat) (v : BitVec 32) : (s.setReg n w v).pending = s.pending := rfl
@[simp] theorem setReg_now (s : State) (n w : Nat) (v : BitVec 32) : (s.setReg n w v).now = s.now := rfl
@[simp] theorem setReg_freeCtr (s : State) (n w : Nat) (v : BitVec 32) : (s.setReg n w v).freeCtr = s.freeCtr := rfl
@[simp] theorem setReg_passNo (s : State) (n w : Nat) (v : BitVec 32) : (s.setReg n w v).passNo = s.passNo := rfl
@[simp] theorem setReg_wraps (s : State) (n w : Nat) (v : BitVec 32) : (s.setReg n w v).wraps = s.wraps := rfl
@[simp] theorem setReg_glb (s : State) (n w : Nat) (v : BitVec 32) : (s.setReg n w v).glb = s.glb := rfl
@[simp] theorem setReg_ports (s : State) (n w : Nat) (v : BitVec 32) : (s.setReg n w v).ports = s.ports := rfl
@[simp] theorem setReg_slices (s : State) (n w : Nat) (v : BitVec 32) : (s.setReg n w v).slices = s.slices := rfl
@[simp] theorem setReg_chans (s : State) (n w : Nat) (v : BitVec 32) : (s.setReg n w v).chans = s.chans := rfl
@[simp] theorem setReg_dram (s : State) (n w : Nat) (v : BitVec 32) : (s.setReg n w v).dram = s.dram := rfl
@[simp] theorem setReg_noc (s : State) (n w : Nat) (v : BitVec 32) : (s.setReg n w v).noc = s.noc := rfl
@[simp] theorem setReg_flt (s : State) (n w : Nat) (v : BitVec 32) : (s.setReg n w v).flt = s.flt := rfl
@[simp] theorem setReg_par (s : State) (n w : Nat) (v : BitVec 32) : (s.setReg n w v).par = s.par := rfl
@[simp] theorem setReg_svc (s : State) (n w : Nat) (v : BitVec 32) : (s.setReg n w v).svc = s.svc := rfl
@[simp] theorem setReg_tst (s : State) (n w : Nat) (v : BitVec 32) : (s.setReg n w v).tst = s.tst := rfl
@[simp] theorem setReg_csr (s : State) (n w : Nat) (v : BitVec 32) : (s.setReg n w v).csr = s.csr := rfl
@[simp] theorem setReg_pins (s : State) (n w : Nat) (v : BitVec 32) : (s.setReg n w v).pins = s.pins := rfl
@[simp] theorem setReg_src (s : State) (n w : Nat) (v : BitVec 32) (k : Nat) : (s.setReg n w v).src k = s.src k := rfl
@[simp] theorem setReg_port (s : State) (n w : Nat) (v : BitVec 32) (q : Fin 24) : (s.setReg n w v).port q = s.port q := rfl
@[simp] theorem setReg_slice (s : State) (n w : Nat) (v : BitVec 32) (j : Fin 17) : (s.setReg n w v).slice j = s.slice j := rfl
@[simp] theorem setReg_chan (s : State) (n w : Nat) (v : BitVec 32) (m : Fin 16) : (s.setReg n w v).chan m = s.chan m := rfl
@[simp] theorem setReg_part (s : State) (n w : Nat) (v : BitVec 32) (q : PartId) : (s.setReg n w v).part q = s.part q := rfl
@[simp] theorem setReg_serving (s : State) (n w : Nat) (v : BitVec 32) (h : Fin 16) : (s.setReg n w v).serving h = s.serving h := rfl

/-! ### `setPins` -/

@[simp] theorem setPins_pending (s : State) : (s.setPins).pending = s.pending := rfl
@[simp] theorem setPins_now (s : State) : (s.setPins).now = s.now := rfl
@[simp] theorem setPins_freeCtr (s : State) : (s.setPins).freeCtr = s.freeCtr := rfl
@[simp] theorem setPins_passNo (s : State) : (s.setPins).passNo = s.passNo := rfl
@[simp] theorem setPins_wraps (s : State) : (s.setPins).wraps = s.wraps := rfl
@[simp] theorem setPins_glb (s : State) : (s.setPins).glb = s.glb := rfl
@[simp] theorem setPins_regs (s : State) : (s.setPins).regs = s.regs := rfl
@[simp] theorem setPins_ports (s : State) : (s.setPins).ports = s.ports := rfl
@[simp] theorem setPins_slices (s : State) : (s.setPins).slices = s.slices := rfl
@[simp] theorem setPins_chans (s : State) : (s.setPins).chans = s.chans := rfl
@[simp] theorem setPins_dram (s : State) : (s.setPins).dram = s.dram := rfl
@[simp] theorem setPins_noc (s : State) : (s.setPins).noc = s.noc := rfl
@[simp] theorem setPins_flt (s : State) : (s.setPins).flt = s.flt := rfl
@[simp] theorem setPins_par (s : State) : (s.setPins).par = s.par := rfl
@[simp] theorem setPins_svc (s : State) : (s.setPins).svc = s.svc := rfl
@[simp] theorem setPins_tst (s : State) : (s.setPins).tst = s.tst := rfl
@[simp] theorem setPins_csr (s : State) : (s.setPins).csr = s.csr := rfl
@[simp] theorem setPins_reg (s : State) (m v : Nat) : (s.setPins).reg m v = s.reg m v := rfl
@[simp] theorem setPins_fld (s : State) (m o hi lo : Nat) : (s.setPins).fld m o hi lo = s.fld m o hi lo := rfl
@[simp] theorem setPins_flag (s : State) (m o b : Nat) : (s.setPins).flag m o b = s.flag m o b := rfl
@[simp] theorem setPins_src (s : State) (k : Nat) : (s.setPins).src k = s.src k := rfl
@[simp] theorem setPins_port (s : State) (q : Fin 24) : (s.setPins).port q = s.port q := rfl
@[simp] theorem setPins_slice (s : State) (j : Fin 17) : (s.setPins).slice j = s.slice j := rfl
@[simp] theorem setPins_chan (s : State) (m : Fin 16) : (s.setPins).chan m = s.chan m := rfl
@[simp] theorem setPins_part (s : State) (q : PartId) : (s.setPins).part q = s.part q := rfl
@[simp] theorem setPins_serving (s : State) (h : Fin 16) : (s.setPins).serving h = s.serving h := rfl

/-! ### `tick` -/

@[simp] theorem tick_pending (s : State) : (s.tick).pending = s.pending := rfl
@[simp] theorem tick_now (s : State) : (s.tick).now = s.now + 1 := rfl
@[simp] theorem tick_freeCtr (s : State) : (s.tick).freeCtr = s.freeCtr := rfl
@[simp] theorem tick_passNo (s : State) : (s.tick).passNo = s.passNo := rfl
theorem tick_wraps (s : State) : (s.tick).wraps = if s.now = BitVec.allOnes 48 then s.wraps + 1 else s.wraps := rfl
@[simp] theorem tick_glb (s : State) : (s.tick).glb = s.glb := rfl
@[simp] theorem tick_regs (s : State) : (s.tick).regs = s.regs := rfl
@[simp] theorem tick_ports (s : State) : (s.tick).ports = s.ports := rfl
@[simp] theorem tick_slices (s : State) : (s.tick).slices = s.slices := rfl
@[simp] theorem tick_chans (s : State) : (s.tick).chans = s.chans := rfl
@[simp] theorem tick_dram (s : State) : (s.tick).dram = s.dram := rfl
@[simp] theorem tick_noc (s : State) : (s.tick).noc = s.noc := rfl
@[simp] theorem tick_flt (s : State) : (s.tick).flt = s.flt := rfl
@[simp] theorem tick_par (s : State) : (s.tick).par = s.par := rfl
@[simp] theorem tick_svc (s : State) : (s.tick).svc = s.svc := rfl
@[simp] theorem tick_tst (s : State) : (s.tick).tst = s.tst := rfl
@[simp] theorem tick_csr (s : State) : (s.tick).csr = s.csr := rfl
@[simp] theorem tick_pins (s : State) : (s.tick).pins = s.pins := rfl
@[simp] theorem tick_reg (s : State) (m v : Nat) : (s.tick).reg m v = s.reg m v := rfl
@[simp] theorem tick_fld (s : State) (m o hi lo : Nat) : (s.tick).fld m o hi lo = s.fld m o hi lo := rfl
@[simp] theorem tick_flag (s : State) (m o b : Nat) : (s.tick).flag m o b = s.flag m o b := rfl
@[simp] theorem tick_src (s : State) (k : Nat) : (s.tick).src k = s.src k := rfl
@[simp] theorem tick_port (s : State) (q : Fin 24) : (s.tick).port q = s.port q := rfl
@[simp] theorem tick_slice (s : State) (j : Fin 17) : (s.tick).slice j = s.slice j := rfl
@[simp] theorem tick_chan (s : State) (m : Fin 16) : (s.tick).chan m = s.chan m := rfl
@[simp] theorem tick_part (s : State) (q : PartId) : (s.tick).part q = s.part q := rfl
@[simp] theorem tick_serving (s : State) (h : Fin 16) : (s.tick).serving h = s.serving h := rfl

/-! ### `tickFree` -/

@[simp] theorem tickFree_pending (s : State) : (s.tickFree).pending = s.pending := rfl
@[simp] theorem tickFree_now (s : State) : (s.tickFree).now = s.now := rfl
@[simp] theorem tickFree_freeCtr (s : State) : (s.tickFree).freeCtr = s.freeCtr + 1 := rfl
@[simp] theorem tickFree_passNo (s : State) : (s.tickFree).passNo = s.passNo := rfl
@[simp] theorem tickFree_wraps (s : State) : (s.tickFree).wraps = s.wraps := rfl
@[simp] theorem tickFree_glb (s : State) : (s.tickFree).glb = s.glb := rfl
@[simp] theorem tickFree_regs (s : State) : (s.tickFree).regs = s.regs := rfl
@[simp] theorem tickFree_ports (s : State) : (s.tickFree).ports = s.ports := rfl
@[simp] theorem tickFree_slices (s : State) : (s.tickFree).slices = s.slices := rfl
@[simp] theorem tickFree_chans (s : State) : (s.tickFree).chans = s.chans := rfl
@[simp] theorem tickFree_dram (s : State) : (s.tickFree).dram = s.dram := rfl
@[simp] theorem tickFree_noc (s : State) : (s.tickFree).noc = s.noc := rfl
@[simp] theorem tickFree_flt (s : State) : (s.tickFree).flt = s.flt := rfl
@[simp] theorem tickFree_par (s : State) : (s.tickFree).par = s.par := rfl
@[simp] theorem tickFree_svc (s : State) : (s.tickFree).svc = s.svc := rfl
@[simp] theorem tickFree_tst (s : State) : (s.tickFree).tst = s.tst := rfl
@[simp] theorem tickFree_csr (s : State) : (s.tickFree).csr = s.csr := rfl
@[simp] theorem tickFree_pins (s : State) : (s.tickFree).pins = s.pins := rfl
@[simp] theorem tickFree_reg (s : State) (m v : Nat) : (s.tickFree).reg m v = s.reg m v := rfl
@[simp] theorem tickFree_fld (s : State) (m o hi lo : Nat) : (s.tickFree).fld m o hi lo = s.fld m o hi lo := rfl
@[simp] theorem tickFree_flag (s : State) (m o b : Nat) : (s.tickFree).flag m o b = s.flag m o b := rfl
@[simp] theorem tickFree_src (s : State) (k : Nat) : (s.tickFree).src k = s.src k := rfl
@[simp] theorem tickFree_port (s : State) (q : Fin 24) : (s.tickFree).port q = s.port q := rfl
@[simp] theorem tickFree_slice (s : State) (j : Fin 17) : (s.tickFree).slice j = s.slice j := rfl
@[simp] theorem tickFree_chan (s : State) (m : Fin 16) : (s.tickFree).chan m = s.chan m := rfl
@[simp] theorem tickFree_part (s : State) (q : PartId) : (s.tickFree).part q = s.part q := rfl
@[simp] theorem tickFree_serving (s : State) (h : Fin 16) : (s.tickFree).serving h = s.serving h := rfl

/-! ### Units -/

@[simp] theorem modPort_port_self (s : State) (p : Fin 24) (f : Port → Port) : (s.modPort p f).port p = f (s.port p) := by
  simp [State.modPort, State.port]

theorem modPort_port_ne (s : State) {p q : Fin 24} (f : Port → Port) (h : q ≠ p) : (s.modPort p f).port q = s.port q := by
  have hv : p.val ≠ q.val := fun e => h (Fin.ext e.symm)
  simp [State.modPort, State.port, hv]

@[simp] theorem modSlice_slice_self (s : State) (i : Fin 17) (f : Slice → Slice) :
    (s.modSlice i f).slice i = f (s.slice i) := by
  simp [State.modSlice, State.slice]

theorem modSlice_slice_ne (s : State) {i j : Fin 17} (f : Slice → Slice) (h : j ≠ i) :
    (s.modSlice i f).slice j = s.slice j := by
  have hv : i.val ≠ j.val := fun e => h (Fin.ext e.symm)
  simp [State.modSlice, State.slice, hv]

@[simp] theorem modChan_chan_self (s : State) (n : Fin 16) (f : Chan → Chan) : (s.modChan n f).chan n = f (s.chan n) := by
  simp [State.modChan, State.chan]

theorem modChan_chan_ne (s : State) {n m : Fin 16} (f : Chan → Chan) (h : m ≠ n) :
    (s.modChan n f).chan m = s.chan m := by
  have hv : n.val ≠ m.val := fun e => h (Fin.ext e.symm)
  simp [State.modChan, State.chan, hv]

/-- A change of a unit, by what the unit becomes. -/
theorem modPort_const (s : State) (p : Fin 24) (f : Port → Port) : s.modPort p f = s.modPort p fun _ => f (s.port p) := rfl

theorem modSlice_const (s : State) (i : Fin 17) (f : Slice → Slice) : s.modSlice i f = s.modSlice i fun _ => f (s.slice i) := rfl

theorem modChan_const (s : State) (n : Fin 16) (f : Chan → Chan) : s.modChan n f = s.modChan n fun _ => f (s.chan n) := rfl

/-- Port q after a change of port p. -/
theorem modPort_port (s : State) (p q : Fin 24) (f : Port → Port) :
    (s.modPort p f).port q = if q = p then f (s.port q) else s.port q := by
  split
  · next h => subst h; simp
  · next h => exact modPort_port_ne s f h

/-- Slice j after a change of slice i. -/
theorem modSlice_slice (s : State) (i j : Fin 17) (f : Slice → Slice) :
    (s.modSlice i f).slice j = if j = i then f (s.slice j) else s.slice j := by
  split
  · next h => subst h; simp
  · next h => exact modSlice_slice_ne s f h

/-- Channel m after a change of channel n. -/
theorem modChan_chan (s : State) (n m : Fin 16) (f : Chan → Chan) :
    (s.modChan n f).chan m = if m = n then f (s.chan m) else s.chan m := by
  split
  · next h => subst h; simp
  · next h => exact modChan_chan_ne s f h

/-- A later change of the same port sees the earlier one. -/
theorem modPort_modPort (s : State) (p : Fin 24) (f g : Port → Port) :
    (s.modPort p f).modPort p g = s.modPort p fun x => g (f x) := by
  simp [State.modPort]

/-- A later change of the same slice sees the earlier one. -/
theorem modSlice_modSlice (s : State) (i : Fin 17) (f g : Slice → Slice) :
    (s.modSlice i f).modSlice i g = s.modSlice i fun x => g (f x) := by
  simp [State.modSlice]

/-- A later change of the same channel sees the earlier one. -/
theorem modChan_modChan (s : State) (n : Fin 16) (f g : Chan → Chan) :
    (s.modChan n f).modChan n g = s.modChan n fun x => g (f x) := by
  simp [State.modChan]

end Sys2Proof.Machine
end

