-- ==== Sys2Proof/Laws/Settle.lean ====
section
/-! SUPPORT. What follows from a command by itself: nothing but the outputs, in a quiet state; and what the outputs are after it. -/

namespace Sys2Proof.Safety

open Sys2Proof.Machine

/-- A fold whose every step leaves the state alone leaves it alone. -/
theorem foldl_fixed {σ ι : Type} (f : σ → ι → σ) (s : σ) (l : List ι) (h : ∀ i ∈ l, f s i = s) : l.foldl f s = s := by
  induction l with
  | nil => rfl
  | cons i l ih =>
    rw [List.foldl_cons, h i List.mem_cons_self]
    exact ih fun j hj => h j (List.mem_cons_of_mem _ hj)

/-- No fault action is due. -/
theorem dueStep_nil (s : State) (n : Nat) (h : s.flt.due = []) : s.dueStep n = s := by
  cases n <;> simp [State.dueStep, h]

variable {s : State}

theorem Quiet.movePrep (h : Quiet s) : s.movePrep = s := by
  unfold State.movePrep
  split
  · rfl
  · next m hm =>
    have hc : ((m.phase == .prepare || m.phase == .copy) && !m.checked) = false := by
      obtain hc | ⟨h1, h2⟩ := h.run m hm <;> simp_all
    rw [if_neg (by simp [hc])]

theorem Still.liftHold (h : Still s) : s.liftHold = s := by
  unfold State.liftHold
  split
  · rfl
  · refine foldl_fixed _ _ _ fun k _ => ?_
    cases hb : s.glb.admHold.getLsbD k.val
    · simp
    · obtain ⟨m, hm, rfl, he⟩ := h.adm k hb
      simp [hm, he]

/-- A change of a slice that changes nothing. -/
theorem modSlice_same (s : State) (i : Fin 17) (f : Slice → Slice) (h : f (s.slice i) = s.slice i) : s.modSlice i f = s := by
  have : s.slices.set i.val (f (s.slice i)) i.isLt = s.slices := by
    rw [h]
    ext j hj
    simp only [State.slice, Vector.getElem_set]
    split
    · next e => subst e; rfl
    · rfl
  show { s with slices := s.slices.set i.val (f (s.slice i)) i.isLt } = s
  rw [this]

theorem Still.detWake (h : Still s) : s.detWake = s := by
  unfold State.detWake
  split
  · next hd =>
    refine foldl_fixed _ _ _ fun i _ => ?_
    split
    · next ha =>
      obtain ⟨h1, h2⟩ := h.det hd i ha
      exact modSlice_same _ _ _ (by simp [h1, h2])
    · rfl
  · rfl

theorem Still.csrReads (h : Still s) : s.csrReads = s := by
  have h1 : s.csr.reads.filter (fun w => !s.csrHolds w.off) = [] := by
    rw [List.filter_eq_nil_iff]
    intro w hw
    simp [h.reads w hw]
  have h2 : s.csr.reads.filter (fun w => s.csrHolds w.off) = s.csr.reads := List.filter_eq_self.2 h.reads
  unfold State.csrReads
  rw [h1]
  show { s with csr := { s.csr with reads := s.csr.reads.filter fun w => s.csrHolds w.off } } = s
  rw [h2]

/-- Nothing moves on empty networks. -/
theorem netRun_clear (h : s.noc.bufs = [] ∧ s.noc.wait = []) (n : Nat) : s.netRun n = s := by
  cases n with
  | zero => rfl
  | succ n =>
    exact if_pos (by simp [h.1, h.2])

theorem Still.loadStep (h : Still s) : s.loadStep = s := by
  unfold State.loadStep
  by_cases hr : s.glb.ld.st.res = .running
  · obtain ⟨h1, h2, h3⟩ := h.load hr
    have hc : s.glb.ld.phase = .checking → s.loadCommit = s := fun e => if_neg (by have := h3 e; simp only [Bool.and_eq_true, beq_iff_eq]; tauto)
    simp only [hr, h1, bne_self_eq_false, Bool.false_eq_true, if_false]
    split
    · contradiction
    · next e => exact hc e
    · rfl
  · simp [hr]

theorem Still.parStep (h : Still s) : s.parStep = s := by
  have hj := h.job
  unfold jobWaits at hj
  unfold State.parStep
  split <;> simp_all

theorem Still.engineSteps (h : Still s) : s.engineSteps = s := by
  unfold State.engineSteps
  split
  · rfl
  · rw [h.loadStep, h.parStep]

theorem Still.startSteps (h : Still s) : s.commitStep.startStep.disableStep = s := by
  have hc : s.commitStep = s := if_neg fun hc => by
    obtain ⟨h1, h2⟩ := h.gc hc.1
    exact hc.2.1.elim h1 h2
  obtain ⟨h1, h2, h3⟩ := h.stt
  have hs : s.startStep = s := by
    unfold State.startStep
    split <;> first | contradiction | rfl
  rw [hc, hs]
  unfold State.disableStep
  split
  · next hd => exact foldl_fixed _ _ _ fun i _ => by simp [h.msc hd i]
  · rfl

theorem Still.resetSteps (h : Still s) : s.bcastStep.ltBackStep.portResetStep.slcResetStep.csrReads = s := by
  have hb : s.bcastStep = s := by simp [State.bcastStep, h.sweep]
  have hl : s.ltBackStep = s := if_neg fun hc => h.back hc.1 (by simpa using hc.2)
  have hp : s.portResetStep = s := foldl_fixed _ _ _ fun p _ => by simp [(h.ports p).1]
  have hr : s.slcResetStep = s := foldl_fixed _ _ _ fun i _ => by simp [(h.slices i).1]
  rw [hb, hl, hp, hr, h.csrReads]

theorem Still.recheck (h : Still s) : s.eachPort State.recheckPort = s :=
  foldl_fixed _ _ _ fun p _ => by
    have hf : (s.port p).held.filter s.heldReady = [] := by
      rw [List.filter_eq_nil_iff]
      intro k hk
      simp [((h.ports p).2 k hk).2]
    simp [State.recheckPort, hf]

theorem Still.pump (h : Still s) : s.pump = s :=
  foldl_fixed _ _ _ fun p _ => by
    have ha : (s.port p).held.any (·.why == .admission) = false := by
      rw [List.any_eq_false]
      intro k hk
      simpa using ((h.ports p).2 k hk).1
    simp [State.pumpPort, ha]

theorem Quiet.syncPower (h : Quiet s) : s.syncPower = s := by
  unfold State.syncPower
  split
  · refine foldl_fixed _ _ _ fun k hk => ?_
    have := h.supply k (by simpa using hk)
    simp only [Bool.and_eq_true, beq_iff_eq, bne_iff_ne]
    rw [if_neg (by tauto)]
  · rfl

theorem Still.idleWatch (h : Still s) : s.idleWatch = s :=
  foldl_fixed _ _ _ fun i _ => by simp [(h.slices i).2]

theorem Still.selfSteps (h : Still s) (hm : s.movePrep = s) : s.selfSteps = s := by
  unfold State.selfSteps
  rw [hm, h.liftHold, h.engineSteps]
  dsimp only
  rw [h.startSteps, h.detWake, h.resetSteps, h.recheck, h.pump]

/-- Power requests change nothing but the requested states, and since when they differ from the supply. -/
theorem syncPower_pins (s : State) : ∃ l m, s.syncPower = { s with pins := { s.pins with pdMode := l, pdSince := m } } := by
  unfold State.syncPower
  split
  · generalize List.range 50 = ks
    suffices h : ∀ u : State, (∃ l m, u = { s with pins := { s.pins with pdMode := l, pdSince := m } }) → ∃ l m, ks.foldl (fun s k =>
        if s.pdStat k == s.pdMode k && s.pdMode k != s.pdWant k then s.pdRequest k else s) u =
        { s with pins := { s.pins with pdMode := l, pdSince := m } } from h s ⟨_, _, rfl⟩
    induction ks with
    | nil => exact fun u h => h
    | cons k ks ih =>
      rintro _ ⟨l, m, rfl⟩
      rw [List.foldl_cons]
      apply ih
      split
      · unfold State.pdRequest Pins.noted
        dsimp only
        repeat' split
        all_goals exact ⟨_, _, rfl⟩
      · exact ⟨_, _, rfl⟩
  · exact ⟨_, _, rfl⟩

/-- In a still state in which no move prepares its destination, only power requests and the outputs follow from a command. -/
theorem Still.settle (h : Still s) (hm : s.movePrep = s) : s.settle = s.syncPower.setPins := by
  unfold State.settle
  rw [dueStep_nil _ _ h.due, h.selfSteps hm, netRun_clear h.net, dueStep_nil _ _ h.due]
  have hi : s.syncPower.idleWatch = s.syncPower := by
    obtain ⟨l, m, hl⟩ := syncPower_pins s
    rw [hl]
    exact foldl_fixed _ _ _ fun i _ => if_neg (by
      have : (s.slice i).ctl.autoRet = false := (h.slices i).2
      exact fun hc => by simp [State.slice] at hc this; simp [this] at hc)
  rw [hi]

/-- In a quiet state a message goes to its receiver at once. -/
theorem Quiet.netClear (h : Quiet s) : s.netClear = true := by
  simp only [State.netClear, h.net.1, h.net.2, h.links]; rfl

/-- In a quiet state nothing follows from a command but the outputs. -/
theorem Quiet.settle (h : Quiet s) : s.settle = s.setPins := by
  rw [h.toStill.settle h.movePrep, h.syncPower]

/-- A command whose effect leaves such a state ends there, with the power requests and the outputs that the state calls for. -/
theorem Still.ends {s t u : State} (h : Still u) (hm : u.movePrep = u) (ht : t = u) (hp : u.pending = s.pending)
    (hn : u.now = s.now) : Machine.commandEnd s t = .next u.syncPower.setPins := by
  subst ht
  unfold Machine.commandEnd
  rw [h.settle hm, ← hp, ← hn]
  obtain ⟨l, m, hl⟩ := syncPower_pins t
  rw [hl]
  rfl

/-- A command whose effect leaves a quiet state ends there, with the outputs that the state calls for. -/
theorem Quiet.commandEnd {s t : State} (h : Quiet t) (hp : t.pending = s.pending) (hn : t.now = s.now) :
    Machine.commandEnd s t = .next t.setPins := by
  unfold Machine.commandEnd
  rw [h.settle, ← hp, ← hn]
  rfl

/-- The same where the effect is known by another name. -/
theorem Quiet.ends {s t u : State} (h : Quiet u) (ht : t = u) (hp : u.pending = s.pending) (hn : u.now = s.now) :
    Machine.commandEnd s t = .next u.setPins := by
  subst ht
  exact h.commandEnd hp hn

/-- The queue and the time are no part of what makes the outputs. -/
theorem setPins_setPins (s : State) : s.setPins.setPins = s.setPins := rfl

end Sys2Proof.Safety
end

