-- ==== Sys2Proof/Laws/Table.lean ====
section
/-! SUPPORT. The sparse store: a read after a write, other addresses, and the canonical form that every write keeps. -/

namespace Sys2Proof.Machine

variable {α : Type}

/-- Raising the bound below the first address loses nothing. -/
theorem tabSorted_weaken (t : Tab α) (a b : Nat) (h : tabSorted (some b) t = true) (hab : a ≤ b) :
    tabSorted (some a) t = true := by
  cases t with
  | nil => rfl
  | cons e t =>
    simp [tabSorted] at h ⊢
    exact ⟨by omega, h.2⟩

theorem tabSorted_none (t : Tab α) (a : Nat) (h : tabSorted (some a) t = true) : tabSorted none t = true := by
  cases t with
  | nil => rfl
  | cons e t => simp [tabSorted] at h ⊢; exact h.2

/-- A listed address reads as its entry. -/
theorem tabGet_tabPut_self (d : α) (t : Tab α) (k : Nat) (v : α) : tabGet d (tabPut t k v) k = v := by
  induction t with
  | nil => simp [tabPut, tabGet]
  | cons e t ih =>
    obtain ⟨j, w⟩ := e
    simp only [tabPut]
    split
    · simp [tabGet]
    · split
      · simp [tabGet]
      · next h1 h2 => simp [tabGet, h1, ih]

/-- A write leaves every other address alone. -/
theorem tabGet_tabPut_ne (d : α) (t : Tab α) (k m : Nat) (v : α) (h : m ≠ k) :
    tabGet d (tabPut t k v) m = tabGet d t m := by
  induction t with
  | nil => simp [tabPut, tabGet, Ne.symm h]
  | cons e t ih =>
    obtain ⟨j, w⟩ := e
    simp only [tabPut]
    split
    · next hj => subst hj; simp [tabGet, Ne.symm h]
    · split
      · simp [tabGet, Ne.symm h]
      · simp only [tabGet, ih]

/-- A removed address reads as unlisted. -/
theorem tabGet_tabErase_self (d : α) (t : Tab α) (k : Nat) : tabGet d (tabErase t k) k = d := by
  induction t with
  | nil => rfl
  | cons e t ih =>
    obtain ⟨j, w⟩ := e
    simp only [tabErase]
    split
    · exact ih
    · next h => simp [tabGet, h, ih]

/-- Removing an address leaves every other address alone. -/
theorem tabGet_tabErase_ne (d : α) (t : Tab α) (k m : Nat) (hm : m ≠ k) :
    tabGet d (tabErase t k) m = tabGet d t m := by
  induction t with
  | nil => rfl
  | cons e t ih =>
    obtain ⟨j, w⟩ := e
    simp only [tabErase]
    split
    · next hj => subst hj; simp [tabGet, Ne.symm hm, ih]
    · simp only [tabGet, ih]

/-- A read after a write to the same address gives the value written. -/
@[simp] theorem tabGet_tabSet_self [DecidableEq α] (d : α) (t : Tab α) (k : Nat) (v : α) :
    tabGet d (tabSet d t k v) k = v := by
  unfold tabSet
  split
  · next hv => rw [tabGet_tabErase_self, hv]
  · exact tabGet_tabPut_self d t k v

/-- A write leaves every other address alone, whatever that one reads as when unlisted. -/
theorem tabGet_tabSet_ne [DecidableEq α] (d d' : α) (t : Tab α) (k m : Nat) (v : α) (hm : m ≠ k) :
    tabGet d' (tabSet d t k v) m = tabGet d' t m := by
  unfold tabSet
  split
  · exact tabGet_tabErase_ne d' t k m hm
  · exact tabGet_tabPut_ne d' t k m v hm

/-- Removing an address keeps the addresses rising. -/
theorem tabSorted_tabErase (t : Tab α) (k : Nat) (lo : Option Nat) (h : tabSorted lo t = true) :
    tabSorted lo (tabErase t k) = true := by
  induction t generalizing lo with
  | nil => rfl
  | cons e t ih =>
    obtain ⟨j, w⟩ := e
    simp only [tabSorted, Bool.and_eq_true] at h
    simp only [tabErase]
    split
    · cases lo with
      | none => exact tabSorted_none _ j (ih _ h.2)
      | some l =>
        simp only [decide_eq_true_eq] at h
        exact tabSorted_weaken _ l j (ih _ h.2) (by omega)
    · simp only [tabSorted, Bool.and_eq_true]; exact ⟨h.1, ih _ h.2⟩

/-- Writing an address keeps the addresses rising. -/
theorem tabSorted_tabPut (t : Tab α) (k : Nat) (v : α) (lo : Option Nat) (h : tabSorted lo t = true)
    (hk : ∀ l, lo = some l → l < k) : tabSorted lo (tabPut t k v) = true := by
  induction t generalizing lo with
  | nil => cases lo <;> simp [tabPut, tabSorted]; exact hk _ rfl
  | cons e t ih =>
    obtain ⟨j, w⟩ := e
    simp only [tabSorted, Bool.and_eq_true] at h
    simp only [tabPut]
    split
    · next hj => subst hj; simp only [tabSorted, Bool.and_eq_true]; exact h
    · split
      · next h1 h2 =>
        simp only [tabSorted, Bool.and_eq_true, decide_eq_true_eq]
        refine ⟨?_, h2, h.2⟩
        cases lo with
        | none => rfl
        | some l => simpa using hk l rfl
      · next h1 h2 =>
        simp only [tabSorted, Bool.and_eq_true]
        exact ⟨h.1, ih _ h.2 (by intro l hl; cases hl; omega)⟩

/-- What a removal leaves was listed before. -/
theorem mem_tabErase (t : Tab α) (k : Nat) (e : Nat × α) (h : e ∈ tabErase t k) : e ∈ t := by
  induction t with
  | nil => exact h
  | cons x t ih =>
    obtain ⟨j, w⟩ := x
    simp only [tabErase] at h
    split at h
    · exact List.mem_cons_of_mem _ (ih h)
    · cases h with
      | head => exact List.mem_cons_self
      | tail _ h => exact List.mem_cons_of_mem _ (ih h)

/-- What a write leaves was listed before, or is the entry written. -/
theorem mem_tabPut (t : Tab α) (k : Nat) (v : α) (e : Nat × α) (h : e ∈ tabPut t k v) : e = (k, v) ∨ e ∈ t := by
  induction t with
  | nil => simpa [tabPut] using h
  | cons x t ih =>
    obtain ⟨j, w⟩ := x
    simp only [tabPut] at h
    split at h
    · cases h with
      | head => exact .inl rfl
      | tail _ h => exact .inr (List.mem_cons_of_mem _ h)
    · split at h
      · cases h with
        | head => exact .inl rfl
        | tail _ h => exact .inr h
      · cases h with
        | head => exact .inr List.mem_cons_self
        | tail _ h => exact (ih h).imp id (List.mem_cons_of_mem _)

/-- A write keeps the addresses rising. -/
theorem tabSorted_tabSet [DecidableEq α] (d : α) (t : Tab α) (k : Nat) (v : α) (h : tabSorted none t = true) :
    tabSorted none (tabSet d t k v) = true := by
  unfold tabSet
  split
  · exact tabSorted_tabErase t k none h
  · exact tabSorted_tabPut t k v none h (by simp)

/-- A write leaves no entry that equals what its address reads as when unlisted. -/
theorem tabSet_ne_default [DecidableEq α] (d : Nat → α) (t : Tab α) (k : Nat) (v : α) (h : ∀ e ∈ t, e.2 ≠ d e.1) :
    ∀ e ∈ tabSet (d k) t k v, e.2 ≠ d e.1 := by
  intro e he
  unfold tabSet at he
  split at he
  · exact h e (mem_tabErase t k e he)
  · next hv =>
    obtain rfl | he := mem_tabPut t k v e he
    · exact hv
    · exact h e he

/-- Every write keeps the canonical form. -/
theorem tabWf_tabSet [DecidableEq α] (d : Nat → α) (t : Tab α) (k : Nat) (v : α) (h : tabWf d t = true) :
    tabWf d (tabSet (d k) t k v) = true := by
  simp only [tabWf, Bool.and_eq_true, List.all_eq_true, bne_iff_ne] at h ⊢
  exact ⟨tabSorted_tabSet _ _ _ _ h.1, tabSet_ne_default d t k v h.2⟩

/-! ### The contents of the DRAM -/

open Sys2Proof.Safety

/-- The write of a line touches nothing but the store. -/
@[simp] theorem dramPut_chan (s : State) (n m : Fin 16) (k : Nat) (l : PLine) : (s.dramPut n k l).chan m = s.chan m := rfl

@[simp] theorem dramPut_dramNone (s : State) (n : Fin 16) (k key : Nat) (l : PLine) :
    (s.dramPut n k l).dramNone key = s.dramNone key := rfl

/-- Two lines have two addresses. -/
theorem dramKey_inj {n m : Fin 16} {j k : Nat} (h : dramKey n j = dramKey m k) : n = m ∧ j = k := by
  simp only [dramKey] at h
  exact ⟨Fin.ext (by omega), by omega⟩

/-- A line that was written reads back. -/
@[simp] theorem dramGet_dramPut_self (s : State) (n : Fin 16) (k : Nat) (l : PLine) : (s.dramPut n k l).dramGet n k = l :=
  tabGet_tabSet_self _ _ _ _

/-- A write leaves every other line of every channel alone. -/
theorem dramGet_dramPut_ne (s : State) (n m : Fin 16) (j k : Nat) (l : PLine) (hk : (m, j) ≠ (n, k)) :
    (s.dramPut n k l).dramGet m j = s.dramGet m j := by
  refine tabGet_tabSet_ne _ _ _ _ _ _ fun e => hk ?_
  obtain ⟨rfl, rfl⟩ := dramKey_inj e
  rfl

/-! ### Registers, sources, partitions -/

@[simp] theorem setReg_reg_self (s : State) (n w : Nat) (v : BitVec 32) : (s.setReg n w v).reg n w = v :=
  tabGet_tabSet_self _ _ _ _

/-- A register write leaves every other word alone. -/
theorem setReg_reg_ne (s : State) (n w m u : Nat) (v : BitVec 32) (h : 256 * m + u ≠ 256 * n + w) :
    (s.setReg n w v).reg m u = s.reg m u := tabGet_tabSet_ne _ _ _ _ _ _ h

@[simp] theorem modSrc_src_self (s : State) (n : Nat) (f : Src → Src) : (s.modSrc n f).src n = f (s.src n) :=
  tabGet_tabSet_self _ _ _ _

theorem modSrc_src_ne (s : State) (n m : Nat) (f : Src → Src) (h : m ≠ n) : (s.modSrc n f).src m = s.src m :=
  tabGet_tabSet_ne _ _ _ _ _ _ h

@[simp] theorem modPart_part_self (s : State) (q : PartId) (f : Part → Part) : (s.modPart q f).part q = f (s.part q) :=
  tabGet_tabSet_self _ _ _ _

theorem modPart_part_ne (s : State) (q r : PartId) (f : Part → Part) (h : r ≠ q) : (s.modPart q f).part r = s.part r :=
  tabGet_tabSet_ne _ _ _ _ _ _ fun e => h (BitVec.eq_of_toNat_eq e)

/-- A write keeps the canonical form of the contents. -/
theorem memoryOk_dramPut (s : State) (n : Fin 16) (k : Nat) (l : PLine) (h : memoryOk s) : memoryOk (s.dramPut n k l) :=
  ⟨tabSorted_tabSet _ _ _ _ h.1, tabSet_ne_default s.dramNone _ _ _ h.2⟩

/-- The contents after reset are in canonical form. -/
theorem memoryOk_reset : memoryOk State.reset := ⟨rfl, fun _ h => nomatch h⟩

end Sys2Proof.Machine
end

