-- ==== Sys2Proof/Laws/Quiet.lean ====
section
/-! SUPPORT. The updates that keep a state quiet. -/

namespace Sys2Proof.Safety

open Sys2Proof.Machine

variable {s t : State}

/-- The registers of which what runs by itself takes notice: GLB_DETCFG. -/
def watched (n w : Nat) : Prop := 256 * n + w = 0x5C

/-- DET homes are those they were, where GLB_DETCFG and DET mode are. -/
theorem detHome_same (hd : t.glb.det = s.glb.det) (hr : t.reg 0 0x5C = s.reg 0 0x5C) (h : Fin 16) : t.detHome h = s.detHome h := by
  simp only [State.detHome, State.flag, State.fld, hd]
  rw [show (0x170 : Nat) / 4 = 0x5C from rfl, hr]

/-- A change that leaves alone what runs by itself, and what it looks at. -/
theorem Quiet.mono (h : Quiet s) (hd : t.flt.due = s.flt.due) (hr : t.flt.run = s.flt.run) (ha : t.glb.admHold = s.glb.admHold)
    (hl : loadWaits t.glb.ld) (hj : jobWaits t.par.job)
    (hc : t.glb.cmd.res = .running → t.glb.stt ≠ .ready ∧ t.glb.stt ≠ .committed)
    (hst : t.glb.stt = s.glb.stt) (hb : t.glb.bc.sweep = s.glb.bc.sweep) (hph : t.tst.phase = s.tst.phase)
    (hpt : t.par.parts = s.par.parts) (hfu : t.glb.fuse = s.glb.fuse)
    (hp : ∀ p, (t.port p).resetting = (s.port p).resetting ∧ ∀ k ∈ (t.port p).held, k ∈ (s.port p).held ∨ k.why = .companion)
    (hs : ∀ i, (t.slice i).ctl = (s.slice i).ctl ∧ (t.slice i).mem.ctl.mode = (s.slice i).mem.ctl.mode)
    (hpi : t.pins.pdStat = s.pins.pdStat ∧ t.pins.pdMode = s.pins.pdMode) (hn : t.noc = s.noc)
    (hdt : t.glb.det = s.glb.det ∧ t.glb.slice = s.glb.slice) (hrg : t.reg 0 0x5C = s.reg 0 0x5C)
    (hrd : ∀ w ∈ t.csr.reads, t.csrHolds w.off = true) : Quiet t where
  due := hd.trans h.due
  run m hm := h.run m (hr ▸ hm)
  adm k hk := hr ▸ h.adm k (ha ▸ hk)
  load := hl
  job := hj
  gc := hc
  stt := hst ▸ h.stt
  msc e i := (hs i).2 ▸ h.msc (hst ▸ e) i
  sweep := hb.trans h.sweep
  back e := hr ▸ h.back (hph ▸ e)
  net := hn ▸ h.net
  links := hn ▸ h.links
  reads := hrd
  det e i hi := by
    have hh : t.homesOf i = s.homesOf i := by simp [State.homesOf, State.serving, hdt.2]
    have := h.det (hdt.1 ▸ e) i (by simpa only [hh, funext (detHome_same hdt.1 hrg)] using hi)
    simpa [Slice.asleep, (hs i).1] using this
  ports p := by
    refine ⟨(hp p).1.trans (h.ports p).1, fun k hk => ?_⟩
    have hrd : ∀ q, t.part q = s.part q := fun q => by simp [State.part, hpt]
    obtain hk | hk := (hp p).2 k hk
    · simpa [State.heldReady, hrd] using (h.ports p).2 k hk
    · simp [State.heldReady, hk]
  slices i := by rw [(hs i).1]; exact h.slices i
  supply k hk hm := by
    have hw : t.pdWant k = s.pdWant k := by
      have hC : ∀ i, t.wantsC i = s.wantsC i := fun i => by
        simp [State.wantsC, State.homesOf, State.serving, hdt.2, (hs i).1, (hs i).2, hr, funext (detHome_same hdt.1 hrg)]
      simp [State.pdWant, hC, (hs _).1, hfu]
    have h1 : t.pdStat k = s.pdStat k := by simp [State.pdStat, hpi.1]
    have h2 : t.pdMode k = s.pdMode k := by simp [State.pdMode, hpi.2]
    rw [hw, h2]
    exact h.supply k hk (by rw [← h1, ← h2]; exact hm)

theorem Quiet.setReg (h : Quiet s) (n w : Nat) (v : BitVec 32) (hw : ¬ watched n w) : Quiet (s.setReg n w v) :=
  h.mono rfl rfl rfl h.load h.job h.gc rfl rfl rfl rfl rfl (fun _ => ⟨rfl, fun _ => .inl⟩) (fun _ => ⟨rfl, rfl⟩) ⟨rfl, rfl⟩ rfl
    ⟨rfl, rfl⟩ (setReg_reg_ne _ _ _ _ _ _ (by unfold watched at hw; omega)) h.reads

theorem Quiet.done (h : Quiet s) (n : Nat) : Quiet (s.done n) := by
  unfold State.done; dsimp only
  repeat' split
  all_goals first | exact h | exact h.setReg _ _ _ (by unfold watched; omega)

theorem Quiet.doneUnless (h : Quiet s) (n : Nat) (c : CmdSt) : Quiet (s.doneUnless n c) := by
  unfold State.doneUnless; split
  · exact h
  · exact h.done _

theorem Quiet.bump (h : Quiet s) (n o hi lo : Nat) (hw : ¬ watched n (o / 4)) : Quiet (s.bump n o hi lo) := by
  unfold State.bump; dsimp only; split
  · exact h
  · exact h.setReg _ _ _ hw

theorem Quiet.pageEv (h : Quiet s) (p b w : Nat) : Quiet (s.pageEv p b w) := h.setReg _ _ _ (by unfold watched; omega)

theorem Quiet.modChan (h : Quiet s) (n : Fin 16) (f : Chan → Chan) : Quiet (s.modChan n f) :=
  h.mono rfl rfl rfl h.load h.job h.gc rfl rfl rfl rfl rfl (fun _ => ⟨rfl, fun _ => .inl⟩) (fun _ => ⟨rfl, rfl⟩) ⟨rfl, rfl⟩ rfl
    ⟨rfl, rfl⟩ rfl h.reads

theorem Quiet.modCsr (h : Quiet s) (f : Csr → Csr) (hr : ∀ w ∈ (f s.csr).reads, (s.modCsr f).csrHolds w.off = true) :
    Quiet (s.modCsr f) :=
  h.mono rfl rfl rfl h.load h.job h.gc rfl rfl rfl rfl rfl (fun _ => ⟨rfl, fun _ => .inl⟩) (fun _ => ⟨rfl, rfl⟩) ⟨rfl, rfl⟩ rfl
    ⟨rfl, rfl⟩ rfl hr

theorem Quiet.tickFree (h : Quiet s) : Quiet s.tickFree :=
  h.mono rfl rfl rfl h.load h.job h.gc rfl rfl rfl rfl rfl (fun _ => ⟨rfl, fun _ => .inl⟩) (fun _ => ⟨rfl, rfl⟩) ⟨rfl, rfl⟩ rfl
    ⟨rfl, rfl⟩ rfl h.reads

theorem Quiet.dramPut (h : Quiet s) (n : Fin 16) (k : Nat) (l : PLine) : Quiet (s.dramPut n k l) :=
  h.mono rfl rfl rfl h.load h.job h.gc rfl rfl rfl rfl rfl (fun _ => ⟨rfl, fun _ => .inl⟩) (fun _ => ⟨rfl, rfl⟩) ⟨rfl, rfl⟩ rfl
    ⟨rfl, rfl⟩ rfl h.reads

theorem Quiet.modTst (h : Quiet s) (f : Tst → Tst) (hf : (f s.tst).phase = s.tst.phase) : Quiet (s.modTst f) :=
  h.mono rfl rfl rfl h.load h.job h.gc rfl rfl hf rfl rfl (fun _ => ⟨rfl, fun _ => .inl⟩) (fun _ => ⟨rfl, rfl⟩) ⟨rfl, rfl⟩ rfl
    ⟨rfl, rfl⟩ rfl h.reads

theorem Quiet.modFlt (h : Quiet s) (f : Flt → Flt) (hd : (f s.flt).due = s.flt.due) (hr : (f s.flt).run = s.flt.run) :
    Quiet (s.modFlt f) :=
  h.mono hd hr rfl h.load h.job h.gc rfl rfl rfl rfl rfl (fun _ => ⟨rfl, fun _ => .inl⟩) (fun _ => ⟨rfl, rfl⟩) ⟨rfl, rfl⟩ rfl
    ⟨rfl, rfl⟩ rfl h.reads

theorem Quiet.modSrc (h : Quiet s) (n : Nat) (f : Src → Src) : Quiet (s.modSrc n f) := h.modFlt _ rfl rfl

theorem Quiet.logEnt (h : Quiet s) (e : LogEnt) : Quiet (s.logEnt e) := by
  unfold State.logEnt; split
  · exact h.modFlt _ rfl rfl
  · exact h.bump _ _ _ _ (by unfold watched; decide)

theorem Quiet.modPar (h : Quiet s) (f : Par → Par) (hj : jobWaits (f s.par).job) (hp : (f s.par).parts = s.par.parts) :
    Quiet (s.modPar f) :=
  h.mono rfl rfl rfl h.load hj h.gc rfl rfl rfl hp rfl (fun _ => ⟨rfl, fun _ => .inl⟩) (fun _ => ⟨rfl, rfl⟩) ⟨rfl, rfl⟩ rfl
    ⟨rfl, rfl⟩ rfl h.reads

theorem Quiet.modGlb (h : Quiet s) (f : Glb → Glb) (ha : (f s.glb).admHold = s.glb.admHold) (hl : loadWaits (f s.glb).ld)
    (hc : (f s.glb).cmd.res = .running → (f s.glb).stt ≠ .ready ∧ (f s.glb).stt ≠ .committed) (hst : (f s.glb).stt = s.glb.stt)
    (hb : (f s.glb).bc.sweep = s.glb.bc.sweep) (hfu : (f s.glb).fuse = s.glb.fuse)
    (hd : (f s.glb).det = s.glb.det ∧ (f s.glb).slice = s.glb.slice) : Quiet (s.modGlb f) :=
  h.mono rfl rfl ha hl h.job hc hst hb rfl rfl hfu (fun _ => ⟨rfl, fun _ => .inl⟩) (fun _ => ⟨rfl, rfl⟩) ⟨rfl, rfl⟩ rfl hd rfl h.reads

theorem Quiet.modPort (h : Quiet s) (p : Fin 24) (f : Port → Port) (hr : (f (s.port p)).resetting = (s.port p).resetting)
    (hh : ∀ k ∈ (f (s.port p)).held, k ∈ (s.port p).held ∨ k.why = .companion) : Quiet (s.modPort p f) :=
  h.mono rfl rfl rfl h.load h.job h.gc rfl rfl rfl rfl rfl
    (fun q => by
      by_cases e : q = p
      · subst e; rw [modPort_port_self]; exact ⟨hr, hh⟩
      · rw [modPort_port_ne _ _ e]; exact ⟨rfl, fun _ => .inl⟩)
    (fun _ => ⟨rfl, rfl⟩) ⟨rfl, rfl⟩ rfl ⟨rfl, rfl⟩ rfl h.reads

theorem Quiet.modSlice (h : Quiet s) (i : Fin 17) (f : Slice → Slice) (hc : (f (s.slice i)).ctl = (s.slice i).ctl)
    (hm : (f (s.slice i)).mem.ctl.mode = (s.slice i).mem.ctl.mode) : Quiet (s.modSlice i f) :=
  h.mono rfl rfl rfl h.load h.job h.gc rfl rfl rfl rfl rfl (fun _ => ⟨rfl, fun _ => .inl⟩)
    (fun j => by
      by_cases e : j = i
      · subst e; rw [modSlice_slice_self]; exact ⟨hc, hm⟩
      · rw [modSlice_slice_ne _ _ e]; exact ⟨rfl, rfl⟩)
    ⟨rfl, rfl⟩ rfl ⟨rfl, rfl⟩ rfl h.reads

/-! ### Fault events -/

/-- A CORR event below the count that makes its source severe counts it, and logs it as the first of its window. -/
theorem corrEv_mild (n : Nat) (h : mild s n) :
    s.corrEv n =
      (let t := s.modSrc n fun x =>
        { (x.count1 false) with count := corrCount s n, ws := if firstOfWindow s n then s.now else x.ws }
       if firstOfWindow s n then t.log 0x01 n else t) := by
  have hl : ¬ s.fld 59 0x100 31 24 ≤ corrCount s n := Nat.not_le.2 h
  exact (if_neg hl).trans rfl

theorem Quiet.log {s : State} (h : Quiet s) (ty : BitVec 8) (n : Nat) : Quiet (s.log ty n) := h.logEnt _

theorem Quiet.corrEv_mild {s : State} (h : Quiet s) (n : Nat) (hm : mild s n) : Quiet (s.corrEv n) := by
  rw [Safety.corrEv_mild n hm]
  dsimp only
  split
  · exact (h.modSrc _ _).log _ _
  · exact h.modSrc _ _

end Sys2Proof.Safety
end

