-- ==== Sys2Proof/Machine/Outputs.lean ====
section
/-! DEFINITION. Outputs that the state determines and that no register shows: the fuse interface (R445), the DRAM interface of a channel
(R440), and the serial outputs of the test ports (R450, R452). -/

namespace Sys2Proof.Machine

/-! ### The fuse interface (R445) -/

/-- `efk_fuse_req`: a word of the bundle is requested. -/
def State.fuseReq (s : State) : Bool := s.glb.stt == .fuse && !s.glb.fuse.done

/-- `efk_fuse_addr`: the index of that word, 0 while none is requested. -/
def State.fuseAddr (s : State) : BitVec 4 := if s.fuseReq then BitVec.ofNat 4 s.glb.fuse.idx else 0

/-! ### The DRAM interface (R440) -/

/-- What channel n drives on its DRAM interface in a dc. -/
structure DfiPins where
  /-- `dfi_init_start`, while the handshake of training step 1 is under way -/
  initStart : Bool
  /-- `dfi_reset_n`: low in training step 1 -/
  resetN : Bool
  /-- `dfi_frequency`: DCH_CFG.SPEED -/
  frequency : BitVec 3
  /-- `dfi_freq_ratio`: phases to a dc -/
  ratio : Nat
  /-- `dfi_lp_ctrl_req` and `dfi_dram_clk_disable`: every rank is in self-refresh -/
  lowPower : Bool
  clkDisable : Bool
  /-- chip selects of the two subchannels, bit r for rank r -/
  cs : BitVec 4 × BitVec 4
  /-- command, bank and row or column on the address signals -/
  cmd : Option DfiCmd
  /-- the line whose burst goes out on the write data signals, as R278 to R280 encode it -/
  wrdata : Option PLine
  /-- a burst is read in -/
  rddataEn : Bool
  deriving DecidableEq, Repr

/-- Every rank of a channel is in self-refresh. -/
def State.allResting (s : State) (n : Fin 16) : Bool := (List.range (s.ranks n)).all fun r => ((s.chan n).rank r).selfRef

/-- The chip selects that a command raises on a subchannel; a command to a whole rank raises both. -/
def DfiCmd.cs (c : DfiCmd) (sub : Nat) : BitVec 4 :=
  if c.sub = sub || c.op = .refresh || c.op = .prechargeAll then BitVec.ofNat 4 (2 ^ c.rank) else 0

/-- The DRAM interface of channel n. The clock is stopped where R440 lets it be (log entry 83). -/
def State.dfi (s : State) (n : Fin 16) : DfiPins :=
  let x := s.chan n
  { initStart := x.initStart
    resetN := x.trn.phase != .dfi
    frequency := BitVec.ofNat 3 (s.fld (dchPage n) 0x100 2 0)
    ratio := 4
    lowPower := s.allResting n
    clkDisable := s.allResting n
    cs := ((x.dfi.map (·.cs 0)).getD 0, (x.dfi.map (·.cs 1)).getD 0)
    cmd := x.dfi
    wrdata := x.dfi.bind DfiCmd.l
    rddataEn := (x.dfi.map DfiCmd.op) == some .read }

/-! ### The test ports (R450, R452) -/

/-- `efk_wso` and `efk_ijtag_so`: no command of the table shifts a bit through either port, so both hold their reset value (log
entry 58). -/
def State.serialOut (_ : State) : Bool × Bool := (false, false)

end Sys2Proof.Machine
end

