-- ==== Sys2Proof/Tests/Slice0.lean ====
section
/-! SUPPORT. Small tests of the model, and for each statement states and operands that meet all that it assumes. -/

namespace Sys2Proof.Tests

open Sys2Proof.Machine Sys2Proof.Safety

set_option Elab.async false

/-- Registers of a small configuration: partition 0 is enabled with credits, and agents 0 to 3 at ports 0 and 1 are its members. -/
def cfg : Tab (BitVec 32) :=
  [(34 * 256 + 0x18, 1), (34 * 256 + 0x1A, 1), (34 * 256 + 0x40, 0x00080008), (35 * 256 + 0x18, 1), (35 * 256 + 0x1A, 1),
   (35 * 256 + 0x40, 0x00080008), (60 * 256, 0x80000000), (60 * 256 + 0x40, 0x00100010)]

/-- An enabled block with every port up, at time 1,000,000. -/
def on : State :=
  { State.reset with
    now := 1000000
    glb := { State.reset.glb with stt := .enabled, coldLow := false, everEnabled := true }
    regs := cfg
    ports := Vector.replicate 24 { Port.zero with up := true }
    slices := Vector.replicate 17 { Slice.zero with ar := { Arrays.zero with init := 0x3FF } } }

/-- The block at another place of its life. -/
def at' (g : Stt) : State := on.modGlb fun x => { x with stt := g }

/-- A request of agent 0 for line 5, whose home is home 5. -/
def rq0 : ReqArgs := ⟨0, 0, 0, 5, 5, 0⟩
/-- An answer of agent 2 to transaction 0 of slice 5. -/
def rs0 : RspArgs := ⟨2, 63, 0, 0, 0, 0, 0, 5 * 8192, 0⟩
/-- Data of agent 0 for request 5 of partition 0. -/
def dt0 : DatArgs := ⟨0, 5, 0, false, 0, 0, 7⟩

/-- A request of port 0 as slice 5 holds it. -/
def rdr (op : ReqOp) : Req := ⟨.req op, rq0, some 0, 5, false, 999999, none, 0, false⟩
/-- An entry that opens line 5. -/
def ent (op : ReqOp) (st : TStat) : Trk :=
  { r := rdr op, stat := st, opens := true, age := 0, we := .un, way := 0, wv := false, pc := 0, dlr := 0
    x := ⟨0, 0, 0, 0, 0, 0, 0, 0, false, false, false, false, false⟩
    m := ⟨.i, 0, false, 0, 0, false, false, [], false, false, .ok, none⟩
    h := ⟨2000000, [], false, [], [], [], none, false, false, false, false, false, none, false, false, false, false⟩ }
/-- Slice 5 with one entry. -/
def withEnt (s : State) (e : Trk) : State := s.modSlice 5 fun x => { x with trk := [(0, some e)] }
/-- Port 0 with another part. -/
def port0 (f : Port → Port) : State := on.modPort 0 f
/-- The fuse bundle has been read: spare enable is set and every port is trusted. -/
def fused (s : State) : State := s.modGlb fun g => { g with fuse := ⟨[(13, 0xC0FFFFFF)], 16, 0, false, true, true⟩ }
/-- Slice 5 with one request of port 0 in its ingress queue. -/
def ing0 (s : State) (r : Req) : State := s.modSlice 5 fun x => { x with ingress := [(0, ⟨[(r, 0)], []⟩)] }

/-- A check that a state is quiet. -/
def quietB (s : State) : Bool :=
  let run (f : Move → Bool) (d : Bool) : Bool := match s.flt.run with | some m => f m | none => d
  let job : Bool := match s.par.job with
    | .none => true | .save _ _ _ _ wrote _ => !wrote | .saveHeader d => !d | .checkHeader r => !r.all | .checkBody r => !r.all | .apply n => n != 0
  decide (s.flt.due = []) && ((List.finRange 16).all fun h => !s.glb.admHold.getLsbD h.val ||
      run (fun m => m.home == h && !evacLike m.kind) false) &&
    (s.glb.ld.st.res != .running || (s.glb.ld.sel != 0 && s.glb.ld.phase != .waiting &&
      (s.glb.ld.phase != .checking || s.glb.ld.left != 0))) && job &&
    (s.glb.cmd.res != .running || (s.glb.stt != .ready && s.glb.stt != .committed)) &&
    (s.glb.stt != .init && s.glb.stt != .train && s.glb.stt != .load) &&
    (s.glb.stt != .disabling || (List.finRange 17).all fun i => (s.slice i).mem.ctl.mode != .on) &&
    decide (s.glb.bc.sweep = []) && (s.tst.phase != .back || s.flt.run != none) &&
    ((List.finRange 24).all fun p => !(s.port p).resetting && (s.port p).held.all fun h => h.why != .admission && !s.heldReady h) &&
    ((List.finRange 17).all fun i => !(s.slice i).ctl.resetWait && !(s.slice i).ctl.autoRet) &&
    (decide (s.noc.bufs = []) && decide (s.noc.wait = []) && s.noc.links.all fun e => e.2.carries) &&
    (!s.glb.det || (List.finRange 17).all fun i => !(s.homesOf i).any s.detHome || (!(s.slice i).asleep && (s.slice i).ctl.dom.c == .on)) &&
    (s.csr.reads.all fun w => s.csrHolds w.off) &&
    run (fun m => m.checked || (m.phase != .prepare && m.phase != .copy)) true &&
    (List.range 50).all fun k => s.pdStat k != s.pdMode k || s.pdMode k == s.pdWant k

theorem quiet_of (s : State) (h : quietB s = true) : Quiet s := by
  simp only [quietB, Bool.and_eq_true, List.all_eq_true, List.mem_finRange, forall_const, Bool.or_eq_true, Bool.not_eq_true',
    bne_iff_ne, ne_eq, decide_eq_true_eq, List.mem_range, beq_iff_eq] at h
  obtain ⟨⟨⟨⟨⟨⟨⟨⟨⟨⟨⟨⟨⟨⟨⟨hdue, hadm⟩, hld⟩, hjob⟩, hgc⟩, hst⟩, hmsc⟩, hsw⟩, hbk⟩, hpt⟩, hsl⟩, ⟨⟨hnb, hnw⟩, hnl⟩⟩, hdet⟩, hrd⟩, hrun⟩, hsup⟩ := h
  refine { due := hdue, adm := ?_, load := ?_, job := ?_, gc := ?_, stt := ⟨hst.1.1, hst.1.2, hst.2⟩, msc := ?_, sweep := hsw, back := ?_
           ports := fun p => ⟨(hpt p).1, fun k hk => by simpa using (hpt p).2 k hk⟩, net := ⟨hnb, hnw⟩, det := ?_, reads := hrd
           slices := hsl, run := ?_, supply := ?_, links := List.all_eq_true.mpr hnl }
  · intro k hk
    cases hm : s.flt.run with
    | none => have := hadm k; simp_all
    | some m =>
      have := hadm k; simp only [hm, hk, Bool.true_eq_false, false_or, Bool.and_eq_true, beq_iff_eq, Bool.not_eq_true'] at this
      exact ⟨m, rfl, this⟩
  · intro he
    have := hld.resolve_left (not_not_intro he)
    exact ⟨this.1.1, this.1.2, fun e => this.2.resolve_left (not_not_intro e)⟩
  · unfold jobWaits; split at hjob <;> simp_all
  · intro he; simpa [he] using hgc
  · intro he i; have := hmsc; simp [he] at this; exact this i
  · intro he; simpa [he] using hbk
  · intro he i hi
    have := (hdet.resolve_left (by simp [he])) i
    exact this.resolve_left (by simp [hi])
  · intro m hm; simp [hm] at hrun; exact hrun.imp id id
  · intro k hk he; have := hsup k hk; simpa [he] using this

theorem passes (s : State) (p : Fin 24) (a : Agent)
    (h : (s.port p).up = true ∧ carries p a = true ∧ s.portFenced p = false ∧ s.agFenced a = false) : FlitPasses s p a :=
  ⟨h.1, h.2.1, h.2.2.1, h.2.2.2⟩

theorem admits (s : State) (p : Fin 24) (op : ReqOp) (f : ReqArgs) (h : Fin 16) (i : Fin 17)
    (e : f.gen = (s.part f.part).gen ∧ (s.part f.part).st = .run ∧
      (reqIsDrain op = false → s.inAperture f.pa = false ∧ s.homed f.pa = true) ∧ s.detRgn f.pa = none ∧ s.reqHome op f = some h ∧
      (if reqIsDrain op then s.serving h else s.routedSlice p h f.pa) = some i ∧ (s.slice i).asleep = false ∧
      ((s.slice i).ing p.val).direct.length < 8 ∧
      s.tokenOk p f.part (s.detReq op f.pa) = true ∧ s.creditOk h f.part (s.detReq op f.pa) = true) : Admissible s p op f h i :=
  ⟨e.1, e.2.1, fun d => ⟨(e.2.2.1 d).1, (e.2.2.1 d).2, fun r hr => by rw [e.2.2.2.1] at hr; cases hr⟩, e.2.2.2.2.1, e.2.2.2.2.2.1,
    e.2.2.2.2.2.2.1, e.2.2.2.2.2.2.2.1, e.2.2.2.2.2.2.2.2.1, e.2.2.2.2.2.2.2.2.2⟩

/-- Nothing is in an empty list. -/
theorem noneIn {α : Type} {l : List α} {P : α → Prop} (h : l = []) : ∀ k ∈ l, P k := by simp [h]

/-- The part of a word above 16 bits, and those bits. -/
theorem above_crc {n : Nat} (w : BitVec n) (c : BitVec 16) : (w ++ c).extractLsb' 16 n = w := by
  ext i hi; simp [BitVec.getElem_extractLsb', BitVec.getLsbD_append, hi]
theorem of_crc {n : Nat} (w : BitVec n) (c : BitVec 16) : (w ++ c).extractLsb' 0 16 = c := by
  ext i hi; simp [BitVec.getLsbD_append, hi]

theorem idle (s : State) (h : ∀ i : Fin 17, (s.slice i).mem.wmb = [] ∧ (s.slice i).mem.wtWait = [] ∧
    (s.slice i).mem.fetchWait = [] ∧ (s.slice i).mem.fetchHold = []) : memIdle s := h

theorem ing0_ne (s : State) (r : Req) (q : Nat) (h : q ≠ 0) : ((ing0 s r).slice 5).ing q = ⟨[], []⟩ := by
  have h' : ¬ (0 = q) := fun e => h e.symm
  simp [ing0, Slice.ing, modSlice_slice_self, tabGet, h']

/-- Line 5 has channel line address 0 in a block that places no DET region. -/
theorem cla5 (s : State) (hr : s.detRgn 5 = none) (hb : s.fld 0 0x120 21 0 = 0) (hd : s.chDrop = [0, 1, 2, 3]) : s.claOf 5 = 0 := by
  have hm : [0, 1, 2, 3].mergeSort (fun a b => decide (b ≤ a)) = [3, 2, 1, 0] := by
    simp [List.mergeSort, List.MergeSort.Internal.splitInTwo]
  simp only [State.claOf, hr, claNormal, hb, hd, dropBits, hm]
  decide

theorem clasame (s : State) (pa : LineAddr) (h : pa = 5 ∧ s.detRgn 5 = none ∧ s.fld 0 0x120 21 0 = 0 ∧ s.chDrop = [0, 1, 2, 3]) :
    s.claOf pa = 0 := h.1 ▸ cla5 s h.2.1 h.2.2.1 h.2.2.2

def wStepRunsFront : State := { on with pending := [.logPop, .ack 1 3] }

def wEveryStepAnswers_3 : State := { on with pending := [.coldResetAssert] }

def wResets_2 : State := State.reset.modGlb fun g => { g with warmLow := true }

def wResets_3 : State := State.reset.modGlb fun g => { g with coldLow := false, warmLow := true }

def warmWr : WrEnt := ⟨0, 0, .line 5, ⟨7, false⟩, 900, false, false, false⟩
def wWarm_2 : State := (on.modChan 5 fun c => { c with wq := [warmWr] }).modGlb fun g => { g with warmEntry := true }

def wWarm_3 : State := wWarm_2.modGlb fun g => { g with warmLow := true }

def fuse15 : State := (at' .fuse).modGlb fun g => { g with fuse := { g.fuse with idx := 15 } }
def fuse15' : State := fuse15.modSlice 0 fun x => { x with ar := { x.ar with init := 0 } }

def initing (k : Fin 10): State := (at' .ready).modSlice 3 fun x => { x with ar := { x.ar with init := 0x3FF ^^^ BitVec.ofNat 10 (2^k.val)} }

def chkDue : State := (at' .ready).modSlice 3 fun x => { x with uc := { x.uc with due := 2, valid := 1 } }
/-- The bank whose check is due holds no verb, so its check is short. -/
def chkEmpty : State := chkDue.modSlice 3 fun x => { x with uc := { x.uc with words := (List.range 128).map fun k => (1024 + k, 0) } }

/-- An address that a table does not list reads as the default. -/
theorem tabGet_none {α : Type} (d : α) (t : Tab α) (k : Nat) (h : ∀ e ∈ t, e.1 ≠ k) : tabGet d t k = d := by
  induction t with
  | nil => rfl
  | cons e t ih => simp only [tabGet, if_neg (h e (List.mem_cons_self ..))]; exact ih fun x hx => h x (List.mem_cons_of_mem _ hx)

/-- Every clause of the base grammar is an encoding. -/
theorem base_clauses_ok : ∀ k < 896, clauseOk (baseWord (128 + k)) = true := by decide +kernel

theorem chkEmpty_verbs : ∀ k < 128, (chkEmpty.slice 3).uc.clause true k = 0 := by decide +kernel

theorem chkEmpty_words : (chkEmpty.slice 3).uc.words = (List.range 128).map fun k => (1024 + k, 0) := by simp [chkEmpty]
theorem chkEmpty_rest (k : Nat) (h : 128 ≤ k) : (chkEmpty.slice 3).uc.clause true k = baseWord k := by
  unfold Ucode.clause
  rw [chkEmpty_words]
  refine tabGet_none _ _ _ fun e he => ?_
  obtain ⟨j, hj, rfl⟩ := List.mem_map.1 he
  have := List.mem_range.1 hj
  simp only [if_true]; omega

/-- A bank without verbs passes its check. -/
theorem check_empty (c : Nat → BitVec 128) (hv : ∀ k < 128, c k = 0) (hr : ∀ k, 128 ≤ k → c k = baseWord k) :
    grammarCheck c = none := by
  have h1 : ∀ k ∈ List.range 1024, ¬ (!bankWordOk k (c k)) = true := by
    intro k hk
    have hk := List.mem_range.1 hk
    by_cases h : k < 128
    · rw [hv k h]; simp [bankWordOk, h, zeroBits, vtWord]
    · rw [hr k (by omega)]
      have := base_clauses_ok (k - 128) (by omega)
      rw [show 128 + (k - 128) = k by omega] at this
      simp [bankWordOk, h, this]
  have h2 : ∀ i < 512, c (i / 4) = 0 := fun i hi => hv _ (by omega)
  unfold grammarCheck
  rw [List.find?_eq_none.2 h1]
  refine List.findSome?_eq_none_iff.2 fun i hi => ?_
  rw [h2 i (List.mem_range.1 hi)]
  simp [vtOk, VtEnt.dec, vtWord]

theorem chkEmpty_check : (chkEmpty.slice 3).uc.check true = none := check_empty _ chkEmpty_verbs chkEmpty_rest

def trained (v : Bool) (n : Fin 16) : State :=
  ({ at' .train with chans := Vector.replicate 16 { Chan.zero with trn := { Chan.zero.trn with valid := v } } } : State).modChan n fun c =>
    { c with trn := { c.trn with phase := .latched, valid := false } }

def wf0 : ReqArgs := { rq0 with atag := 9 }
def orph : Orphan := ⟨0, 0, 9, ⟨7, false⟩, 999000⟩

def orphAt : State := on.modPort 0 fun x => { x with orphans := [orph] }

def wAdm_3r : ReqArgs := { rq0 with pa := 0 }

def errd : State := on.modPort 0 fun x => { x with errDat := [(0, 5)] }

def hWr : Held := ⟨.wrFull, rq0, none, 900000, .companion, false⟩
def hAt : State := on.modPort 0 fun x => { x with held := [hWr] }

def orphLate : State := on.modPort 0 fun x => { x with orphans := [{orph with at' := 900000}] }
def wComp_5o : Orphan := { orph with at' := 900000 }

def wTurn_1r : ReqArgs := { rq0 with src := 2 }

def wTurn_2r : ReqArgs := { rq0 with part := 1 }

def wTurn_4r : ReqArgs := { rq0 with gen := 1 }

def frozen0 : State := on.modPart 0 fun x => { x with st := .frozen }

def wTurn_6 : State := on.setReg 0 0x48 1

def wTurn_7 : State := on.setServing 5 none

def apt : LineAddr := 0x3FFFFFFF * 65536 + 3
def wUnt_2r : ReqArgs := { rq0 with pa := apt }

def wUnt_3r : ReqArgs := { wf0 with pa := apt }

def reg1 : State := on.setReg 58 0x40 0x80640002

def credDue : State := on.modPort 0 fun x => {x with cred := {x.cred with reqDue := [(1,2)], datDue := [(3, 1)]}}

def eg0 : EgSnp := { f := ⟨.snpShd, 2, 5, 0, 0, 5, 0, 0, 5⟩, det := false, age := 0, gone := false, area := true, dl := some 900000, sent := true, rspIn := false, datIn := false, fwdNeed := false, fwdIn := false, evNeed := false, reported := false }

/-- Transaction 0 of slice 5 awaits an answer of agent 2. -/

def awE : Trk := let e := ent .rdShd (.parked true false false false false 0)

  { e with we := .ex 2, x := { e.x with ack := 2 }, h := { e.h with await := [⟨2, .snpShd, false, true, true, false, false⟩] } }

def aw2 : Await := ⟨2, .snpShd, false, true, true, false, false⟩
def aw : State := (withEnt on awE).modPort 1 fun x => { x with egress := [eg0] }
def rsI : RspArgs := { rs0 with info := 0 }

def dd0 : DatArgs := ⟨2, 5 * 8192, 0, false, 0, 0, 7⟩
def ddE : Trk := { awE with h := { awE.h with await := [⟨2, .snpShd, false, true, true, false, false⟩] } }

def dd : State := (withEnt on ddE).modPort 1 fun x => { x with egress := [eg0] }

def ca0 : RspArgs := ⟨0, 63, 0, 0, 5, 0, 0, 5, 0⟩
def caE : Trk := ent .rdShd (.parked true false false false false 0)

def ack0 : AckTimer := ⟨0, 0, 5, 0, 5, true, false, false, some 2000000⟩
def caS : State := (withEnt on caE).modPort 0 fun x => { x with acks := [ack0] }

def fw0 : DatArgs := ⟨2, 9, 0, true, 0, 1, 7⟩

def egF : EgSnp := { eg0 with f := { eg0.f with rag := 2, ratag := 9 }, area := false, rspIn := true, fwdNeed := true }

def egN : EgSnp := { eg0 with sent := false, dl := none }
def sn (g : EgSnp) (c : Nat) : State := on.modPort 1 fun x => { x with egress := [g], snpCred := c }

def wSnp_1 : State := (sn egN 3).modSrc (srcAgent 2) fun x => { x with fenced := true }

def egQ : EgSnp := { egN with f := { egN.f with op := .qNotify }, area := false }

def egG : EgSnp := { egN with f := { egN.f with rgen := 1 } }

def fl0 : Flit := .snp eg0.f
def lk : State := on.modPort 1 fun x => { x with link := { x.link with snp := ⟨3, [(0, fl0), (1, fl0), (2, fl0)], [], [], none⟩, rspo := ⟨3, [(0, fl0), (1, fl0), (2, fl0)], [], [], none⟩, dato := ⟨3, [(0, fl0), (1, fl0), (2, fl0)], [], [], none⟩ } }

def goodReq : BitVec 576 := (flitOf (reqWord 0 rq0)).zeroExtend 576
def awaits : State := on.modPort 1 fun x => { x with link := { x.link with rspi := ⟨4, true, false, 0⟩ } }

def noAct (s : State) : State := s.setReg 59 0x41 0
def bad2 : State := (noAct on).modPort 1 fun x => { x with link := { x.link with req := ⟨4, false, false, 2⟩ } }

def er0 : ExpRep := ⟨0, 0, 2⟩
def er1 : ExpRep := ⟨1, 0, 3⟩
def exR : State := (withEnt on awE).modSlice 5 fun x => { x with expRep := [er0, er1] }

def ackLate : AckTimer := { ack0 with dl := some 1000000 }
def wDl_3 : State := port0 fun x => { x with acks := [ackLate] }

def drep : State := (on.modPort 0 fun x => { x with writes := [⟨1, 0, true, false, false⟩] }).modSlice 5 fun x => { x with mem := { x.mem with drainRep := [⟨⟨0, 1⟩, true⟩] } }

def drE : Trk := ent .drainE (.parked false false false true false 0)
def drRec : DrainRec := ⟨0, 5, some (5, 0), true, [1], false⟩

def drS : State := (withEnt drep drE).modPort 0 fun x => { x with drains := [drRec] }

def busyL : State := ing0 (withEnt on (ent .rdShd (.ready false))) (rdr .rdOwn)

def elig : Trk := ent .rdShd .eligible

def rWr : Req := rdr .hint
def late (st : TStat) : Trk := let e := ent .upgr st; { e with opens := false, h := { e.h with expiry := 900000 } }

def oldR : Req := { rdr .upgr with adm := 0 }

def inSf (s : State) : State := s.modSlice 5 fun x => { x with ar := { x.ar with sf := [(16 * sfSet 5, ⟨sfTag 5, .ex 2⟩)] } }

def actE (pc : Nat) (again : Bool) : Trk := { ent .rdShd (.ready again) with pc := BitVec.ofNat 11 pc }
def clauseAt (k : Nat) : Clause := Clause.dec ((on.slice 5).uc.clause false k)

def svE (op : ReqOp) : Trk := ent op (.parked false false true true false 9)
def sv (op : ReqOp) : State := (withEnt (on.setReg 60 0x80 0x00040000) (svE op)).modSlice 5 fun x => { x with svcq := [⟨0, 5, reqCode op, 0⟩] }

def lk5 : Nat := 0
def heldL (a : Agent) : Lock := ⟨.held, ledgerTag lk5, a, 0, 0, 0⟩

def withLock (s : State) (l : Lock) : State := s.modSlice 5 fun x => x.setLock (ledgerSet lk5) 0 (some l)

def orphL : Lock := { heldL 2 with st := .orphaned, why := 2 }

def meE : Trk := ent .rdShd (.parked false true true false false 9)
def mq : State := (withEnt on meE).modSlice 5 fun x => { x with mem := { x.mem with memq := [⟨0, .ok, some ⟨7, false⟩, true⟩] } }

def mqW : State := mq.modSlice 5 fun x => { x with mem := { x.mem with memq := [⟨0, .poison, none, false⟩] } }

def tmE : Trk := let e := ent .rdShd (.parked true false true false false 9); { e with h := { e.h with expiry := 900000 } }

def wdC : Trk := let e := ent .wrFull .atSvc; { e with opens := false, h := { e.h with expiry := 900000 } }
def wdE : Trk := let e := ent .rdShd .atSvc; { e with opens := false, r := { e.r with port := none }, h := { e.h with expiry := 900000, cs := true } }

def rec0 : StaleRec := ⟨2, 7, 5, false, 900000, none⟩
def wRec : State := on.modSlice 5 fun x => { x with recs := [rec0] }

def rv0 : Resv := ⟨2, 5, 5, false, 0, 0, 0, 10⟩
def wResv : State := on.modSlice 5 fun x => { x with resv := [rv0] }

def suk5 : State := on.modSlice 5 fun x => { x with sw := { x.sw with sfSt := ⟨.running, 3, false, false, 0, none⟩, suk := some 16383 } }

def lockOf (a : Agent) : Lock := ⟨.held, 0, a, 0, 0, 0⟩
def lsw : State := on.modSlice 5 fun x => { x with ar := { x.ar with ledger := [(0, some (lockOf 2)), (9, some (lockOf 3))] }, sw := { x.sw with ledgerAgents := [2] } }

def wSw_4 : State := on.setReg 59 0x42 1

def scr : State := { on with now := 100000000000 }

def msc (m : MscMode) (res : Res) : State := on.modSlice 5 fun x => { x with
  ar := { x.ar with msc := [(60, ⟨1, 3, .pending, 0⟩), (61, ⟨2, 3, .valid, 1⟩)] }, mem := { x.mem with ctl := ⟨m, 3, { CmdSt.zero with res := res, rseq := 3 }⟩ } }

def wMsc_2 : State := on.modSlice 5 fun x => { x with ar := { x.ar with init := 0x39F } }

def qd (v : BitVec 128) : State := (((on.setReg 61 0x4 (v.extractLsb' 0 32)).setReg 61 0x5 (v.extractLsb' 32 32)).setReg 61 0x6 (v.extractLsb' 64 32)).setReg 61 0x7 (v.extractLsb' 96 32)
def wQd_2 : State := on.setReg 61 0x48 0x10000000

def qk (op : BitVec 2) (v : BitVec 128) : Req := { rdr .hint with kind := .qdesc op 511 4 v, port := none }
def qkE (op : BitVec 2) : Trk := let e := ent .hint .atSvc; { e with r := qk op 0x12345, opens := false }

def qkS (op : BitVec 2) : State := let s := (withEnt on (qkE op)).modSlice 5 fun x => { x with svcq := [⟨0, 5, 0, 0⟩], ar := { x.ar with desc := [(510, 3), (511, 0x777777777)] } }

  { s with svc := ⟨.running, 4, false, false, 0, none⟩ }

def noHome : State := on.setServing 5 (some 16)
def mscOn : State := on.modMsc 5 fun m => { m with mode := .on, epoch := 3 }
/-- A block in DET mode with one DET home. -/
def detOn (h : Fin 16) : State := (on.setReg 0 0x5C (BitVec.ofNat 32 (2 ^ h.val))).modGlb fun g => { g with det := true }
def asl : State := (on.modSlice 5 fun x => { x with ctl := { x.ctl with dom := ⟨.ret, .ret, .off⟩ } }).syncPower

def wPr_2 : State := let s := asl.setReg 59 0x41 0; { s with pins := { s.pins with pdSince := [(15, some 900000)] } }

def wk : State := ((on.modSlice 5 fun x => { x with ctl := { x.ctl with dom := ⟨.ret, .ret, .on⟩, waking := true, fn := ⟨.running, 1, false, false, 0, none⟩ }, wakeHold := [(0, rdr .rdShd)] }))

def auto : State := (on.setReg 6 0x43 0x80000001).modSlice 5 fun x => { x with ctl := { x.ctl with autoRet := true, idleSince := some 900000 } }

def prst : State := on.modPort 0 fun x => { x with rst := ⟨.running, 1, false, false, 0, none⟩, resetting := true }

def wRst_2 : State := noHome.modSlice 5 fun x => {x with ctl := {x.ctl with retained := some 5}}

def wm (f : WmbEnt → WmbEnt) : State := on.modSlice 5 fun x => { x with mem := { x.mem with wmb := [f ⟨0, .line 5, 5, ⟨7, false⟩, 900000, [⟨0, 1⟩], false, false, false, 0, 0, 0⟩, ⟨1, .line 0x105, 5, ⟨8, false⟩, 999999, [], false, false, true, 0, 0, 0⟩] } }

def we1 : WmbEnt := ⟨1, .line 0x105, 5, ⟨8, false⟩, 999999, [], false, false, true, 0, 0, 0⟩

def we0 : WmbEnt := ⟨0, .line 5, 5, ⟨7, false⟩, 900000, [⟨0, 1⟩], false, false, true, 1, 0, 0⟩
def wWmb_2b : State := wm fun _ => we0

def wi : WmbEnt := ⟨0, .line 5, 5, ⟨7, false⟩, 900000, [⟨0, 1⟩], true, false, true, 0, 0, 0⟩
def wiS : State := on.modSlice 5 fun x => { x with mem := { x.mem with wmb := [wi] } }

def c5 : Nat := 0
def openBank : Tab Bank := [(bankKey (on.coord 5 c5), ⟨some (on.coord 5 c5).row, 0, 0, 0, 0⟩)]

def chS : State := on.modChan 5 fun c => { c with dc := 1000, banks := openBank }
def wq0 : WrEnt := ⟨0, c5, .line 5, ⟨7, false⟩, 900, false, false, false⟩

def re0 : RdEnt := ⟨0, ⟨5, .trk 0, .line 5, 5, false, false, false⟩, false, c5, 900, false, none, [], none, false⟩
def wDram_1 : State := chS.modChan 5 fun c => { c with wq := [wq0] }

def wDram_2 : State := chS.modChan 5 fun c => { c with rq := [re0] }

def rei (l : PLine) : RdEnt := { re0 with cls := some 5, got := some l }
def ifl (l : PLine) : State := on.modChan 5 fun c => { c with inflight := [rei l] }

def x8S : State := (ifl ⟨7, false⟩).setReg (dchPage 5) 0x40 ((ifl ⟨7, false⟩).reg (dchPage 5) 0x40 ||| 0x40)

def owe (k : Nat) : State := on.modChan 5 fun c => { c with dc := 1000000, refOn := true, polled := 9000000, ranks := [(0, ⟨k, 0, false, false, 2000000, 0, false, 0⟩)] }

def wRef_1c : State := (owe 1).modChan 5 fun c => { c with rq := [re0] }

def wAl_2 : State := on.modChan 5 fun c => { c with replays := [(0, 1)] }

def mirr : State := (on.setReg 23 0x40 (on.reg 23 0x40 ||| 0x80000000)).modSrc (srcChan 5) fun x => { x with fenced := true }
def mirT : State := mirr.modChan 5 fun c => { c with trn := { c.trn with valid := true, full := true } }

def cpG : CopyLine := ⟨7, .got ⟨9, true⟩, false⟩
def cpD : CopyLine := ⟨7, .done, false⟩
def rsy (k : Nat) (c : Option CopyLine) : State :=
  (mirT.modChan 5 fun x => { x with mir := ⟨⟨.running, 1, false, false, 0, none⟩, .resync, k, c⟩ }).dramPut 4 k ⟨9, true⟩

def tr (f : Training → Training) (v : Bool) : State := (at' .ready).modChan 5 fun c => { c with trn := f c.trn, dly := ⟨v, 0, 0, false, 0⟩, initStart := true }
def trOld (f : Training → Training) (v : Bool) : State := (tr f v).modGlb fun g => { g with everEnabled := false }

def wTr_2 : State := tr (fun t => { t with phase := .dfi }) false

def wTr_3 : State := tr (fun t => { t with phase := .read, lane := 8, code := 126 }) true

def wTr_3b : State := tr (fun t => { t with phase := .write, lane := 0, code := 0 }) true

def wTr_5 : State := tr (fun t => { t with phase := .latched, full := false }) true

def wTr_6 : State := tr (fun t => { t with phase := .read, st := ⟨.running, 3, false, false, 0, none⟩ }) true

def wCr_1 : State := on.modChan 5 fun c => { c with elog := ⟨true, true, 2, 0, 1, true, 7⟩ }

def fch : State := on.modSrc (srcChan 5) fun x => { x with fenced := true, severe := true }

def wCr_3 : State := fch.modChan 5 fun c => { c with rst := ⟨.running, 3, false, false, 0, none⟩, resetting := true, trn := { c.trn with phase := .read } }

def okCfg : State := (at' .ready).setReg 0 0x49 0

theorem okCfg_times (n : Fin 16) (f : Fin 12) :
    decide (timMin (okCfg.fld (dchPage n) 0x100 2 0) f ≤ okCfg.tim n (f.val / 4) (f.val % 4)) = true := by
  have h1 : okCfg.fld (dchPage n) 0x100 2 0 = 4 := by revert n; decide +kernel
  have h2 : okCfg.tim n (f.val / 4) (f.val % 4) = Config.timReset.getD f.val 0 := by revert n f; decide +kernel
  have h3 := (Config.jedecMin8000 f).isLt
  simp only [h1, h2, timMin, decide_eq_true_eq]
  simpa using Nat.le_of_lt_succ h3

theorem okCfg_chan (n : Fin 16) : okCfg.chanOk n = true := by
  have h : (List.finRange 12).all (fun f => decide (timMin (okCfg.fld (dchPage n) 0x100 2 0) f ≤
      okCfg.tim n (f.val / 4) (f.val % 4))) = true := by
    rw [List.all_eq_true]; exact fun f _ => okCfg_times n f
  simp only [State.chanOk, h, Bool.and_true]
  clear h; revert n; decide +kernel

theorem okCfg_ok : okCfg.commitFails = [] := by
  have h : okCfg.layoutOk = true := by
    simp only [State.layoutOk, List.all_eq_true.2 fun n _ => okCfg_chan n, Bool.and_true]
    decide +kernel
  simp only [State.commitFails, h]
  decide +kernel

def badCfg : State := okCfg.setReg 0 0x40 0

def committed : State := { at' .committed with ports := State.reset.ports }

def frozenAll : State := on.modPart 0 fun x => { x with st := .frozen }

def frozenMsc : State := frozenAll.modSlice 4 fun x => { x with mem := {x.mem with ctl := {x.mem.ctl with mode := .on}}, ctl := {x.ctl with dom := {x.ctl.dom with c := .on}} }

def move0 (k : MoveKind) (ph : MovePhase) : Move := { kind := k, home := 5, src := 5, dst := 6, phase := ph, checked := true, cmd := false, tell := [], mark := [], sent := 0, passed := 0, released := false }
def moving : State := on.modFlt fun f => { f with run := some (move0 .evac (.hold 0)) }

def draining : State := (at' .disabling).modGlb fun g => { g with cmd := { g.cmd with res := .running, rseq := 7 } }

def bcSetting : State := on.modBc fun b => { b with homes := 8, st := { b.st with res := .running, rseq := 1 } }

def wBc_3b : State := on.modBc fun b => { b with homes := 8, all := true}

def bcClearing : State := bcSetting.modBc fun b => { b with sweep := [(3, 16383)], clearHome := some 3 }

def wantLoad : State := fused ((at' .committed).setReg 0 0x83 0x8)

def loadOld : State := withEnt (fused (on.setReg 0 0x83 0x20)) (let e := ent .rdShd (.ready false); { e with pc := 1024 + 294 })

def ldRead : State := on.modGlb fun g => { g with ld := { g.ld with st := ⟨.running, 1, false, false, 0, none⟩, phase := .reading, sel := 1, left := 1, rd := ⟨0, 1, [(0, some ⟨0, true⟩)]⟩ } }

def fr (st : PState) : State := on.modPart 0 fun x => { x with st := st }

def frz (st : PState) : State := (fr st).modPar fun x => { x with cmd := ⟨.running, 9, false, false, 0, none⟩, running := some 0 }

def sm (k : Nat) : Send := (clauseAt k).m.getD ⟨0, 0, 0, 0, false, false, 0, false, 0, 0, false, false, false, false⟩

def dropE : Trk := { actE 234 false with wv := true, way := 3, we := .sf [0, 2] 1 }

def mscHas : State := mscOn.modSlice 5 fun x => x.mscPut (mscSet 5) 2 ⟨mscTag 5, 3, .valid, 7⟩

def ownE (pc : Nat) : Trk := { actE pc false with r := rdr .rdOwn }

theorem fetch5 : (withEnt on (ownE 196)).fetchPlace ⟨5, .trk 0, .line 5, 5, false, false, false⟩ = some (5, c5, false) := by
  show (withEnt on (ownE 196)).readPlace 5 ((withEnt on (ownE 196)).claOf 5) = _
  rw [clasame _ 5 (by decide +kernel)]; decide +kernel

def snpE : Trk := { ownE 397 with we := .ex 2 }

def qd0 : QDesc := ⟨5, 1, 0, 0, 0, 9, 0, true, false, 0, 0, 0⟩
def qdFull : QDesc := { qd0 with tail := 64 }
def qdFire : QDesc := { qd0 with tail := 9, wv := true, wagt := 2, watag := 77 }
def qd3 : QDesc := { qd0 with tail := 3 }
def qd10 : QDesc := { qd0 with tail := 10 }
def qdOther : QDesc := { qd0 with wv := true, wagt := 2 }
def qdOwn : QDesc := { qd0 with wv := true, wagt := 0 }
def wmbZ : WmbEnt := ⟨0, .line 0, 0, ⟨0, false⟩, 0, [], false, false, false, 0, 0, 0⟩

def f0Z : BitVec 16 := 0
def svC (op : ReqOp) : Trk := { svE op with r := { rdr op with cd := some ⟨9, false⟩ } }
def svQ (op : ReqOp) (q : QDesc) : State :=
  (withEnt (on.setReg 61 0x40 1) (svC op)).modSlice 5 fun x => ({ x with svcq := [⟨0, 5, reqCode op, f0Z⟩] } : Slice).setDesc 3 q
def svA (op : ReqOp) (arm : Bool) : Trk :=
  { svE op with r := { rdr op with a := { rq0 with arg := if arm then 0x10000000 else 0 }, cd := some ⟨9, false⟩ }
                h := { (svE op).h with dh := some ⟨.slot, ⟨7, false⟩⟩ } }
def f0A : BitVec 16 := 0x8000
def svW (op : ReqOp) (q : QDesc) : State := (svQ op q).modSlice 5 fun x => { x with svcq := [⟨0, 5, reqCode op, f0A⟩] }
def svX (op : ReqOp) (f0 : BitVec 16) : State :=
  (withEnt on (svA op false)).modSlice 5 fun x =>
    { x with svcq := [⟨0, 5, reqCode op, f0⟩], resv := [⟨0, 5, 5, false, 0, 0, 999995, 10⟩] }

def mqR : State := (withEnt on (svE .qDeq)).modSlice 5 fun x => { x with mem := { x.mem with memq := [⟨svcKey 5 0, .ok, some ⟨7, false⟩, true⟩] } }

def wPar_8 : State := on.modSlice 5 fun x => { x with ingress := [(0, ⟨[(rdr .rdShd, 0)], []⟩)] }

def svs : State := (fr .frozen).setReg 60 (0x308/4) (5*64)
def svl : State := svs.setReg 60 (0x310/4) 1

def wSave_2 : State := svs.setReg 60 (0x310/4) 0

def svM : State := svl.modFlt fun f => { f with run := some (move0 .evac (.hold 0)) }

def saving : State := svl.modPar fun x => { x with cmd := ⟨.running, 9, false, false, 0, none⟩, running := some 0, job := .save 5 0 [⟨0, false⟩] 0 false false }

def restoring : State := saving.modPar fun x => { x with job := .checkHeader ⟨5, 1, []⟩ }

def wCorr_b : State := on.modSrc 126 fun x => { x with count := 1, ws := 999999 }

def wFn_2 : State := on.modSrc 57 fun x => { x with severe := true }

def freeD : State := fused ((on.modSlice 16 fun x => { x with ctl := { x.ctl with dom := ⟨.ret, .ret, .ret⟩ } }).syncPower)

def wMv_2 : State := (freeD.modGlb fun g => { g with deg := 0x20 }).setServing 5 (some 4)

def mv (k : MoveKind) (ph : MovePhase) : Move := { kind := k, home := 5, src := 5, dst := 16, phase := ph, checked := true, cmd := false, tell := [], mark := [], sent := 0, passed := 0, released := false }
def ev (m : Move) : State := (fused on).modFlt fun f => { f with run := some m }

def evCmd (ph : MovePhase) (r : Route) : State := ((ev { mv .evac ph with cmd := true }).modFlt fun f =>
  { f with cmd := ⟨.running, 3, false, false, 0, none⟩ }).modGlb fun g => { g with route := r }

def sfS : State := (ev (mv .evac (.hold 3))).modSlice 5 fun x => { x with ar := { x.ar with sf := [(16 * 3 + 2, ⟨7, .ex 2⟩), (16 * 3 + 9, ⟨8, .uk⟩)] } }

def m3 : Move := { mv .evac (.spread 3) with tell := [0, 4], mark := [0, 4] }

def wEv_4 : State := (ev m3).modPort 4 fun x => { x with marker := true }

def m6 : Move := { mv .evac (.spread 3) with released := true }

def m6b : Move := { mv .evac (.spread 16383) with released := true }

def svcd (s : State) : State := s.modSlice 5 fun x => { x with ar := { x.ar with ledger := [(3, some ⟨.held, 0, 2, 0, 0, 0⟩)], desc := [(5, 0x777)] } }
def evF : State := (svcd (ev (mv .evac .final))).modGlb fun g => { g with route := ⟨true, 5, 16, 16384⟩ }

def tk (k : MoveKind) (c : Bool) : State := (svcd (ev { mv k .copy with cmd := c })).modGlb fun g => { g with admHold := 0x20, deg := 0x20 }
def wEnd_2m : Move := { mv .takeover .copy with cmd := false }

def rt : State := ((tk .ret true).modFlt fun f => { f with cmd := ⟨.running, 3, false, false, 0, none⟩ }).modSlice 7 fun x =>
  { x with ctl := { x.ctl with retained := some 5 }, ar := { x.ar with desc := [(5, 0x778)] } }
def wEnd_3m : Move := { mv .ret .copy with cmd := true }

def wLog_1 : State := (on.log 1 3).log 2 4

def wLog_2 : State := on.modChan 0 fun c => { c with lost := [.line 5] }

def wLog_3b : State := on.modSrc 57 fun x => { x with severe := true, masked := false }

def l0 : LinkId := .hop 0 3 2 1
def lks (f : Nat) : State := (on.setReg 59 0x41 0).modLink l0 fun x => { x with fails := f, spares := 1 }

def netF (out : Nat) (vc : BitVec 2) : NetFlit := ⟨.req 5 0 (rdr .rdShd), 0, .port 0, .slice 5, vc, sideband vc out⟩
def hd (out inp : Nat) (vc : BitVec 2) : NetHead := ⟨netF out vc, (2, 3), inp, vc.toNat⟩
/-- Two flits at one router that go to the same output. -/
def netS (out : Nat) : State := { on with noc := { on.noc with
  bufs := [(vcKey 0 (2, 3) 3 0, [netF out 0]), (vcKey 0 (2, 3) 4 2, [netF out 2])] } }

def opn : State := at' .ready

def busyI : State := opn.modCsr fun c => { c with posted := [⟨5, 6, 0xAC, 0, none, true, false⟩] }

def pw (ap ps : Bool) : Posted := ⟨5, 6, 0xAC, 0x00010001, none, ap, ps⟩
def posted (ap ps : Bool) : State := on.modCsr fun c => { c with posted := [pw ap ps] }

def rdWait : State := (posted true true).modCsr fun c => { c with reads := [⟨.direct .maint, 6 * 4096 + 4 * 0xAC⟩] }

def crcBase : State := (noAct on).modCsr fun c => { c with crcv := [(61, true)] }
def crcBad : State := crcBase.setReg 61 0xFF (crcBase.pageCrc 61 + 1)

theorem crcBad_ne : crcBad.pageCrc 61 ≠ crcBad.reg 61 255 := by
  have h : crcBad.pageCrc 61 = crcBase.pageCrc 61 := by
    refine congrArg crcWords (List.map_congr_left fun w hw => ?_)
    by_cases e : w = 255
    · subst e; simp [show crcMask 61 255 = 0 by decide +kernel]
    · rw [show crcBad.reg 61 w = crcBase.reg 61 w from setReg_reg_ne _ _ _ _ _ _ (by omega)]
  rw [h, show crcBad.reg 61 255 = crcBase.pageCrc 61 + 1 from setReg_reg_self _ _ _ _]
  generalize crcBase.pageCrc 61 = c
  bv_omega

theorem crcBad_quiet : Quiet crcBad :=
  (quiet_of crcBase (by decide +kernel)).setReg _ _ _ (by unfold watched; decide)

theorem crcBad_fld (w hi lo : Nat) (h : 256 * 59 + w / 4 ≠ 256 * 61 + 255 := by decide) : crcBad.fld 59 w hi lo = crcBase.fld 59 w hi lo := by
  simp only [State.fld, crcBad]
  rw [setReg_reg_ne _ _ _ _ _ _ h]

def crcOld : State := { on with now := 100000000 }

def dr (go wr : Bool) (adr : BitVec 20) (d : BitVec 32) : BitVec 60 := BitVec.ofBool go ++ BitVec.ofBool wr ++ adr ++ d ++ (0 : BitVec 6)

def bist (f : Tst → Tst) : State := { (on.modSlice 5 fun x => { x with ctl := { x.ctl with testing := true } }).setServing 5 (some 4) with tst := f { on.tst with phase := .test, lt := ⟨.running, 1, false, false, 0, none⟩, ltSlice := 5 } }

def ltm : Move := { kind := .ltMove, home := 5, src := 5, dst := 16, phase := .prepare, checked := false, cmd := false, tell := [], mark := [], sent := 0, passed := 0, released := false }
def lts : State := let s := (freeD.modFlt fun f => { f with run := some ltm }).modSlice 16 fun x => { x with ctl := { x.ctl with waking := true } }

  { s with tst := { s.tst with phase := .move, lt := ⟨.running, 1, false, false, 0, none⟩, ltSlice := 5, ltDest := 16, ltHome := some 5 } }

def opnd (v : BitVec 32) : State := opn.modTst fun t => { t with aopnd := v }

def off5 : State := (opn.modSlice 5 fun x => { x with ctl := { x.ctl with dom := ⟨.off, .off, .off⟩ } }).syncPower
def wAr_7 : State := { opn with tst := { opn.tst with pc := [(0, 5), (7, 9)] } }

/-! ### StepRunsFront -/

theorem wit_StepRunsFront :
    (wStepRunsFront.pending = [Instr.logPop, Instr.ack 1 3]) := by
  decide +kernel

/-! ### EveryStepAnswers -/

theorem wit_EveryStepAnswers_1 :
    (on.pending = []) := by
  decide +kernel

theorem wit_EveryStepAnswers_2 :
    (wStepRunsFront.pending = [Instr.logPop, Instr.ack 1 3]) := by
  decide +kernel

theorem wit_EveryStepAnswers_3 :
    (wEveryStepAnswers_3.pending = [Instr.coldResetAssert]) := by
  decide +kernel

/-! ### OutputsFollowState -/

theorem wit_Outputs :
    (pinsOk State.reset) ∧
    (step State.reset = Host.Outcome.next State.reset.tick) :=
  ⟨rfl, rfl⟩

/-! ### ResetsOfTheBlock -/

theorem wit_Resets_1 :
    (Quiet State.reset) ∧
    (State.reset.glb.stt = Stt.reset) ∧
    (State.reset.glb.coldLow = true) ∧
    (State.reset.glb.warmLow = false) ∧
    (State.reset.glb.warmEntry = false) := by
  refine ⟨quiet_of _ ?_, ?_⟩ <;> decide +kernel

theorem wit_Resets_2 :
    (Quiet wResets_2) ∧
    (wResets_2.glb.stt = Stt.reset) ∧
    (wResets_2.glb.coldLow = true) ∧
    (wResets_2.glb.warmLow = true) := by
  refine ⟨quiet_of _ ?_, ?_⟩ <;> decide +kernel

theorem wit_Resets_3 :
    (Quiet wResets_3) ∧
    (wResets_3.glb.stt = Stt.reset) ∧
    (wResets_3.glb.coldLow = false) ∧
    (wResets_3.glb.warmLow = true) ∧
    (wResets_3.glb.warmEntry = false) := by
  refine ⟨quiet_of _ ?_, ?_⟩ <;> decide +kernel

theorem wit_Resets_4 :
    (Quiet
       (wResets_3.modGlb fun g =>
         { g with coldLow := true })) ∧
    ((wResets_3.modGlb fun g =>
             { g with coldLow := true }).glb.stt =
       Stt.reset) ∧
    ((wResets_3.modGlb fun g =>
               { g with coldLow := true }).glb.coldLow =
         true ∨
       (wResets_3.modGlb fun g =>
               { g with coldLow := true }).glb.warmEntry =
         true) ∧
    ((wResets_3.modGlb fun g =>
             { g with coldLow := true }).glb.warmLow =
       true) := by
  refine ⟨quiet_of _ ?_, ?_⟩ <;> decide +kernel

theorem wit_Resets_5 :
    (Quiet on) ∧
    (on.glb.stt ≠ Stt.reset) ∧
    (on.glb.coldLow = false) ∧
    (on.glb.warmLow = false) := by
  refine ⟨quiet_of _ ?_, ?_⟩ <;> decide +kernel

/-! ### WarmResetKeepsLogAndMemory -/

theorem wit_Warm_1 :
    (Quiet on) ∧
    (on.glb.coldLow = false) ∧
    (on.glb.warmLow = false) := by
  refine ⟨quiet_of _ ?_, ?_⟩ <;> decide +kernel

theorem wit_Warm_2 :
    (Quiet wWarm_2) ∧
    (memIdle wWarm_2) ∧
    (∃ n w, (wWarm_2.chan n).wq = [w] ∧ w.copy = false ∧ ∀ (m : Fin 16), m ≠ n → (wWarm_2.chan m).wq = []) ∧
    (wWarm_2.glb.coldLow = false) ∧
    (wWarm_2.glb.warmEntry = true) ∧
    (∀ (i : Fin 17), (wWarm_2.slice i).ctl.dom.a ≠ Pwr.ret) := by
  refine ⟨quiet_of _ ?_, idle _ ?_, ⟨5, warmWr, by decide +kernel⟩, ?_⟩ <;> decide +kernel

theorem wit_Warm_3 :
    (Quiet wWarm_3) ∧
    (memIdle wWarm_3) ∧
    (∃ n w, (wWarm_3.chan n).wq = [w] ∧ w.copy = false ∧ ∀ (m : Fin 16), m ≠ n → (wWarm_3.chan m).wq = []) ∧
    (wWarm_3.glb.coldLow = false) ∧
    (wWarm_3.glb.warmEntry = true) ∧
    (∀ (i : Fin 17), (wWarm_3.slice i).ctl.dom.a ≠ Pwr.ret) := by
  refine ⟨quiet_of _ ?_, idle _ ?_, ⟨5, warmWr, by decide +kernel⟩, ?_⟩ <;> decide +kernel

/-! ### FuseWordsInTurn -/

theorem wit_Fuse_1 :
    (Quiet (at' Stt.fuse)) ∧
    ((at' Stt.fuse).glb.stt = Stt.fuse) ∧
    ((at' Stt.fuse).glb.fuse.done = false) ∧
    ((at' Stt.fuse).glb.fuse.idx < 15) := by
  refine ⟨quiet_of _ ?_, ?_⟩ <;> decide +kernel

theorem wit_Fuse_1b :
    (Quiet (at' Stt.fuse)) ∧
    ((at' Stt.fuse).glb.stt = Stt.fuse) ∧
    ((at' Stt.fuse).glb.fuse.done = false) ∧
    ((at' Stt.fuse).glb.fuse.idx < 15) ∧
    ((at' Stt.fuse).reached ((at' Stt.fuse).glb.fuse.req + 50) = true) := by
  refine ⟨quiet_of _ ?_, ?_⟩ <;> decide +kernel

theorem wit_Fuse_1c :
    (Quiet
       ((at' Stt.fuse).modGlb fun g =>
         { g with fuse := { g.fuse with req := 999990 } })) ∧
    (((at' Stt.fuse).modGlb fun g =>
             { g with fuse := { g.fuse with req := 999990 } }).glb.stt =
       Stt.fuse) ∧
    (((at' Stt.fuse).modGlb fun g =>
               { g with fuse := { g.fuse with req := 999990 } }).glb.fuse.done =
       false) ∧
    (((at' Stt.fuse).modGlb fun g =>
               { g with fuse := { g.fuse with req := 999990 } }).glb.fuse.idx <
       15) ∧
    (((at' Stt.fuse).modGlb fun g =>
             { g with fuse := { g.fuse with req := 999990 } }).reached
         (((at' Stt.fuse).modGlb fun g =>
                   { g with fuse := { g.fuse with req := 999990 } }).glb.fuse.req +
           50) =
       false) := by
  refine ⟨quiet_of _ ?_, ?_⟩ <;> decide +kernel

theorem wit_Fuse_2 :
    (Quiet fuse15') ∧
    (fuse15'.glb.stt = Stt.fuse) ∧
    (fuse15'.glb.fuse.done = false) ∧
    (fuse15'.glb.fuse.idx = 15) ∧
    ((fuse15'.slice 0).ar.init ≠ 1023) ∧
    (Instr.fuseWordAck 3238002687 = Instr.fuseWordAck 3238002687 ∨
       Instr.fuseWordAck 3238002687 = Instr.fuseAckTimeout ∧ fuse15'.reached (fuse15'.glb.fuse.req + 50) = true) := by
  refine ⟨quiet_of _ ?_, ?_⟩ <;> decide +kernel

theorem wit_Fuse_3 :
    (Quiet fuse15') ∧
    (fuse15'.glb.stt = Stt.fuse) ∧
    (fuse15'.glb.fuse.done = false) ∧
    (fuse15'.glb.fuse.idx = 15) ∧
    ((fuse15'.slice 0).ar.init ≠ 1023) ∧
    (Instr.fuseAckTimeout = Instr.fuseWordAck 7 ∨
       Instr.fuseAckTimeout = Instr.fuseAckTimeout ∧ fuse15'.reached (fuse15'.glb.fuse.req + 50) = true) := by
  refine ⟨quiet_of _ ?_, ?_⟩ <;> decide +kernel

/-! ### InitAndCheckEnd -/

theorem wit_Init_1 :
    (Quiet (initing 0)) ∧
    (((initing 0).slice 3).ctl.resetting = false) ∧
    (((initing 0).slice 3).ctl.testing = false) ∧
    (((initing 0).slice 3).ar.init.getLsbD 0 = false) ∧
    ((initing 0).pdOn (arrayDomain 3 0) = true) ∧
    ((initing 0).glb.stt ≠ Stt.reset) ∧
    ((initing 0).glb.stt ≠ Stt.fuse) ∧
    ((initing 0).usableSlice 3 = true) := by
  refine ⟨quiet_of _ ?_, ?_⟩ <;> decide +kernel

theorem wit_Init_1b :
    (Quiet (initing 9)) ∧
    (((initing 9).slice 3).ctl.resetting = false) ∧
    (((initing 9).slice 3).ctl.testing = false) ∧
    (((initing 9).slice 3).ar.init.getLsbD 9 = false) ∧
    ((initing 9).pdOn (arrayDomain 3 9) = true) ∧
    ((initing 9).glb.stt ≠ Stt.reset) ∧
    ((initing 9).glb.stt ≠ Stt.fuse) ∧
    ((initing 9).usableSlice 3 = true) := by
  refine ⟨quiet_of _ ?_, ?_⟩ <;> decide +kernel

theorem wit_Init_1c :
    (Quiet (initing 5)) ∧
    (((initing 5).slice 3).ctl.resetting = false) ∧
    (((initing 5).slice 3).ctl.testing = false) ∧
    (((initing 5).slice 3).ar.init.getLsbD 5 = false) ∧
    ((initing 5).pdOn (arrayDomain 3 5) = true) ∧
    ((initing 5).glb.stt ≠ Stt.reset) ∧
    ((initing 5).glb.stt ≠ Stt.fuse) ∧
    ((initing 5).usableSlice 3 = true) := by
  refine ⟨quiet_of _ ?_, ?_⟩ <;> decide +kernel

theorem wit_Init_2 :
    (Quiet chkDue) ∧
    ((chkDue.slice 3).ctl.resetting = false) ∧
    ((chkDue.slice 3).ctl.testing = false) ∧
    ((chkDue.slice 3).uc.due = bankBit true) ∧
    (chkDue.glb.ld.st.res ≠ Res.running) ∧
    (chkDue.flt.run = none) := by
  refine ⟨quiet_of _ ?_, ?_⟩ <;> decide +kernel

theorem wit_Init_3 :
    (Quiet
       (((initing 2).modGlb fun g =>
             { g with stt := Stt.init }).modGlb
         fun g =>
         { g with stt := Stt.ready })) ∧
    (((initing 2).modGlb fun g =>
             { g with stt := Stt.init }).usableSlice
         3 =
       true) ∧
    ((((initing 2).modGlb fun g =>
                 { g with stt := Stt.init }).slice
             3).ctl.resetting =
       false) ∧
    ((((initing 2).modGlb fun g =>
                 { g with stt := Stt.init }).slice
             3).ctl.testing =
       false) ∧
    (((initing 2).modGlb fun g =>
             { g with stt := Stt.init }).flt.run =
       none) ∧
    (((initing 2).modGlb fun g =>
             { g with stt := Stt.init }).glb.stt =
       Stt.init) ∧
    ((((initing 2).modGlb fun g =>
                     { g with stt := Stt.init }).slice
                 3).ar.init.getLsbD
         2 =
       false) ∧
    (((initing 2).modGlb fun g =>
             { g with stt := Stt.init }).pdOn
         (arrayDomain 3 2) =
       true) := by
  refine ⟨quiet_of _ ?_, ?_⟩ <;> decide +kernel

theorem wit_Init_4 :
    (Quiet
       ((trained true 3).modGlb fun g =>
         { g with stt := Stt.ready })) ∧
    ((trained true 3).usableSlice 3 = true) ∧
    (((trained true 3).slice 3).ctl.resetting = false) ∧
    (((trained true 3).slice 3).ctl.testing = false) ∧
    ((trained true 3).flt.run = none) ∧
    ((trained true 3).glb.stt = Stt.train) ∧
    (((trained true 3).chan 3).trn.phase = TrnPhase.latched) ∧
    (((trained true 3).chan 3).trn.fail = false) ∧
    (((trained true 3).chan 3).resetting = false) ∧
    (((trained true 3).chan 3).trn.st.res ≠ Res.running) := by
  refine ⟨quiet_of _ ?_, ?_⟩ <;> decide +kernel

theorem wit_Init_4b :
    (Quiet
       ((trained false 3).modGlb fun g =>
         { g with stt := Stt.ready })) ∧
    ((trained false 3).usableSlice 3 = true) ∧
    (((trained false 3).slice 3).ctl.resetting = false) ∧
    (((trained false 3).slice 3).ctl.testing = false) ∧
    ((trained false 3).flt.run = none) ∧
    ((trained false 3).glb.stt = Stt.train) ∧
    (((trained false 3).chan 3).trn.phase = TrnPhase.latched) ∧
    (((trained false 3).chan 3).trn.fail = false) ∧
    (((trained false 3).chan 3).resetting = false) ∧
    (((trained false 3).chan 3).trn.st.res ≠ Res.running) := by
  refine ⟨quiet_of _ ?_, ?_⟩ <;> decide +kernel

theorem wit_Init_5 :
    (Quiet
       ((chkEmpty.modGlb fun g =>
             { g with stt := Stt.load }).modGlb
         fun g =>
         { g with stt := Stt.ready })) ∧
    (((chkEmpty.modGlb fun g =>
                   { g with stt := Stt.load }).slice
               3).uc.check
         true =
       none) ∧
    ((chkEmpty.modGlb fun g =>
             { g with stt := Stt.load }).usableSlice
         3 =
       true) ∧
    (((chkEmpty.modGlb fun g =>
                 { g with stt := Stt.load }).slice
             3).ctl.resetting =
       false) ∧
    (((chkEmpty.modGlb fun g =>
                 { g with stt := Stt.load }).slice
             3).ctl.testing =
       false) ∧
    ((chkEmpty.modGlb fun g =>
             { g with stt := Stt.load }).flt.run =
       none) ∧
    ((chkEmpty.modGlb fun g =>
             { g with stt := Stt.load }).glb.stt =
       Stt.load) ∧
    (((chkEmpty.modGlb fun g =>
                 { g with stt := Stt.load }).slice
             3).uc.due =
       bankBit true) := by
  refine ⟨quiet_of _ ?_, (show (chkEmpty.slice 3).uc.check true = none from chkEmpty_check), ?_⟩ <;> decide +kernel

/-! ### FlitsCarryMessages -/

theorem wit_FlitsCarryMessages_1 : 0x13 ≤ (0x13 : BitVec 5).toNat := by decide
theorem wit_FlitsCarryMessages_2 : answerCmd .rspI 3 rs0 = some (.rspi 3 rs0) := rfl
theorem wit_FlitsCarryMessages_3 : reqFlitCommand 0 (flitOf (reqWord 0 rq0)) = some (reqCommand .rdShd 0 rq0) := by decide +kernel
theorem wit_FlitsCarryMessages_4 : rspFlitCommand 3 (flitOf (rspWord RspOp.rspI.code rs0)) = some (.rspi 3 rs0) := by decide +kernel

theorem wit_FlitsCarryMessages_5 : datFlitCommand 0 (flitOf (datWord DatOp.datWr.code true dt0)) = some (.datwr 0 dt0) := by
  unfold datFlitCommand flitIn flitOf
  rw [above_crc, of_crc, if_pos rfl]
  decide +kernel

/-! ### RequestIsAdmitted -/

theorem wit_Adm_1 :
    (Quiet on) ∧
    (FlitPasses on 0 rq0.src) ∧
    (Admissible on 0 ReqOp.rdShd rq0 5 5) ∧
    (∀ k ∈ (on.port 0).held, k.a.src ≠ rq0.src ∧ k.a.pa ≠ rq0.pa) ∧
    (on.malformed ReqOp.rdShd rq0 = none) ∧
    (if needsCompanion ReqOp.rdShd rq0.arg = true then
       (on.port (0 : Fin (24 : ℕ))).companionOf rq0.src rq0.atag = none ∧ (none : Option Unit) ≠ none
     else (none : Option Unit) = none) := by
  refine ⟨quiet_of _ ?_, passes _ _ _ ?_, admits _ _ _ _ _ _ ?_, ?_⟩ <;> decide +kernel

theorem wit_Adm_2 :
    (Quiet orphAt) ∧
    (FlitPasses orphAt 0 wf0.src) ∧
    (Admissible orphAt 0 ReqOp.wrFull wf0 5 5) ∧
    (∀ k ∈ (orphAt.port 0).held, k.a.src ≠ wf0.src ∧ k.a.pa ≠ wf0.pa) ∧
    (orphAt.malformed ReqOp.wrFull wf0 = none) ∧
    (if needsCompanion ReqOp.wrFull wf0.arg = true then (orphAt.port 0).companionOf wf0.src wf0.atag = some orph ∧ some orph ≠ none
     else some orph = none) := by
  refine ⟨quiet_of _ ?_, passes _ _ _ ?_, admits _ _ _ _ _ _ ?_, ?_⟩ <;> decide +kernel

theorem wit_Adm_3 :
    (Quiet on) ∧
    (FlitPasses on 0 wAdm_3r.src) ∧
    (Admissible on 0 ReqOp.drainO wAdm_3r 0 0) ∧
    (∀ k ∈ (on.port 0).held, k.a.src ≠ wAdm_3r.src ∧ k.a.pa ≠ wAdm_3r.pa) ∧
    (on.malformed ReqOp.drainO wAdm_3r = none) ∧
    (if needsCompanion ReqOp.drainO wAdm_3r.arg = true then
       (on.port (0 : Fin (24 : ℕ))).companionOf wAdm_3r.src wAdm_3r.atag = none ∧ (none : Option Unit) ≠ none
     else (none : Option Unit) = none) := by
  refine ⟨quiet_of _ ?_, passes _ _ _ ?_, admits _ _ _ _ _ _ ?_, ?_⟩ <;> decide +kernel

theorem wit_Adm_4 :
    (Quiet on) ∧
    (FlitPasses on 0 wAdm_3r.src) ∧
    (Admissible on 0 ReqOp.drainE wAdm_3r 0 0) ∧
    (∀ k ∈ (on.port 0).held, k.a.src ≠ wAdm_3r.src ∧ k.a.pa ≠ wAdm_3r.pa) ∧
    (on.malformed ReqOp.drainE wAdm_3r = none) ∧
    (if needsCompanion ReqOp.drainE wAdm_3r.arg = true then
       (on.port (0 : Fin (24 : ℕ))).companionOf wAdm_3r.src wAdm_3r.atag = none ∧ (none : Option Unit) ≠ none
     else (none : Option Unit) = none) := by
  refine ⟨quiet_of _ ?_, passes _ _ _ ?_, admits _ _ _ _ _ _ ?_, ?_⟩ <;> decide +kernel

/-! ### CompanionsAndTheirRequests -/

theorem wit_Comp_1 :
    (Quiet on) ∧
    (FlitPasses on 0 dt0.agt) ∧
    (dt0.id = (0 : PartId) ++ (5 : ATag)) ∧
    ((on.port 0).errDat.contains (dt0.agt, 5) = false) ∧
    ((on.port 0).errAny.contains (dt0.agt, 5) = false) ∧
    (∀ k ∈ (on.port 0).held, ¬(k.why = Hold.companion ∧ k.a.src = dt0.agt ∧ k.a.atag = 5)) := by
  refine ⟨quiet_of _ ?_, passes _ _ _ ?_, ?_⟩ <;> decide +kernel

theorem wit_Comp_2 :
    (Quiet errd) ∧
    (FlitPasses errd 0 dt0.agt) ∧
    (dt0.id = (0 : PartId) ++ (5 : ATag)) ∧
    ((errd.port 0).errDat.contains (dt0.agt, 5) = true) ∧
    (((errd.port 0).dIss 0).toNat ≤ errd.dLimit 0 0) := by
  refine ⟨quiet_of _ ?_, passes _ _ _ ?_, ?_⟩ <;> decide +kernel

theorem wit_Comp_3 :
    (Quiet hAt) ∧
    (FlitPasses hAt 0 dt0.agt) ∧
    (Admissible hAt 0 hWr.op hWr.a 5 5) ∧
    (dt0.id = (0 : PartId) ++ (5 : ATag)) ∧
    ((hAt.port 0).errDat.contains (dt0.agt, 5) = false) ∧
    ((hAt.port 0).held = [hWr]) ∧
    (hWr.why = Hold.companion) ∧
    (hWr.a.src = dt0.agt) ∧
    (hWr.a.atag = 5) := by
  refine ⟨quiet_of _ ?_, passes _ _ _ ?_, admits _ _ _ _ _ _ ?_, ?_⟩ <;> decide +kernel

theorem wit_Comp_4 :
    (Quiet hAt) ∧
    (mild hAt (srcPort 0)) ∧
    ((hAt.port 0).up = true) ∧
    ((hAt.port 0).held = [hWr]) ∧
    (hWr.why = Hold.companion) ∧
    (hWr.a.src = 0) ∧
    (hWr.a.atag = 5) ∧
    (hAt.reached (hWr.at' + 1000) = true) ∧
    (hWr.cd = none) ∧
    (portOf 0 = some 0) ∧
    (hAt.agFenced 0 = false) ∧
    (hWr.a.gen = (hAt.part hWr.a.part).gen) ∧
    (((hAt.port 0).rIss hWr.a.part).toNat ≤ hAt.rLimit 0 hWr.a.part) := by
  refine ⟨quiet_of _ ?_, (show _ < _ from ?_), ?_⟩ <;> decide +kernel

theorem wit_Comp_5 :
    (Quiet orphLate) ∧
    (mild orphLate (srcPort 0)) ∧
    ((orphLate.port 0).up = true) ∧
    ((orphLate.port 0).orphans = [wComp_5o]) ∧
    (wComp_5o.src = 0) ∧
    (wComp_5o.atag = 9) ∧
    (orphLate.reached (wComp_5o.at' + 1000) = true) ∧
    (((orphLate.port 0).dIss wComp_5o.part).toNat ≤ orphLate.dLimit 0 wComp_5o.part) := by
  refine ⟨quiet_of _ ?_, (show _ < _ from ?_), ?_⟩ <;> decide +kernel

/-! ### RequestIsTurnedAway -/

theorem wit_Turn_1 :
    (Quiet on) ∧
    (mild on (srcPort 0)) ∧
    ((on.port 0).up = true) ∧
    (on.portFenced 0 = false) ∧
    (carries 0 wTurn_1r.src = false) := by
  refine ⟨quiet_of _ ?_, (show _ < _ from ?_), ?_⟩ <;> decide +kernel

theorem wit_Turn_2 :
    (Quiet on) ∧
    (FlitPasses on 0 wTurn_2r.src) ∧
    ((on.port 0).up = true) ∧
    (on.portFenced 0 = false) ∧
    (on.malformed ReqOp.rdShd wTurn_2r = some 5) ∧
    (wTurn_2r.gen = (on.part wTurn_2r.part).gen) ∧
    (((on.port 0).rIss wTurn_2r.part).toNat ≤ on.rLimit 0 wTurn_2r.part) ∧
    (((on.port 0).dIss wTurn_2r.part).toNat ≤ on.dLimit 0 wTurn_2r.part) := by
  refine ⟨quiet_of _ ?_, passes _ _ _ ?_, ?_⟩ <;> decide +kernel

theorem wit_Turn_3 :
    (Quiet on) ∧
    (FlitPasses on 0 rq0.src) ∧
    ((on.port 0).up = true) ∧
    (on.portFenced 0 = false) ∧
    (on.malformed ReqOp.wrFull rq0 = none) ∧
    (needsCompanion ReqOp.wrFull rq0.arg = true) ∧
    ((on.port 0).companionOf rq0.src rq0.atag = none) := by
  refine ⟨quiet_of _ ?_, passes _ _ _ ?_, ?_⟩ <;> decide +kernel

theorem wit_Turn_4 :
    (Quiet on) ∧
    (FlitPasses on 0 wTurn_4r.src) ∧
    ((on.port 0).up = true) ∧
    (on.portFenced 0 = false) ∧
    (on.malformed ReqOp.rdShd wTurn_4r = none) ∧
    (needsCompanion ReqOp.rdShd wTurn_4r.arg = false) ∧
    (wTurn_4r.gen ≠ (on.part wTurn_4r.part).gen) := by
  refine ⟨quiet_of _ ?_, passes _ _ _ ?_, ?_⟩ <;> decide +kernel

theorem wit_Turn_5 :
    (Quiet frozen0) ∧
    (FlitPasses frozen0 0 rq0.src) ∧
    ((frozen0.port 0).up = true) ∧
    (frozen0.portFenced 0 = false) ∧
    (frozen0.malformed ReqOp.rdShd rq0 = none) ∧
    (needsCompanion ReqOp.rdShd rq0.arg = false) ∧
    (rq0.gen = (frozen0.part rq0.part).gen) ∧
    ((frozen0.part rq0.part).st ≠ PState.run) := by
  refine ⟨quiet_of _ ?_, passes _ _ _ ?_, ?_⟩ <;> decide +kernel

theorem wit_Turn_6 :
    (Quiet wTurn_6) ∧
    (FlitPasses wTurn_6 0 rq0.src) ∧
    ((wTurn_6.port 0).up = true) ∧
    (wTurn_6.portFenced 0 = false) ∧
    (wTurn_6.malformed ReqOp.rdShd rq0 = none) ∧
    (needsCompanion ReqOp.rdShd rq0.arg = false) ∧
    (rq0.gen = (wTurn_6.part rq0.part).gen) ∧
    ((wTurn_6.part rq0.part).st = PState.run) ∧
    (reqIsDrain ReqOp.rdShd = false → wTurn_6.inAperture rq0.pa = false) ∧
    (((wTurn_6.port 0).rIss rq0.part).toNat ≤ wTurn_6.rLimit 0 rq0.part) ∧
    ((!reqIsDrain ReqOp.rdShd &&
           (!wTurn_6.homed rq0.pa ||
             match wTurn_6.detRgn rq0.pa with
             | none => false
             | some r => !(wTurn_6.rgnAgents r).contains rq0.src || !wTurn_6.flag 60 (4 * BitVec.toNat rq0.part) 30)) =
         true ∨
       wTurn_6.reqHome ReqOp.rdShd rq0 = none) ∧
    (wTurn_6.flt.log.length < 256) := by
  refine ⟨quiet_of _ ?_, passes _ _ _ ?_, ?_⟩ <;> decide +kernel

theorem wit_Turn_7 :
    (Quiet wTurn_7) ∧
    (FlitPasses wTurn_7 0 rq0.src) ∧
    ((wTurn_7.port 0).up = true) ∧
    (wTurn_7.portFenced 0 = false) ∧
    (wTurn_7.malformed ReqOp.rdShd rq0 = none) ∧
    (needsCompanion ReqOp.rdShd rq0.arg = false) ∧
    (rq0.gen = (wTurn_7.part rq0.part).gen) ∧
    ((wTurn_7.part rq0.part).st = PState.run) ∧
    (reqIsDrain ReqOp.rdShd = false → wTurn_7.inAperture rq0.pa = false) ∧
    (((wTurn_7.port 0).rIss rq0.part).toNat ≤ wTurn_7.rLimit 0 rq0.part) ∧
    ((!reqIsDrain ReqOp.rdShd &&
           (!wTurn_7.homed rq0.pa ||
             match wTurn_7.detRgn rq0.pa with
             | none => false
             | some r => !(wTurn_7.rgnAgents r).contains rq0.src || !wTurn_7.flag 60 (4 * BitVec.toNat rq0.part) 30)) =
         true ∨
       wTurn_7.reqHome ReqOp.rdShd rq0 = none) ∧
    (wTurn_7.flt.log.length < 256) := by
  refine ⟨quiet_of _ ?_, passes _ _ _ ?_, ?_⟩ <;> decide +kernel

theorem wit_Turn_8 :
    (Quiet on) ∧
    (FlitPasses on 0 rq0.src) ∧
    (19 ≤ 19) ∧
    (rq0.gen = (on.part rq0.part).gen) ∧
    ((on.port 0).companionOf rq0.src rq0.atag = none) ∧
    (((on.port 0).rIss rq0.part).toNat ≤ on.rLimit 0 rq0.part) := by
  refine ⟨quiet_of _ ?_, passes _ _ _ ?_, ?_⟩ <;> decide +kernel

theorem wit_Turn_9 :
    (Quiet on) ∧
    (FlitPasses on 1 rs0.src) ∧
    (mild on (srcPort 1)) ∧
    (5 = RspOp.comp.code ∨ 5 = RspOp.retry.code ∨ 5 = RspOp.err.code ∨ 9 ≤ 5) := by
  refine ⟨quiet_of _ ?_, passes _ _ _ ?_, (show _ < _ from ?_), ?_⟩ <;> decide +kernel

theorem wit_Turn_9b :
    (Quiet on) ∧
    (FlitPasses on 1 rs0.src) ∧
    (mild on (srcPort 1)) ∧
    (9 = RspOp.comp.code ∨ 9 = RspOp.retry.code ∨ 9 = RspOp.err.code ∨ 9 ≤ 9) := by
  refine ⟨quiet_of _ ?_, passes _ _ _ ?_, (show _ < _ from ?_), ?_⟩ <;> decide +kernel

theorem wit_Turn_10 :
    (Quiet on) ∧
    (FlitPasses on 0 dt0.agt) ∧
    (mild on (srcPort 0)) ∧
    (5 ≠ DatOp.datDirty.code) ∧
    (5 ≠ DatOp.datWr.code) := by
  refine ⟨quiet_of _ ?_, passes _ _ _ ?_, (show _ < _ from ?_), ?_⟩ <;> decide +kernel

/-! ### UntrustedPortIsRefused -/

theorem wit_Unt_1 :
    (Quiet on) ∧
    (on.glb.fuse.trust.getLsbD 3 = false) ∧
    (Instr.csrWrite (CsrPath.port 3) 3 4 4294967295 ∈
       [Instr.csrWrite (CsrPath.port 3) 3 4 4294967295, Instr.mailboxTriggerRead (CsrPath.port 3) 3 4,
         Instr.aliasAccess (CsrPath.port 3) 3 4 3 (some true)]) := by
  refine ⟨quiet_of _ ?_, ?_⟩ <;> decide +kernel

theorem wit_Unt_1b :
    (Quiet on) ∧
    (on.glb.fuse.trust.getLsbD 3 = false) ∧
    (Instr.mailboxTriggerRead (CsrPath.port 3) 3 4 ∈
       [Instr.csrWrite (CsrPath.port 3) 3 4 4294967295, Instr.mailboxTriggerRead (CsrPath.port 3) 3 4,
         Instr.aliasAccess (CsrPath.port 3) 3 4 3 (some true)]) := by
  refine ⟨quiet_of _ ?_, ?_⟩ <;> decide +kernel

theorem wit_Unt_1c :
    (Quiet on) ∧
    (on.glb.fuse.trust.getLsbD 3 = false) ∧
    (Instr.aliasAccess (CsrPath.port 3) 3 4 3 (some true) ∈
       [Instr.csrWrite (CsrPath.port 3) 3 4 4294967295, Instr.mailboxTriggerRead (CsrPath.port 3) 3 4,
         Instr.aliasAccess (CsrPath.port 3) 3 4 3 (some true)]) := by
  refine ⟨quiet_of _ ?_, ?_⟩ <;> decide +kernel

theorem wit_Unt_2 :
    (Quiet on) ∧
    (FlitPasses on 0 wUnt_2r.src) ∧
    (on.glb.fuse.trust.getLsbD 0 = false) ∧
    (reqIsDrain ReqOp.rdCur = false) ∧
    (on.malformed ReqOp.rdCur wUnt_2r = none) ∧
    (if needsCompanion ReqOp.rdCur wUnt_2r.arg = true then
       (on.port (0 : Fin (24 : ℕ))).companionOf wUnt_2r.src wUnt_2r.atag = none ∧ (none : Option Unit) ≠ none
     else (none : Option Unit) = none) ∧
    (wUnt_2r.gen = (on.part wUnt_2r.part).gen) ∧
    ((on.part wUnt_2r.part).st = PState.run) ∧
    (on.inAperture wUnt_2r.pa = true) ∧
    (((on.port 0).rIss wUnt_2r.part).toNat ≤ on.rLimit 0 wUnt_2r.part) ∧
    (((on.port 0).dIss wUnt_2r.part).toNat ≤ on.dLimit 0 wUnt_2r.part) ∧
    (on.flt.log.length < 256) := by
  refine ⟨quiet_of _ ?_, passes _ _ _ ?_, ?_⟩ <;> decide +kernel

theorem wit_Unt_3 :
    (Quiet orphAt) ∧
    (FlitPasses orphAt 0 wUnt_3r.src) ∧
    (orphAt.glb.fuse.trust.getLsbD 0 = false) ∧
    (reqIsDrain ReqOp.wrPart = false) ∧
    (orphAt.malformed ReqOp.wrPart wUnt_3r = none) ∧
    (if needsCompanion ReqOp.wrPart wUnt_3r.arg = true then
       (orphAt.port 0).companionOf wUnt_3r.src wUnt_3r.atag = some orph ∧ some orph ≠ none
     else some orph = none) ∧
    (wUnt_3r.gen = (orphAt.part wUnt_3r.part).gen) ∧
    ((orphAt.part wUnt_3r.part).st = PState.run) ∧
    (orphAt.inAperture wUnt_3r.pa = true) ∧
    (((orphAt.port 0).rIss wUnt_3r.part).toNat ≤ orphAt.rLimit 0 wUnt_3r.part) ∧
    (((orphAt.port 0).dIss wUnt_3r.part).toNat ≤ orphAt.dLimit 0 wUnt_3r.part) ∧
    (orphAt.flt.log.length < 256) := by
  refine ⟨quiet_of _ ?_, passes _ _ _ ?_, ?_⟩ <;> decide +kernel

/-! ### BucketsRefillAndCreditsReturn -/

theorem wit_Bucket :
    (Quiet reg1) ∧
    (reg1.flag 58 (regOff 0 false) 31 = true) := by
  refine ⟨quiet_of _ ?_, ?_⟩ <;> decide +kernel

theorem wit_Bucket2 :
    (Quiet on) ∧
    (on.regulates 0 false = false) := by
  refine ⟨quiet_of _ ?_, ?_⟩ <;> decide +kernel

theorem wit_Pulse :
    (Quiet credDue) ∧
    ((credDue.port 0).up = true) := by
  refine ⟨quiet_of _ ?_, ?_⟩ <;> decide +kernel

theorem wit_Pulse2 :
    (Quiet on) ∧
    ((on.port 0).up = true) := by
  refine ⟨quiet_of _ ?_, ?_⟩ <;> decide +kernel

/-! ### AnswerReachesItsTransaction -/

theorem wit_Ans_1 :
    (Quiet on) ∧
    (FlitPasses on 1 rs0.src) ∧
    (answerCmd RspOp.rspS 1 rs0 = some (Instr.rsps 1 rs0)) ∧
    (on.htid (BitVec.extractLsb' 13 5 rs0.loc) (BitVec.extractLsb' 0 13 rs0.loc) = none) ∧
    (∀ g ∈ (on.port 1).egress, g.f.dst ≠ rs0.src) := by
  refine ⟨quiet_of _ ?_, passes _ _ _ ?_, ?_⟩ <;> decide +kernel

theorem wit_Ans_2 :
    (Quiet (withEnt on (ent ReqOp.rdShd (TStat.ready false)))) ∧
    (FlitPasses (withEnt on (ent ReqOp.rdShd (TStat.ready false))) 1 rs0.src) ∧
    (mild (withEnt on (ent ReqOp.rdShd (TStat.ready false))) (srcAgent rs0.src)) ∧
    (answerCmd RspOp.rspI 1 rs0 = some (Instr.rspi 1 rs0)) ∧
    ((withEnt on (ent ReqOp.rdShd (TStat.ready false))).htid (BitVec.extractLsb' 13 5 rs0.loc) (BitVec.extractLsb' 0 13 rs0.loc) =
       some (5, 0, ent ReqOp.rdShd (TStat.ready false))) ∧
    ((ent ReqOp.rdShd (TStat.ready false)).r.port ≠ none) ∧
    (rs0.part = (ent ReqOp.rdShd (TStat.ready false)).r.a.part) ∧
    (rs0.gen = (ent ReqOp.rdShd (TStat.ready false)).r.a.gen) ∧
    (rs0.gen = ((withEnt on (ent ReqOp.rdShd (TStat.ready false))).part rs0.part).gen) ∧
    ((ent ReqOp.rdShd (TStat.ready false)).awaits rs0.src = none) ∧
    (∀ g ∈ ((withEnt on (ent ReqOp.rdShd (TStat.ready false))).port 1).egress, g.f.dst ≠ rs0.src) := by
  refine ⟨quiet_of _ ?_, passes _ _ _ ?_, (show _ < _ from ?_), ?_⟩ <;> decide +kernel

theorem wit_Ans_3 :
    (Quiet aw) ∧
    (FlitPasses aw 1 rsI.src) ∧
    (answerCmd RspOp.rspI 1 rsI = some (Instr.rspi 1 rsI)) ∧
    (aw.htid (BitVec.extractLsb' 13 5 rsI.loc) (BitVec.extractLsb' 0 13 rsI.loc) = some (5, 0, awE)) ∧
    (awE.r.port ≠ none) ∧
    (rsI.part = awE.r.a.part) ∧
    (rsI.gen = awE.r.a.gen) ∧
    (rsI.gen = (aw.part rsI.part).gen) ∧
    (awE.awaits rsI.src = some aw2) ∧
    ((aw.port 1).egress = [eg0]) ∧
    (eg0.isFor rsI.src 5 0 = true) ∧
    (eg0.sent = true) ∧
    (eg0.rspIn = false) ∧
    (eg0.reported = false) ∧
    (aw.answerGen eg0 rsI.part rsI.gen = true) ∧
    (answerBad aw2.anon aw2.op RspOp.rspI rsI = false) ∧
    (awE.we.covers rsI.src = true) ∧
    (awE.stat ≠ TStat.awaiting) ∧
    (eg0.datIn = true → ∀ k ∈ awE.h.await, k.ag = rsI.src → k.got = true) ∧
    (aw.flag 63 320 31 = false) ∧
    ((aw.slice 5).ar.inj = []) := by
  refine ⟨quiet_of _ ?_, passes _ _ _ ?_, ?_⟩ <;> decide +kernel

/-! ### DirtyDataIsTaken -/

theorem wit_Dirty :
    (Quiet dd) ∧
    (FlitPasses dd 1 dd0.agt) ∧
    (dd.htid (BitVec.extractLsb' 13 5 dd0.id) (BitVec.extractLsb' 0 13 dd0.id) = some (5, 0, ddE)) ∧
    (ddE.r.port ≠ none) ∧
    (dd0.gen = ddE.r.a.gen) ∧
    (dd0.gen = (dd.part ddE.r.a.part).gen) ∧
    (ddE.awaitsDat dd0.agt = true) ∧
    ((dd.port 1).egress = [eg0]) ∧
    (eg0.isFor dd0.agt 5 0 = true) ∧
    (eg0.datIn = false) ∧
    (eg0.rspIn = false) ∧
    (eg0.area = true) ∧
    (eg0.sent = true) ∧
    (eg0.f.rag = 63 ∨ eg0.f.rgen = dd0.gen) ∧
    (dd0.stat = 0) ∧
    (dd0.grant = 0) ∧
    (ddE.we.covers dd0.agt = true) ∧
    (ddE.h.absorbed = []) ∧
    (ddE.r.kind ≠ Kind.req ReqOp.wrFull) ∧
    (ddE.m.fwdd = false) ∧
    (ddE.stat ≠ TStat.awaiting) ∧
    (dd.chLost ddE.r.home = false) ∧
    ((dd.slice 5).mem.wtWait = []) ∧
    ((dd.slice 5).mem.wmb = []) ∧
    ((dd.slice 5).ar.inj = []) ∧
    (∀ k ∈ (dd.slice 5).ents, k.1 ≠ 0 → k.2.r.a.pa ≠ ddE.r.a.pa) ∧
    (dd.flag 63 320 31 = false) := by
  refine ⟨quiet_of _ ?_, passes _ _ _ ?_, ?_⟩ <;> decide +kernel

/-! ### CompAckSetsCa -/

theorem wit_Ca_1 :
    (Quiet caS) ∧
    (FlitPasses caS 0 ca0.src) ∧
    (ca0.gen = (caS.part ca0.part).gen) ∧
    (caS.servingSlice (caS.homeOf ca0.loc) ca0.loc = some 5) ∧
    ((caS.slice 5).asleep = false) ∧
    (caS.flag 63 320 31 = false) ∧
    ((caS.slice 5).ar.inj = []) ∧
    ((caS.slice 5).opener ca0.loc = some (0, caE)) ∧
    (caS.ent 5 0 = some caE) ∧
    (caE.r.a.src = ca0.src) ∧
    (caE.r.a.part = ca0.part) ∧
    (caE.r.a.gen = ca0.gen) ∧
    (caE.r.port ≠ none) ∧
    (caE.h.grp = none) := by
  refine ⟨quiet_of _ ?_, passes _ _ _ ?_, ?_⟩ <;> decide +kernel

theorem wit_Ca_2 :
    (Quiet on) ∧
    (FlitPasses on 0 ca0.src) ∧
    (mild on (srcPort 0)) ∧
    (ca0.gen = (on.part ca0.part).gen) ∧
    (on.servingSlice (on.homeOf ca0.loc) ca0.loc = some 5) ∧
    ((on.slice 5).asleep = false) ∧
    (on.flag 63 320 31 = false) ∧
    ((on.slice 5).opener ca0.loc = none) := by
  refine ⟨quiet_of _ ?_, passes _ _ _ ?_, (show _ < _ from ?_), ?_⟩ <;> decide +kernel

/-! ### ForwardedDataPasses -/

theorem wit_Fwd_1 :
    (Quiet
       (on.modSrc (srcPort 0) fun x =>
         { x with fenced := true })) ∧
    (((on.modSrc (srcPort 0) fun x =>
               { x with fenced := true }).port
           0).up =
       true) ∧
    ((on.modSrc (srcPort 0) fun x =>
             { x with fenced := true }).portFenced
         0 =
       true) := by
  refine ⟨quiet_of _ ?_, ?_⟩ <;> decide +kernel

theorem wit_Fwd_1b :
    (Quiet on) ∧
    ((on.port 0).up = true) ∧
    (on.portFenced 0 = false) ∧
    (datOpOf 2 = some DatOp.datDirty) ∧
    (DatOp.datDirty ≠ DatOp.datWr) ∧
    (portOf fw0.agt = some 1) ∧
    (∀ g ∈ (on.port 0).egress, g.waitsArea = false) ∧
    (on.agFenced fw0.agt = false) ∧
    (fw0.gen = (on.part (BitVec.extractLsb' 12 6 fw0.id)).gen) ∧
    ((on.port 1).up = true) := by
  refine ⟨quiet_of _ ?_, ?_⟩ <;> decide +kernel

theorem wit_Fwd_2 :
    (Quiet on) ∧
    (mild on (srcPort 0)) ∧
    ((on.port 0).up = true) ∧
    (on.portFenced 0 = false) ∧
    (datOpOf 31 = none ∨ datOpOf 31 = some DatOp.datWr ∨ portOf fw0.agt = none) := by
  refine ⟨quiet_of _ ?_, (show _ < _ from ?_), ?_⟩ <;> decide +kernel

theorem wit_Fwd_3 :
    (Quiet on) ∧
    (mild on (srcPort 0)) ∧
    ((on.port 0).up = true) ∧
    (on.portFenced 0 = false) ∧
    (datOpOf 3 = none ∨ datOpOf 3 = some DatOp.datWr ∨ portOf fw0.agt = none) := by
  refine ⟨quiet_of _ ?_, (show _ < _ from ?_), ?_⟩ <;> decide +kernel

theorem wit_Fwd_3b :
    (Quiet on) ∧
    (mild on (srcPort 0)) ∧
    ((on.port 0).up = true) ∧
    (on.portFenced 0 = false) ∧
    (datOpOf 0 = none ∨
       datOpOf 0 = some DatOp.datWr ∨
         portOf
             ({ fw0 with agt := 63 : DatArgs }).agt =
           none) := by
  refine ⟨quiet_of _ ?_, (show _ < _ from ?_), ?_⟩ <;> decide +kernel

theorem wit_Fwd_4 :
    (Quiet on) ∧
    ((on.port 0).up = true) ∧
    (on.portFenced 0 = false) ∧
    (datOpOf 0 = some DatOp.datShd) ∧
    (DatOp.datShd ≠ DatOp.datWr) ∧
    (portOf
         ({ fw0 with gen := 3 : DatArgs }).agt =
       some 1) ∧
    (∀ g ∈ (on.port 0).egress, g.waitsArea = false) ∧
    (on.agFenced
           ({ fw0 with gen := 3 : DatArgs }).agt =
         true ∨
       ({ fw0 with gen := 3 : DatArgs }).gen ≠
         (on.part
             (BitVec.extractLsb' 12 6
               ({ fw0 with gen := 3 : DatArgs }).id)).gen) := by
  refine ⟨quiet_of _ ?_, ?_⟩ <;> decide +kernel

theorem wit_Fwd_4b :
    (Quiet
       (on.modSrc (srcAgent 2) fun x =>
         { x with fenced := true })) ∧
    (((on.modSrc (srcAgent 2) fun x =>
               { x with fenced := true }).port
           0).up =
       true) ∧
    ((on.modSrc (srcAgent 2) fun x =>
             { x with fenced := true }).portFenced
         0 =
       false) ∧
    (datOpOf 0 = some DatOp.datShd) ∧
    (DatOp.datShd ≠ DatOp.datWr) ∧
    (portOf
         ({ fw0 with gen := 3 : DatArgs }).agt =
       some 1) ∧
    (∀
       g ∈
         ((on.modSrc (srcAgent 2) fun x =>
                 { x with fenced := true }).port
             0).egress,
       g.waitsArea = false) ∧
    ((on.modSrc (srcAgent 2) fun x =>
               { x with fenced := true : Src }).agFenced
           ({ fw0 with gen := 3 : DatArgs }).agt =
         true ∨
       ({ fw0 with gen := 3 : DatArgs }).gen ≠
         ((on.modSrc (srcAgent 2) fun x =>
                 { x with fenced := true : Src }).part
             (BitVec.extractLsb' 12 6
               ({ fw0 with gen := 3 : DatArgs }).id)).gen) := by
  refine ⟨quiet_of _ ?_, ?_⟩ <;> decide +kernel

theorem wit_Fwd_5 :
    (Quiet
       (on.modPort 0 fun x =>
         { x with egress := [egF] })) ∧
    (((on.modPort 0 fun x =>
               { x with egress := [egF] }).port
           0).up =
       true) ∧
    ((on.modPort 0 fun x =>
             { x with egress := [egF] }).portFenced
         0 =
       false) ∧
    (datOpOf 0 = some DatOp.datShd) ∧
    (DatOp.datShd ≠ DatOp.datWr) ∧
    (portOf fw0.agt = some 1) ∧
    (∀
       g ∈
         ((on.modPort 0 fun x =>
                 { x with egress := [egF] }).port
             0).egress,
       g.waitsArea = false) ∧
    ((on.modPort 0 fun x =>
             { x with egress := [egF] }).agFenced
         fw0.agt =
       false) ∧
    (fw0.gen =
       ((on.modPort 0 fun x =>
               { x with egress := [egF] }).part
           (BitVec.extractLsb' 12 6 fw0.id)).gen) ∧
    (((on.modPort 0 fun x =>
               { x with egress := [egF] }).port
           1).up =
       true) := by
  refine ⟨quiet_of _ ?_, ?_⟩ <;> decide +kernel

/-! ### SnoopsLeaveForCredits -/

theorem wit_Snp_1 :
    (Quiet wSnp_1) ∧
    (∀ k ∈ (wSnp_1.port 1).link.snp.waiting, ∃ f, k = Flit.snp f) ∧
    ((wSnp_1.port 1).up = true) ∧
    ((wSnp_1.port 1).nextSnoop = some egN) ∧
    (∀ k ∈ (wSnp_1.port 1).egress, k.waitsArea = false) ∧
    (wSnp_1.agFenced egN.f.dst = true) := by
  refine ⟨quiet_of _ ?_, noneIn ?_, ?_⟩ <;> decide +kernel

theorem wit_Snp_2 :
    (Quiet (sn egN 0)) ∧
    (∀ k ∈ ((sn egN 0).port 1).link.snp.waiting, ∃ f, k = Flit.snp f) ∧
    (((sn egN 0).port 1).up = true) ∧
    (((sn egN 0).port 1).nextSnoop = some egN) ∧
    (∀ k ∈ ((sn egN 0).port 1).egress, k.waitsArea = false) ∧
    ((sn egN 0).agFenced egN.f.dst = false) ∧
    (egN.f.anon = true ∨ egN.f.rgen = ((sn egN 0).part egN.f.rpart).gen) ∧
    (((sn egN 0).port 1).snpCred = 0) := by
  refine ⟨quiet_of _ ?_, noneIn ?_, ?_⟩ <;> decide +kernel

theorem wit_Snp_3 :
    (Quiet (sn egN 255)) ∧
    (∀ k ∈ ((sn egN 255).port 1).link.snp.waiting, ∃ f, k = Flit.snp f) ∧
    (((sn egN 255).port 1).up = true) ∧
    (((sn egN 255).port 1).nextSnoop = some egN) ∧
    (∀ k ∈ ((sn egN 255).port 1).egress, k.waitsArea = false) ∧
    ((sn egN 255).agFenced egN.f.dst = false) ∧
    (egN.f.anon = true ∨ egN.f.rgen = ((sn egN 255).part egN.f.rpart).gen) ∧
    (((sn egN 255).port 1).snpCred ≠ 0) := by
  refine ⟨quiet_of _ ?_, noneIn ?_, ?_⟩ <;> decide +kernel

theorem wit_Snp_3q :
    (Quiet (sn egQ 1)) ∧
    (∀ k ∈ ((sn egQ 1).port 1).link.snp.waiting, ∃ f, k = Flit.snp f) ∧
    (((sn egQ 1).port 1).up = true) ∧
    (((sn egQ 1).port 1).nextSnoop = some egQ) ∧
    (∀ k ∈ ((sn egQ 1).port 1).egress, k.waitsArea = false) ∧
    ((sn egQ 1).agFenced egQ.f.dst = false) ∧
    (egQ.f.anon = true ∨ egQ.f.rgen = ((sn egQ 1).part egQ.f.rpart).gen) ∧
    (((sn egQ 1).port 1).snpCred ≠ 0) := by
  refine ⟨quiet_of _ ?_, noneIn ?_, ?_⟩ <;> decide +kernel

theorem wit_Snp_4 :
    (Quiet (sn egG 1)) ∧
    (∀ k ∈ ((sn egG 1).port 1).link.snp.waiting, ∃ f, k = Flit.snp f) ∧
    (((sn egG 1).port 1).up = true) ∧
    (((sn egG 1).port 1).nextSnoop = some egG) ∧
    (∀ k ∈ ((sn egG 1).port 1).egress, k.waitsArea = false) ∧
    ((sn egG 1).agFenced egG.f.dst = false) ∧
    (egG.f.anon = false) ∧
    (egG.f.rgen ≠ ((sn egG 1).part egG.f.rpart).gen) := by
  refine ⟨quiet_of _ ?_, noneIn ?_, ?_⟩ <;> decide +kernel

/-! ### SnoopCreditsAreHeld -/

theorem wit_SnpCred_1 :
    (Quiet (sn egG 254)) ∧
    (((sn egG 254).port 1).up = true) ∧
    (((sn egG 254).port 1).snpCred < 255) := by
  refine ⟨quiet_of _ ?_, ?_⟩ <;> decide +kernel

theorem wit_SnpCred_2 :
    (Quiet (sn egG 255)) ∧
    (mild (sn egG 255) (srcPort 1)) ∧
    (((sn egG 255).port 1).up = true) ∧
    (255 ≤ ((sn egG 255).port 1).snpCred) := by
  refine ⟨quiet_of _ ?_, (show _ < _ from ?_), ?_⟩ <;> decide +kernel

/-! ### PortLinkAcknowledges -/

theorem wit_Link_snp_ack :
    (Quiet lk) ∧
    ((lk.port 1).up = true) ∧
    ((lk.port 1).link.txAt PortChan.snp = some (lk.port 1).link.snp) ∧
    ((lk.port 1).link.snp.unacked = [(0, fl0)] ++ [(1, fl0), (2, fl0)]) ∧
    (∀ e ∈ [((0 : BitVec (5 : ℕ)), fl0)], e.1 ≠ (1 : BitVec (5 : ℕ))) ∧
    ((lk.port 1).link.snp.waiting = []) := by
  refine ⟨quiet_of _ ?_, ?_⟩ <;> decide +kernel

theorem wit_Link_snp_rep :
    (Quiet lk) ∧
    (mild lk (srcPort 1)) ∧
    ((lk.port 1).up = true) ∧
    ((lk.port 1).link.txAt PortChan.snp = some (lk.port 1).link.snp) ∧
    ((lk.port 1).link.snp.unacked = [(0, fl0)] ++ [(1, fl0), (2, fl0)]) ∧
    (∀ e ∈ [((0 : BitVec (5 : ℕ)), fl0)], e.1 ≠ (1 : BitVec (5 : ℕ))) ∧
    ((lk.port 1).link.snp.waiting = []) := by
  refine ⟨quiet_of _ ?_, (show _ < _ from ?_), ?_⟩ <;> decide +kernel

theorem wit_Link_rspo_ack :
    (Quiet lk) ∧
    ((lk.port 1).up = true) ∧
    ((lk.port 1).link.txAt PortChan.rspo = some (lk.port 1).link.rspo) ∧
    ((lk.port 1).link.rspo.unacked = [(0, fl0)] ++ [(1, fl0), (2, fl0)]) ∧
    (∀ e ∈ [((0 : BitVec (5 : ℕ)), fl0)], e.1 ≠ (1 : BitVec (5 : ℕ))) ∧
    ((lk.port 1).link.rspo.waiting = []) := by
  refine ⟨quiet_of _ ?_, ?_⟩ <;> decide +kernel

theorem wit_Link_rspo_rep :
    (Quiet lk) ∧
    (mild lk (srcPort 1)) ∧
    ((lk.port 1).up = true) ∧
    ((lk.port 1).link.txAt PortChan.rspo = some (lk.port 1).link.rspo) ∧
    ((lk.port 1).link.rspo.unacked = [(0, fl0)] ++ [(1, fl0), (2, fl0)]) ∧
    (∀ e ∈ [((0 : BitVec (5 : ℕ)), fl0)], e.1 ≠ (1 : BitVec (5 : ℕ))) ∧
    ((lk.port 1).link.rspo.waiting = []) := by
  refine ⟨quiet_of _ ?_, (show _ < _ from ?_), ?_⟩ <;> decide +kernel

theorem wit_Link_dato_ack :
    (Quiet lk) ∧
    ((lk.port 1).up = true) ∧
    ((lk.port 1).link.txAt PortChan.dato = some (lk.port 1).link.dato) ∧
    ((lk.port 1).link.dato.unacked = [(0, fl0)] ++ [(1, fl0), (2, fl0)]) ∧
    (∀ e ∈ [((0 : BitVec (5 : ℕ)), fl0)], e.1 ≠ (1 : BitVec (5 : ℕ))) ∧
    ((lk.port 1).link.dato.waiting = []) := by
  refine ⟨quiet_of _ ?_, ?_⟩ <;> decide +kernel

theorem wit_Link_dato_rep :
    (Quiet lk) ∧
    (mild lk (srcPort 1)) ∧
    ((lk.port 1).up = true) ∧
    ((lk.port 1).link.txAt PortChan.dato = some (lk.port 1).link.dato) ∧
    ((lk.port 1).link.dato.unacked = [(0, fl0)] ++ [(1, fl0), (2, fl0)]) ∧
    (∀ e ∈ [((0 : BitVec (5 : ℕ)), fl0)], e.1 ≠ (1 : BitVec (5 : ℕ))) ∧
    ((lk.port 1).link.dato.waiting = []) := by
  refine ⟨quiet_of _ ?_, (show _ < _ from ?_), ?_⟩ <;> decide +kernel

theorem wit_Link_wait :
    (Quiet awaits) ∧
    (mild awaits (srcPort 1)) ∧
    ((PortChan.rspi, (awaits.port (1 : Fin (24 : ℕ))).link.rspi, true) ∈
       [(PortChan.req, (awaits.port (1 : Fin (24 : ℕ))).link.req,
           (flitIn (BitVec.extractLsb' (0 : ℕ) (128 : ℕ) (0 : BitVec (576 : ℕ)))).isNone),
         (PortChan.rspi, (awaits.port (1 : Fin (24 : ℕ))).link.rspi,
           (flitIn (BitVec.extractLsb' (0 : ℕ) (128 : ℕ) (0 : BitVec (576 : ℕ)))).isNone),
         (PortChan.dati, (awaits.port (1 : Fin (24 : ℕ))).link.dati, (flitIn (0 : BitVec (576 : ℕ))).isNone)]) ∧
    ((awaits.port 1).up = true) ∧
    ((awaits.port 1).link.rspi.waitReplay = true) ∧
    (9 ≠ (awaits.port 1).link.rspi.last + 1) := by
  refine ⟨quiet_of _ ?_, (show _ < _ from ?_), ?_⟩ <;> decide +kernel

theorem wit_Link_order :
    (Quiet on) ∧
    (mild on (srcPort 1)) ∧
    ((PortChan.req, (on.port 1).link.req, false) ∈
       [(PortChan.req, (on.port 1).link.req, (flitIn (BitVec.extractLsb' 0 128 goodReq)).isNone),
         (PortChan.rspi, (on.port 1).link.rspi, (flitIn (BitVec.extractLsb' 0 128 goodReq)).isNone),
         (PortChan.dati, (on.port 1).link.dati, (flitIn goodReq).isNone)]) ∧
    ((on.port 1).up = true) ∧
    ((on.port 1).link.req.waitReplay = false) ∧
    (9 ≠ (on.port 1).link.req.last + 1) ∧
    (false = false) ∧
    ((on.port 1).link.req.badRun < 3) := by
  refine ⟨quiet_of _ ?_, (show _ < _ from ?_), ?_⟩ <;> decide +kernel

theorem wit_Link_rspi_rep :
    (Quiet on) ∧
    (mild on (srcPort 1)) ∧
    ((PortChan.rspi, (on.port (1 : Fin (24 : ℕ))).link.rspi, true) ∈
       [(PortChan.req, (on.port (1 : Fin (24 : ℕ))).link.req,
           (flitIn (BitVec.extractLsb' (0 : ℕ) (128 : ℕ) (0 : BitVec (576 : ℕ)))).isNone),
         (PortChan.rspi, (on.port (1 : Fin (24 : ℕ))).link.rspi,
           (flitIn (BitVec.extractLsb' (0 : ℕ) (128 : ℕ) (0 : BitVec (576 : ℕ)))).isNone),
         (PortChan.dati, (on.port (1 : Fin (24 : ℕ))).link.dati, (flitIn (0 : BitVec (576 : ℕ))).isNone)]) ∧
    ((on.port 1).up = true) ∧
    ((on.port 1).link.rspi.waitReplay = false ∨ 1 = (on.port 1).link.rspi.last + 1) ∧
    ((on.port 1).link.rspi.badRun < 2) := by
  refine ⟨quiet_of _ ?_, (show _ < _ from ?_), ?_⟩ <;> decide +kernel

theorem wit_Link_wait_rep :
    (Quiet awaits) ∧
    (mild awaits (srcPort 1)) ∧
    ((PortChan.rspi, (awaits.port (1 : Fin (24 : ℕ))).link.rspi, true) ∈
       [(PortChan.req, (awaits.port (1 : Fin (24 : ℕ))).link.req,
           (flitIn (BitVec.extractLsb' (0 : ℕ) (128 : ℕ) (1 : BitVec (576 : ℕ)))).isNone),
         (PortChan.rspi, (awaits.port (1 : Fin (24 : ℕ))).link.rspi,
           (flitIn (BitVec.extractLsb' (0 : ℕ) (128 : ℕ) (1 : BitVec (576 : ℕ)))).isNone),
         (PortChan.dati, (awaits.port (1 : Fin (24 : ℕ))).link.dati, (flitIn (1 : BitVec (576 : ℕ))).isNone)]) ∧
    ((awaits.port 1).up = true) ∧
    ((awaits.port 1).link.rspi.waitReplay = false ∨ 5 = (awaits.port 1).link.rspi.last + 1) ∧
    ((awaits.port 1).link.rspi.badRun < 2) := by
  refine ⟨quiet_of _ ?_, (show _ < _ from ?_), ?_⟩ <;> decide +kernel

theorem wit_Link_6 :
    (Quiet bad2) ∧
    (mild bad2 (srcPort 1)) ∧
    ((PortChan.req, (bad2.port (1 : Fin (24 : ℕ))).link.req, true) ∈
       [(PortChan.req, (bad2.port (1 : Fin (24 : ℕ))).link.req,
           (flitIn (BitVec.extractLsb' (0 : ℕ) (128 : ℕ) (0 : BitVec (576 : ℕ)))).isNone),
         (PortChan.rspi, (bad2.port (1 : Fin (24 : ℕ))).link.rspi,
           (flitIn (BitVec.extractLsb' (0 : ℕ) (128 : ℕ) (0 : BitVec (576 : ℕ)))).isNone),
         (PortChan.dati, (bad2.port (1 : Fin (24 : ℕ))).link.dati, (flitIn (0 : BitVec (576 : ℕ))).isNone)]) ∧
    ((bad2.port 1).up = true) ∧
    ((bad2.port 1).link.req.waitReplay = false ∨ 1 = (bad2.port 1).link.req.last + 1) ∧
    ((bad2.port 1).link.req.badRun = 2) ∧
    ((bad2.src (srcPort 1)).severe = false) ∧
    (bad2.fld 59 260 5 4 = 0) ∧
    (bad2.fld 59 260 3 2 = 0) ∧
    (bad2.fld 59 260 1 0 = 0) := by
  refine ⟨quiet_of _ ?_, (show _ < _ from ?_), ?_⟩ <;> decide +kernel

theorem wit_Link_7 :
    (Quiet
       (on.modPort 1 fun x =>
         { x with up := false })) ∧
    (((on.modPort 1 fun x =>
               { x with up := false }).port
           1).up =
       false) := by
  refine ⟨quiet_of _ ?_, ?_⟩ <;> decide +kernel

theorem wit_Link_8 :
    (Quiet
       (on.modPort 1 fun x =>
         { x with up := false })) ∧
    (((on.modPort 1 fun x =>
               { x with up := false }).port
           1).up =
       false) := by
  refine ⟨quiet_of _ ?_, ?_⟩ <;> decide +kernel

/-! ### DeadlinesAndLevelsAtThePort -/

theorem wit_Dl_1 :
    (Quiet (sn eg0 0)) ∧
    (((sn eg0 0).port 1).egress = [eg0]) ∧
    (eg0.f.dst = 2) ∧
    (eg0.f.op ≠ SnpOp.qNotify) ∧
    (eg0.reported = false) ∧
    (eg0.arrived = false) ∧
    (eg0.dl = some 900000) ∧
    ((sn eg0 0).reached 900000 = true) ∧
    (eg0.f.slice = 5#5) := by
  refine ⟨quiet_of _ ?_, ?_⟩ <;> decide +kernel

theorem wit_Dl_2 :
    (Quiet exR) ∧
    (mild exR (srcAgent er0.ag)) ∧
    ((exR.slice 5).ar.inj = []) ∧
    ((exR.slice 5).expRep = [er0, er1]) ∧
    (er0.ag ≠ 63) ∧
    (exR.ent 5 er0.tid = some awE) := by
  refine ⟨quiet_of _ ?_, (show _ < _ from ?_), ?_⟩ <;> decide +kernel

theorem wit_Dl_3 :
    (Quiet wDl_3) ∧
    (mild wDl_3 (srcAgent 0)) ∧
    ((wDl_3.port 0).acks = [ackLate]) ∧
    (ackLate.ag = 0) ∧
    (ackLate.dl = some 1000000) ∧
    (wDl_3.reached 1000000 = true) ∧
    ((0 : Agent) ≠ (63 : Agent)) := by
  refine ⟨quiet_of _ ?_, (show _ < _ from ?_), ?_⟩ <;> decide +kernel

theorem wit_Dl_4 :
    (Quiet on) ∧
    (16 ≤ 16) ∧
    (16 ≤ 19) := by
  refine ⟨quiet_of _ ?_, ?_⟩ <;> decide +kernel

theorem wit_Dl_4b :
    (Quiet on) ∧
    (16 ≤ 19) ∧
    (19 ≤ 19) := by
  refine ⟨quiet_of _ ?_, ?_⟩ <;> decide +kernel

/-! ### DrainReportsArrive -/

theorem wit_Drain_1 :
    (Quiet drep) ∧
    ((drep.slice 5).mem.drainRep = [{ w := { port := 0, wid := 1 }, fenced := true }]) ∧
    (∀ (j : Fin 17), (drep.slice j).ar.inj = []) ∧
    ({ w := { port := 0, wid := 1 : WId }, fenced := true : DrainRep }.w.wid ≠ 0) ∧
    ((drep.port { w := { port := 0, wid := 1 : WId }, fenced := true : DrainRep }.w.port).writes =
       [{ wid := 1, ag := 0, completed := true, drained := false, fenced := false : WriteRec }]) ∧
    ({ wid := 1, ag := 0, completed := true, drained := false, fenced := false : WriteRec }.wid =
       { w := { port := 0, wid := 1 : WId }, fenced := true : DrainRep }.w.wid) ∧
    ((drep.port { w := { port := 0, wid := 1 : WId }, fenced := true : DrainRep }.w.port).drains = []) := by
  refine ⟨quiet_of _ ?_, ?_⟩ <;> decide +kernel

theorem wit_Drain_2 :
    (Quiet drS) ∧
    ((drS.slice 5).mem.drainRep = [{ w := { port := 0, wid := 1 }, fenced := true }]) ∧
    (∀ (j : Fin 17), (drS.slice j).ar.inj = []) ∧
    ({ w := { port := 0, wid := 1 : WId }, fenced := true : DrainRep }.w.wid ≠ 0) ∧
    ((drS.port { w := { port := 0, wid := 1 : WId }, fenced := true : DrainRep }.w.port).writes =
       [{ wid := 1, ag := 0, completed := true, drained := false, fenced := false : WriteRec }]) ∧
    ({ wid := 1, ag := 0, completed := true, drained := false, fenced := false : WriteRec }.wid =
       { w := { port := 0, wid := 1 : WId }, fenced := true : DrainRep }.w.wid) ∧
    ((drS.port { w := { port := 0, wid := 1 : WId }, fenced := true : DrainRep }.w.port).drains = [drRec]) ∧
    (drRec.evict = true) ∧
    (drRec.waits = [{ w := { port := 0, wid := 1 : WId }, fenced := true : DrainRep }.w.wid]) ∧
    (drRec.place = some (5, 0)) ∧
    (drS.ent 5 0 = some drE) ∧
    (drE.stat = TStat.parked false false false true false 0) ∧
    (drE.m.memEv = []) := by
  refine ⟨quiet_of _ ?_, ?_⟩ <;> decide +kernel

/-! ### ArbiterGrantsFirstPass -/

theorem wit_Arb_1 :
    (Quiet on) ∧
    (∀ (rq : ℕ), (on.slice 5).ing rq = { direct := [], fwd := [] }) ∧
    (on.sliceRuns 5 = true) ∧
    (on.flag 63 320 31 = false) ∧
    ((on.slice 5).sw.busy = false) ∧
    ((on.slice 5).ar.inj = []) ∧
    (on.flt.run = none) := by
  refine ⟨quiet_of _ ?_, (fun _ => rfl), ?_⟩ <;> decide +kernel

theorem wit_Arb_2 :
    (Quiet (ing0 on (rdr ReqOp.rdShd))) ∧
    (∀ (rq : ℕ), rq ≠ 0 → ((ing0 on (rdr ReqOp.rdShd)).slice 5).ing rq = { direct := [], fwd := [] }) ∧
    ((ing0 on (rdr ReqOp.rdShd)).sliceRuns 5 = true) ∧
    ((ing0 on (rdr ReqOp.rdShd)).flag 63 320 31 = false) ∧
    (((ing0 on (rdr ReqOp.rdShd)).slice 5).sw.busy = false) ∧
    (((ing0 on (rdr ReqOp.rdShd)).slice 5).ar.inj = []) ∧
    ((ing0 on (rdr ReqOp.rdShd)).flt.run = none) ∧
    (((ing0 on (rdr ReqOp.rdShd)).slice 5).ing 0 = { direct := [(rdr ReqOp.rdShd, 0)], fwd := [] }) ∧
    ((ing0 on (rdr ReqOp.rdShd)).ingressExpired 5 (rdr ReqOp.rdShd) = false) ∧
    ((rdr ReqOp.rdShd).kind = Kind.req ReqOp.rdShd) ∧
    (reqIsEvict ReqOp.rdShd = false) ∧
    (reqIsDrain ReqOp.rdShd = false) ∧
    (ReqOp.rdShd ≠ ReqOp.hint) ∧
    ((ing0 on (rdr ReqOp.rdShd)).servingSlice (rdr ReqOp.rdShd).home (rdr ReqOp.rdShd).a.pa = some 5) ∧
    (((ing0 on (rdr ReqOp.rdShd)).slice 5).lineBusy (rdr ReqOp.rdShd).a.pa = false) ∧
    (∀ w < 16, (((ing0 on (rdr ReqOp.rdShd)).slice 5).sfGet (sfSet (rdr ReqOp.rdShd).a.pa) w).dir.ok = true) ∧
    ((ing0 on (rdr ReqOp.rdShd)).degraded (rdr ReqOp.rdShd).home = false ∨ degradedRefuses ReqOp.rdShd = false) ∧
    (reqClaims ReqOp.rdShd = false ∨
       ((ing0 on (rdr ReqOp.rdShd)).readDir 5 (rdr ReqOp.rdShd).home (rdr ReqOp.rdShd).a.pa).2 ≠ none ∨
         (ing0 on (rdr ReqOp.rdShd)).unkept (rdr ReqOp.rdShd).home = true ∨
           ∃ w < 16,
             (ing0 on (rdr ReqOp.rdShd)).wayOk (rdr ReqOp.rdShd).home (rdr ReqOp.rdShd).rk w = true ∧
               (((ing0 on (rdr ReqOp.rdShd)).slice 5).sfGet (sfSet (rdr ReqOp.rdShd).a.pa) w).dir = Dir.un ∧
                 ((ing0 on (rdr ReqOp.rdShd)).slice 5).wayHolder (sfSet (rdr ReqOp.rdShd).a.pa) w = none) ∧
    ((((ing0 on (rdr ReqOp.rdShd)).slice 5).uc.vt (rdr ReqOp.rdShd).kind.opc
           ((ing0 on (rdr ReqOp.rdShd)).readDir 5 (rdr ReqOp.rdShd).home (rdr ReqOp.rdShd).a.pa).1.code (rdr ReqOp.rdShd).rk).v =
       true) := by
  refine ⟨quiet_of _ ?_, ing0_ne _ _, ?_⟩ <;> decide +kernel

theorem wit_Arb_2b :
    (Quiet (ing0 on (rdr ReqOp.rdOwn))) ∧
    (∀ (rq : ℕ), rq ≠ 0 → ((ing0 on (rdr ReqOp.rdOwn)).slice 5).ing rq = { direct := [], fwd := [] }) ∧
    ((ing0 on (rdr ReqOp.rdOwn)).sliceRuns 5 = true) ∧
    ((ing0 on (rdr ReqOp.rdOwn)).flag 63 320 31 = false) ∧
    (((ing0 on (rdr ReqOp.rdOwn)).slice 5).sw.busy = false) ∧
    (((ing0 on (rdr ReqOp.rdOwn)).slice 5).ar.inj = []) ∧
    ((ing0 on (rdr ReqOp.rdOwn)).flt.run = none) ∧
    (((ing0 on (rdr ReqOp.rdOwn)).slice 5).ing 0 = { direct := [(rdr ReqOp.rdOwn, 0)], fwd := [] }) ∧
    ((ing0 on (rdr ReqOp.rdOwn)).ingressExpired 5 (rdr ReqOp.rdOwn) = false) ∧
    ((rdr ReqOp.rdOwn).kind = Kind.req ReqOp.rdOwn) ∧
    (reqIsEvict ReqOp.rdOwn = false) ∧
    (reqIsDrain ReqOp.rdOwn = false) ∧
    (ReqOp.rdOwn ≠ ReqOp.hint) ∧
    ((ing0 on (rdr ReqOp.rdOwn)).servingSlice (rdr ReqOp.rdOwn).home (rdr ReqOp.rdOwn).a.pa = some 5) ∧
    (((ing0 on (rdr ReqOp.rdOwn)).slice 5).lineBusy (rdr ReqOp.rdOwn).a.pa = false) ∧
    (∀ w < 16, (((ing0 on (rdr ReqOp.rdOwn)).slice 5).sfGet (sfSet (rdr ReqOp.rdOwn).a.pa) w).dir.ok = true) ∧
    ((ing0 on (rdr ReqOp.rdOwn)).degraded (rdr ReqOp.rdOwn).home = false ∨ degradedRefuses ReqOp.rdOwn = false) ∧
    (reqClaims ReqOp.rdOwn = false ∨
       ((ing0 on (rdr ReqOp.rdOwn)).readDir 5 (rdr ReqOp.rdOwn).home (rdr ReqOp.rdOwn).a.pa).2 ≠ none ∨
         (ing0 on (rdr ReqOp.rdOwn)).unkept (rdr ReqOp.rdOwn).home = true ∨
           ∃ w < 16,
             (ing0 on (rdr ReqOp.rdOwn)).wayOk (rdr ReqOp.rdOwn).home (rdr ReqOp.rdOwn).rk w = true ∧
               (((ing0 on (rdr ReqOp.rdOwn)).slice 5).sfGet (sfSet (rdr ReqOp.rdOwn).a.pa) w).dir = Dir.un ∧
                 ((ing0 on (rdr ReqOp.rdOwn)).slice 5).wayHolder (sfSet (rdr ReqOp.rdOwn).a.pa) w = none) ∧
    ((((ing0 on (rdr ReqOp.rdOwn)).slice 5).uc.vt (rdr ReqOp.rdOwn).kind.opc
           ((ing0 on (rdr ReqOp.rdOwn)).readDir 5 (rdr ReqOp.rdOwn).home (rdr ReqOp.rdOwn).a.pa).1.code (rdr ReqOp.rdOwn).rk).v =
       true) := by
  refine ⟨quiet_of _ ?_, ing0_ne _ _, ?_⟩ <;> decide +kernel

theorem wit_Arb_3 :
    (Quiet busyL) ∧
    (∀ (rq : ℕ), rq ≠ 0 → (busyL.slice 5).ing rq = { direct := [], fwd := [] }) ∧
    (busyL.sliceRuns 5 = true) ∧
    (busyL.flag 63 320 31 = false) ∧
    ((busyL.slice 5).sw.busy = false) ∧
    ((busyL.slice 5).ar.inj = []) ∧
    (busyL.flt.run = none) ∧
    ((busyL.slice 5).ing 0 = { direct := [(rdr ReqOp.rdOwn, 0)], fwd := [] }) ∧
    (busyL.ingressExpired 5 (rdr ReqOp.rdOwn) = false) ∧
    ((rdr ReqOp.rdOwn).kind = Kind.req ReqOp.rdOwn) ∧
    (reqIsEvict ReqOp.rdOwn = false) ∧
    (reqIsDrain ReqOp.rdOwn = false) ∧
    (ReqOp.rdOwn ≠ ReqOp.hint) ∧
    (busyL.servingSlice (rdr ReqOp.rdOwn).home (rdr ReqOp.rdOwn).a.pa = some 5) ∧
    ((busyL.slice 5).opener (rdr ReqOp.rdOwn).a.pa = some (0, ent ReqOp.rdShd (TStat.ready false))) ∧
    (busyL.ent 5 0 = some (ent ReqOp.rdShd (TStat.ready false))) ∧
    ((ent ReqOp.rdShd (TStat.ready false)).h.grp = none) := by
  refine ⟨quiet_of _ ?_, ing0_ne _ _, ?_⟩ <;> decide +kernel

/-! ### QueuedRequestsGoOnOrEnd -/

theorem wit_Q_1 :
    (Quiet (withEnt on elig)) ∧
    ((withEnt on elig).sliceRuns 5 = true) ∧
    ((withEnt on elig).flag 63 320 31 = false) ∧
    (((withEnt on elig).slice 5).ar.inj = []) ∧
    ((withEnt on elig).flt.log.length < 256) ∧
    (((withEnt on elig).slice 5).trk = [(0, some elig)]) ∧
    (elig.stat = TStat.eligible) ∧
    ((withEnt on elig).expired elig = false) ∧
    (elig.opens = true) ∧
    (elig.r.rk = false) ∧
    (elig.wv = false) ∧
    ((withEnt on elig).detHome elig.r.home = false) ∧
    ((withEnt on elig).unkept elig.r.home = false) ∧
    (elig.h.noDir = false) ∧
    (∀ w < 16, (((withEnt on elig).slice 5).sfGet (sfSet elig.r.a.pa) w).dir = Dir.un) ∧
    ((((withEnt on elig).slice 5).uc.vt elig.r.kind.opc
           (if ((withEnt on elig).slice 5).suk (sfSet elig.r.a.pa) = true then Dir.uk else Dir.un).code false).v =
       true) := by
  refine ⟨quiet_of _ ?_, ?_⟩ <;> decide +kernel

theorem wit_Q_2 :
    (Quiet (withEnt on (late TStat.queued))) ∧
    (FlitPasses (withEnt on (late TStat.queued)) 0 (rdr ReqOp.upgr).a.src) ∧
    ((withEnt on (late TStat.queued)).sliceRuns 5 = true) ∧
    ((withEnt on (late TStat.queued)).flag 63 320 31 = false) ∧
    (((withEnt on (late TStat.queued)).slice 5).ar.inj = []) ∧
    ((withEnt on (late TStat.queued)).flt.log.length < 256) ∧
    ((rdr ReqOp.upgr).kind = Kind.req ReqOp.upgr) ∧
    (reqDat ReqOp.upgr = none) ∧
    (reqCounted ReqOp.upgr = false) ∧
    ((rdr ReqOp.upgr).port = some 0) ∧
    ((rdr ReqOp.upgr).cd = none) ∧
    ((rdr ReqOp.upgr).wid = 0) ∧
    ((rdr ReqOp.upgr).rk = false) ∧
    ((rdr ReqOp.upgr).a.gen = ((withEnt on (late TStat.queued)).part (rdr ReqOp.upgr).a.part).gen) ∧
    ((((withEnt on (late TStat.queued)).port 0).rIss (rdr ReqOp.upgr).a.part).toNat ≤
       (withEnt on (late TStat.queued)).rLimit 0 (rdr ReqOp.upgr).a.part) ∧
    (reqIsDrain ReqOp.upgr = false) ∧
    (((withEnt on (late TStat.queued)).slice 5).trk = [(0, some (late TStat.queued))]) ∧
    ((late TStat.queued).r = rdr ReqOp.upgr) ∧
    ((late TStat.queued).stat = TStat.queued) ∧
    ((late TStat.queued).opens = false) ∧
    ((withEnt on (late TStat.queued)).expired (late TStat.queued) = true) ∧
    ((late TStat.queued).h.cs = false) ∧
    ((late TStat.queued).h.grp = none) ∧
    ((late TStat.queued).wv = false) ∧
    (((withEnt on (late TStat.queued)).slice 5).recs = []) ∧
    (∀ (q : Fin 24), ((withEnt on (late TStat.queued)).port q).egress = []) := by
  refine ⟨quiet_of _ ?_, passes _ _ _ ?_, ?_⟩ <;> decide +kernel

/-! ### QueuedRequestsGoOnOrEnd -/

theorem wit_Q_3 :
    (Quiet (ing0 on oldR)) ∧
    (FlitPasses (ing0 on oldR) 0 oldR.a.src) ∧
    ((ing0 on oldR).sliceRuns 5 = true) ∧
    ((ing0 on oldR).flag 63 320 31 = false) ∧
    (((ing0 on oldR).slice 5).ar.inj = []) ∧
    ((ing0 on oldR).flt.log.length < 256) ∧
    (oldR.kind = Kind.req ReqOp.upgr) ∧
    (reqDat ReqOp.upgr = none) ∧
    (reqCounted ReqOp.upgr = false) ∧
    (oldR.port = some 0) ∧
    (oldR.cd = none) ∧
    (oldR.wid = 0) ∧
    (oldR.rk = false) ∧
    (oldR.a.gen = ((ing0 on oldR).part oldR.a.part).gen) ∧
    ((((ing0 on oldR).port 0).rIss oldR.a.part).toNat ≤ (ing0 on oldR).rLimit 0 oldR.a.part) ∧
    (reqIsDrain ReqOp.upgr = false) ∧
    (((ing0 on oldR).slice 5).ing 0 = { direct := [(oldR, 0)], fwd := [] }) ∧
    ((ing0 on oldR).ingressExpired 5 oldR = true) := by
  refine ⟨quiet_of _ ?_, passes _ _ _ ?_, ?_⟩ <;> decide +kernel

/-! ### ArbiterGrantsFirstPass -/

theorem wit_Arb_2c :
    (Quiet (inSf (ing0 on (rdr ReqOp.rdShd)))) ∧
    (∀ (rq : ℕ), rq ≠ 0 → ((inSf (ing0 on (rdr ReqOp.rdShd))).slice 5).ing rq = { direct := [], fwd := [] }) ∧
    ((inSf (ing0 on (rdr ReqOp.rdShd))).sliceRuns 5 = true) ∧
    ((inSf (ing0 on (rdr ReqOp.rdShd))).flag 63 320 31 = false) ∧
    (((inSf (ing0 on (rdr ReqOp.rdShd))).slice 5).sw.busy = false) ∧
    (((inSf (ing0 on (rdr ReqOp.rdShd))).slice 5).ar.inj = []) ∧
    ((inSf (ing0 on (rdr ReqOp.rdShd))).flt.run = none) ∧
    (((inSf (ing0 on (rdr ReqOp.rdShd))).slice 5).ing 0 = { direct := [(rdr ReqOp.rdShd, 0)], fwd := [] }) ∧
    ((inSf (ing0 on (rdr ReqOp.rdShd))).ingressExpired 5 (rdr ReqOp.rdShd) = false) ∧
    ((rdr ReqOp.rdShd).kind = Kind.req ReqOp.rdShd) ∧
    (reqIsEvict ReqOp.rdShd = false) ∧
    (reqIsDrain ReqOp.rdShd = false) ∧
    (ReqOp.rdShd ≠ ReqOp.hint) ∧
    ((inSf (ing0 on (rdr ReqOp.rdShd))).servingSlice (rdr ReqOp.rdShd).home (rdr ReqOp.rdShd).a.pa = some 5) ∧
    (((inSf (ing0 on (rdr ReqOp.rdShd))).slice 5).lineBusy (rdr ReqOp.rdShd).a.pa = false) ∧
    (∀ w < 16, (((inSf (ing0 on (rdr ReqOp.rdShd))).slice 5).sfGet (sfSet (rdr ReqOp.rdShd).a.pa) w).dir.ok = true) ∧
    ((inSf (ing0 on (rdr ReqOp.rdShd))).degraded (rdr ReqOp.rdShd).home = false ∨ degradedRefuses ReqOp.rdShd = false) ∧
    (reqClaims ReqOp.rdShd = false ∨
       ((inSf (ing0 on (rdr ReqOp.rdShd))).readDir 5 (rdr ReqOp.rdShd).home (rdr ReqOp.rdShd).a.pa).2 ≠ none ∨
         (inSf (ing0 on (rdr ReqOp.rdShd))).unkept (rdr ReqOp.rdShd).home = true ∨
           ∃ w < 16,
             (inSf (ing0 on (rdr ReqOp.rdShd))).wayOk (rdr ReqOp.rdShd).home (rdr ReqOp.rdShd).rk w = true ∧
               (((inSf (ing0 on (rdr ReqOp.rdShd))).slice 5).sfGet (sfSet (rdr ReqOp.rdShd).a.pa) w).dir = Dir.un ∧
                 ((inSf (ing0 on (rdr ReqOp.rdShd))).slice 5).wayHolder (sfSet (rdr ReqOp.rdShd).a.pa) w = none) ∧
    ((((inSf (ing0 on (rdr ReqOp.rdShd))).slice 5).uc.vt (rdr ReqOp.rdShd).kind.opc
           ((inSf (ing0 on (rdr ReqOp.rdShd))).readDir 5 (rdr ReqOp.rdShd).home (rdr ReqOp.rdShd).a.pa).1.code
           (rdr ReqOp.rdShd).rk).v =
       true) := by
  refine ⟨quiet_of _ ?_, ing0_ne _ _, ?_⟩ <;> decide +kernel

theorem wit_Arb_2d :
    (Quiet (inSf (ing0 on (rdr ReqOp.rdCur)))) ∧
    (∀ (rq : ℕ), rq ≠ 0 → ((inSf (ing0 on (rdr ReqOp.rdCur))).slice 5).ing rq = { direct := [], fwd := [] }) ∧
    ((inSf (ing0 on (rdr ReqOp.rdCur))).sliceRuns 5 = true) ∧
    ((inSf (ing0 on (rdr ReqOp.rdCur))).flag 63 320 31 = false) ∧
    (((inSf (ing0 on (rdr ReqOp.rdCur))).slice 5).sw.busy = false) ∧
    (((inSf (ing0 on (rdr ReqOp.rdCur))).slice 5).ar.inj = []) ∧
    ((inSf (ing0 on (rdr ReqOp.rdCur))).flt.run = none) ∧
    (((inSf (ing0 on (rdr ReqOp.rdCur))).slice 5).ing 0 = { direct := [(rdr ReqOp.rdCur, 0)], fwd := [] }) ∧
    ((inSf (ing0 on (rdr ReqOp.rdCur))).ingressExpired 5 (rdr ReqOp.rdCur) = false) ∧
    ((rdr ReqOp.rdCur).kind = Kind.req ReqOp.rdCur) ∧
    (reqIsEvict ReqOp.rdCur = false) ∧
    (reqIsDrain ReqOp.rdCur = false) ∧
    (ReqOp.rdCur ≠ ReqOp.hint) ∧
    ((inSf (ing0 on (rdr ReqOp.rdCur))).servingSlice (rdr ReqOp.rdCur).home (rdr ReqOp.rdCur).a.pa = some 5) ∧
    (((inSf (ing0 on (rdr ReqOp.rdCur))).slice 5).lineBusy (rdr ReqOp.rdCur).a.pa = false) ∧
    (∀ w < 16, (((inSf (ing0 on (rdr ReqOp.rdCur))).slice 5).sfGet (sfSet (rdr ReqOp.rdCur).a.pa) w).dir.ok = true) ∧
    ((inSf (ing0 on (rdr ReqOp.rdCur))).degraded (rdr ReqOp.rdCur).home = false ∨ degradedRefuses ReqOp.rdCur = false) ∧
    (reqClaims ReqOp.rdCur = false ∨
       ((inSf (ing0 on (rdr ReqOp.rdCur))).readDir 5 (rdr ReqOp.rdCur).home (rdr ReqOp.rdCur).a.pa).2 ≠ none ∨
         (inSf (ing0 on (rdr ReqOp.rdCur))).unkept (rdr ReqOp.rdCur).home = true ∨
           ∃ w < 16,
             (inSf (ing0 on (rdr ReqOp.rdCur))).wayOk (rdr ReqOp.rdCur).home (rdr ReqOp.rdCur).rk w = true ∧
               (((inSf (ing0 on (rdr ReqOp.rdCur))).slice 5).sfGet (sfSet (rdr ReqOp.rdCur).a.pa) w).dir = Dir.un ∧
                 ((inSf (ing0 on (rdr ReqOp.rdCur))).slice 5).wayHolder (sfSet (rdr ReqOp.rdCur).a.pa) w = none) ∧
    ((((inSf (ing0 on (rdr ReqOp.rdCur))).slice 5).uc.vt (rdr ReqOp.rdCur).kind.opc
           ((inSf (ing0 on (rdr ReqOp.rdCur))).readDir 5 (rdr ReqOp.rdCur).home (rdr ReqOp.rdCur).a.pa).1.code
           (rdr ReqOp.rdCur).rk).v =
       true) := by
  refine ⟨quiet_of _ ?_, ing0_ne _ _, ?_⟩ <;> decide +kernel

theorem wit_Arb_2e :
    (Quiet (inSf (ing0 on (rdr ReqOp.lockAcq)))) ∧
    (∀ (rq : ℕ), rq ≠ 0 → ((inSf (ing0 on (rdr ReqOp.lockAcq))).slice 5).ing rq = { direct := [], fwd := [] }) ∧
    ((inSf (ing0 on (rdr ReqOp.lockAcq))).sliceRuns 5 = true) ∧
    ((inSf (ing0 on (rdr ReqOp.lockAcq))).flag 63 320 31 = false) ∧
    (((inSf (ing0 on (rdr ReqOp.lockAcq))).slice 5).sw.busy = false) ∧
    (((inSf (ing0 on (rdr ReqOp.lockAcq))).slice 5).ar.inj = []) ∧
    ((inSf (ing0 on (rdr ReqOp.lockAcq))).flt.run = none) ∧
    (((inSf (ing0 on (rdr ReqOp.lockAcq))).slice 5).ing 0 = { direct := [(rdr ReqOp.lockAcq, 0)], fwd := [] }) ∧
    ((inSf (ing0 on (rdr ReqOp.lockAcq))).ingressExpired 5 (rdr ReqOp.lockAcq) = false) ∧
    ((rdr ReqOp.lockAcq).kind = Kind.req ReqOp.lockAcq) ∧
    (reqIsEvict ReqOp.lockAcq = false) ∧
    (reqIsDrain ReqOp.lockAcq = false) ∧
    (ReqOp.lockAcq ≠ ReqOp.hint) ∧
    ((inSf (ing0 on (rdr ReqOp.lockAcq))).servingSlice (rdr ReqOp.lockAcq).home (rdr ReqOp.lockAcq).a.pa = some 5) ∧
    (((inSf (ing0 on (rdr ReqOp.lockAcq))).slice 5).lineBusy (rdr ReqOp.lockAcq).a.pa = false) ∧
    (∀ w < 16, (((inSf (ing0 on (rdr ReqOp.lockAcq))).slice 5).sfGet (sfSet (rdr ReqOp.lockAcq).a.pa) w).dir.ok = true) ∧
    ((inSf (ing0 on (rdr ReqOp.lockAcq))).degraded (rdr ReqOp.lockAcq).home = false ∨ degradedRefuses ReqOp.lockAcq = false) ∧
    (reqClaims ReqOp.lockAcq = false ∨
       ((inSf (ing0 on (rdr ReqOp.lockAcq))).readDir 5 (rdr ReqOp.lockAcq).home (rdr ReqOp.lockAcq).a.pa).2 ≠ none ∨
         (inSf (ing0 on (rdr ReqOp.lockAcq))).unkept (rdr ReqOp.lockAcq).home = true ∨
           ∃ w < 16,
             (inSf (ing0 on (rdr ReqOp.lockAcq))).wayOk (rdr ReqOp.lockAcq).home (rdr ReqOp.lockAcq).rk w = true ∧
               (((inSf (ing0 on (rdr ReqOp.lockAcq))).slice 5).sfGet (sfSet (rdr ReqOp.lockAcq).a.pa) w).dir = Dir.un ∧
                 ((inSf (ing0 on (rdr ReqOp.lockAcq))).slice 5).wayHolder (sfSet (rdr ReqOp.lockAcq).a.pa) w = none) ∧
    ((((inSf (ing0 on (rdr ReqOp.lockAcq))).slice 5).uc.vt (rdr ReqOp.lockAcq).kind.opc
           ((inSf (ing0 on (rdr ReqOp.lockAcq))).readDir 5 (rdr ReqOp.lockAcq).home (rdr ReqOp.lockAcq).a.pa).1.code
           (rdr ReqOp.lockAcq).rk).v =
       true) := by
  refine ⟨quiet_of _ ?_, ing0_ne _ _, ?_⟩ <;> decide +kernel

/-! ### ActivationRunsClause -/

theorem wit_Act_1 :
    (Quiet (withEnt on (actE 614 false))) ∧
    ((clauseAt 614).c = COp.next ∧ 615 = (actE 614 false).pc + 1 ∧ TStat.ready false = TStat.ready false ∨
       (∃ a,
           (clauseAt 614).c = COp.jmp a ∧
             615 = BitVec.extractLsb' 10 1 (actE 614 false).pc ++ a ∧ TStat.ready false = TStat.ready false) ∨
         ∃ m me tm sv q d tpc,
           (clauseAt 614).c = COp.wait m me tm sv q d tpc ∧
             615 = (actE 614 false).pc ∧
               TStat.ready false = TStat.parked m me tm sv q tpc ∧
                 (m = true →
                     if q = true then
                       ((actE 614 false).putX ((actE 614 false).runX (withEnt on (actE 614 false)).now (clauseAt 614).x)
                               (actE 614 false).x).x.ack ≠
                         0
                     else (actE 614 false).m.latch = false) ∧
                   (me = true → (actE 614 false).m.memEv = []) ∧
                     (sv = true → (actE 614 false).m.svc = false) ∧
                       (tm = true → (withEnt on (actE 614 false)).expired (actE 614 false) = false)) ∧
    ((withEnt on (actE 614 false)).sliceRuns 5 = true) ∧
    ((withEnt on (actE 614 false)).flag 63 320 31 = false) ∧
    (((withEnt on (actE 614 false)).slice 5).ar.inj = []) ∧
    ((withEnt on (actE 614 false)).readyOf 5 true = if false = true then some 0 else none) ∧
    (false = false → (withEnt on (actE 614 false)).readyOf 5 false = some 0) ∧
    ((withEnt on (actE 614 false)).ent 5 0 = some (actE 614 false)) ∧
    (Clause.dec
         (((withEnt on (actE 614 false)).slice 5).uc.clause ((actE 614 false).pc.getLsbD 10)
           (BitVec.extractLsb' 0 10 (actE 614 false).pc).toNat) =
       clauseAt 614) ∧
    ((clauseAt 614).d.dop = 0 ∧ Dir.un = (actE 614 false).we ∧ Grant.i = (actE 614 false).m.gr ∧ false = false ∨
       false = ((clauseAt 614).d.w && (actE 614 false).wv && !(actE 614 false).h.noDir) ∧
         ((clauseAt 614).d.dop = 1 ∧ Dir.un = (actE 614 false).we ∧ Grant.i = (actE 614 false).m.gr ∨
           (clauseAt 614).d.dop = 2 ∧
               (actE 614 false).r.a.src ≠ 63 ∧ Dir.un = Dir.ex (actE 614 false).r.a.src ∧ Grant.i = Grant.e ∨
             (clauseAt 614).d.dop = 3 ∧
                 (actE 614 false).grouped = false ∧ (actE 614 false).we.share (actE 614 false).r.a.src = (Dir.un, Grant.i) ∨
               (clauseAt 614).d.dop = 4 ∧
                   (clauseAt 614).d.arg = 0 ∧
                     Dir.un = (actE 614 false).we.drop (actE 614 false).r.a.src ∧ Grant.i = (actE 614 false).m.gr ∨
                 (clauseAt 614).d.dop = 5 ∧ Dir.un = Dir.un ∧ Grant.i = (actE 614 false).m.gr ∨
                   (clauseAt 614).d.dop = 6 ∧ Dir.un = Dir.uk ∧ Grant.i = (actE 614 false).m.gr)) ∧
    ((clauseAt 614).m = none) := by
  refine ⟨quiet_of _ ?_, .inl ?_, ?_⟩ <;> decide +kernel

theorem wit_Act_1b :
    (Quiet (withEnt on (actE 614 true))) ∧
    ((clauseAt 614).c = COp.next ∧ 615 = (actE 614 true).pc + 1 ∧ TStat.ready false = TStat.ready false ∨
       (∃ a,
           (clauseAt 614).c = COp.jmp a ∧
             615 = BitVec.extractLsb' 10 1 (actE 614 true).pc ++ a ∧ TStat.ready false = TStat.ready false) ∨
         ∃ m me tm sv q d tpc,
           (clauseAt 614).c = COp.wait m me tm sv q d tpc ∧
             615 = (actE 614 true).pc ∧
               TStat.ready false = TStat.parked m me tm sv q tpc ∧
                 (m = true →
                     if q = true then
                       ((actE 614 true).putX ((actE 614 true).runX (withEnt on (actE 614 true)).now (clauseAt 614).x)
                               (actE 614 true).x).x.ack ≠
                         0
                     else (actE 614 true).m.latch = false) ∧
                   (me = true → (actE 614 true).m.memEv = []) ∧
                     (sv = true → (actE 614 true).m.svc = false) ∧
                       (tm = true → (withEnt on (actE 614 true)).expired (actE 614 true) = false)) ∧
    ((withEnt on (actE 614 true)).sliceRuns 5 = true) ∧
    ((withEnt on (actE 614 true)).flag 63 320 31 = false) ∧
    (((withEnt on (actE 614 true)).slice 5).ar.inj = []) ∧
    ((withEnt on (actE 614 true)).readyOf 5 true = if true = true then some 0 else none) ∧
    (true = false → (withEnt on (actE 614 true)).readyOf 5 false = some 0) ∧
    ((withEnt on (actE 614 true)).ent 5 0 = some (actE 614 true)) ∧
    (Clause.dec
         (((withEnt on (actE 614 true)).slice 5).uc.clause ((actE 614 true).pc.getLsbD 10)
           (BitVec.extractLsb' 0 10 (actE 614 true).pc).toNat) =
       clauseAt 614) ∧
    ((clauseAt 614).d.dop = 0 ∧ Dir.un = (actE 614 true).we ∧ Grant.i = (actE 614 true).m.gr ∧ false = false ∨
       false = ((clauseAt 614).d.w && (actE 614 true).wv && !(actE 614 true).h.noDir) ∧
         ((clauseAt 614).d.dop = 1 ∧ Dir.un = (actE 614 true).we ∧ Grant.i = (actE 614 true).m.gr ∨
           (clauseAt 614).d.dop = 2 ∧ (actE 614 true).r.a.src ≠ 63 ∧ Dir.un = Dir.ex (actE 614 true).r.a.src ∧ Grant.i = Grant.e ∨
             (clauseAt 614).d.dop = 3 ∧
                 (actE 614 true).grouped = false ∧ (actE 614 true).we.share (actE 614 true).r.a.src = (Dir.un, Grant.i) ∨
               (clauseAt 614).d.dop = 4 ∧
                   (clauseAt 614).d.arg = 0 ∧
                     Dir.un = (actE 614 true).we.drop (actE 614 true).r.a.src ∧ Grant.i = (actE 614 true).m.gr ∨
                 (clauseAt 614).d.dop = 5 ∧ Dir.un = Dir.un ∧ Grant.i = (actE 614 true).m.gr ∨
                   (clauseAt 614).d.dop = 6 ∧ Dir.un = Dir.uk ∧ Grant.i = (actE 614 true).m.gr)) ∧
    ((clauseAt 614).m = none) := by
  refine ⟨quiet_of _ ?_, .inl ?_, ?_⟩ <;> decide +kernel

theorem wit_Act_2 :
    (Quiet (withEnt on (actE 199 false))) ∧
    ((clauseAt 199).c = COp.next ∧ 193 = (actE 199 false).pc + 1 ∧ TStat.ready false = TStat.ready false ∨
       (∃ a,
           (clauseAt 199).c = COp.jmp a ∧
             193 = BitVec.extractLsb' 10 1 (actE 199 false).pc ++ a ∧ TStat.ready false = TStat.ready false) ∨
         ∃ m me tm sv q d tpc,
           (clauseAt 199).c = COp.wait m me tm sv q d tpc ∧
             193 = (actE 199 false).pc ∧
               TStat.ready false = TStat.parked m me tm sv q tpc ∧
                 (m = true →
                     if q = true then
                       ((actE 199 false).putX ((actE 199 false).runX (withEnt on (actE 199 false)).now (clauseAt 199).x)
                               (actE 199 false).x).x.ack ≠
                         0
                     else (actE 199 false).m.latch = false) ∧
                   (me = true → (actE 199 false).m.memEv = []) ∧
                     (sv = true → (actE 199 false).m.svc = false) ∧
                       (tm = true → (withEnt on (actE 199 false)).expired (actE 199 false) = false)) ∧
    ((withEnt on (actE 199 false)).sliceRuns 5 = true) ∧
    ((withEnt on (actE 199 false)).flag 63 320 31 = false) ∧
    (((withEnt on (actE 199 false)).slice 5).ar.inj = []) ∧
    ((withEnt on (actE 199 false)).readyOf 5 true = if false = true then some 0 else none) ∧
    (false = false → (withEnt on (actE 199 false)).readyOf 5 false = some 0) ∧
    ((withEnt on (actE 199 false)).ent 5 0 = some (actE 199 false)) ∧
    (Clause.dec
         (((withEnt on (actE 199 false)).slice 5).uc.clause ((actE 199 false).pc.getLsbD 10)
           (BitVec.extractLsb' 0 10 (actE 199 false).pc).toNat) =
       clauseAt 199) ∧
    ((clauseAt 199).d.dop = 0 ∧ Dir.un = (actE 199 false).we ∧ Grant.i = (actE 199 false).m.gr ∧ false = false ∨
       false = ((clauseAt 199).d.w && (actE 199 false).wv && !(actE 199 false).h.noDir) ∧
         ((clauseAt 199).d.dop = 1 ∧ Dir.un = (actE 199 false).we ∧ Grant.i = (actE 199 false).m.gr ∨
           (clauseAt 199).d.dop = 2 ∧
               (actE 199 false).r.a.src ≠ 63 ∧ Dir.un = Dir.ex (actE 199 false).r.a.src ∧ Grant.i = Grant.e ∨
             (clauseAt 199).d.dop = 3 ∧
                 (actE 199 false).grouped = false ∧ (actE 199 false).we.share (actE 199 false).r.a.src = (Dir.un, Grant.i) ∨
               (clauseAt 199).d.dop = 4 ∧
                   (clauseAt 199).d.arg = 0 ∧
                     Dir.un = (actE 199 false).we.drop (actE 199 false).r.a.src ∧ Grant.i = (actE 199 false).m.gr ∨
                 (clauseAt 199).d.dop = 5 ∧ Dir.un = Dir.un ∧ Grant.i = (actE 199 false).m.gr ∨
                   (clauseAt 199).d.dop = 6 ∧ Dir.un = Dir.uk ∧ Grant.i = (actE 199 false).m.gr)) ∧
    ((clauseAt 199).m = none) := by
  refine ⟨quiet_of _ ?_, .inr (.inl ⟨193, ?_⟩), ?_⟩ <;> decide +kernel

theorem wit_Act_3 :
    (Quiet (withEnt on (actE 193 false))) ∧
    ((clauseAt 193).c = COp.next ∧
         193 = (actE 193 false).pc + 1 ∧ TStat.parked true false true false false 200 = TStat.ready false ∨
       (∃ a,
           (clauseAt 193).c = COp.jmp a ∧
             193 = BitVec.extractLsb' 10 1 (actE 193 false).pc ++ a ∧
               TStat.parked true false true false false 200 = TStat.ready false) ∨
         ∃ m me tm sv q d tpc,
           (clauseAt 193).c = COp.wait m me tm sv q d tpc ∧
             193 = (actE 193 false).pc ∧
               TStat.parked true false true false false 200 = TStat.parked m me tm sv q tpc ∧
                 (m = true →
                     if q = true then
                       ((actE 193 false).putX ((actE 193 false).runX (withEnt on (actE 193 false)).now (clauseAt 193).x)
                               (actE 193 false).x).x.ack ≠
                         0
                     else (actE 193 false).m.latch = false) ∧
                   (me = true → (actE 193 false).m.memEv = []) ∧
                     (sv = true → (actE 193 false).m.svc = false) ∧
                       (tm = true → (withEnt on (actE 193 false)).expired (actE 193 false) = false)) ∧
    ((withEnt on (actE 193 false)).sliceRuns 5 = true) ∧
    ((withEnt on (actE 193 false)).flag 63 320 31 = false) ∧
    (((withEnt on (actE 193 false)).slice 5).ar.inj = []) ∧
    ((withEnt on (actE 193 false)).readyOf 5 true = if false = true then some 0 else none) ∧
    (false = false → (withEnt on (actE 193 false)).readyOf 5 false = some 0) ∧
    ((withEnt on (actE 193 false)).ent 5 0 = some (actE 193 false)) ∧
    (Clause.dec
         (((withEnt on (actE 193 false)).slice 5).uc.clause ((actE 193 false).pc.getLsbD 10)
           (BitVec.extractLsb' 0 10 (actE 193 false).pc).toNat) =
       clauseAt 193) ∧
    ((clauseAt 193).d.dop = 0 ∧ Dir.un = (actE 193 false).we ∧ Grant.i = (actE 193 false).m.gr ∧ false = false ∨
       false = ((clauseAt 193).d.w && (actE 193 false).wv && !(actE 193 false).h.noDir) ∧
         ((clauseAt 193).d.dop = 1 ∧ Dir.un = (actE 193 false).we ∧ Grant.i = (actE 193 false).m.gr ∨
           (clauseAt 193).d.dop = 2 ∧
               (actE 193 false).r.a.src ≠ 63 ∧ Dir.un = Dir.ex (actE 193 false).r.a.src ∧ Grant.i = Grant.e ∨
             (clauseAt 193).d.dop = 3 ∧
                 (actE 193 false).grouped = false ∧ (actE 193 false).we.share (actE 193 false).r.a.src = (Dir.un, Grant.i) ∨
               (clauseAt 193).d.dop = 4 ∧
                   (clauseAt 193).d.arg = 0 ∧
                     Dir.un = (actE 193 false).we.drop (actE 193 false).r.a.src ∧ Grant.i = (actE 193 false).m.gr ∨
                 (clauseAt 193).d.dop = 5 ∧ Dir.un = Dir.un ∧ Grant.i = (actE 193 false).m.gr ∨
                   (clauseAt 193).d.dop = 6 ∧ Dir.un = Dir.uk ∧ Grant.i = (actE 193 false).m.gr)) ∧
    ((clauseAt 193).m = none) := by
  refine ⟨quiet_of _ ?_, .inr (.inr ⟨true, false, true, false, false, 0, 200, ?_⟩), ?_⟩ <;> decide +kernel

theorem wit_Act_4 :
    (Quiet (withEnt on (actE 193 false))) ∧
    (mild (withEnt on (actE 193 false)) (srcSlice 5)) ∧
    ((withEnt on (actE 193 false)).sliceRuns 5 = true) ∧
    ((withEnt on (actE 193 false)).flag 63 320 31 = false) ∧
    (((withEnt on (actE 193 false)).slice 5).ar.inj = []) ∧
    ((withEnt on (actE 193 false)).readyOf 5 true = if false = true then some 0 else none) ∧
    (false = false → (withEnt on (actE 193 false)).readyOf 5 false = some 0) ∧
    ((withEnt on (actE 193 false)).ent 5 0 = some (actE 193 false)) ∧
    (Clause.dec
         (((withEnt on (actE 193 false)).slice 5).uc.clause ((actE 193 false).pc.getLsbD 10)
           (BitVec.extractLsb' 0 10 (actE 193 false).pc).toNat) =
       clauseAt 193) ∧
    (false = false) := by
  refine ⟨quiet_of _ ?_, (show _ < _ from ?_), ?_⟩ <;> decide +kernel

theorem wit_Act_5 :
    (Quiet (withEnt on dropE)) ∧
    ((clauseAt 234).c = COp.next ∧ 235 = dropE.pc + 1 ∧ TStat.ready false = TStat.ready false ∨
       (∃ a, (clauseAt 234).c = COp.jmp a ∧ 235 = BitVec.extractLsb' 10 1 dropE.pc ++ a ∧ TStat.ready false = TStat.ready false) ∨
         ∃ m me tm sv q d tpc,
           (clauseAt 234).c = COp.wait m me tm sv q d tpc ∧
             235 = dropE.pc ∧
               TStat.ready false = TStat.parked m me tm sv q tpc ∧
                 (m = true →
                     if q = true then (dropE.putX (dropE.runX (withEnt on dropE).now (clauseAt 234).x) dropE.x).x.ack ≠ 0
                     else dropE.m.latch = false) ∧
                   (me = true → dropE.m.memEv = []) ∧
                     (sv = true → dropE.m.svc = false) ∧ (tm = true → (withEnt on dropE).expired dropE = false)) ∧
    ((withEnt on dropE).sliceRuns 5 = true) ∧
    ((withEnt on dropE).flag 63 320 31 = false) ∧
    (((withEnt on dropE).slice 5).ar.inj = []) ∧
    ((withEnt on dropE).readyOf 5 true = if false = true then some 0 else none) ∧
    (false = false → (withEnt on dropE).readyOf 5 false = some 0) ∧
    ((withEnt on dropE).ent 5 0 = some dropE) ∧
    (Clause.dec (((withEnt on dropE).slice 5).uc.clause (dropE.pc.getLsbD 10) (BitVec.extractLsb' 0 10 dropE.pc).toNat) =
       clauseAt 234) ∧
    ((clauseAt 234).d.dop = 0 ∧ (Dir.sf [0, 2] 1).drop 0 = dropE.we ∧ Grant.i = dropE.m.gr ∧ true = false ∨
       true = ((clauseAt 234).d.w && dropE.wv && !dropE.h.noDir) ∧
         ((clauseAt 234).d.dop = 1 ∧ (Dir.sf [0, 2] 1).drop 0 = dropE.we ∧ Grant.i = dropE.m.gr ∨
           (clauseAt 234).d.dop = 2 ∧ dropE.r.a.src ≠ 63 ∧ (Dir.sf [0, 2] 1).drop 0 = Dir.ex dropE.r.a.src ∧ Grant.i = Grant.e ∨
             (clauseAt 234).d.dop = 3 ∧
                 dropE.grouped = false ∧ dropE.we.share dropE.r.a.src = ((Dir.sf [0, 2] 1).drop 0, Grant.i) ∨
               (clauseAt 234).d.dop = 4 ∧
                   (clauseAt 234).d.arg = 0 ∧ (Dir.sf [0, 2] 1).drop 0 = dropE.we.drop dropE.r.a.src ∧ Grant.i = dropE.m.gr ∨
                 (clauseAt 234).d.dop = 5 ∧ (Dir.sf [0, 2] 1).drop 0 = Dir.un ∧ Grant.i = dropE.m.gr ∨
                   (clauseAt 234).d.dop = 6 ∧ (Dir.sf [0, 2] 1).drop 0 = Dir.uk ∧ Grant.i = dropE.m.gr)) ∧
    ((clauseAt 234).m = none) := by
  refine ⟨quiet_of _ ?_, .inl ?_, ?_⟩ <;> decide +kernel

theorem wit_Act_6 :
    (Quiet (withEnt mscHas (actE 196 false))) ∧
    ((clauseAt 196).c = COp.next ∧
         196 = (actE 196 false).pc + 1 ∧ TStat.parked false true true false false 204 = TStat.ready false ∨
       (∃ a,
           (clauseAt 196).c = COp.jmp a ∧
             196 = BitVec.extractLsb' 10 1 (actE 196 false).pc ++ a ∧
               TStat.parked false true true false false 204 = TStat.ready false) ∨
         ∃ m me tm sv q d tpc,
           (clauseAt 196).c = COp.wait m me tm sv q d tpc ∧
             196 = (actE 196 false).pc ∧
               TStat.parked false true true false false 204 = TStat.parked m me tm sv q tpc ∧
                 (m = true →
                     if q = true then
                       ((actE 196 false).putX ((actE 196 false).runX (withEnt mscHas (actE 196 false)).now (clauseAt 196).x)
                               (actE 196 false).x).x.ack ≠
                         0
                     else (actE 196 false).m.latch = false) ∧
                   (me = true → (actE 196 false).m.memEv = []) ∧
                     (sv = true → (actE 196 false).m.svc = false) ∧
                       (tm = true → (withEnt mscHas (actE 196 false)).expired (actE 196 false) = false)) ∧
    ((withEnt mscHas (actE 196 false)).sliceRuns 5 = true) ∧
    ((withEnt mscHas (actE 196 false)).flag 63 320 31 = false) ∧
    (((withEnt mscHas (actE 196 false)).slice 5).ar.inj = []) ∧
    ((withEnt mscHas (actE 196 false)).readyOf 5 true = if false = true then some 0 else none) ∧
    (false = false → (withEnt mscHas (actE 196 false)).readyOf 5 false = some 0) ∧
    ((withEnt mscHas (actE 196 false)).ent 5 0 = some (actE 196 false)) ∧
    (Clause.dec
         (((withEnt mscHas (actE 196 false)).slice 5).uc.clause ((actE 196 false).pc.getLsbD 10)
           (BitVec.extractLsb' 0 10 (actE 196 false).pc).toNat) =
       clauseAt 196) ∧
    ((clauseAt 196).m = none) ∧
    ((clauseAt 196).d.dop = 8) ∧
    (((actE 196 false).x.dd && (actE 196 false).h.dh.isSome) = false) ∧
    ((withEnt mscHas (actE 196 false)).lineHit 5 (actE 196 false).r.home (actE 196 false).r.a.pa = some 2) := by
  refine ⟨quiet_of _ ?_, .inr (.inr ⟨false, true, true, false, false, 0, 204, ?_⟩), ?_⟩ <;> decide +kernel

theorem wit_Act_7 :
    (Quiet (withEnt on (ownE 196))) ∧
    ((clauseAt 196).c = COp.next ∧ 196 = (ownE 196).pc + 1 ∧ TStat.parked false true true false false 204 = TStat.ready false ∨
       (∃ a,
           (clauseAt 196).c = COp.jmp a ∧
             196 = BitVec.extractLsb' 10 1 (ownE 196).pc ++ a ∧ TStat.parked false true true false false 204 = TStat.ready false) ∨
         ∃ m me tm sv q d tpc,
           (clauseAt 196).c = COp.wait m me tm sv q d tpc ∧
             196 = (ownE 196).pc ∧
               TStat.parked false true true false false 204 = TStat.parked m me tm sv q tpc ∧
                 (m = true →
                     if q = true then
                       ((ownE 196).putX ((ownE 196).runX (withEnt on (ownE 196)).now (clauseAt 196).x) (ownE 196).x).x.ack ≠ 0
                     else (ownE 196).m.latch = false) ∧
                   (me = true → (ownE 196).m.memEv = []) ∧
                     (sv = true → (ownE 196).m.svc = false) ∧ (tm = true → (withEnt on (ownE 196)).expired (ownE 196) = false)) ∧
    ((withEnt on (ownE 196)).fetchPlace
         { slice := 5, fetchFor := FetchFor.trk 0, addr := MemAddr.line (ownE 196).r.a.pa, home := (ownE 196).r.home,
           det := (ownE 196).r.rk, mir := false, past := false } =
       some (5, c5, false)) ∧
    ((withEnt on (ownE 196)).sliceRuns 5 = true) ∧
    ((withEnt on (ownE 196)).flag 63 320 31 = false) ∧
    (((withEnt on (ownE 196)).slice 5).ar.inj = []) ∧
    ((withEnt on (ownE 196)).readyOf 5 true = if false = true then some 0 else none) ∧
    (false = false → (withEnt on (ownE 196)).readyOf 5 false = some 0) ∧
    ((withEnt on (ownE 196)).ent 5 0 = some (ownE 196)) ∧
    (Clause.dec
         (((withEnt on (ownE 196)).slice 5).uc.clause ((ownE 196).pc.getLsbD 10) (BitVec.extractLsb' 0 10 (ownE 196).pc).toNat) =
       clauseAt 196) ∧
    ((clauseAt 196).m = none) ∧
    ((clauseAt 196).d.dop = 8) ∧
    (((ownE 196).x.dd && (ownE 196).h.dh.isSome) = false) ∧
    ((withEnt on (ownE 196)).lineHit 5 (ownE 196).r.home (ownE 196).r.a.pa = none) ∧
    ((ownE 196).r.kind = Kind.req ReqOp.rdShd → (withEnt on (ownE 196)).fld (slcPage 5) 532 2 0 = 0) ∧
    ((withEnt on (ownE 196)).flag 60 (4 * BitVec.toNat (ownE 196).r.a.part) 29 = false) ∧
    (((withEnt on (ownE 196)).slice 5).holdsFetch
         { slice := 5, fetchFor := FetchFor.trk 0, addr := MemAddr.line (ownE 196).r.a.pa, home := (ownE 196).r.home,
           det := (ownE 196).r.rk, mir := false, past := false } =
       false) ∧
    ((withEnt on (ownE 196)).rqRoom 5 (ownE 196).r.rk = true) ∧
    (5 = 5) := by
  refine ⟨quiet_of _ ?_, .inr (.inr ⟨false, true, true, false, false, 0, 204, ?_⟩), fetch5, ?_⟩ <;> decide +kernel

theorem wit_Act_8 :
    (Quiet (withEnt on (ownE 579))) ∧
    ((clauseAt 579).c = COp.next ∧ 579 = (ownE 579).pc + 1 ∧ TStat.parked false false true true false 583 = TStat.ready false ∨
       (∃ a,
           (clauseAt 579).c = COp.jmp a ∧
             579 = BitVec.extractLsb' 10 1 (ownE 579).pc ++ a ∧ TStat.parked false false true true false 583 = TStat.ready false) ∨
         ∃ m me tm sv q d tpc,
           (clauseAt 579).c = COp.wait m me tm sv q d tpc ∧
             579 = (ownE 579).pc ∧
               TStat.parked false false true true false 583 = TStat.parked m me tm sv q tpc ∧
                 (m = true →
                     if q = true then
                       ((ownE 579).putX ((ownE 579).runX (withEnt on (ownE 579)).now (clauseAt 579).x) (ownE 579).x).x.ack ≠ 0
                     else (ownE 579).m.latch = false) ∧
                   (me = true → (ownE 579).m.memEv = []) ∧
                     (sv = true → (ownE 579).m.svc = false) ∧ (tm = true → (withEnt on (ownE 579)).expired (ownE 579) = false)) ∧
    ((withEnt on (ownE 579)).sliceRuns 5 = true) ∧
    ((withEnt on (ownE 579)).flag 63 320 31 = false) ∧
    (((withEnt on (ownE 579)).slice 5).ar.inj = []) ∧
    ((withEnt on (ownE 579)).readyOf 5 true = if false = true then some 0 else none) ∧
    (false = false → (withEnt on (ownE 579)).readyOf 5 false = some 0) ∧
    ((withEnt on (ownE 579)).ent 5 0 = some (ownE 579)) ∧
    (Clause.dec
         (((withEnt on (ownE 579)).slice 5).uc.clause ((ownE 579).pc.getLsbD 10) (BitVec.extractLsb' 0 10 (ownE 579).pc).toNat) =
       clauseAt 579) ∧
    ((clauseAt 579).m = some (sm 579)) ∧
    ((sm 579).cls = 0) ∧
    ((sm 579).tgt = 9) ∧
    ((clauseAt 579).d.dop = 0) := by
  refine ⟨quiet_of _ ?_, .inr (.inr ⟨false, false, true, true, false, 0, 0x247, ?_⟩), ?_⟩ <;> decide +kernel

theorem wit_Act_9 :
    (Quiet (withEnt on snpE)) ∧
    ((withEnt on snpE).sliceRuns 5 = true) ∧
    ((withEnt on snpE).flag 63 320 31 = false) ∧
    (((withEnt on snpE).slice 5).ar.inj = []) ∧
    ((withEnt on snpE).readyOf 5 true = if false = true then some 0 else none) ∧
    (false = false → (withEnt on snpE).readyOf 5 false = some 0) ∧
    ((withEnt on snpE).ent 5 0 = some snpE) ∧
    (Clause.dec (((withEnt on snpE).slice 5).uc.clause (snpE.pc.getLsbD 10) (BitVec.extractLsb' 0 10 snpE.pc).toNat) = clauseAt 397) ∧
    ((clauseAt 397).c = COp.next) ∧
    ((clauseAt 397).m = some (sm 397)) ∧
    ((sm 397).cls = 1) ∧
    ((sm 397).cnt = true) ∧
    ((sm 397).tgt ≠ 5) ∧
    ((sm 397).tgt ≠ 6) ∧
    ((clauseAt 397).d.dop = 0) ∧
    (snpOpOf (sm 397).opc = some SnpOp.snpOwn) ∧
    (SnpOp.snpOwn ≠ SnpOp.qNotify) ∧
    ((withEnt on snpE).target snpE (sm 397) = [2]) ∧
    (portOf 2 = some 1) ∧
    (((withEnt on snpE).port 1).areaUsed < 256) ∧
    (∀ g ∈ ((withEnt on snpE).port 1).egress, g.waitsArea = false) := by
  refine ⟨quiet_of _ ?_, ?_⟩ <;> decide +kernel

theorem wit_Act_10 :
    (Quiet (withEnt on (ownE 203))) ∧
    (FlitPasses (withEnt on (ownE 203)) 0 (ownE 203).r.a.src) ∧
    ((withEnt on (ownE 203)).sliceRuns 5 = true) ∧
    ((withEnt on (ownE 203)).flag 63 320 31 = false) ∧
    (((withEnt on (ownE 203)).slice 5).ar.inj = []) ∧
    ((withEnt on (ownE 203)).readyOf 5 true = if false = true then some 0 else none) ∧
    (false = false → (withEnt on (ownE 203)).readyOf 5 false = some 0) ∧
    ((withEnt on (ownE 203)).ent 5 0 = some (ownE 203)) ∧
    (Clause.dec
         (((withEnt on (ownE 203)).slice 5).uc.clause ((ownE 203).pc.getLsbD 10) (BitVec.extractLsb' 0 10 (ownE 203).pc).toNat) =
       clauseAt 203) ∧
    ((clauseAt 203).c = COp.done 0) ∧
    ((clauseAt 203).m = some (sm 203)) ∧
    ((sm 203).cls = 2) ∧
    ((sm 203).opc = RspOp.comp.code) ∧
    ((sm 203).cmp = true) ∧
    ((sm 203).ifs = false) ∧
    ((clauseAt 203).d.dop = 0 ∧ Dir.un = (ownE 203).we ∧ Grant.i = (ownE 203).m.gr ∧ false = false ∨
       false = ((clauseAt 203).d.w && (ownE 203).wv && !(ownE 203).h.noDir) ∧
         ((clauseAt 203).d.dop = 1 ∧ Dir.un = (ownE 203).we ∧ Grant.i = (ownE 203).m.gr ∨
           (clauseAt 203).d.dop = 2 ∧ (ownE 203).r.a.src ≠ 63 ∧ Dir.un = Dir.ex (ownE 203).r.a.src ∧ Grant.i = Grant.e ∨
             (clauseAt 203).d.dop = 3 ∧ (ownE 203).grouped = false ∧ (ownE 203).we.share (ownE 203).r.a.src = (Dir.un, Grant.i) ∨
               (clauseAt 203).d.dop = 4 ∧
                   (clauseAt 203).d.arg = 0 ∧ Dir.un = (ownE 203).we.drop (ownE 203).r.a.src ∧ Grant.i = (ownE 203).m.gr ∨
                 (clauseAt 203).d.dop = 5 ∧ Dir.un = Dir.un ∧ Grant.i = (ownE 203).m.gr ∨
                   (clauseAt 203).d.dop = 6 ∧ Dir.un = Dir.uk ∧ Grant.i = (ownE 203).m.gr)) ∧
    (((withEnt on (ownE 203)).slice 5).trk = [(0, some (ownE 203))]) ∧
    (((withEnt on (ownE 203)).slice 5).recs = []) ∧
    (∀ (q : Fin 24), ((withEnt on (ownE 203)).port q).egress = []) ∧
    ((ownE 203).h.cs = false) ∧
    ((ownE 203).m.tmo = false) ∧
    ((ownE 203).h.grp = none) ∧
    ((ownE 203).wv = false) ∧
    ((ownE 203).x.ukm = false) ∧
    ((ownE 203).r.kind = Kind.req ReqOp.rdOwn) ∧
    (reqCounted ReqOp.rdOwn = false) ∧
    (reqIsDrain ReqOp.rdOwn = false) ∧
    ((ownE 203).r.port = some 0) ∧
    ((ownE 203).r.cd = none) ∧
    ((ownE 203).r.wid = 0) ∧
    ((ownE 203).r.rk = false) ∧
    ((ownE 203).r.a.gen = ((withEnt on (ownE 203)).part (ownE 203).r.a.part).gen) ∧
    ((((withEnt on (ownE 203)).port 0).rIss (ownE 203).r.a.part).toNat ≤ (withEnt on (ownE 203)).rLimit 0 (ownE 203).r.a.part) := by
  refine ⟨quiet_of _ ?_, passes _ _ _ ?_, ?_⟩ <;> decide +kernel

/-! ### ServicesAndMemoryEvents -/

theorem wit_Svc_1 :
    (Quiet (sv ReqOp.lockAcq)) ∧
    ((sv ReqOp.lockAcq).blockRuns = true) ∧
    (((sv ReqOp.lockAcq).slice 5).asleep = false) ∧
    ((sv ReqOp.lockAcq).slFenced 5 = false) ∧
    (((sv ReqOp.lockAcq).slice 5).ar.inj = []) ∧
    ((sv ReqOp.lockAcq).ent 5 0 = some (svE ReqOp.lockAcq)) ∧
    ((svE ReqOp.lockAcq).m.memEv = []) ∧
    ((svE ReqOp.lockAcq).stat = TStat.parked false false true true false 9) ∧
    (((sv ReqOp.lockAcq).slice 5).svcq = [{ tid := 0, src := 5, opc := reqCode ReqOp.lockAcq, f0 := 0 }]) ∧
    ((svE ReqOp.lockAcq).r.kind = Kind.req ReqOp.lockAcq) ∧
    (reqOpOf (reqCode ReqOp.lockAcq) = some ReqOp.lockAcq) ∧
    (((sv ReqOp.lockAcq).slice 5).findLock ((sv ReqOp.lockAcq).claOf (svE ReqOp.lockAcq).r.a.pa) = none) ∧
    (((sv ReqOp.lockAcq).slice 5).locksOf (svE ReqOp.lockAcq).r.a.part <
       (sv ReqOp.lockAcq).fld 60 (512 + 4 * BitVec.toNat (svE ReqOp.lockAcq).r.a.part) 26 16) ∧
    (((sv ReqOp.lockAcq).slice 5).freeLock ((sv ReqOp.lockAcq).claOf (svE ReqOp.lockAcq).r.a.pa) = some 0) := by
  refine ⟨quiet_of _ ?_, ?_⟩ <;> decide +kernel

theorem wit_Svc_2 :
    (Quiet (withLock (sv ReqOp.lockAcq) (heldL 2))) ∧
    (((withLock (sv ReqOp.lockAcq) (heldL 2)).slice 5).findLock
         ((withLock (sv ReqOp.lockAcq) (heldL 2)).claOf (svE ReqOp.lockAcq).r.a.pa) =
       some (0, heldL 2)) ∧
    ((withLock (sv ReqOp.lockAcq) (heldL 2)).blockRuns = true) ∧
    (((withLock (sv ReqOp.lockAcq) (heldL 2)).slice 5).asleep = false) ∧
    ((withLock (sv ReqOp.lockAcq) (heldL 2)).slFenced 5 = false) ∧
    (((withLock (sv ReqOp.lockAcq) (heldL 2)).slice 5).ar.inj = []) ∧
    ((withLock (sv ReqOp.lockAcq) (heldL 2)).ent 5 0 = some (svE ReqOp.lockAcq)) ∧
    ((svE ReqOp.lockAcq).m.memEv = []) ∧
    ((svE ReqOp.lockAcq).stat = TStat.parked false false true true false 9) ∧
    (((withLock (sv ReqOp.lockAcq) (heldL 2)).slice 5).svcq = [{ tid := 0, src := 5, opc := reqCode ReqOp.lockAcq, f0 := 0 }]) ∧
    ((svE ReqOp.lockAcq).r.kind = Kind.req ReqOp.lockAcq) ∧
    (reqOpOf (reqCode ReqOp.lockAcq) = some ReqOp.lockAcq) ∧
    (((withLock (sv ReqOp.lockAcq) (heldL 2)).lockReads (heldL 2)).1 = LockSt.held) := by
  refine ⟨quiet_of _ ?_, (by rw [clasame (withLock (sv .lockAcq) (heldL 2)) (svE .lockAcq).r.a.pa (by decide +kernel)]; decide +kernel),
      ?_⟩ <;> decide +kernel

theorem wit_Svc_3 :
    (Quiet (withLock (sv ReqOp.lockAcq) orphL)) ∧
    (((withLock (sv ReqOp.lockAcq) orphL).slice 5).findLock
         ((withLock (sv ReqOp.lockAcq) orphL).claOf (svE ReqOp.lockAcq).r.a.pa) =
       some (0, orphL)) ∧
    ((withLock (sv ReqOp.lockAcq) orphL).blockRuns = true) ∧
    (((withLock (sv ReqOp.lockAcq) orphL).slice 5).asleep = false) ∧
    ((withLock (sv ReqOp.lockAcq) orphL).slFenced 5 = false) ∧
    (((withLock (sv ReqOp.lockAcq) orphL).slice 5).ar.inj = []) ∧
    ((withLock (sv ReqOp.lockAcq) orphL).ent 5 0 = some (svE ReqOp.lockAcq)) ∧
    ((svE ReqOp.lockAcq).m.memEv = []) ∧
    ((svE ReqOp.lockAcq).stat = TStat.parked false false true true false 9) ∧
    (((withLock (sv ReqOp.lockAcq) orphL).slice 5).svcq = [{ tid := 0, src := 5, opc := reqCode ReqOp.lockAcq, f0 := 0 }]) ∧
    ((svE ReqOp.lockAcq).r.kind = Kind.req ReqOp.lockAcq) ∧
    (reqOpOf (reqCode ReqOp.lockAcq) = some ReqOp.lockAcq) ∧
    (((withLock (sv ReqOp.lockAcq) orphL).lockReads orphL).1 = LockSt.orphaned) := by
  refine ⟨quiet_of _ ?_, (by rw [clasame (withLock (sv .lockAcq) orphL) (svE .lockAcq).r.a.pa (by decide +kernel)]; decide +kernel), ?_⟩
      <;> decide +kernel

theorem wit_Svc_4 :
    (Quiet (withLock (sv ReqOp.lockRel) (heldL 0))) ∧
    (((withLock (sv ReqOp.lockRel) (heldL 0)).slice 5).findLock
         ((withLock (sv ReqOp.lockRel) (heldL 0)).claOf (svE ReqOp.lockRel).r.a.pa) =
       some
         (0,
           Lock.heldBy (ledgerTag ((withLock (sv ReqOp.lockRel) (heldL 0)).claOf (svE ReqOp.lockRel).r.a.pa))
             (svE ReqOp.lockRel).r.a)) ∧
    ((withLock (sv ReqOp.lockRel) (heldL 0)).blockRuns = true) ∧
    (((withLock (sv ReqOp.lockRel) (heldL 0)).slice 5).asleep = false) ∧
    ((withLock (sv ReqOp.lockRel) (heldL 0)).slFenced 5 = false) ∧
    (((withLock (sv ReqOp.lockRel) (heldL 0)).slice 5).ar.inj = []) ∧
    ((withLock (sv ReqOp.lockRel) (heldL 0)).ent 5 0 = some (svE ReqOp.lockRel)) ∧
    ((svE ReqOp.lockRel).m.memEv = []) ∧
    ((svE ReqOp.lockRel).stat = TStat.parked false false true true false 9) ∧
    (((withLock (sv ReqOp.lockRel) (heldL 0)).slice 5).svcq = [{ tid := 0, src := 5, opc := reqCode ReqOp.lockRel, f0 := 0 }]) ∧
    ((svE ReqOp.lockRel).r.kind = Kind.req ReqOp.lockRel) ∧
    (reqOpOf (reqCode ReqOp.lockRel) = some ReqOp.lockRel) ∧
    (((withLock (sv ReqOp.lockRel) (heldL 0)).lockReads
           (Lock.heldBy (ledgerTag ((withLock (sv ReqOp.lockRel) (heldL 0)).claOf (svE ReqOp.lockRel).r.a.pa))
             (svE ReqOp.lockRel).r.a)).1 =
       LockSt.held) := by
  refine ⟨quiet_of _ ?_, (by rw [clasame (withLock (sv .lockRel) (heldL 0)) (svE .lockRel).r.a.pa (by decide +kernel)]; decide +kernel),
      ?_⟩ <;> decide +kernel

theorem wit_Svc_5 :
    (Quiet (sv ReqOp.lockRel)) ∧
    ((sv ReqOp.lockRel).blockRuns = true) ∧
    (((sv ReqOp.lockRel).slice 5).asleep = false) ∧
    ((sv ReqOp.lockRel).slFenced 5 = false) ∧
    (((sv ReqOp.lockRel).slice 5).ar.inj = []) ∧
    ((sv ReqOp.lockRel).ent 5 0 = some (svE ReqOp.lockRel)) ∧
    ((svE ReqOp.lockRel).m.memEv = []) ∧
    ((svE ReqOp.lockRel).stat = TStat.parked false false true true false 9) ∧
    (((sv ReqOp.lockRel).slice 5).svcq = [{ tid := 0, src := 5, opc := reqCode ReqOp.lockRel, f0 := 0 }]) ∧
    ((svE ReqOp.lockRel).r.kind = Kind.req ReqOp.lockRel) ∧
    (reqOpOf (reqCode ReqOp.lockRel) = some ReqOp.lockRel) ∧
    (((sv ReqOp.lockRel).slice 5).findLock ((sv ReqOp.lockRel).claOf (svE ReqOp.lockRel).r.a.pa) = none) := by
  refine ⟨quiet_of _ ?_, ?_⟩ <;> decide +kernel

theorem wit_Svc_q0 :
    (Quiet (svX ReqOp.qEnq 0)) ∧
    ((svX ReqOp.qEnq 0).blockRuns = true) ∧
    (((svX ReqOp.qEnq 0).slice 5).asleep = false) ∧
    ((svX ReqOp.qEnq 0).slFenced 5 = false) ∧
    (((svX ReqOp.qEnq 0).slice 5).ar.inj = []) ∧
    ((svX ReqOp.qEnq 0).ent 5 0 = some (svA ReqOp.qEnq false)) ∧
    ((svA ReqOp.qEnq false).m.memEv = []) ∧
    ((svA ReqOp.qEnq false).stat = TStat.parked false false true true false 9) ∧
    (((svX ReqOp.qEnq 0).slice 5).svcq = [{ tid := 0, src := 5, opc := reqCode ReqOp.qEnq, f0 := 0 }]) ∧
    ((svA ReqOp.qEnq false).r.kind = Kind.req ReqOp.qEnq) ∧
    (reqOpOf (reqCode ReqOp.qEnq) = some ReqOp.qEnq) ∧
    (ReqOp.qEnq = ReqOp.qEnq ∨ ReqOp.qEnq = ReqOp.qDeq ∨ ReqOp.qEnq = ReqOp.qWatch) ∧
    ((svX ReqOp.qEnq (0 : BitVec (16 : ℕ))).queueFor (5 : Fin (17 : ℕ))
         ({ (svA ReqOp.qEnq false).r.a with arg := (0 : BitVec (16 : ℕ)) ++ BitVec.extractLsb' (0 : ℕ) (13 : ℕ) (svA ReqOp.qEnq
      false).r.a.arg : ReqArgs }) =
       ((1 : BitVec (8 : ℕ)), none)) := by
  refine ⟨quiet_of _ ?_, ?_⟩ <;> decide +kernel

theorem wit_Svc_q1 :
    (Quiet (svQ ReqOp.qEnq qdFull)) ∧
    ((svQ ReqOp.qEnq qdFull).blockRuns = true) ∧
    (((svQ ReqOp.qEnq qdFull).slice 5).asleep = false) ∧
    ((svQ ReqOp.qEnq qdFull).slFenced 5 = false) ∧
    (((svQ ReqOp.qEnq qdFull).slice 5).ar.inj = []) ∧
    ((svQ ReqOp.qEnq qdFull).ent 5 0 = some (svC ReqOp.qEnq)) ∧
    ((svC ReqOp.qEnq).m.memEv = []) ∧
    ((svC ReqOp.qEnq).stat = TStat.parked false false true true false 9) ∧
    (((svQ ReqOp.qEnq qdFull).slice 5).svcq = [{ tid := 0, src := 5, opc := reqCode ReqOp.qEnq, f0 := f0Z }]) ∧
    ((svC ReqOp.qEnq).r.kind = Kind.req ReqOp.qEnq) ∧
    (reqOpOf (reqCode ReqOp.qEnq) = some ReqOp.qEnq) ∧
    (ReqOp.qEnq = ReqOp.qEnq ∨ ReqOp.qEnq = ReqOp.qDeq ∨ ReqOp.qEnq = ReqOp.qWatch) ∧
    ((svQ ReqOp.qEnq qdFull).queueFor 5
         ({ (svC ReqOp.qEnq).r.a with arg := f0Z ++ BitVec.extractLsb' 0 13 (svC ReqOp.qEnq).r.a.arg }) =
       (0, some (3, qdFull))) ∧
    (ReqOp.qEnq = ReqOp.qEnq) ∧
    (qdFull.count = qdFull.ring) := by
  refine ⟨quiet_of _ ?_, ?_⟩ <;> decide +kernel

theorem wit_Svc_q2 :
    (Quiet (svQ ReqOp.qEnq qdFire)) ∧
    ((svQ ReqOp.qEnq qdFire).blockRuns = true) ∧
    (((svQ ReqOp.qEnq qdFire).slice 5).asleep = false) ∧
    ((svQ ReqOp.qEnq qdFire).slFenced 5 = false) ∧
    (((svQ ReqOp.qEnq qdFire).slice 5).ar.inj = []) ∧
    ((svQ ReqOp.qEnq qdFire).ent 5 0 = some (svC ReqOp.qEnq)) ∧
    ((svC ReqOp.qEnq).m.memEv = []) ∧
    ((svC ReqOp.qEnq).stat = TStat.parked false false true true false 9) ∧
    (((svQ ReqOp.qEnq qdFire).slice 5).svcq = [{ tid := 0, src := 5, opc := reqCode ReqOp.qEnq, f0 := f0Z }]) ∧
    ((svC ReqOp.qEnq).r.kind = Kind.req ReqOp.qEnq) ∧
    (reqOpOf (reqCode ReqOp.qEnq) = some ReqOp.qEnq) ∧
    (ReqOp.qEnq = ReqOp.qEnq ∨ ReqOp.qEnq = ReqOp.qDeq ∨ ReqOp.qEnq = ReqOp.qWatch) ∧
    ((svQ ReqOp.qEnq qdFire).queueFor 5
         ({ (svC ReqOp.qEnq).r.a with arg := f0Z ++ BitVec.extractLsb' 0 13 (svC ReqOp.qEnq).r.a.arg }) =
       (0, some (3, qdFire))) ∧
    (ReqOp.qEnq = ReqOp.qEnq) ∧
    (qdFire.count ≠ qdFire.ring) ∧
    ((svQ ReqOp.qEnq qdFire).chLost (svC ReqOp.qEnq).r.home = false) ∧
    (((svQ ReqOp.qEnq qdFire).slice 5).mem.wmb.length < 128) ∧
    (((svQ ReqOp.qEnq qdFire).slice 5).mem.wtWait = []) ∧
    (((svQ ReqOp.qEnq qdFire).slice 5).wmbOf (MemAddr.ring (svC ReqOp.qEnq).r.home (qdFire.entry qdFire.tail.toNat))
         (svC ReqOp.qEnq).r.home =
       []) ∧
    ((svC ReqOp.qEnq).r.port = some 0) ∧
    ((svC ReqOp.qEnq).r.cd = some { data := 9, pois := false }) ∧
    ((svC ReqOp.qEnq).h.cdDone = false) ∧
    ((((svQ ReqOp.qEnq qdFire).port 0).dIss
           ({ (svC ReqOp.qEnq).r.a with arg := f0Z ++ BitVec.extractLsb' 0 13 (svC ReqOp.qEnq).r.a.arg : ReqArgs }).part).toNat ≤
       (svQ ReqOp.qEnq qdFire).dLimit 0
         ({ (svC ReqOp.qEnq).r.a with arg := f0Z ++ BitVec.extractLsb' 0 13 (svC ReqOp.qEnq).r.a.arg : ReqArgs }).part) ∧
    (∀ (x : Fin 24), ∀ g ∈ ((svQ ReqOp.qEnq qdFire).port x).egress, g.waitsArea = false) := by
  refine ⟨quiet_of _ ?_, ?_⟩ <;> decide +kernel

theorem wit_Svc_q3 :
    (Quiet (svQ ReqOp.qDeq qd0)) ∧
    ((svQ ReqOp.qDeq qd0).blockRuns = true) ∧
    (((svQ ReqOp.qDeq qd0).slice 5).asleep = false) ∧
    ((svQ ReqOp.qDeq qd0).slFenced 5 = false) ∧
    (((svQ ReqOp.qDeq qd0).slice 5).ar.inj = []) ∧
    ((svQ ReqOp.qDeq qd0).ent 5 0 = some (svC ReqOp.qDeq)) ∧
    ((svC ReqOp.qDeq).m.memEv = []) ∧
    ((svC ReqOp.qDeq).stat = TStat.parked false false true true false 9) ∧
    (((svQ ReqOp.qDeq qd0).slice 5).svcq = [{ tid := 0, src := 5, opc := reqCode ReqOp.qDeq, f0 := f0Z }]) ∧
    ((svC ReqOp.qDeq).r.kind = Kind.req ReqOp.qDeq) ∧
    (reqOpOf (reqCode ReqOp.qDeq) = some ReqOp.qDeq) ∧
    (ReqOp.qDeq = ReqOp.qEnq ∨ ReqOp.qDeq = ReqOp.qDeq ∨ ReqOp.qDeq = ReqOp.qWatch) ∧
    ((svQ ReqOp.qDeq qd0).queueFor 5
         ({ (svC ReqOp.qDeq).r.a with arg := f0Z ++ BitVec.extractLsb' 0 13 (svC ReqOp.qDeq).r.a.arg }) =
       (0, some (3, qd0))) ∧
    (ReqOp.qDeq = ReqOp.qDeq) ∧
    (qd0.count = 0) := by
  refine ⟨quiet_of _ ?_, ?_⟩ <;> decide +kernel

theorem wit_Svc_q4 :
    (Quiet (svQ ReqOp.qDeq qd3)) ∧
    ((svQ ReqOp.qDeq qd3).blockRuns = true) ∧
    (((svQ ReqOp.qDeq qd3).slice 5).asleep = false) ∧
    ((svQ ReqOp.qDeq qd3).slFenced 5 = false) ∧
    (((svQ ReqOp.qDeq qd3).slice 5).ar.inj = []) ∧
    ((svQ ReqOp.qDeq qd3).ent 5 0 = some (svC ReqOp.qDeq)) ∧
    ((svC ReqOp.qDeq).m.memEv = []) ∧
    ((svC ReqOp.qDeq).stat = TStat.parked false false true true false 9) ∧
    (((svQ ReqOp.qDeq qd3).slice 5).svcq = [{ tid := 0, src := 5, opc := reqCode ReqOp.qDeq, f0 := f0Z }]) ∧
    ((svC ReqOp.qDeq).r.kind = Kind.req ReqOp.qDeq) ∧
    (reqOpOf (reqCode ReqOp.qDeq) = some ReqOp.qDeq) ∧
    (ReqOp.qDeq = ReqOp.qEnq ∨ ReqOp.qDeq = ReqOp.qDeq ∨ ReqOp.qDeq = ReqOp.qWatch) ∧
    ((svQ ReqOp.qDeq qd3).queueFor 5
         ({ (svC ReqOp.qDeq).r.a with arg := f0Z ++ BitVec.extractLsb' 0 13 (svC ReqOp.qDeq).r.a.arg }) =
       (0, some (3, qd3))) ∧
    (ReqOp.qDeq = ReqOp.qDeq) ∧
    (qd3.count ≠ 0) ∧
    ((svQ ReqOp.qDeq qd3).chLost (svC ReqOp.qDeq).r.home = false) ∧
    (((svQ ReqOp.qDeq qd3).slice 5).holdsFetch
         { slice := 5, fetchFor := FetchFor.svc (svcKey 5 0),
           addr := MemAddr.ring (svC ReqOp.qDeq).r.home (qd3.entry qd3.head.toNat), home := (svC ReqOp.qDeq).r.home,
           det := (svC ReqOp.qDeq).r.rk, mir := false, past := false } =
       false) ∧
    ((svQ ReqOp.qDeq qd3).fetchPlace
         { slice := 5, fetchFor := FetchFor.svc (svcKey 5 0),
           addr := MemAddr.ring (svC ReqOp.qDeq).r.home (qd3.entry qd3.head.toNat), home := (svC ReqOp.qDeq).r.home,
           det := (svC ReqOp.qDeq).r.rk, mir := false, past := false } =
       some (5, 64, false)) ∧
    ((svQ ReqOp.qDeq qd3).rqRoom 5 (svC ReqOp.qDeq).r.rk = true) ∧
    (5 = 5) := by
  refine ⟨quiet_of _ ?_, ?_⟩ <;> decide +kernel

theorem wit_Svc_q5 :
    (Quiet (svW ReqOp.qWatch qd10)) ∧
    ((svW ReqOp.qWatch qd10).blockRuns = true) ∧
    (((svW ReqOp.qWatch qd10).slice 5).asleep = false) ∧
    ((svW ReqOp.qWatch qd10).slFenced 5 = false) ∧
    (((svW ReqOp.qWatch qd10).slice 5).ar.inj = []) ∧
    ((svW ReqOp.qWatch qd10).ent 5 0 = some (svC ReqOp.qWatch)) ∧
    ((svC ReqOp.qWatch).m.memEv = []) ∧
    ((svC ReqOp.qWatch).stat = TStat.parked false false true true false 9) ∧
    (((svW ReqOp.qWatch qd10).slice 5).svcq = [{ tid := 0, src := 5, opc := reqCode ReqOp.qWatch, f0 := f0A }]) ∧
    ((svC ReqOp.qWatch).r.kind = Kind.req ReqOp.qWatch) ∧
    (reqOpOf (reqCode ReqOp.qWatch) = some ReqOp.qWatch) ∧
    (ReqOp.qWatch = ReqOp.qEnq ∨ ReqOp.qWatch = ReqOp.qDeq ∨ ReqOp.qWatch = ReqOp.qWatch) ∧
    ((svW ReqOp.qWatch qd10).queueFor 5
         ({ (svC ReqOp.qWatch).r.a with arg := f0A ++ BitVec.extractLsb' 0 13 (svC ReqOp.qWatch).r.a.arg }) =
       (0, some (3, qd10))) ∧
    (ReqOp.qWatch = ReqOp.qWatch) ∧
    (({ (svC ReqOp.qWatch).r.a with arg := f0A ++ BitVec.extractLsb' 0 13 (svC ReqOp.qWatch).r.a.arg : ReqArgs }).arg.getLsbD
         28 =
       true) ∧
    (qd10.threshold ≤ qd10.count) := by
  refine ⟨quiet_of _ ?_, ?_⟩ <;> decide +kernel

theorem wit_Svc_q6 :
    (Quiet (svW ReqOp.qWatch qdOther)) ∧
    ((svW ReqOp.qWatch qdOther).blockRuns = true) ∧
    (((svW ReqOp.qWatch qdOther).slice 5).asleep = false) ∧
    ((svW ReqOp.qWatch qdOther).slFenced 5 = false) ∧
    (((svW ReqOp.qWatch qdOther).slice 5).ar.inj = []) ∧
    ((svW ReqOp.qWatch qdOther).ent 5 0 = some (svC ReqOp.qWatch)) ∧
    ((svC ReqOp.qWatch).m.memEv = []) ∧
    ((svC ReqOp.qWatch).stat = TStat.parked false false true true false 9) ∧
    (((svW ReqOp.qWatch qdOther).slice 5).svcq = [{ tid := 0, src := 5, opc := reqCode ReqOp.qWatch, f0 := f0A }]) ∧
    ((svC ReqOp.qWatch).r.kind = Kind.req ReqOp.qWatch) ∧
    (reqOpOf (reqCode ReqOp.qWatch) = some ReqOp.qWatch) ∧
    (ReqOp.qWatch = ReqOp.qEnq ∨ ReqOp.qWatch = ReqOp.qDeq ∨ ReqOp.qWatch = ReqOp.qWatch) ∧
    ((svW ReqOp.qWatch qdOther).queueFor 5
         ({ (svC ReqOp.qWatch).r.a with arg := f0A ++ BitVec.extractLsb' 0 13 (svC ReqOp.qWatch).r.a.arg }) =
       (0, some (3, qdOther))) ∧
    (ReqOp.qWatch = ReqOp.qWatch) ∧
    (({ (svC ReqOp.qWatch).r.a with arg := f0A ++ BitVec.extractLsb' 0 13 (svC ReqOp.qWatch).r.a.arg : ReqArgs }).arg.getLsbD
         28 =
       true) ∧
    (qdOther.count < qdOther.threshold) ∧
    ((qdOther.wv &&
             qdOther.wagt !=
               ({ (svC ReqOp.qWatch).r.a with arg := f0A ++ BitVec.extractLsb' 0 13 (svC ReqOp.qWatch).r.a.arg : ReqArgs }).src &&
           !(svW ReqOp.qWatch qdOther).agFenced qdOther.wagt &&
         qdOther.wgen == ((svW ReqOp.qWatch qdOther).part qdOther.part).gen) =
       true) := by
  refine ⟨quiet_of _ ?_, ?_⟩ <;> decide +kernel

theorem wit_Svc_q7 :
    (Quiet (svW ReqOp.qWatch qd0)) ∧
    ((svW ReqOp.qWatch qd0).blockRuns = true) ∧
    (((svW ReqOp.qWatch qd0).slice 5).asleep = false) ∧
    ((svW ReqOp.qWatch qd0).slFenced 5 = false) ∧
    (((svW ReqOp.qWatch qd0).slice 5).ar.inj = []) ∧
    ((svW ReqOp.qWatch qd0).ent 5 0 = some (svC ReqOp.qWatch)) ∧
    ((svC ReqOp.qWatch).m.memEv = []) ∧
    ((svC ReqOp.qWatch).stat = TStat.parked false false true true false 9) ∧
    (((svW ReqOp.qWatch qd0).slice 5).svcq = [{ tid := 0, src := 5, opc := reqCode ReqOp.qWatch, f0 := f0A }]) ∧
    ((svC ReqOp.qWatch).r.kind = Kind.req ReqOp.qWatch) ∧
    (reqOpOf (reqCode ReqOp.qWatch) = some ReqOp.qWatch) ∧
    (ReqOp.qWatch = ReqOp.qEnq ∨ ReqOp.qWatch = ReqOp.qDeq ∨ ReqOp.qWatch = ReqOp.qWatch) ∧
    ((svW ReqOp.qWatch qd0).queueFor 5
         ({ (svC ReqOp.qWatch).r.a with arg := f0A ++ BitVec.extractLsb' 0 13 (svC ReqOp.qWatch).r.a.arg }) =
       (0, some (3, qd0))) ∧
    (ReqOp.qWatch = ReqOp.qWatch) ∧
    (({ (svC ReqOp.qWatch).r.a with arg := f0A ++ BitVec.extractLsb' 0 13 (svC ReqOp.qWatch).r.a.arg : ReqArgs }).arg.getLsbD
         28 =
       true) ∧
    (qd0.count < qd0.threshold) ∧
    ((qd0.wv &&
             qd0.wagt !=
               ({ (svC ReqOp.qWatch).r.a with arg := f0A ++ BitVec.extractLsb' 0 13 (svC ReqOp.qWatch).r.a.arg }).src &&
           !(svW ReqOp.qWatch qd0).agFenced qd0.wagt &&
         qd0.wgen == ((svW ReqOp.qWatch qd0).part qd0.part).gen) =
       false) := by
  refine ⟨quiet_of _ ?_, ?_⟩ <;> decide +kernel

theorem wit_Svc_q8 :
    (Quiet (svQ ReqOp.qWatch qd0)) ∧
    ((svQ ReqOp.qWatch qd0).blockRuns = true) ∧
    (((svQ ReqOp.qWatch qd0).slice 5).asleep = false) ∧
    ((svQ ReqOp.qWatch qd0).slFenced 5 = false) ∧
    (((svQ ReqOp.qWatch qd0).slice 5).ar.inj = []) ∧
    ((svQ ReqOp.qWatch qd0).ent 5 0 = some (svC ReqOp.qWatch)) ∧
    ((svC ReqOp.qWatch).m.memEv = []) ∧
    ((svC ReqOp.qWatch).stat = TStat.parked false false true true false 9) ∧
    (((svQ ReqOp.qWatch qd0).slice 5).svcq = [{ tid := 0, src := 5, opc := reqCode ReqOp.qWatch, f0 := f0Z }]) ∧
    ((svC ReqOp.qWatch).r.kind = Kind.req ReqOp.qWatch) ∧
    (reqOpOf (reqCode ReqOp.qWatch) = some ReqOp.qWatch) ∧
    (ReqOp.qWatch = ReqOp.qEnq ∨ ReqOp.qWatch = ReqOp.qDeq ∨ ReqOp.qWatch = ReqOp.qWatch) ∧
    ((svQ ReqOp.qWatch qd0).queueFor 5
         ({ (svC ReqOp.qWatch).r.a with arg := f0Z ++ BitVec.extractLsb' 0 13 (svC ReqOp.qWatch).r.a.arg }) =
       (0, some (3, qd0))) ∧
    (ReqOp.qWatch = ReqOp.qWatch) ∧
    (({ (svC ReqOp.qWatch).r.a with arg := f0Z ++ BitVec.extractLsb' 0 13 (svC ReqOp.qWatch).r.a.arg : ReqArgs }).arg.getLsbD
         28 =
       false) ∧
    ((qd0.wv &&
         qd0.wagt ==
           ({ (svC ReqOp.qWatch).r.a with arg := f0Z ++ BitVec.extractLsb' 0 13 (svC ReqOp.qWatch).r.a.arg }).src) =
       false) := by
  refine ⟨quiet_of _ ?_, ?_⟩ <;> decide +kernel

theorem wit_Svc_q9 :
    (Quiet (svQ ReqOp.qWatch qdOwn)) ∧
    ((svQ ReqOp.qWatch qdOwn).blockRuns = true) ∧
    (((svQ ReqOp.qWatch qdOwn).slice 5).asleep = false) ∧
    ((svQ ReqOp.qWatch qdOwn).slFenced 5 = false) ∧
    (((svQ ReqOp.qWatch qdOwn).slice 5).ar.inj = []) ∧
    ((svQ ReqOp.qWatch qdOwn).ent 5 0 = some (svC ReqOp.qWatch)) ∧
    ((svC ReqOp.qWatch).m.memEv = []) ∧
    ((svC ReqOp.qWatch).stat = TStat.parked false false true true false 9) ∧
    (((svQ ReqOp.qWatch qdOwn).slice 5).svcq = [{ tid := 0, src := 5, opc := reqCode ReqOp.qWatch, f0 := f0Z }]) ∧
    ((svC ReqOp.qWatch).r.kind = Kind.req ReqOp.qWatch) ∧
    (reqOpOf (reqCode ReqOp.qWatch) = some ReqOp.qWatch) ∧
    (ReqOp.qWatch = ReqOp.qEnq ∨ ReqOp.qWatch = ReqOp.qDeq ∨ ReqOp.qWatch = ReqOp.qWatch) ∧
    ((svQ ReqOp.qWatch qdOwn).queueFor 5
         ({ (svC ReqOp.qWatch).r.a with arg := f0Z ++ BitVec.extractLsb' 0 13 (svC ReqOp.qWatch).r.a.arg }) =
       (0, some (3, qdOwn))) ∧
    (ReqOp.qWatch = ReqOp.qWatch) ∧
    (({ (svC ReqOp.qWatch).r.a with arg := f0Z ++ BitVec.extractLsb' 0 13 (svC ReqOp.qWatch).r.a.arg : ReqArgs }).arg.getLsbD
         28 =
       false) ∧
    ((qdOwn.wv &&
         qdOwn.wagt ==
           ({ (svC ReqOp.qWatch).r.a with arg := f0Z ++ BitVec.extractLsb' 0 13 (svC ReqOp.qWatch).r.a.arg : ReqArgs }).src) =
       true) := by
  refine ⟨quiet_of _ ?_, ?_⟩ <;> decide +kernel

theorem wit_Svc_r1 :
    (Quiet (svX ReqOp.resv 0)) ∧
    ((svX ReqOp.resv 0).blockRuns = true) ∧
    (((svX ReqOp.resv 0).slice 5).asleep = false) ∧
    ((svX ReqOp.resv 0).slFenced 5 = false) ∧
    (((svX ReqOp.resv 0).slice 5).ar.inj = []) ∧
    ((svX ReqOp.resv 0).ent 5 0 = some (svA ReqOp.resv false)) ∧
    ((svA ReqOp.resv false).m.memEv = []) ∧
    ((svA ReqOp.resv false).stat = TStat.parked false false true true false 9) ∧
    (((svX ReqOp.resv 0).slice 5).svcq = [{ tid := 0, src := 5, opc := reqCode ReqOp.resv, f0 := 0 }]) ∧
    ((svA ReqOp.resv false).r.kind = Kind.req ReqOp.resv) ∧
    (reqOpOf (reqCode ReqOp.resv) = some ReqOp.resv) ∧
    ((({ (svA ReqOp.resv false).r.a with arg := (0 : BitVec (16 : ℕ)) ++ BitVec.extractLsb' (0 : ℕ) (13 : ℕ) (svA ReqOp.resv
      false).r.a.arg : ReqArgs }).arg.getLsbD
           (28 : ℕ) &&
         !(svX ReqOp.resv (0 : BitVec (16 : ℕ))).granuleOk
             ({ (svA ReqOp.resv false).r.a with arg := (0 : BitVec (16 : ℕ)) ++ BitVec.extractLsb' (0 : ℕ) (13 : ℕ) (svA ReqOp.resv
      false).r.a.arg : ReqArgs }).pa) =
       false) := by
  refine ⟨quiet_of _ ?_, ?_⟩ <;> decide +kernel

theorem wit_Svc_r2 :
    (Quiet (svX ReqOp.resv f0A)) ∧
    ((svX ReqOp.resv f0A).blockRuns = true) ∧
    (((svX ReqOp.resv f0A).slice 5).asleep = false) ∧
    ((svX ReqOp.resv f0A).slFenced 5 = false) ∧
    (((svX ReqOp.resv f0A).slice 5).ar.inj = []) ∧
    ((svX ReqOp.resv f0A).ent 5 0 = some (svA ReqOp.resv false)) ∧
    ((svA ReqOp.resv false).m.memEv = []) ∧
    ((svA ReqOp.resv false).stat = TStat.parked false false true true false 9) ∧
    (((svX ReqOp.resv f0A).slice 5).svcq = [{ tid := 0, src := 5, opc := reqCode ReqOp.resv, f0 := f0A }]) ∧
    ((svA ReqOp.resv false).r.kind = Kind.req ReqOp.resv) ∧
    (reqOpOf (reqCode ReqOp.resv) = some ReqOp.resv) ∧
    ((({ (svA ReqOp.resv false).r.a with arg := f0A ++ BitVec.extractLsb' 0 13 (svA ReqOp.resv false).r.a.arg : ReqArgs }).arg.getLsbD
           28 &&
         !(svX ReqOp.resv f0A).granuleOk
             ({ (svA ReqOp.resv false).r.a with arg := f0A ++ BitVec.extractLsb' 0 13 (svA ReqOp.resv false).r.a.arg : ReqArgs }).pa) =
       true) := by
  refine ⟨quiet_of _ ?_, ?_⟩ <;> decide +kernel

theorem wit_Svc_c1 :
    (Quiet (svX ReqOp.condWr 0)) ∧
    ((svX ReqOp.condWr 0).blockRuns = true) ∧
    (((svX ReqOp.condWr 0).slice 5).asleep = false) ∧
    ((svX ReqOp.condWr 0).slFenced 5 = false) ∧
    (((svX ReqOp.condWr 0).slice 5).ar.inj = []) ∧
    ((svX ReqOp.condWr 0).ent 5 0 = some (svA ReqOp.condWr false)) ∧
    ((svA ReqOp.condWr false).m.memEv = []) ∧
    ((svA ReqOp.condWr false).stat = TStat.parked false false true true false 9) ∧
    (((svX ReqOp.condWr 0).slice 5).svcq = [{ tid := 0, src := 5, opc := reqCode ReqOp.condWr, f0 := 0 }]) ∧
    ((svA ReqOp.condWr false).r.kind = Kind.req ReqOp.condWr) ∧
    (reqOpOf (reqCode ReqOp.condWr) = some ReqOp.condWr) := by
  refine ⟨quiet_of _ ?_, ?_⟩ <;> decide +kernel

theorem wit_Svc_a1 :
    (Quiet (svX ReqOp.atom 0)) ∧
    ((svX ReqOp.atom 0).blockRuns = true) ∧
    (((svX ReqOp.atom 0).slice 5).asleep = false) ∧
    ((svX ReqOp.atom 0).slFenced 5 = false) ∧
    (((svX ReqOp.atom 0).slice 5).ar.inj = []) ∧
    ((svX ReqOp.atom 0).ent 5 0 = some (svA ReqOp.atom false)) ∧
    ((svA ReqOp.atom false).m.memEv = []) ∧
    ((svA ReqOp.atom false).stat = TStat.parked false false true true false 9) ∧
    (((svX ReqOp.atom 0).slice 5).svcq = [{ tid := 0, src := 5, opc := reqCode ReqOp.atom, f0 := 0 }]) ∧
    ((svA ReqOp.atom false).r.kind = Kind.req ReqOp.atom) ∧
    (reqOpOf (reqCode ReqOp.atom) = some ReqOp.atom) ∧
    ((svA ReqOp.atom false).line = some { data := 7, pois := false }) ∧
    ((svA ReqOp.atom false).r.cd = some { data := 9, pois := false }) ∧
    ((svA ReqOp.atom false).r.port = some 0) ∧
    ((svA ReqOp.atom false).h.cdDone = false) ∧
    ((((svX ReqOp.atom (0 : BitVec (16 : ℕ))).port (0 : Fin (24 : ℕ))).dIss
           ({ (svA ReqOp.atom false).r.a with arg := (0 : BitVec (16 : ℕ)) ++ BitVec.extractLsb' (0 : ℕ) (13 : ℕ) (svA ReqOp.atom
      false).r.a.arg : ReqArgs }).part).toNat ≤
       (svX ReqOp.atom (0 : BitVec (16 : ℕ))).dLimit (0 : Fin (24 : ℕ))
         ({ (svA ReqOp.atom false).r.a with arg := (0 : BitVec (16 : ℕ)) ++ BitVec.extractLsb' (0 : ℕ) (13 : ℕ) (svA ReqOp.atom
      false).r.a.arg : ReqArgs }).part) := by
  refine ⟨quiet_of _ ?_, ?_⟩ <;> decide +kernel

theorem wit_MemR :
    (Quiet mqR) ∧
    (mqR.blockRuns = true) ∧
    ((mqR.slice 5).asleep = false) ∧
    (mqR.slFenced 5 = false) ∧
    ((mqR.slice 5).ar.inj = []) ∧
    (mqR.ent 5 0 = some (svE ReqOp.qDeq)) ∧
    ((svE ReqOp.qDeq).m.memEv = []) ∧
    ((svE ReqOp.qDeq).stat = TStat.parked false false true true false 9) ∧
    ((mqR.slice 5).mem.memq = [{ tid := svcKey 5 0, stat := MemStat.ok, l := some { data := 7, pois := false }, fetch := true }]) ∧
    (mqR.expired (svE ReqOp.qDeq) = false) := by
  refine ⟨quiet_of _ ?_, ?_⟩ <;> decide +kernel

theorem wit_Mem :
    (Quiet mq) ∧
    (mq.blockRuns = true) ∧
    ((mq.slice 5).asleep = false) ∧
    (mq.slFenced 5 = false) ∧
    ((mq.slice 5).ar.inj = []) ∧
    (mq.ent 5 0 = some meE) ∧
    (meE.m.memEv = []) ∧
    (meE.stat = TStat.parked false true true false false 9) ∧
    ((mq.slice 5).mem.memq = [{ tid := 0, stat := MemStat.ok, l := some { data := 7, pois := false }, fetch := true }]) ∧
    (meE.h.fetchDead = false) ∧
    (meE.m.fwdd = false) ∧
    (meE.h.grp = none) := by
  refine ⟨quiet_of _ ?_, ?_⟩ <;> decide +kernel

theorem wit_MemW :
    (Quiet mqW) ∧
    (mqW.blockRuns = true) ∧
    ((mqW.slice 5).asleep = false) ∧
    (mqW.slFenced 5 = false) ∧
    ((mqW.slice 5).ar.inj = []) ∧
    (mqW.ent 5 0 = some meE) ∧
    (meE.m.memEv = []) ∧
    (meE.stat = TStat.parked false true true false false 9) ∧
    ((mqW.slice 5).mem.memq = [{ tid := 0, stat := MemStat.poison, l := none, fetch := false }]) := by
  refine ⟨quiet_of _ ?_, ?_⟩ <;> decide +kernel

/-! ### SliceDeadlines -/

theorem wit_Tmo :
    (Quiet (withEnt on tmE)) ∧
    ((withEnt on tmE).ent 5 0 = some tmE) ∧
    ((withEnt on tmE).sliceRuns 5 = true) ∧
    ((withEnt on tmE).expired tmE = true) ∧
    (((withEnt on tmE).slice 5).ar.inj = []) ∧
    (tmE.stat = TStat.parked true false true false false 9) ∧
    (true = true → if false = true then tmE.x.ack ≠ 0 else tmE.m.latch = false) ∧
    (false = true → tmE.m.memEv = []) ∧
    (false = true → tmE.m.svc = false) ∧
    (∀ k ∈ ((withEnt on tmE).slice 5).mem.memq, k.tid ≠ 0) := by
  refine ⟨quiet_of _ ?_, ?_⟩ <;> decide +kernel

theorem wit_Wd :
    (Quiet (withEnt (on.setReg 59 65 0) wdE)) ∧
    (∀ (o : ℕ), wdE.stat ≠ TStat.joined o) ∧
    ((withEnt (on.setReg 59 65 0) wdE).ent 5 0 = some wdE) ∧
    ((withEnt (on.setReg 59 65 0) wdE).sliceRuns 5 = true) ∧
    ((withEnt (on.setReg 59 65 0) wdE).expired wdE = true) ∧
    (((withEnt (on.setReg 59 65 0) wdE).slice 5).ar.inj = []) ∧
    ((withEnt (on.setReg 59 65 0) wdE).reached (wdE.h.expiry + 100) = true) ∧
    (wdE.stat ≠ TStat.record) ∧
    (wdE.h.await = []) ∧
    (wdE.h.grp = none) ∧
    (((withEnt (on.setReg 59 65 0) wdE).slice 5).recs = []) ∧
    (∀ (q : Fin 24), ((withEnt (on.setReg 59 65 0) wdE).port q).egress = []) ∧
    ((withEnt (on.setReg 59 65 0) wdE).flag 63 320 31 = false) ∧
    ((withEnt (on.setReg 59 65 0) wdE).flt.log.length < 253) ∧
    (((withEnt (on.setReg 59 65 0) wdE).src (srcSlice 5)).severe = false) ∧
    ((withEnt (on.setReg 59 65 0) wdE).fld 59 260 7 6 ≠ 1) ∧
    ((withEnt (on.setReg 59 65 0) wdE).homesOf 5 ≠ []) ∧
    (wdE.h.cs = true) := by
  refine ⟨quiet_of _ ?_, (by simp [wdE, ent]), ?_⟩ <;> decide +kernel

theorem wit_Wd2 :
    (Quiet (withEnt (on.setReg 59 65 0) wdC)) ∧
    (∀ (o : ℕ), wdC.stat ≠ TStat.joined o) ∧
    (FlitPasses (withEnt (on.setReg 59 65 0) wdC) 0 wdC.r.a.src) ∧
    ((withEnt (on.setReg 59 65 0) wdC).ent 5 0 = some wdC) ∧
    ((withEnt (on.setReg 59 65 0) wdC).sliceRuns 5 = true) ∧
    ((withEnt (on.setReg 59 65 0) wdC).expired wdC = true) ∧
    (((withEnt (on.setReg 59 65 0) wdC).slice 5).ar.inj = []) ∧
    ((withEnt (on.setReg 59 65 0) wdC).reached (wdC.h.expiry + 100) = true) ∧
    (wdC.stat ≠ TStat.record) ∧
    (wdC.h.await = []) ∧
    (wdC.h.grp = none) ∧
    (((withEnt (on.setReg 59 65 0) wdC).slice 5).recs = []) ∧
    (∀ (q : Fin 24), ((withEnt (on.setReg 59 65 0) wdC).port q).egress = []) ∧
    ((withEnt (on.setReg 59 65 0) wdC).flag 63 320 31 = false) ∧
    ((withEnt (on.setReg 59 65 0) wdC).flt.log.length < 253) ∧
    (((withEnt (on.setReg 59 65 0) wdC).src (srcSlice 5)).severe = false) ∧
    ((withEnt (on.setReg 59 65 0) wdC).fld 59 260 7 6 ≠ 1) ∧
    ((withEnt (on.setReg 59 65 0) wdC).homesOf 5 ≠ []) ∧
    (wdC.h.cs = false) ∧
    (wdC.r.kind = Kind.req ReqOp.wrFull) ∧
    (reqDat ReqOp.wrFull = none) ∧
    (ReqOp.wrFull ≠ ReqOp.upgr) ∧
    (reqIsDrain ReqOp.wrFull = false) ∧
    (wdC.r.port = some 0) ∧
    (wdC.r.wid = 0) ∧
    (wdC.r.rk = false) ∧
    (wdC.r.a.gen = ((withEnt (on.setReg 59 65 0) wdC).part wdC.r.a.part).gen) := by
  refine ⟨quiet_of _ ?_, (by simp [wdC, ent]), passes _ _ _ ?_, ?_⟩ <;> decide +kernel

theorem wit_Rec :
    (Quiet wRec) ∧
    (mild wRec (srcAgent 2)) ∧
    ((wRec.slice 5).recs = [rec0]) ∧
    (rec0.ag = 2) ∧
    (rec0.atag = 7) ∧
    (wRec.reached rec0.dl = true) ∧
    (rec0.place = none) ∧
    ((2 : Agent) ≠ (63 : Agent)) ∧
    (∀ k ∈ (wRec.slice 5).ents, ∀ (b : Bool), k.2.stat ≠ TStat.setRetry b) := by
  refine ⟨quiet_of _ ?_, (show _ < _ from ?_), ?_⟩ <;> decide +kernel

theorem wit_Resv :
    (Quiet wResv) ∧
    ((wResv.slice 5).resv = [rv0]) ∧
    (rv0.ag = 2) ∧
    (wResv.resvLive rv0 = false) := by
  refine ⟨quiet_of _ ?_, ?_⟩ <;> decide +kernel

/-! ### SweepsAndMsc -/

theorem wit_Sw_1 :
    (Quiet on) ∧
    ((on.slice 5).asleep = false) ∧
    ((on.slice 5).sw.sfSt.accepts 1 = true) := by
  refine ⟨quiet_of _ ?_, ?_⟩ <;> decide +kernel

theorem wit_Sw_2 :
    (Quiet suk5) ∧
    ((suk5.slice 5).asleep = false) ∧
    ((suk5.slice 5).sw.sfSt.res = Res.running) ∧
    (1 ≠ (suk5.slice 5).sw.sfSt.rseq) := by
  refine ⟨quiet_of _ ?_, ?_⟩ <;> decide +kernel

theorem wit_Sw_3 :
    (Quiet lsw) ∧
    ((lsw.slice 5).asleep = false) ∧
    ((lsw.slice 5).ar.inj = []) := by
  refine ⟨quiet_of _ ?_, ?_⟩ <;> decide +kernel

theorem wit_Sw_4 :
    (Quiet wSw_4) ∧
    ((wSw_4.slice 5).asleep = false) ∧
    (wSw_4.glb.stt = Stt.enabled) ∧
    (wSw_4.reached ((wSw_4.slice 5).sw.scrubAt + BitVec.ofNat 48 (100000 * wSw_4.fld 59 264 11 0)) = true) ∧
    (wSw_4.slFenced 5 = false) ∧
    ((wSw_4.slice 5).ctl.resetting = false) ∧
    ((wSw_4.slice 5).ctl.testing = false) := by
  refine ⟨quiet_of _ ?_, ?_⟩ <;> decide +kernel

theorem wit_Sw_4b :
    (Quiet scr) ∧
    ((scr.slice 5).asleep = false) ∧
    (scr.glb.stt = Stt.enabled) ∧
    (scr.reached ((scr.slice 5).sw.scrubAt + BitVec.ofNat 48 (100000 * scr.fld 59 264 11 0)) = true) ∧
    (scr.slFenced 5 = false) ∧
    ((scr.slice 5).ctl.resetting = false) ∧
    ((scr.slice 5).ctl.testing = false) := by
  refine ⟨quiet_of _ ?_, ?_⟩ <;> decide +kernel

theorem wit_Msc_1 :
    (Quiet on) ∧
    ((on.slice 5).asleep = false) ∧
    ((on.slice 5).mem.ctl.st.accepts 1 = true) ∧
    ((on.slice 5).mem.ctl.st.held = none) ∧
    ((on.slice 5).mem.ctl.mode = MscMode.off) ∧
    ((on.slice 5).ctl.dom.c = Pwr.on) ∧
    (BitVec.extractLsb' 5 2 (on.slice 5).ar.init = 3) ∧
    ((on.slice 5).filledAt ((on.slice 5).mem.ctl.epoch + 1) = 0) ∧
    (on.glb.stt ≠ Stt.disabling) := by
  refine ⟨quiet_of _ ?_, ?_⟩ <;> decide +kernel

theorem wit_Msc_2 :
    (Quiet wMsc_2) ∧
    ((wMsc_2.slice 5).asleep = false) ∧
    ((wMsc_2.slice 5).mem.ctl.st.accepts 1 = true) ∧
    ((wMsc_2.slice 5).mem.ctl.st.held = none) ∧
    ((wMsc_2.slice 5).mem.ctl.mode = MscMode.off) ∧
    ((wMsc_2.slice 5).ctl.dom.c ≠ Pwr.on ∨ BitVec.extractLsb' 5 2 (wMsc_2.slice 5).ar.init ≠ 3) := by
  refine ⟨quiet_of _ ?_, ?_⟩ <;> decide +kernel

theorem wit_Msc_3 :
    (Quiet (msc MscMode.on Res.completed)) ∧
    (((msc MscMode.on Res.completed).slice 5).asleep = false) ∧
    (((msc MscMode.on Res.completed).slice 5).mem.ctl.st.accepts 1 = true) ∧
    (((msc MscMode.on Res.completed).slice 5).mem.ctl.st.held = none) ∧
    (((msc MscMode.on Res.completed).slice 5).mem.ctl.mode = MscMode.on) := by
  refine ⟨quiet_of _ ?_, ?_⟩ <;> decide +kernel

theorem wit_Msc_4 :
    (Quiet (msc MscMode.drain Res.running)) ∧
    (((msc MscMode.drain Res.running).slice 5).asleep = false) ∧
    (((msc MscMode.drain Res.running).slice 5).mem.ctl.st.res = Res.running) ∧
    (((msc MscMode.drain Res.running).slice 5).mem.ctl.st.held = none) ∧
    (((msc MscMode.drain Res.running).slice 5).mem.ctl.mode = MscMode.drain) ∧
    (∀ w ∈ ((msc MscMode.drain Res.running).slice 5).mem.wmb, w.drain = false) := by
  refine ⟨quiet_of _ ?_, ?_⟩ <;> decide +kernel

theorem wit_Msc_5 :
    (Quiet (msc MscMode.init Res.running)) ∧
    (((msc MscMode.init Res.running).slice 5).asleep = false) ∧
    (((msc MscMode.init Res.running).slice 5).mem.ctl.st.res = Res.running) ∧
    (((msc MscMode.init Res.running).slice 5).mem.ctl.st.held = none) ∧
    (((msc MscMode.init Res.running).slice 5).mem.ctl.mode = MscMode.init) ∧
    (5 = 16 ∨ (msc MscMode.init Res.running).pdOn (3 * 5 + 2) = true) ∧
    ((msc MscMode.init Res.running).glb.stt ≠ Stt.disabling) := by
  refine ⟨quiet_of _ ?_, ?_⟩ <;> decide +kernel

theorem wit_Msc_6 :
    (Quiet (msc MscMode.drain Res.running)) ∧
    (((msc MscMode.drain Res.running).slice 5).asleep = false) ∧
    (((msc MscMode.drain Res.running).slice 5).mem.ctl.st.res = Res.running) ∧
    (((msc MscMode.drain Res.running).slice 5).mem.ctl.st.held = none) ∧
    (((msc MscMode.drain Res.running).slice 5).mem.ctl.mode = MscMode.drain) ∧
    (1 ≠ ((msc MscMode.drain Res.running).slice 5).mem.ctl.st.rseq) ∧
    ((msc MscMode.drain Res.running).glb.stt ≠ Stt.disabling) := by
  refine ⟨quiet_of _ ?_, ?_⟩ <;> decide +kernel

/-! ### DescriptorCommands -/

theorem wit_Qd_1 :
    (Quiet on) ∧
    (on.svc.accepts 1 = true) ∧
    (on.degraded 5 = false) ∧
    (on.serving 5 = some 5) ∧
    ((on.slice 5).asleep = false) ∧
    (on.glb.route.active = false) ∧
    (((on.slice 5).ing 24).direct.length < 8) ∧
    ((2 : BitVec (2 : ℕ)) = (2 : BitVec (2 : ℕ)) ∧
         Instr.qdescRead (1 : BitVec (8 : ℕ)) (5 : Fin (16 : ℕ)) (9 : BitVec (9 : ℕ)) =
           Instr.qdescRead (1 : BitVec (8 : ℕ)) (5 : Fin (16 : ℕ)) (9 : BitVec (9 : ℕ)) ∨
       (2 : BitVec (2 : ℕ)) = (3 : BitVec (2 : ℕ)) ∧
           Instr.qdescRead (1 : BitVec (8 : ℕ)) (5 : Fin (16 : ℕ)) (9 : BitVec (9 : ℕ)) =
             Instr.qdescClear (1 : BitVec (8 : ℕ)) (5 : Fin (16 : ℕ)) (9 : BitVec (9 : ℕ)) ∨
         (2 : BitVec (2 : ℕ)) = (1 : BitVec (2 : ℕ)) ∧
           Instr.qdescRead (1 : BitVec (8 : ℕ)) (5 : Fin (16 : ℕ)) (9 : BitVec (9 : ℕ)) =
               Instr.qdescWrite (1 : BitVec (8 : ℕ)) (5 : Fin (16 : ℕ)) (9 : BitVec (9 : ℕ)) ∧
             ((QDesc.dec on.qdescRegs).v = false ∨
               on.descCause (5 : Fin (16 : ℕ)) (5 : Fin (17 : ℕ)) (9 : ℕ) (QDesc.dec on.qdescRegs) = (0 : BitVec (8 : ℕ)))) := by
  refine ⟨quiet_of _ ?_, ?_⟩ <;> decide +kernel

theorem wit_Qd_1b :
    (Quiet on) ∧
    (on.svc.accepts 1 = true) ∧
    (on.degraded 5 = false) ∧
    (on.serving 5 = some 5) ∧
    ((on.slice 5).asleep = false) ∧
    (on.glb.route.active = false) ∧
    (((on.slice 5).ing 24).direct.length < 8) ∧
    ((3 : BitVec (2 : ℕ)) = (2 : BitVec (2 : ℕ)) ∧
         Instr.qdescClear (1 : BitVec (8 : ℕ)) (5 : Fin (16 : ℕ)) (9 : BitVec (9 : ℕ)) =
           Instr.qdescRead (1 : BitVec (8 : ℕ)) (5 : Fin (16 : ℕ)) (9 : BitVec (9 : ℕ)) ∨
       (3 : BitVec (2 : ℕ)) = (3 : BitVec (2 : ℕ)) ∧
           Instr.qdescClear (1 : BitVec (8 : ℕ)) (5 : Fin (16 : ℕ)) (9 : BitVec (9 : ℕ)) =
             Instr.qdescClear (1 : BitVec (8 : ℕ)) (5 : Fin (16 : ℕ)) (9 : BitVec (9 : ℕ)) ∨
         (3 : BitVec (2 : ℕ)) = (1 : BitVec (2 : ℕ)) ∧
           Instr.qdescClear (1 : BitVec (8 : ℕ)) (5 : Fin (16 : ℕ)) (9 : BitVec (9 : ℕ)) =
               Instr.qdescWrite (1 : BitVec (8 : ℕ)) (5 : Fin (16 : ℕ)) (9 : BitVec (9 : ℕ)) ∧
             ((QDesc.dec on.qdescRegs).v = false ∨
               on.descCause (5 : Fin (16 : ℕ)) (5 : Fin (17 : ℕ)) (9 : ℕ) (QDesc.dec on.qdescRegs) = (0 : BitVec (8 : ℕ)))) := by
  refine ⟨quiet_of _ ?_, ?_⟩ <;> decide +kernel

theorem wit_Qd_1c :
    (Quiet on) ∧
    (on.svc.accepts 1 = true) ∧
    (on.degraded 5 = false) ∧
    (on.serving 5 = some 5) ∧
    ((on.slice 5).asleep = false) ∧
    (on.glb.route.active = false) ∧
    (((on.slice 5).ing 24).direct.length < 8) ∧
    ((1 : BitVec (2 : ℕ)) = (2 : BitVec (2 : ℕ)) ∧
         Instr.qdescWrite (1 : BitVec (8 : ℕ)) (5 : Fin (16 : ℕ)) (9 : BitVec (9 : ℕ)) =
           Instr.qdescRead (1 : BitVec (8 : ℕ)) (5 : Fin (16 : ℕ)) (9 : BitVec (9 : ℕ)) ∨
       (1 : BitVec (2 : ℕ)) = (3 : BitVec (2 : ℕ)) ∧
           Instr.qdescWrite (1 : BitVec (8 : ℕ)) (5 : Fin (16 : ℕ)) (9 : BitVec (9 : ℕ)) =
             Instr.qdescClear (1 : BitVec (8 : ℕ)) (5 : Fin (16 : ℕ)) (9 : BitVec (9 : ℕ)) ∨
         (1 : BitVec (2 : ℕ)) = (1 : BitVec (2 : ℕ)) ∧
           Instr.qdescWrite (1 : BitVec (8 : ℕ)) (5 : Fin (16 : ℕ)) (9 : BitVec (9 : ℕ)) =
               Instr.qdescWrite (1 : BitVec (8 : ℕ)) (5 : Fin (16 : ℕ)) (9 : BitVec (9 : ℕ)) ∧
             ((QDesc.dec on.qdescRegs).v = false ∨
               on.descCause (5 : Fin (16 : ℕ)) (5 : Fin (17 : ℕ)) (9 : ℕ) (QDesc.dec on.qdescRegs) = (0 : BitVec (8 : ℕ)))) := by
  refine ⟨quiet_of _ ?_, ?_⟩ <;> decide +kernel

theorem wit_Qd_2 :
    (Quiet wQd_2) ∧
    (wQd_2.svc.accepts 1 = true) ∧
    (wQd_2.degraded 5 = false) ∧
    (wQd_2.serving 5 = some 5) ∧
    ((wQd_2.slice 5).asleep = false) ∧
    (wQd_2.glb.route.active = false) ∧
    (((wQd_2.slice 5).ing 24).direct.length < 8) ∧
    ((QDesc.dec wQd_2.qdescRegs).v = true) ∧
    (wQd_2.descCause 5 5 9 (QDesc.dec wQd_2.qdescRegs) ≠ 0) := by
  refine ⟨quiet_of _ ?_, ?_⟩ <;> decide +kernel

theorem wit_Qd_3 :
    (Quiet wTurn_7) ∧
    (wTurn_7.svc.accepts 1 = true) ∧
    (wTurn_7.serving 5 = none ∨ wTurn_7.degraded 5 = true) := by
  refine ⟨quiet_of _ ?_, ?_⟩ <;> decide +kernel

theorem wit_Qd_3b :
    (Quiet
       (on.modGlb fun g =>
         { g with deg := 32 })) ∧
    ((on.modGlb fun g =>
               { g with deg := 32 }).svc.accepts
         1 =
       true) ∧
    ((on.modGlb fun g =>
               { g with deg := 32 }).serving
           5 =
         none ∨
       (on.modGlb fun g =>
               { g with deg := 32 }).degraded
           5 =
         true) := by
  refine ⟨quiet_of _ ?_, ?_⟩ <;> decide +kernel

theorem wit_Qd_4 :
    (Quiet (qkS 1)) ∧
    ((qkS 1).blockRuns = true) ∧
    (((qkS 1).slice 5).asleep = false) ∧
    ((qkS 1).slFenced 5 = false) ∧
    (((qkS 1).slice 5).ar.inj = []) ∧
    (((qkS 1).slice 5).svcq = [{ tid := 0, src := 5, opc := 0, f0 := 0 }]) ∧
    (((qkS 1).slice 5).trk = [(0, some (qkE 1))]) ∧
    ((qkE 1).stat = TStat.atSvc) ∧
    ((qkE 1).r.kind = Kind.qdesc 1 511 4 74565) ∧
    ((qkE 1).r.port = none) ∧
    ((qkE 1).x.ukm = false) ∧
    ((qkE 1).wv = false) ∧
    ((qkE 1).h.grp = none) ∧
    (((qkS 1).slice 5).recs = []) ∧
    (∀ (q : Fin 24), ((qkS 1).port q).egress = []) ∧
    ((qkS 1).flag 63 320 31 = false) ∧
    ((qkS 1).svc.res = Res.running) ∧
    ((qkS 1).svc.held = none) := by
  refine ⟨quiet_of _ ?_, ?_⟩ <;> decide +kernel

theorem wit_Qd_5 :
    (Quiet (qkS 2)) ∧
    ((qkS 2).blockRuns = true) ∧
    (((qkS 2).slice 5).asleep = false) ∧
    ((qkS 2).slFenced 5 = false) ∧
    (((qkS 2).slice 5).ar.inj = []) ∧
    (((qkS 2).slice 5).svcq = [{ tid := 0, src := 5, opc := 0, f0 := 0 }]) ∧
    (((qkS 2).slice 5).trk = [(0, some (qkE 2))]) ∧
    ((qkE 2).stat = TStat.atSvc) ∧
    ((qkE 2).r.kind = Kind.qdesc 2 511 4 74565) ∧
    ((qkE 2).r.port = none) ∧
    ((qkE 2).x.ukm = false) ∧
    ((qkE 2).wv = false) ∧
    ((qkE 2).h.grp = none) ∧
    (((qkS 2).slice 5).recs = []) ∧
    (∀ (q : Fin 24), ((qkS 2).port q).egress = []) ∧
    ((qkS 2).flag 63 320 31 = false) ∧
    ((qkS 2).svc.res = Res.running) ∧
    ((qkS 2).svc.held = none) := by
  refine ⟨quiet_of _ ?_, ?_⟩ <;> decide +kernel

theorem wit_Qd_6 :
    (Quiet (qkS 3)) ∧
    ((qkS 3).blockRuns = true) ∧
    (((qkS 3).slice 5).asleep = false) ∧
    ((qkS 3).slFenced 5 = false) ∧
    (((qkS 3).slice 5).ar.inj = []) ∧
    (((qkS 3).slice 5).svcq = [{ tid := 0, src := 5, opc := 0, f0 := 0 }]) ∧
    (((qkS 3).slice 5).trk = [(0, some (qkE 3))]) ∧
    ((qkE 3).stat = TStat.atSvc) ∧
    ((qkE 3).r.kind = Kind.qdesc 3 511 4 74565) ∧
    ((qkE 3).r.port = none) ∧
    ((qkE 3).x.ukm = false) ∧
    ((qkE 3).wv = false) ∧
    ((qkE 3).h.grp = none) ∧
    (((qkS 3).slice 5).recs = []) ∧
    (∀ (q : Fin 24), ((qkS 3).port q).egress = []) ∧
    ((qkS 3).flag 63 320 31 = false) ∧
    ((qkS 3).svc.res = Res.running) ∧
    ((qkS 3).svc.held = none) := by
  refine ⟨quiet_of _ ?_, ?_⟩ <;> decide +kernel

/-! ### PowerCommands -/

theorem wit_Pw_1 :
    (Quiet on) ∧
    ((on.slice 5).ctl.fn.accepts 1 = true) ∧
    ((on.slice 5).ctl.fn.held = none) ∧
    (on.sleepCause 5 = 0) := by
  refine ⟨quiet_of _ ?_, ?_⟩ <;> decide +kernel

theorem wit_Pw_2 :
    (Quiet on) ∧
    ((on.slice 16).ctl.fn.accepts 1 = true) ∧
    ((on.slice 16).ctl.fn.held = none) ∧
    (on.sleepCause 16 ≠ 0) := by
  refine ⟨quiet_of _ ?_, ?_⟩ <;> decide +kernel

theorem wit_Pw_3 :
    (Quiet on) ∧
    ((on.slice 5).ctl.fn.accepts 1 = true) ∧
    ((on.slice 5).ctl.fn.held = none) ∧
    (5 < 16) ∧
    ((on.slice 5).mem.ctl.mode = MscMode.off) ∧
    ((on.homesOf 5).any on.detHome = false) := by
  refine ⟨quiet_of _ ?_, ?_⟩ <;> decide +kernel

theorem wit_Pw_4 :
    (Quiet (detOn 5)) ∧
    (((detOn 5).slice 5).ctl.fn.accepts 1 = true) ∧
    (((detOn 5).slice 5).ctl.fn.held = none) ∧
    (((detOn 5).homesOf 5).any (detOn 5).detHome = true ∨ ((detOn 5).slice 5).mem.ctl.mode ≠ MscMode.off) := by
  refine ⟨quiet_of _ ?_, ?_⟩ <;> decide +kernel

theorem wit_Pw_4b :
    (Quiet mscOn) ∧
    ((mscOn.slice 5).ctl.fn.accepts 1 = true) ∧
    ((mscOn.slice 5).ctl.fn.held = none) ∧
    ((mscOn.homesOf 5).any mscOn.detHome = true ∨ (mscOn.slice 5).mem.ctl.mode ≠ MscMode.off) := by
  refine ⟨quiet_of _ ?_, ?_⟩ <;> decide +kernel

theorem wit_Pw_5 :
    (Quiet noHome) ∧
    ((noHome.slice 5).ctl.fn.accepts 1 = true) ∧
    ((noHome.slice 5).ctl.fn.held = none) ∧
    (noHome.servesSome 5 = false) ∧
    ((noHome.slice 5).ctl.retained = none) := by
  refine ⟨quiet_of _ ?_, ?_⟩ <;> decide +kernel

theorem wit_Pw_6 :
    (Quiet on) ∧
    ((on.slice 5).ctl.fn.accepts 1 = true) ∧
    ((on.slice 5).ctl.fn.held = none) ∧
    ((on.slice 5).asleep = false ∧ (5 = 16 ∨ (on.slice 5).ctl.dom.c ≠ Pwr.off) ∨ on.usableSlice 5 = false) := by
  refine ⟨quiet_of _ ?_, ?_⟩ <;> decide +kernel

theorem wit_Pw_6b :
    (Quiet
       (on.modSlice 16 fun x =>
           { x with ctl := { x.ctl with dom := { a := Pwr.ret, b := Pwr.ret, c := Pwr.ret } } }).syncPower) ∧
    (((on.modSlice 16 fun x =>
                       { x with ctl := { x.ctl with dom := { a := Pwr.ret, b := Pwr.ret, c := Pwr.ret } } }).syncPower.slice
                 16).ctl.fn.accepts
         1 =
       true) ∧
    (((on.modSlice 16 fun x =>
                     { x with ctl := { x.ctl with dom := { a := Pwr.ret, b := Pwr.ret, c := Pwr.ret } } }).syncPower.slice
               16).ctl.fn.held =
       none) ∧
    (((on.modSlice 16 fun x =>
                     { x with ctl := { x.ctl with dom := { a := Pwr.ret, b := Pwr.ret, c := Pwr.ret } } }).syncPower.slice
               16).asleep =
           false ∧
         (16 = 16 ∨
           ((on.modSlice 16 fun x =>
                           { x with ctl := { x.ctl with dom := { a := Pwr.ret, b := Pwr.ret, c := Pwr.ret } } }).syncPower.slice
                     16).ctl.dom.c ≠
             Pwr.off) ∨
       (on.modSlice 16 fun x =>
                 { x with ctl := { x.ctl with dom := { a := Pwr.ret, b := Pwr.ret, c := Pwr.ret } } }).syncPower.usableSlice
           16 =
         false) := by
  refine ⟨quiet_of _ ?_, ?_⟩ <;> decide +kernel

theorem wit_Pw_7 :
    (Quiet asl) ∧
    ((asl.slice 5).ctl.fn.accepts 1 = true) ∧
    ((asl.slice 5).ctl.fn.held = none) ∧
    ((asl.slice 5).asleep = true) ∧
    (asl.usableSlice 5 = true) := by
  refine ⟨quiet_of _ ?_, ?_⟩ <;> decide +kernel

theorem wit_Pw_8 :
    (Quiet
       (on.modSlice 5 fun x =>
           { x with ctl := { x.ctl with dom := { a := Pwr.on, b := Pwr.on, c := Pwr.off } } }).syncPower) ∧
    (((on.modSlice 5 fun x =>
                       { x with ctl := { x.ctl with dom := { a := Pwr.on, b := Pwr.on, c := Pwr.off } } }).syncPower.slice
                 5).ctl.fn.accepts
         1 =
       true) ∧
    (((on.modSlice 5 fun x =>
                     { x with ctl := { x.ctl with dom := { a := Pwr.on, b := Pwr.on, c := Pwr.off } } }).syncPower.slice
               5).ctl.fn.held =
       none) ∧
    (((on.modSlice 5 fun x =>
                 { x with ctl := { x.ctl with dom := { a := Pwr.on, b := Pwr.on, c := Pwr.off } } }).syncPower.slice
           5).asleep =
       false) ∧
    (5 < 16) ∧
    (((on.modSlice 5 fun x =>
                     { x with ctl := { x.ctl with dom := { a := Pwr.on, b := Pwr.on, c := Pwr.off } } }).syncPower.slice
               5).ctl.dom.c =
       Pwr.off) := by
  refine ⟨quiet_of _ ?_, ?_⟩ <;> decide +kernel

/-! ### PowerReports -/

theorem wit_Pr_1 :
    (Quiet on) :=
  quiet_of _ (by decide +kernel)

theorem wit_Pr_1b :
    (Quiet asl) :=
  quiet_of _ (by decide +kernel)

theorem wit_Pr_1c :
    (Quiet asl) :=
  quiet_of _ (by decide +kernel)

theorem wit_Pr_2 :
    (Quiet wPr_2) ∧
    (tabGet none wPr_2.pins.pdSince 15 = some 900000) ∧
    (wPr_2.reached (900000 + 1000) = true) ∧
    ((wPr_2.src (srcSlice (pdSlice 15))).severe = false) ∧
    (wPr_2.fld 59 260 7 6 = 0) ∧
    (wPr_2.homesOf (pdSlice 15) ≠ []) := by
  refine ⟨quiet_of _ ?_, ?_⟩ <;> decide +kernel

theorem wit_Pr_3 :
    (Quiet wk) ∧
    ((wk.slice 5).ctl.waking = true) ∧
    (∀ d ∈ pdOf 5, wk.pdOn d = true) ∧
    ((wk.slice 5).ctl.fromOff = false) ∧
    ((wk.slice 5).ctl.wakeC = false) ∧
    ((wk.slice 5).ctl.fn.res = Res.running) ∧
    ((wk.slice 5).ctl.fn.held = none) ∧
    ((wk.slice 5).ctl.resetting = false) ∧
    ((wk.slice 5).ingress = []) ∧
    ((wk.slice 5).wakeHold = [(0, rdr ReqOp.rdShd)]) ∧
    ((rdr ReqOp.rdShd).fwd = false) := by
  refine ⟨quiet_of _ ?_, ?_⟩ <;> decide +kernel

theorem wit_Pr_4 :
    (Quiet
       (auto.modSlice 5 fun x =>
         { x with ctl := { x.ctl with autoRet := false } })) ∧
    ((auto.slice 5).ctl.autoRet = true) ∧
    ((auto.slice 5).ctl.idleSince = some 900000) ∧
    (auto.reached (900000 + BitVec.ofNat 48 (100 * auto.fld (slcPage 5) 268 15 0)) = true) ∧
    (auto.flag (slcPage 5) 268 31 = true) ∧
    (auto.sleepCause 5 = 0) ∧
    ((auto.slice 5).asleep = false) := by
  refine ⟨quiet_of _ ?_, ?_⟩ <;> decide +kernel

/-! ### ResetOfSliceAndPort -/

theorem wit_Rst_0 :
    (Quiet
       (prst.modPort 0 fun x =>
         { x with resetting := false })) ∧
    ((prst.port 0).rst.res = Res.running) ∧
    ((prst.port 0).resetting = true) ∧
    (2 ≠ (prst.port 0).rst.rseq) := by
  refine ⟨quiet_of _ ?_, ?_⟩ <;> decide +kernel

theorem wit_Rst_1 :
    (Quiet noHome) ∧
    ((noHome.slice 5).ctl.fn.accepts 1 = true) ∧
    (noHome.homesOf 5 = []) ∧
    (noHome.flt.run = none) ∧
    (noHome.tst.phase = LtPhase.none) ∧
    ((noHome.slice 5).ctl.retained = none) ∧
    (noHome.usableSlice 5 = true) ∧
    (noHome.glb.ld.st.res ≠ Res.running) := by
  refine ⟨quiet_of _ ?_, ?_⟩ <;> decide +kernel

theorem wit_Rst_2 :
    (Quiet wRst_2) ∧
    ((wRst_2.slice 5).ctl.fn.accepts 1 = true) ∧
    (wRst_2.slcResetCause 5 ≠ 0) := by
  refine ⟨quiet_of _ ?_, ?_⟩ <;> decide +kernel

theorem wit_Rst_3 :
    (Quiet on) ∧
    ((on.port 0).rst.accepts 1 = true) ∧
    (∀ (q : Fin 24), (on.port q).held = [] ∧ (on.port q).orphans = [] ∧ (on.port q).egress = []) ∧
    (∀ (j : Fin 17),
       (on.slice j).trk = [] ∧
         (on.slice j).recs = [] ∧
           (on.slice j).ingress = [] ∧ (on.slice j).ar.desc = [] ∧ (on.slice j).asleep = false ∧ on.slFenced j = false) ∧
    (∀ a ∈ agentsOf 0, (on.src (srcAgent a)).fenced = false) := by
  refine ⟨quiet_of _ ?_, ?_⟩ <;> decide +kernel

/-! ### WmbEntriesReachTheirChannel -/

theorem wit_Wmb_1 :
    (Quiet (wm id)) :=
  quiet_of _ (by decide +kernel)

theorem wit_Wmb_2 :
    (Quiet (wm id)) ∧
    (we1 ∈ ((wm id).slice 5).mem.wmb) ∧
    ((wm id).wmbEligible 5 we1 = true) := by
  refine ⟨quiet_of _ ?_, ?_⟩ <;> decide +kernel

theorem wit_Wmb_2b :
    (Quiet wWmb_2b) ∧
    (we1 ∈ (wWmb_2b.slice 5).mem.wmb) ∧
    (wWmb_2b.wmbEligible 5 we1 = true) := by
  refine ⟨quiet_of _ ?_, ?_⟩ <;> decide +kernel

theorem wit_Wmb_3 :
    (Quiet wiS) ∧
    (wiS.memCla wi.addr = 0) ∧
    ((wiS.slice 5).mem.wmb = [wi]) ∧
    (wi.issued = true) ∧
    (wi.home = 5) ∧
    (wi.acc = 0) ∧
    (wi.sent = 0) ∧
    (wiS.mirrored 5 = false) ∧
    (wiS.chFenced 5 = false) ∧
    ((wiS.chan 5).wq.length < 64) ∧
    (∀ e ∈ (wiS.chan 5).wq, e.cla = 0 → e.corr = true ∨ e.copy = true) ∧
    ((wiS.slice 5).mem.fetchHold = []) ∧
    ((wiS.slice 5).mem.wtWait = []) := by
  refine ⟨quiet_of _ ?_, clasame wiS 5 (by decide +kernel), ?_⟩ <;> decide +kernel

/-! ### QueuedAccessIsIssued -/

theorem wit_Dram_1 :
    (Quiet wDram_1) ∧
    (∀ (r : ℕ),
       ((wDram_1.chan 5).rank r).due = 0 ∧
         ((wDram_1.chan 5).rank r).cls1 = false ∧
           ((wDram_1.chan 5).rank r).makeup = false ∧
             ((wDram_1.chan 5).rank r).selfRef = false ∧
               ((wDram_1.chan 5).rank r).busy ≤ max ((wDram_1.chan 5).dc + 1) (wDram_1.dcNow 5)) ∧
    (wDram_1.chFenced 5 = false) ∧
    ((wDram_1.chan 5).rq = []) ∧
    ((wDram_1.chan 5).wq = [wq0]) ∧
    ((wDram_1.chan 5).need (wDram_1.coord 5 wq0.cla) = DramCmd.col) ∧
    (({ wDram_1.chan 5 with dc := max ((wDram_1.chan 5).dc + 1) (wDram_1.dcNow 5) : Chan }).colOk
         (wDram_1.timing 5) (wDram_1.coord 5 wq0.cla) true =
       true) ∧
    (∀ e ∈ (wDram_1.chan (buddy 5)).rq ++ (wDram_1.chan (buddy 5)).inflight, e.f.mir = false) ∧
    (∀ (i : Fin 17), ∀ f ∈ (wDram_1.slice i).mem.fetchWait, f.mir = false) := by
  refine ⟨quiet_of _ ?_, (fun _ => ⟨rfl, rfl, rfl, rfl, Nat.zero_le _⟩), ?_⟩ <;> decide +kernel

theorem wit_Dram_2 :
    (Quiet wDram_2) ∧
    (∀ (r : ℕ),
       ((wDram_2.chan 5).rank r).due = 0 ∧
         ((wDram_2.chan 5).rank r).cls1 = false ∧
           ((wDram_2.chan 5).rank r).makeup = false ∧
             ((wDram_2.chan 5).rank r).selfRef = false ∧
               ((wDram_2.chan 5).rank r).busy ≤ max ((wDram_2.chan 5).dc + 1) (wDram_2.dcNow 5)) ∧
    (wDram_2.chFenced 5 = false) ∧
    ((wDram_2.chan 5).rq = [re0]) ∧
    ((wDram_2.chan 5).wq = []) ∧
    ((wDram_2.chan 5).need (wDram_2.coord 5 re0.cla) = DramCmd.col) ∧
    (({ wDram_2.chan 5 with dc := max ((wDram_2.chan 5).dc + 1) (wDram_2.dcNow 5) : Chan }).colOk
         (wDram_2.timing 5) (wDram_2.coord 5 re0.cla) false =
       true) ∧
    (∀ (i : Fin 17), (wDram_2.slice i).mem.fetchWait = []) := by
  refine ⟨quiet_of _ ?_, (fun _ => ⟨rfl, rfl, rfl, rfl, Nat.zero_le _⟩), ?_⟩ <;> decide +kernel

/-! ### ReadReturnsToSlice -/

theorem wit_Ret_1 :
    (Quiet (ifl { data := 7, pois := false })) ∧
    (((ifl { data := 7, pois := false }).chan 5).inflight = [rei { data := 7, pois := false }]) ∧
    ((rei { data := 7, pois := false }).f.slice = 5) ∧
    ((rei { data := 7, pois := false }).f.fetchFor = FetchFor.trk 0) ∧
    ((rei { data := 7, pois := false }).f.addr = MemAddr.line 5) ∧
    ((rei { data := 7, pois := false }).f.mir = false) ∧
    ((rei { data := 7, pois := false }).got = some { data := 7, pois := false }) ∧
    (((ifl { data := 7, pois := false }).slice 5).mem.ctl.mode = MscMode.off) ∧
    (readBurst ((ifl { data := 7, pois := false }).flag (dchPage 5) 256 6) { data := 7, pois := false } 0 = ReadRes.ok 7) := by
  refine ⟨quiet_of _ ?_, ?_⟩ <;> decide +kernel

theorem wit_Ret_1b :
    (Quiet (ifl { data := 7, pois := true })) ∧
    (((ifl { data := 7, pois := true }).chan 5).inflight = [rei { data := 7, pois := true }]) ∧
    ((rei { data := 7, pois := true }).f.slice = 5) ∧
    ((rei { data := 7, pois := true }).f.fetchFor = FetchFor.trk 0) ∧
    ((rei { data := 7, pois := true }).f.addr = MemAddr.line 5) ∧
    ((rei { data := 7, pois := true }).f.mir = false) ∧
    ((rei { data := 7, pois := true }).got = some { data := 7, pois := true }) ∧
    (((ifl { data := 7, pois := true }).slice 5).mem.ctl.mode = MscMode.off) ∧
    (readBurst ((ifl { data := 7, pois := true }).flag (dchPage 5) 256 6) { data := 7, pois := true } 0 = ReadRes.poison 7) := by
  refine ⟨quiet_of _ ?_, ?_⟩ <;> decide +kernel

theorem wit_Ret_2 :
    (Quiet (ifl { data := 7, pois := false })) ∧
    (mild (ifl { data := 7, pois := false }) (srcChan 5)) ∧
    (((ifl { data := 7, pois := false }).chan 5).inflight = [rei { data := 7, pois := false }]) ∧
    ((rei { data := 7, pois := false }).f.slice = 5) ∧
    ((rei { data := 7, pois := false }).f.fetchFor = FetchFor.trk 0) ∧
    ((rei { data := 7, pois := false }).f.addr = MemAddr.line 5) ∧
    ((rei { data := 7, pois := false }).f.mir = false) ∧
    ((rei { data := 7, pois := false }).got = some { data := 7, pois := false }) ∧
    (((ifl { data := 7, pois := false }).slice 5).mem.ctl.mode = MscMode.off) ∧
    (readBurst ((ifl { data := 7, pois := false }).flag (dchPage 5) 256 6) { data := 7, pois := false } 1 = ReadRes.corrected 7 0) ∧
    ((ifl { data := 7, pois := false }).chFenced 5 = false) ∧
    ((rei { data := 7, pois := false }).past = false) ∧
    (((ifl { data := 7, pois := false }).chan 5).wq = []) := by
  refine ⟨quiet_of _ ?_, (show _ < _ from ?_), ?_⟩ <;> decide +kernel

theorem wit_Ret_2b :
    (Quiet x8S) ∧
    (mild x8S (srcChan 5)) ∧
    ((x8S.chan 5).inflight = [rei { data := 7, pois := false }]) ∧
    ((rei { data := 7, pois := false }).f.slice = 5) ∧
    ((rei { data := 7, pois := false }).f.fetchFor = FetchFor.trk 0) ∧
    ((rei { data := 7, pois := false }).f.addr = MemAddr.line 5) ∧
    ((rei { data := 7, pois := false }).f.mir = false) ∧
    ((rei { data := 7, pois := false }).got = some { data := 7, pois := false }) ∧
    ((x8S.slice 5).mem.ctl.mode = MscMode.off) ∧
    (readBurst (x8S.flag (dchPage 5) 256 6) { data := 7, pois := false } 1 = ReadRes.corrected 7 0) ∧
    (x8S.chFenced 5 = false) ∧
    ((rei { data := 7, pois := false }).past = false) ∧
    ((x8S.chan 5).wq = []) := by
  refine ⟨quiet_of _ ?_, (show _ < _ from ?_), ?_⟩ <;> decide +kernel

theorem wit_Ret_3 :
    (Quiet (noAct (ifl { data := 7, pois := false }))) ∧
    (((noAct (ifl { data := 7, pois := false })).chan 5).inflight = [rei { data := 7, pois := false }]) ∧
    ((rei { data := 7, pois := false }).f.slice = 5) ∧
    ((rei { data := 7, pois := false }).f.fetchFor = FetchFor.trk 0) ∧
    ((rei { data := 7, pois := false }).f.addr = MemAddr.line 5) ∧
    ((rei { data := 7, pois := false }).f.mir = false) ∧
    ((rei { data := 7, pois := false }).got = some { data := 7, pois := false }) ∧
    (((noAct (ifl { data := 7, pois := false })).slice 5).mem.ctl.mode = MscMode.off) ∧
    (readBurst ((noAct (ifl { data := 7, pois := false })).flag (dchPage 5) 256 6) { data := 7, pois := false } (2 ^ 8 + 1) =
       ReadRes.lost) ∧
    ((noAct (ifl { data := 7, pois := false })).mirrored 5 = false) ∧
    (((noAct (ifl { data := 7, pois := false })).src (srcChan 5)).severe = false) ∧
    ((noAct (ifl { data := 7, pois := false })).fld 59 260 3 2 = 0) := by
  refine ⟨quiet_of _ ?_, ?_⟩ <;> decide +kernel

/-! ### RefreshAndAlerts -/

theorem wit_Ref_1 :
    (Quiet (owe 0)) ∧
    (0 < (owe 0).ranks 5) ∧
    ((((owe 0).chan 5).rank 0).selfRef = false) ∧
    (((owe 0).chan 5).refOn = true) ∧
    ((((owe 0).chan 5).rank 0).dueAt ≤ (owe 0).dcNow 5) := by
  refine ⟨quiet_of _ ?_, ?_⟩ <;> decide +kernel

theorem wit_Ref_1b :
    (Quiet (owe 9)) ∧
    (0 < (owe 9).ranks 5) ∧
    ((((owe 9).chan 5).rank 0).selfRef = false) ∧
    (((owe 9).chan 5).refOn = true) ∧
    ((((owe 9).chan 5).rank 0).dueAt ≤ (owe 9).dcNow 5) := by
  refine ⟨quiet_of _ ?_, ?_⟩ <;> decide +kernel

theorem wit_Ref_1c :
    (Quiet wRef_1c) ∧
    (0 < wRef_1c.ranks 5) ∧
    (((wRef_1c.chan 5).rank 0).selfRef = false) ∧
    ((wRef_1c.chan 5).refOn = true) ∧
    (((wRef_1c.chan 5).rank 0).dueAt ≤ wRef_1c.dcNow 5) := by
  refine ⟨quiet_of _ ?_, ?_⟩ <;> decide +kernel

theorem wit_Ref_2 :
    (Quiet (owe 3)) ∧
    (0 < (owe 3).ranks 5) ∧
    ((((owe 3).chan 5).rank 0).owed ≠ 0) ∧
    ((owe 3).rankFetches 5 0 = false) ∧
    ((owe 3).fld (dchPage 5) 340 27 16 ≤ (owe 3).dcNow 5 - (((owe 3).chan 5).rank 0).lastFetch) := by
  refine ⟨quiet_of _ ?_, ?_⟩ <;> decide +kernel

theorem wit_Ref_3 :
    (Quiet (owe 0)) ∧
    (1 < (owe 0).ranks 5) ∧
    (((owe 0).chan 5).refOn = true) ∧
    (((owe 0).chan 5).polled + (owe 0).dcOf 5 32000 ≤ (owe 0).dcNow 5) := by
  refine ⟨quiet_of _ ?_, ?_⟩ <;> decide +kernel

theorem wit_Ref_3b :
    (Quiet (owe 0)) ∧
    (0 < (owe 0).ranks 5) ∧
    (((owe 0).chan 5).refOn = true) ∧
    (((owe 0).chan 5).polled + (owe 0).dcOf 5 32000 ≤ (owe 0).dcNow 5) := by
  refine ⟨quiet_of _ ?_, ?_⟩ <;> decide +kernel

theorem wit_Al_1 :
    (Quiet on) ∧
    (mild on (srcChan 5)) ∧
    (tabGet 0 (on.chan 5).replays 3 < 2) := by
  refine ⟨quiet_of _ ?_, (show _ < _ from ?_), ?_⟩ <;> decide +kernel

theorem wit_Al_2 :
    (Quiet wAl_2) ∧
    (mild wAl_2 (srcChan 5)) ∧
    (tabGet 0 (wAl_2.chan 5).replays 0 < 2) := by
  refine ⟨quiet_of _ ?_, (show _ < _ from ?_), ?_⟩ <;> decide +kernel

/-! ### ResyncCopiesTheMirror -/

theorem wit_Rs_1 :
    (Quiet mirT) ∧
    (mirT.mirrored 5 = true) ∧
    (mirT.chFenced 5 = true) ∧
    (mirT.chFenced (buddy 5) = false) ∧
    ((mirT.chan 5).mir.st.accepts 1 = true) ∧
    ((mirT.chan 5).trn.valid = true) ∧
    ((mirT.chan 5).trn.full = true) ∧
    ((mirT.chan 5).trn.fail = false) ∧
    ((mirT.chan 5).trn.phase = TrnPhase.idle) ∧
    ((mirT.chan 5).resetting = false) := by
  refine ⟨quiet_of _ ?_, ?_⟩ <;> decide +kernel

theorem wit_Rs_2 :
    (Quiet (rsy 0 none)) ∧
    (memIdle (rsy 0 none)) ∧
    ((rsy 0 none).mirrored 5 = true) ∧
    (((rsy 0 none).chan 5).mir.mode = MirSt.resync) ∧
    (((rsy 0 none).chan 5).mir.copy = none) ∧
    ((rsy 0 none).rqRoom (buddy 5) false = true) := by
  refine ⟨quiet_of _ ?_, idle _ ?_, ?_⟩ <;> decide +kernel

theorem wit_Rs_2b :
    (Quiet (rsy (on.capacity 4 / 2) none)) ∧
    (memIdle (rsy (on.capacity 4 / 2) none)) ∧
    ((rsy (on.capacity 4 / 2) none).mirrored 5 = true) ∧
    (((rsy (on.capacity 4 / 2) none).chan 5).mir.mode = MirSt.resync) ∧
    (((rsy (on.capacity 4 / 2) none).chan 5).mir.copy = none) ∧
    ((rsy (on.capacity 4 / 2) none).rqRoom (buddy 5) false = true) := by
  refine ⟨quiet_of _ ?_, idle _ ?_, ?_⟩ <;> decide +kernel

theorem wit_Rs_3 :
    (Quiet (rsy 0 (some cpG))) ∧
    ((rsy 0 (some cpG)).mirrored 5 = true) ∧
    (((rsy 0 (some cpG)).chan 5).mir.mode = MirSt.resync) ∧
    (((rsy 0 (some cpG)).chan 5).mir.copy = some cpG) ∧
    (cpG.phase = CopyPhase.got { data := 9, pois := true }) ∧
    (cpG.stale = false) ∧
    ((rsy 0 (some cpG)).wqRoom 5 cpG.dst = true) := by
  refine ⟨quiet_of _ ?_, ?_⟩ <;> decide +kernel

theorem wit_Rs_4 :
    (Quiet (rsy 0 (some cpD))) ∧
    (memIdle (rsy 0 (some cpD))) ∧
    ((rsy 0 (some cpD)).mirrored 5 = true) ∧
    (((rsy 0 (some cpD)).chan 5).mir.mode = MirSt.resync) ∧
    (((rsy 0 (some cpD)).chan 5).mir.copy = some cpD) ∧
    (cpD.phase = CopyPhase.done) ∧
    (((rsy 0 (some cpD)).chan 5).mir.wm + 1 < (rsy 0 (some cpD)).capacity (buddy 5)) := by
  refine ⟨quiet_of _ ?_, idle _ ?_, ?_⟩ <;> decide +kernel

theorem wit_Rs_5 :
    (Quiet (rsy (on.capacity 4 - 1) (some cpD))) ∧
    ((rsy (on.capacity 4 - 1) (some cpD)).mirrored 5 = true) ∧
    (((rsy (on.capacity 4 - 1) (some cpD)).chan 5).mir.mode = MirSt.resync) ∧
    (((rsy (on.capacity 4 - 1) (some cpD)).chan 5).mir.copy = some cpD) ∧
    (cpD.phase = CopyPhase.done) ∧
    ((rsy (on.capacity 4 - 1) (some cpD)).capacity (buddy 5) ≤ ((rsy (on.capacity 4 - 1) (some cpD)).chan 5).mir.wm + 1) ∧
    (((rsy (on.capacity 4 - 1) (some cpD)).chan 5).mir.st.held = none) := by
  refine ⟨quiet_of _ ?_, ?_⟩ <;> decide +kernel

theorem wit_Rs_6 :
    (Quiet mirT) ∧
    (mirT.mirrored 5 = true) ∧
    (2 ≠ (mirT.chan 5).mir.st.rseq) ∧
    ((mirT.chan 5).mir.st.res ≠ Res.running) := by
  refine ⟨quiet_of _ ?_, ?_⟩ <;> decide +kernel

theorem wit_Rs_7 :
    (Quiet (rsy 3 none)) ∧
    (memIdle (rsy 3 none)) ∧
    ((rsy 3 none).mirrored 5 = true) ∧
    (2 ≠ ((rsy 3 none).chan 5).mir.st.rseq) ∧
    (((rsy 3 none).chan 5).mir.st.res = Res.running) ∧
    (((rsy 3 none).chan 5).rq = []) ∧
    (((rsy 3 none).chan 5).wq = []) := by
  refine ⟨quiet_of _ ?_, idle _ ?_, ?_⟩ <;> decide +kernel

/-! ### TrainingGoesOn -/

theorem wit_Tr_1 :
    (Quiet (trOld id false)) ∧
    (((trOld id false).chan 5).trn.st.accepts 1 = true) ∧
    ((trOld id false).chFenced 5 = true ∨ (trOld id false).glb.everEnabled = false) ∧
    (((trOld id false).chan 5).trn.phase = TrnPhase.idle) ∧
    ((trOld id false).glb.stt ≠ Stt.reset) ∧
    ((trOld id false).glb.stt ≠ Stt.fuse) := by
  refine ⟨quiet_of _ ?_, ?_⟩ <;> decide +kernel

theorem wit_Tr_2 :
    (Quiet wTr_2) ∧
    ((wTr_2.chan 5).trn.phase = TrnPhase.dfi) := by
  refine ⟨quiet_of _ ?_, ?_⟩ <;> decide +kernel

theorem wit_Tr_3 :
    (Quiet wTr_3) ∧
    ((wTr_3.chan 5).trn.phase = TrnPhase.read ∨ (wTr_3.chan 5).trn.phase = TrnPhase.write) ∧
    ((wTr_3.chan 5).trn.code < 127) ∧
    ((wTr_3.chan 5).trn.lane < 9) := by
  refine ⟨quiet_of _ ?_, ?_⟩ <;> decide +kernel

theorem wit_Tr_3b :
    (Quiet wTr_3b) ∧
    ((wTr_3b.chan 5).trn.phase = TrnPhase.read ∨ (wTr_3b.chan 5).trn.phase = TrnPhase.write) ∧
    ((wTr_3b.chan 5).trn.code < 127) ∧
    ((wTr_3b.chan 5).trn.lane < 9) := by
  refine ⟨quiet_of _ ?_, ?_⟩ <;> decide +kernel

theorem wit_Tr_4 :
    (Quiet wTr_3) ∧
    ((wTr_3.chan 5).trn.phase = TrnPhase.read ∨ (wTr_3.chan 5).trn.phase = TrnPhase.write) ∧
    ((wTr_3.chan 5).trn.code < 127) ∧
    ((wTr_3.chan 5).trn.lane < 9) := by
  refine ⟨quiet_of _ ?_, ?_⟩ <;> decide +kernel

theorem wit_Tr_5 :
    (Quiet wTr_5) ∧
    ((wTr_5.chan 5).trn.phase = TrnPhase.latched) ∧
    ((wTr_5.chan 5).trn.full = false) ∧
    ((wTr_5.chan 5).trn.fail = false) ∧
    ((wTr_5.chan 5).resetting = false) ∧
    ((wTr_5.chan 5).trn.st.res ≠ Res.running) := by
  refine ⟨quiet_of _ ?_, ?_⟩ <;> decide +kernel

theorem wit_Tr_6 :
    (Quiet wTr_6) ∧
    ((wTr_6.chan 5).trn.st.res = Res.running) ∧
    (1 ≠ (wTr_6.chan 5).trn.st.rseq) := by
  refine ⟨quiet_of _ ?_, ?_⟩ <;> decide +kernel

/-! ### ChannelReset -/

theorem wit_Cr_1 :
    (Quiet wCr_1) :=
  quiet_of _ (by decide +kernel)

theorem wit_Cr_2 :
    (Quiet fch) ∧
    (memIdle fch) ∧
    ((fch.chan 5).rst.accepts 1 = true) ∧
    (fch.chFenced 5 = true) ∧
    ((fch.chan 5).wq = []) ∧
    ((fch.chan 5).rq = []) := by
  refine ⟨quiet_of _ ?_, idle _ ?_, ?_⟩ <;> decide +kernel

theorem wit_Cr_3 :
    (Quiet wCr_3) ∧
    ((wCr_3.chan 5).rst.res = Res.running) ∧
    (1 ≠ (wCr_3.chan 5).rst.rseq) := by
  refine ⟨quiet_of _ ?_, ?_⟩ <;> decide +kernel

/-! ### CommitChecksConfiguration -/

theorem wit_Commit_1 :
    (Quiet okCfg) ∧
    (okCfg.commitFails = []) ∧
    (okCfg.glb.cmd.accepts 1 = true) ∧
    (okCfg.glb.stt = Stt.ready ∨ okCfg.glb.stt = Stt.committed) ∧
    (okCfg.glb.cmd.held = none) ∧
    (okCfg.csr.posted = []) ∧
    (okCfg.glb.layout = [] ∨ okCfg.glb.layout = okCfg.layoutRegs) := by
  refine ⟨quiet_of _ ?_, okCfg_ok, ?_⟩ <;> decide +kernel

theorem wit_Commit_2 :
    (Quiet badCfg) ∧
    (badCfg.glb.cmd.accepts 1 = true) ∧
    (badCfg.glb.stt = Stt.ready ∨ badCfg.glb.stt = Stt.committed) ∧
    (badCfg.glb.cmd.held = none) ∧
    (badCfg.csr.posted = []) ∧
    (badCfg.commitFails = [1, 3]) ∧
    (badCfg.flt.log.length ≤ 250) := by
  refine ⟨quiet_of _ ?_, ?_⟩ <;> decide +kernel

theorem wit_Commit_3 :
    (Quiet on) ∧
    (on.glb.cmd.accepts 1 = true) ∧
    (on.glb.stt ≠ Stt.ready) ∧
    (on.glb.stt ≠ Stt.committed) := by
  refine ⟨quiet_of _ ?_, ?_⟩ <;> decide +kernel

theorem wit_Commit_4 :
    (Quiet okCfg) ∧
    (okCfg.glb.cmd.accepts 0 = false) := by
  refine ⟨quiet_of _ ?_, ?_⟩ <;> decide +kernel

theorem wit_Commit_4b :
    (Quiet
       (on.modGlb fun g =>
         { g with cmd := { g.cmd with res := Res.running } })) ∧
    ((on.modGlb fun g =>
                 { g with cmd := { g.cmd with res := Res.running } }).glb.cmd.accepts
         3 =
       false) := by
  refine ⟨quiet_of _ ?_, ?_⟩ <;> decide +kernel

/-! ### EnableBringsPortsUp -/

theorem wit_Enable_1 :
    (Quiet committed) ∧
    (committed.glb.cmd.accepts 1 = true) ∧
    (committed.glb.stt = Stt.committed) ∧
    (∀ (n : Fin 16), (committed.chan n).trn.fail = false) ∧
    (∀ (i : Fin 17), (committed.src (srcSlice i)).severe = false ∧ (committed.slice i).ctl.sound = true) ∧
    (∀ (p : Fin 24), (committed.port p).up = false) ∧
    (committed.servingReady = true) ∧
    (committed.glb.cmd.held = none) := by
  refine ⟨quiet_of _ ?_, ?_⟩ <;> decide +kernel

theorem wit_Enable_1b :
    (Quiet
       (committed.modSlice 9 fun x =>
         { x with ar := Arrays.zero })) ∧
    ((committed.modSlice 9 fun x =>
                 { x with ar := Arrays.zero }).glb.cmd.accepts
         1 =
       true) ∧
    ((committed.modSlice 9 fun x =>
             { x with ar := Arrays.zero }).glb.stt =
       Stt.committed) ∧
    (∀ (n : Fin 16),
       ((committed.modSlice 9 fun x =>
                   { x with ar := Arrays.zero }).chan
               n).trn.fail =
         false) ∧
    (∀ (i : Fin 17),
       ((committed.modSlice 9 fun x =>
                   { x with ar := Arrays.zero }).src
               (srcSlice i)).severe =
           false ∧
         ((committed.modSlice 9 fun x =>
                     { x with ar := Arrays.zero }).slice
                 i).ctl.sound =
           true) ∧
    (∀ (p : Fin 24),
       ((committed.modSlice 9 fun x =>
                 { x with ar := Arrays.zero }).port
             p).up =
         false) ∧
    ((committed.modSlice 9 fun x =>
           { x with ar := Arrays.zero }).servingReady =
       false) := by
  refine ⟨quiet_of _ ?_, ?_⟩ <;> decide +kernel

theorem wit_Enable_2 :
    (Quiet on) ∧
    (on.glb.cmd.accepts 1 = true) ∧
    (on.glb.stt ≠ Stt.committed) := by
  refine ⟨quiet_of _ ?_, ?_⟩ <;> decide +kernel

/-! ### DisableDrains -/

theorem wit_Disable_1 :
    (Quiet frozenAll) ∧
    (frozenAll.glb.cmd.accepts 1 = true) ∧
    (frozenAll.glb.stt = Stt.enabled) ∧
    (frozenAll.flt.run = none) ∧
    (frozenAll.allFrozen = true) := by
  refine ⟨quiet_of _ ?_, ?_⟩ <;> decide +kernel

theorem wit_Disable_1b :
    (Quiet frozenMsc) ∧
    (frozenMsc.glb.cmd.accepts 1 = true) ∧
    (frozenMsc.glb.stt = Stt.enabled) ∧
    (frozenMsc.flt.run = none) ∧
    (frozenMsc.allFrozen = true) := by
  refine ⟨quiet_of _ ?_, ?_⟩ <;> decide +kernel

theorem wit_Disable_2 :
    (Quiet moving) ∧
    (moving.glb.cmd.accepts 1 = true) ∧
    (moving.glb.stt = Stt.enabled) ∧
    (moving.flt.run ≠ none) := by
  refine ⟨quiet_of _ ?_, ?_⟩ <;> decide +kernel

theorem wit_Disable_3 :
    (Quiet on) ∧
    (on.glb.cmd.accepts 1 = true) ∧
    (on.glb.stt = Stt.enabled) ∧
    (on.flt.run = none) ∧
    (on.allFrozen = false) := by
  refine ⟨quiet_of _ ?_, ?_⟩ <;> decide +kernel

theorem wit_Disable_3b :
    (Quiet okCfg) ∧
    (okCfg.glb.cmd.accepts 1 = true) ∧
    (okCfg.glb.stt ≠ Stt.enabled) := by
  refine ⟨quiet_of _ ?_, ?_⟩ <;> decide +kernel

theorem wit_Disable_4 :
    (Quiet draining) ∧
    (draining.glb.stt = Stt.disabling) := by
  refine ⟨quiet_of _ ?_, ?_⟩ <;> decide +kernel

theorem wit_Disable_4b :
    (Quiet
       (draining.modSlice 7 fun x =>
         { x with trk := [(3, some (ent ReqOp.rdShd TStat.queued))] })) ∧
    ((draining.modSlice 7 fun x =>
             { x with trk := [(3, some (ent ReqOp.rdShd TStat.queued))] }).glb.stt =
       Stt.disabling) := by
  refine ⟨quiet_of _ ?_, ?_⟩ <;> decide +kernel

/-! ### Broadcast -/

theorem wit_Bc_1 :
    (Quiet on) ∧
    (on.glb.bc.st.accepts 1 = true) := by
  refine ⟨quiet_of _ ?_, ?_⟩ <;> decide +kernel

theorem wit_Bc_1b :
    (Quiet wBc_3b) ∧
    (wBc_3b.glb.bc.st.accepts 1 = true) := by
  refine ⟨quiet_of _ ?_, ?_⟩ <;> decide +kernel

theorem wit_Bc_2 :
    (Quiet bcSetting) ∧
    (bcSetting.glb.bc.st.res = Res.running) ∧
    (bcSetting.glb.bc.st.held = none) := by
  refine ⟨quiet_of _ ?_, ?_⟩ <;> decide +kernel

theorem wit_Bc_2b :
    (Quiet
       (withEnt
         (on.modBc fun b =>
           { b with homes := 32, st := { b.st with res := Res.running, rseq := 1 } })
         (ent ReqOp.rdShd (TStat.ready false)))) ∧
    ((withEnt
                 (on.modBc fun b =>
                   { b with homes := 32, st := { b.st with res := Res.running, rseq := 1 } })
                 (ent ReqOp.rdShd (TStat.ready false))).glb.bc.st.res =
       Res.running) ∧
    ((withEnt
                 (on.modBc fun b =>
                   { b with homes := 32, st := { b.st with res := Res.running, rseq := 1 } })
                 (ent ReqOp.rdShd (TStat.ready false))).glb.bc.st.held =
       none) := by
  refine ⟨quiet_of _ ?_, ?_⟩ <;> decide +kernel

theorem wit_Bc_3 :
    (Quiet on) ∧
    (on.glb.bc.st.accepts 1 = true) ∧
    (on.sweptBy false 3 = []) := by
  refine ⟨quiet_of _ ?_, ?_⟩ <;> decide +kernel

theorem wit_Bc_3b :
    (Quiet wBc_3b) ∧
    (wBc_3b.glb.bc.st.accepts 1 = true) ∧
    (wBc_3b.sweptBy false 3 = []) := by
  refine ⟨quiet_of _ ?_, ?_⟩ <;> decide +kernel

theorem wit_Bc_4 :
    (Quiet
       (on.modBc fun b =>
         { b with homes := 8 })) ∧
    ((on.modBc fun b =>
                   { b with homes := 8 }).glb.bc.st.accepts
         1 =
       true) ∧
    ((on.modBc fun b =>
             { b with homes := 8 }).sweptBy
         false 3 ≠
       []) := by
  refine ⟨quiet_of _ ?_, ?_⟩ <;> decide +kernel

theorem wit_Bc_4b :
    (Quiet wBc_3b) ∧
    (wBc_3b.glb.bc.st.accepts 1 = true) ∧
    (wBc_3b.sweptBy true 0 ≠ []) := by
  refine ⟨quiet_of _ ?_, ?_⟩ <;> decide +kernel

theorem wit_Bc_5 :
    (Quiet on) ∧
    (on.glb.bc.st.res ≠ Res.running) ∧
    (1 ≠ on.glb.bc.st.rseq) := by
  refine ⟨quiet_of _ ?_, ?_⟩ <;> decide +kernel

theorem wit_Bc_6 :
    (Quiet
       (bcClearing.modBc fun b =>
         { b with sweep := [] })) ∧
    (bcClearing.glb.bc.sweep ≠ []) ∧
    (bcClearing.glb.bc.st.res = Res.running) ∧
    (2 ≠ bcClearing.glb.bc.st.rseq) := by
  refine ⟨quiet_of _ ?_, ?_⟩ <;> decide +kernel

/-! ### LoadAndSwitchOfMicrocode -/

theorem wit_Load_1 :
    (Quiet wantLoad) ∧
    (wantLoad.glb.ld.st.accepts 1 = true) ∧
    (∀ (i : Fin 17), (wantLoad.fld 0 524 16 0).testBit ↑i = true → wantLoad.loadDrops i = false ∧ (wantLoad.slice i).asleep = false) ∧
    (wantLoad.fld 0 524 16 0 ≠ 0) ∧
    (wantLoad.glb.stt = Stt.committed) := by
  refine ⟨quiet_of _ ?_, ?_⟩ <;> decide +kernel

theorem wit_Load_1b :
    (Quiet loadOld) ∧
    (loadOld.glb.ld.st.accepts 1 = true) ∧
    (∀ (i : Fin 17), (loadOld.fld 0 524 16 0).testBit ↑i = true → loadOld.loadDrops i = false ∧ (loadOld.slice i).asleep = false) ∧
    (loadOld.fld 0 524 16 0 ≠ 0) ∧
    (loadOld.glb.stt = Stt.enabled) ∧
    ((loadOld.fld 0 524 16 0).testBit 5 = true) ∧
    ((loadOld.slice 5).oldUsers ≠ 0) := by
  refine ⟨quiet_of _ ?_, ?_⟩ <;> decide +kernel

theorem wit_Load_2 :
    (Quiet (at' Stt.ready)) ∧
    ((at' Stt.ready).glb.ld.st.accepts 1 = true) ∧
    ((at' Stt.ready).glb.ld.st.held = none) ∧
    ((at' Stt.ready).glb.stt ≠ Stt.committed) ∧
    ((at' Stt.ready).glb.stt ≠ Stt.enabled) := by
  refine ⟨quiet_of _ ?_, ?_⟩ <;> decide +kernel

theorem wit_Load_3 :
    (Quiet ldRead) ∧
    (ldRead.glb.ld.st.res = Res.running) ∧
    (ldRead.glb.ld.st.held = none) ∧
    (ldRead.glb.ld.phase = LdPhase.reading) ∧
    (ldRead.glb.ld.rd.all = true) ∧
    (imageCause ldRead.glb.ld.rd ldRead.glb.fuse ≠ 0) := by
  refine ⟨quiet_of _ ?_, ?_⟩ <;> decide +kernel

theorem wit_Load_4 :
    (Quiet ldRead) ∧
    (ldRead.glb.ld.st.res = Res.running) ∧
    (ldRead.glb.ld.st.held = none) ∧
    (ldRead.glb.ld.phase = LdPhase.reading) ∧
    (ldRead.glb.ld.rd.all = true) := by
  refine ⟨quiet_of _ ?_, ?_⟩ <;> decide +kernel

theorem wit_Load_5 :
    (Quiet ldRead) ∧
    (ldRead.glb.ld.st.res = Res.running) ∧
    (2 ≠ ldRead.glb.ld.st.rseq) := by
  refine ⟨quiet_of _ ?_, ?_⟩ <;> decide +kernel

theorem wit_Switch :
    (Quiet on) ∧
    ((on.slice 5).ctl.dom.a = Pwr.on) ∧
    ((on.slice 5).uc.st.accepts 1 = true) := by
  refine ⟨quiet_of _ ?_, ?_⟩ <;> decide +kernel

theorem wit_Switch2 :
    (Quiet moving) ∧
    ((moving.slice 5).ctl.dom.a = Pwr.on) ∧
    ((moving.slice 5).uc.st.accepts 1 = true) := by
  refine ⟨quiet_of _ ?_, ?_⟩ <;> decide +kernel

theorem wit_Switch3 :
    (Quiet
       (on.modSlice 5 fun x =>
         { x with uc := { x.uc with valid := 3 } })) ∧
    (((on.modSlice 5 fun x =>
                   { x with uc := { x.uc with valid := 3 } }).slice
               5).ctl.dom.a =
       Pwr.on) ∧
    (((on.modSlice 5 fun x =>
                     { x with uc := { x.uc with valid := 3 } }).slice
                 5).uc.st.accepts
         1 =
       true) := by
  refine ⟨quiet_of _ ?_, ?_⟩ <;> decide +kernel

/-! ### PartitionStates -/

theorem wit_Par_1 :
    (Quiet on) ∧
    (∀ (p : Fin 24), ∀ k ∈ (on.port p).held, k.a.part ≠ 0) ∧
    (on.par.cmd.accepts 1 = true) ∧
    ((on.part 0).st = PState.run) := by
  refine ⟨quiet_of _ ?_, ?_⟩ <;> decide +kernel

theorem wit_Par_2 :
    (Quiet on) ∧
    (∀ (p : Fin 24), ∀ k ∈ (on.port p).held, k.a.part ≠ 0) ∧
    (on.par.cmd.accepts 1 = true) ∧
    ((on.part 0).st = PState.run ∨ (on.part 0).st = PState.frozen) ∧
    (∀ (i : Fin 17), (on.slice i).ingress = [] ∧ (on.slice i).wakeHold = []) := by
  refine ⟨quiet_of _ ?_, ?_⟩ <;> decide +kernel

theorem wit_Par_2b :
    (Quiet (fr PState.frozen)) ∧
    (∀ (p : Fin 24), ∀ k ∈ ((fr PState.frozen).port p).held, k.a.part ≠ 0) ∧
    ((fr PState.frozen).par.cmd.accepts 1 = true) ∧
    (((fr PState.frozen).part 0).st = PState.run ∨ ((fr PState.frozen).part 0).st = PState.frozen) ∧
    (∀ (i : Fin 17), ((fr PState.frozen).slice i).ingress = [] ∧ ((fr PState.frozen).slice i).wakeHold = []) := by
  refine ⟨quiet_of _ ?_, ?_⟩ <;> decide +kernel

theorem wit_Par_2c :
    (Quiet on) ∧
    (∀ (p : Fin 24), ∀ k ∈ (on.port p).held, k.a.part ≠ 63) ∧
    (on.par.cmd.accepts 1 = true) ∧
    ((on.part 63).st = PState.run ∨ (on.part 63).st = PState.frozen) ∧
    (∀ (i : Fin 17), (on.slice i).ingress = [] ∧ (on.slice i).wakeHold = []) := by
  refine ⟨quiet_of _ ?_, ?_⟩ <;> decide +kernel

theorem wit_Par_3 :
    (Quiet (fr PState.frozen)) ∧
    (∀ (p : Fin 24), ∀ k ∈ ((fr PState.frozen).port p).held, k.a.part ≠ 0) ∧
    ((fr PState.frozen).par.cmd.accepts 1 = true) ∧
    (((fr PState.frozen).part 0).st = PState.frozen) ∧
    ((fr PState.frozen).par.cmd.held = none) := by
  refine ⟨quiet_of _ ?_, ?_⟩ <;> decide +kernel

theorem wit_Par_4 :
    (Quiet (fr PState.frozen)) ∧
    (∀ (p : Fin 24), ∀ k ∈ ((fr PState.frozen).port p).held, k.a.part ≠ 0) ∧
    ((fr PState.frozen).par.cmd.accepts 1 = true) ∧
    (((fr PState.frozen).part 0).st ≠ PState.run) := by
  refine ⟨quiet_of _ ?_, ?_⟩ <;> decide +kernel

theorem wit_Par_5 :
    (Quiet (fr PState.freezing)) ∧
    (∀ (p : Fin 24), ∀ k ∈ ((fr PState.freezing).port p).held, k.a.part ≠ 0) ∧
    ((fr PState.freezing).par.cmd.accepts 1 = true) ∧
    (((fr PState.freezing).part 0).st ≠ PState.frozen) ∧
    (Instr.save 1 0 ∈ [Instr.thaw 1 0, Instr.save 1 0, Instr.restore 1 0]) := by
  refine ⟨quiet_of _ ?_, ?_⟩ <;> decide +kernel

theorem wit_Par_5b :
    (Quiet (fr PState.resetting)) ∧
    (∀ (p : Fin 24), ∀ k ∈ ((fr PState.resetting).port p).held, k.a.part ≠ 0) ∧
    ((fr PState.resetting).par.cmd.accepts 1 = true) ∧
    (((fr PState.resetting).part 0).st ≠ PState.run) ∧
    (((fr PState.resetting).part 0).st ≠ PState.frozen) := by
  refine ⟨quiet_of _ ?_, ?_⟩ <;> decide +kernel

theorem wit_Par_5c :
    (Quiet (frz PState.freezing)) ∧
    (∀ (p : Fin 24), ∀ k ∈ ((frz PState.freezing).port p).held, k.a.part ≠ 0) ∧
    ((frz PState.freezing).par.cmd.accepts 1 = false) ∧
    (Instr.partitionReset 1 0 ∈ [Instr.freeze 1 0, Instr.thaw 1 0, Instr.save 1 0, Instr.restore 1 0, Instr.partitionReset 1 0]) := by
  refine ⟨quiet_of _ ?_, ?_⟩ <;> decide +kernel

theorem wit_Par_5d :
    (Quiet on) ∧
    (∀ (p : Fin 24), ∀ k ∈ (on.port p).held, k.a.part ≠ 0) ∧
    (on.par.cmd.accepts 0 = false) ∧
    (Instr.freeze 0 0 ∈ [Instr.freeze 0 0, Instr.thaw 0 0, Instr.save 0 0, Instr.restore 0 0, Instr.partitionReset 0 0]) := by
  refine ⟨quiet_of _ ?_, ?_⟩ <;> decide +kernel

theorem wit_Par_5e :
    (Quiet (frz PState.freezing)) ∧
    (∀ (p : Fin 24), ∀ k ∈ ((frz PState.freezing).port p).held, k.a.part ≠ 0) ∧
    ((frz PState.freezing).par.cmd.res = Res.running) ∧
    (1 ≠ (frz PState.freezing).par.cmd.rseq) ∧
    ((frz PState.freezing).par.job = ParJob.none) ∧
    ((frz PState.freezing).par.running = some 0) ∧
    (((frz PState.freezing).part 0).st = PState.freezing) := by
  refine ⟨quiet_of _ ?_, ?_⟩ <;> decide +kernel

theorem wit_Par_6 :
    (Quiet (frz PState.freezing)) ∧
    (∀ (p : Fin 24), ∀ k ∈ ((frz PState.freezing).port p).held, k.a.part ≠ 0) ∧
    (((frz PState.freezing).part 0).st = PState.freezing) ∧
    ((frz PState.freezing).partDrained 0 false = true) ∧
    ((frz PState.freezing).par.cmd.held = none) := by
  refine ⟨quiet_of _ ?_, ?_⟩ <;> decide +kernel

theorem wit_Par_7 :
    (Quiet (frz PState.resetting)) ∧
    (∀ (p : Fin 24), ∀ k ∈ ((frz PState.resetting).port p).held, k.a.part ≠ 0) ∧
    (((frz PState.resetting).part 0).st = PState.resetting) ∧
    ((frz PState.resetting).partDrained 0 true = true) ∧
    ((frz PState.resetting).par.cmd.held = none) := by
  refine ⟨quiet_of _ ?_, ?_⟩ <;> decide +kernel

theorem wit_Par_8 :
    (Quiet wPar_8) ∧
    (∀ (p : Fin 24), ∀ k ∈ (wPar_8.port p).held, k.a.part ≠ (rdr ReqOp.rdShd).a.part) ∧
    (wPar_8.par.cmd.accepts 1 = true) ∧
    ((wPar_8.part (rdr ReqOp.rdShd).a.part).st = PState.run ∨ (wPar_8.part (rdr ReqOp.rdShd).a.part).st = PState.frozen) ∧
    (∀ (p : Fin 24), (wPar_8.port p).held = []) ∧
    (∀ (j : Fin 17), (wPar_8.slice j).wakeHold = []) ∧
    (∀ (j : Fin 17), j ≠ 5 → (wPar_8.slice j).ingress = []) ∧
    ((wPar_8.slice 5).ingress = [(0, { direct := [(rdr ReqOp.rdShd, 0)], fwd := [] })]) ∧
    ((rdr ReqOp.rdShd).port = some 0) ∧
    ((rdr ReqOp.rdShd).a.part = (rdr ReqOp.rdShd).a.part) ∧
    ((rdr ReqOp.rdShd).a.gen = (wPar_8.part (rdr ReqOp.rdShd).a.part).gen) ∧
    (carries 0 (rdr ReqOp.rdShd).a.src = true) ∧
    (wPar_8.agFenced (rdr ReqOp.rdShd).a.src = false) ∧
    (wPar_8.portFenced 0 = false) := by
  refine ⟨quiet_of _ ?_, ?_⟩ <;> decide +kernel

/-! ### SaveAndRestoreBegin -/

theorem wit_Save_1 :
    (Quiet svl) ∧
    (∀ (j : Fin 17), (svl.slice j).ar.inj = []) ∧
    ((svl.part 0).st = PState.frozen) ∧
    (svl.homed svl.saveBase = true) ∧
    (svl.inAperture svl.saveBase = false) ∧
    (svl.homeOf svl.saveBase = 5) ∧
    (svl.servingSlice 5 svl.saveBase = some 5) ∧
    ((svl.slice 5).asleep = false) ∧
    (((svl.slice 5).ing 25).direct.length < 8) ∧
    (svl.par.cmd.accepts 1 = true) ∧
    (svl.imageBody 0 = []) ∧
    (svl.flt.run = none) ∧
    (1 ≤ svl.saveLen) := by
  refine ⟨quiet_of _ ?_, ?_⟩ <;> decide +kernel

theorem wit_Save_2 :
    (Quiet wSave_2) ∧
    (∀ (j : Fin 17), (wSave_2.slice j).ar.inj = []) ∧
    ((wSave_2.part 0).st = PState.frozen) ∧
    (wSave_2.homed wSave_2.saveBase = true) ∧
    (wSave_2.inAperture wSave_2.saveBase = false) ∧
    (wSave_2.homeOf wSave_2.saveBase = 5) ∧
    (wSave_2.servingSlice 5 wSave_2.saveBase = some 5) ∧
    ((wSave_2.slice 5).asleep = false) ∧
    (((wSave_2.slice 5).ing 25).direct.length < 8) ∧
    (wSave_2.par.cmd.accepts 1 = true) ∧
    (wSave_2.saveLen < (wSave_2.imageBody 0).length + 1) := by
  refine ⟨quiet_of _ ?_, ?_⟩ <;> decide +kernel

theorem wit_Save_3 :
    (Quiet svl) ∧
    (∀ (j : Fin 17), (svl.slice j).ar.inj = []) ∧
    ((svl.part 0).st = PState.frozen) ∧
    (svl.homed svl.saveBase = true) ∧
    (svl.inAperture svl.saveBase = false) ∧
    (svl.homeOf svl.saveBase = 5) ∧
    (svl.servingSlice 5 svl.saveBase = some 5) ∧
    ((svl.slice 5).asleep = false) ∧
    (((svl.slice 5).ing 25).direct.length < 8) ∧
    (svl.par.cmd.accepts 1 = true) ∧
    (svl.flt.run = none) := by
  refine ⟨quiet_of _ ?_, ?_⟩ <;> decide +kernel

theorem wit_Save_3b :
    (Quiet svM) ∧
    (∀ (j : Fin 17), (svM.slice j).ar.inj = []) ∧
    ((svM.part 0).st = PState.frozen) ∧
    (svM.homed svM.saveBase = true) ∧
    (svM.inAperture svM.saveBase = false) ∧
    (svM.homeOf svM.saveBase = 5) ∧
    (svM.servingSlice 5 svM.saveBase = some 5) ∧
    ((svM.slice 5).asleep = false) ∧
    (((svM.slice 5).ing 25).direct.length < 8) ∧
    (svM.par.cmd.accepts 1 = true) ∧
    (svM.flt.run ≠ none) := by
  refine ⟨quiet_of _ ?_, ?_⟩ <;> decide +kernel

theorem wit_Save_3c :
    (Quiet svM) ∧
    (∀ (j : Fin 17), (svM.slice j).ar.inj = []) ∧
    ((svM.part 0).st = PState.frozen) ∧
    (svM.homed svM.saveBase = true) ∧
    (svM.inAperture svM.saveBase = false) ∧
    (svM.homeOf svM.saveBase = 5) ∧
    (svM.servingSlice 5 svM.saveBase = some 5) ∧
    ((svM.slice 5).asleep = false) ∧
    (((svM.slice 5).ing 25).direct.length < 8) ∧
    (svM.par.cmd.accepts 1 = true) ∧
    (svM.flt.run ≠ none) ∧
    ((svM.imageBody 0).length + 1 ≤ svM.saveLen) := by
  refine ⟨quiet_of _ ?_, ?_⟩ <;> decide +kernel

theorem wit_Save_4 :
    (Quiet saving) ∧
    (∀ (j : Fin 17), (saving.slice j).ar.inj = []) ∧
    ((saving.part 0).st = PState.frozen) ∧
    (saving.homed saving.saveBase = true) ∧
    (saving.inAperture saving.saveBase = false) ∧
    (saving.homeOf saving.saveBase = 5) ∧
    (saving.servingSlice 5 saving.saveBase = some 5) ∧
    ((saving.slice 5).asleep = false) ∧
    (((saving.slice 5).ing 25).direct.length < 8) ∧
    (saving.par.cmd.res = Res.running) ∧
    (1 ≠ saving.par.cmd.rseq) ∧
    (saving.par.running = some 0) ∧
    (saving.par.job = ParJob.save 5 0 [{ data := 0, pois := false }] 0 false false) := by
  refine ⟨quiet_of _ ?_, ?_⟩ <;> decide +kernel

theorem wit_Save_5 :
    (Quiet restoring) ∧
    (∀ (j : Fin 17), (restoring.slice j).ar.inj = []) ∧
    ((restoring.part 0).st = PState.frozen) ∧
    (restoring.homed restoring.saveBase = true) ∧
    (restoring.inAperture restoring.saveBase = false) ∧
    (restoring.homeOf restoring.saveBase = 5) ∧
    (restoring.servingSlice 5 restoring.saveBase = some 5) ∧
    ((restoring.slice 5).asleep = false) ∧
    (((restoring.slice 5).ing 25).direct.length < 8) ∧
    (restoring.par.cmd.res = Res.running) ∧
    (1 ≠ restoring.par.cmd.rseq) ∧
    (restoring.par.running = some 0) ∧
    (restoring.par.job = ParJob.checkHeader { base := 5, count := 1, got := [] } ∨
       restoring.par.job = ParJob.checkBody { base := 5, count := 1, got := [] }) := by
  refine ⟨quiet_of _ ?_, ?_⟩ <;> decide +kernel

/-! ### CorrAndUncorEvents -/

theorem wit_Corr :
    (Quiet on) ∧
    (mild on 0) := by
  refine ⟨quiet_of _ ?_, (show _ < _ from ?_)⟩ <;> decide +kernel

theorem wit_Corr_b :
    (Quiet wCorr_b) ∧
    (mild wCorr_b 126) := by
  refine ⟨quiet_of _ ?_, (show _ < _ from ?_)⟩ <;> decide +kernel

theorem wit_Uncor :
    (Quiet (noAct on)) ∧
    (∀ (i : Fin (17 : ℕ)), (0 : ℕ) = ↑i → (noAct on).homesOf i ≠ [] ∧ (noAct on).fld (59 : ℕ) (260 : ℕ) (7 : ℕ) (6 : ℕ) ≠ (1 : ℕ)) ∧
    ((noAct on).fld 59 260 5 4 = 0) ∧
    ((noAct on).fld 59 260 3 2 = 0) ∧
    ((noAct on).fld 59 260 1 0 = 0) ∧
    (((noAct on).src 0).severe = false) ∧
    (((noAct on).src 0).acked = false) ∧
    ((noAct on).flt.log.length ≤ 254) := by
  refine ⟨quiet_of _ ?_, ?_⟩ <;> decide +kernel

theorem wit_Uncor_b :
    (Quiet (noAct on)) ∧
    (∀ (i : Fin (17 : ℕ)), (20 : ℕ) = ↑i → (noAct on).homesOf i ≠ [] ∧ (noAct on).fld (59 : ℕ) (260 : ℕ) (7 : ℕ) (6 : ℕ) ≠ (1 : ℕ)) ∧
    ((noAct on).fld 59 260 5 4 = 0) ∧
    ((noAct on).fld 59 260 3 2 = 0) ∧
    ((noAct on).fld 59 260 1 0 = 0) ∧
    (((noAct on).src 20).severe = false) ∧
    (((noAct on).src 20).acked = false) ∧
    ((noAct on).flt.log.length ≤ 254) := by
  refine ⟨quiet_of _ ?_, ?_⟩ <;> decide +kernel

theorem wit_Uncor_c :
    (Quiet (noAct on)) ∧
    (∀ (i : Fin (17 : ℕ)), (127 : ℕ) = ↑i → (noAct on).homesOf i ≠ [] ∧ (noAct on).fld (59 : ℕ) (260 : ℕ) (7 : ℕ) (6 : ℕ) ≠ (1 : ℕ)) ∧
    ((noAct on).fld 59 260 5 4 = 0) ∧
    ((noAct on).fld 59 260 3 2 = 0) ∧
    ((noAct on).fld 59 260 1 0 = 0) ∧
    (((noAct on).src 127).severe = false) ∧
    (((noAct on).src 127).acked = false) ∧
    ((noAct on).flt.log.length ≤ 254) := by
  refine ⟨quiet_of _ ?_, ?_⟩ <;> decide +kernel

/-! ### FenceAndAck -/

theorem wit_Fn_1 :
    (Quiet on) ∧
    (memIdle on) ∧
    (on.flt.cmd.accepts 1 = true) ∧
    (on.mirrored 15 = false) ∧
    (on.chFenced 15 = false) ∧
    ((on.chan 15).wq = []) ∧
    ((on.chan 15).rq = []) ∧
    ((on.chan (buddy 15)).mir.mode ≠ MirSt.resync) ∧
    (on.flt.cmd.held = none) := by
  refine ⟨quiet_of _ ?_, idle _ ?_, ?_⟩ <;> decide +kernel

theorem wit_Fn_2 :
    (Quiet wFn_2) ∧
    (wFn_2.flt.cmd.accepts 1 = true) ∧
    (57 ≤ 57 ∨ 64 ≤ 57 ∧ 57 ≤ 126) := by
  refine ⟨quiet_of _ ?_, ?_⟩ <;> decide +kernel

theorem wit_Fn_2b :
    (Quiet on) ∧
    (on.flt.cmd.accepts 1 = true) ∧
    (126 ≤ 57 ∨ 64 ≤ 126 ∧ 126 ≤ 126) := by
  refine ⟨quiet_of _ ?_, ?_⟩ <;> decide +kernel

theorem wit_Fn_3 :
    (Quiet on) ∧
    (on.flt.cmd.accepts 1 = true) ∧
    (57 < 58) ∧
    (¬(64 ≤ 58 ∧ 58 ≤ 126)) := by
  refine ⟨quiet_of _ ?_, ?_⟩ <;> decide +kernel

theorem wit_Fn_3b :
    (Quiet on) ∧
    (on.flt.cmd.accepts 1 = true) ∧
    (57 < 127) ∧
    (¬(64 ≤ 127 ∧ 127 ≤ 126)) := by
  refine ⟨quiet_of _ ?_, ?_⟩ <;> decide +kernel

/-! ### FenceOfAgentSweeps -/

theorem wit_Ag :
    (Quiet on) ∧
    (on.flt.cmd.accepts 1 = true) ∧
    (portOf 62 = some 23) ∧
    (on.flt.cmd.held = none) ∧
    ((on.src (srcAgent 62)).fenced = false) ∧
    ((on.port 23).held = []) ∧
    ((on.port 23).orphans = []) ∧
    (on.flt.log.length < 256) ∧
    (∀ (i : Fin 17),
       (on.slice i).trk = [] ∧
         (on.slice i).recs = [] ∧
           (on.slice i).ingress = [] ∧ (on.slice i).ar.desc = [] ∧ (on.slice i).asleep = false ∧ on.slFenced i = false) ∧
    (∀ (q : Fin 24), (on.port q).egress = []) := by
  refine ⟨quiet_of _ ?_, ?_⟩ <;> decide +kernel

theorem wit_Ag_b :
    (Quiet on) ∧
    (on.flt.cmd.accepts 1 = true) ∧
    (portOf 0 = some 0) ∧
    (on.flt.cmd.held = none) ∧
    ((on.src (srcAgent 0)).fenced = false) ∧
    ((on.port 0).held = []) ∧
    ((on.port 0).orphans = []) ∧
    (on.flt.log.length < 256) ∧
    (∀ (i : Fin 17),
       (on.slice i).trk = [] ∧
         (on.slice i).recs = [] ∧
           (on.slice i).ingress = [] ∧ (on.slice i).ar.desc = [] ∧ (on.slice i).asleep = false ∧ on.slFenced i = false) ∧
    (∀ (q : Fin 24), (on.port q).egress = []) := by
  refine ⟨quiet_of _ ?_, ?_⟩ <;> decide +kernel

/-! ### MoveBegins -/

theorem wit_Mv_1 :
    (Quiet freeD) ∧
    (freeD.flt.run = none) ∧
    (freeD.tst.phase = LtPhase.none) ∧
    (freeD.flt.cmd.accepts 1 = true) ∧
    (freeD.flt.log.length < 256) ∧
    (freeD.serving 5 = some 5) ∧
    (freeD.isFree 16 = true) ∧
    ((freeD.slice 16).asleep = true) ∧
    ((freeD.src (srcSlice 5)).severe = false) ∧
    (freeD.glb.ld.st.res = Res.nothing) ∧
    (freeD.degraded 5 = false) ∧
    (freeD.homesOf 5 = [5]) := by
  refine ⟨quiet_of _ ?_, ?_⟩ <;> decide +kernel

theorem wit_Mv_2 :
    (Quiet wMv_2) ∧
    (wMv_2.flt.run = none) ∧
    (wMv_2.tst.phase = LtPhase.none) ∧
    (wMv_2.flt.cmd.accepts 1 = true) ∧
    (wMv_2.flt.log.length < 256) ∧
    (wMv_2.serving 5 = some 4) ∧
    (wMv_2.isFree 16 = true) ∧
    ((wMv_2.slice 16).asleep = true) ∧
    ((wMv_2.src (srcSlice 4)).severe = false) ∧
    (wMv_2.glb.ld.st.res = Res.nothing) ∧
    (wMv_2.degraded 5 = true) := by
  refine ⟨quiet_of _ ?_, ?_⟩ <;> decide +kernel

theorem wit_Mv_3 :
    (Quiet freeD) ∧
    (freeD.flt.run = none) ∧
    (freeD.tst.phase = LtPhase.none) ∧
    (freeD.flt.cmd.accepts 1 = true) ∧
    (freeD.flt.log.length < 256) ∧
    (freeD.serving 5 = some 5) ∧
    (freeD.isFree 16 = true) ∧
    ((freeD.slice 16).asleep = true) ∧
    ((freeD.src (srcSlice 5)).severe = false) ∧
    (freeD.glb.ld.st.res = Res.nothing) ∧
    (freeD.flt.cmd.rseq ≠ 1) := by
  refine ⟨quiet_of _ ?_, ?_⟩ <;> decide +kernel

theorem wit_Mv_4 :
    (Quiet (withoutMove (evCmd MovePhase.prepare on.glb.route))) ∧
    (memIdle (evCmd MovePhase.prepare on.glb.route)) ∧
    ((evCmd MovePhase.prepare on.glb.route).glb.admHold = 0) ∧
    ((evCmd MovePhase.prepare on.glb.route).flt.run =
       some
         ({ mv MoveKind.evac MovePhase.prepare with cmd := true })) ∧
    (({ mv MoveKind.evac MovePhase.prepare with cmd := true : Move }).kind =
       MoveKind.evac) ∧
    (({ mv MoveKind.evac MovePhase.prepare with cmd := true : Move }).cmd =
       true) ∧
    (({ mv MoveKind.evac MovePhase.prepare with cmd := true : Move }).src ≠
       ({ mv MoveKind.evac MovePhase.prepare with cmd := true : Move }).dst) ∧
    ((evCmd MovePhase.prepare on.glb.route).flt.cmd.res = Res.running) ∧
    (1 ≠ (evCmd MovePhase.prepare on.glb.route).flt.cmd.rseq) ∧
    ((evCmd MovePhase.prepare on.glb.route).tst.phase = LtPhase.none) ∧
    (∀ (j : Fin 17),
       ((evCmd MovePhase.prepare on.glb.route).slice j).trk = [] ∧
         ((evCmd MovePhase.prepare on.glb.route).slice j).recs = [] ∧
           ((evCmd MovePhase.prepare on.glb.route).slice j).ingress = [] ∧
             ((evCmd MovePhase.prepare on.glb.route).slice j).wakeHold = []) := by
  refine ⟨quiet_of _ ?_, idle _ ?_, ?_⟩ <;> decide +kernel

theorem wit_Mv_5 :
    (Quiet (withoutMove (evCmd (MovePhase.hold 2) { active := true, home := 5, dest := 16, wm := 2 }))) ∧
    (memIdle (evCmd (MovePhase.hold 2) { active := true, home := 5, dest := 16, wm := 2 })) ∧
    ((evCmd (MovePhase.hold 2) { active := true, home := 5, dest := 16, wm := 2 }).glb.admHold = 0) ∧
    ((evCmd (MovePhase.hold 2) { active := true, home := 5, dest := 16, wm := 2 }).flt.run =
       some
         ({ mv MoveKind.evac (MovePhase.hold 2) with cmd := true })) ∧
    (({ mv MoveKind.evac (MovePhase.hold 2) with cmd := true : Move }).kind =
       MoveKind.evac) ∧
    (({ mv MoveKind.evac (MovePhase.hold 2) with cmd := true : Move }).cmd =
       true) ∧
    (({ mv MoveKind.evac (MovePhase.hold 2) with cmd := true : Move }).src ≠
       ({ mv MoveKind.evac (MovePhase.hold 2) with cmd := true : Move }).dst) ∧
    ((evCmd (MovePhase.hold 2) { active := true, home := 5, dest := 16, wm := 2 }).flt.cmd.res = Res.running) ∧
    (1 ≠ (evCmd (MovePhase.hold 2) { active := true, home := 5, dest := 16, wm := 2 }).flt.cmd.rseq) ∧
    ((evCmd (MovePhase.hold 2) { active := true, home := 5, dest := 16, wm := 2 }).tst.phase = LtPhase.none) ∧
    (∀ (j : Fin 17),
       ((evCmd (MovePhase.hold 2) { active := true, home := 5, dest := 16, wm := 2 }).slice j).trk = [] ∧
         ((evCmd (MovePhase.hold 2) { active := true, home := 5, dest := 16, wm := 2 }).slice j).recs = [] ∧
           ((evCmd (MovePhase.hold 2) { active := true, home := 5, dest := 16, wm := 2 }).slice j).ingress = [] ∧
             ((evCmd (MovePhase.hold 2) { active := true, home := 5, dest := 16, wm := 2 }).slice j).wakeHold = []) := by
  refine ⟨quiet_of _ ?_, idle _ ?_, ?_⟩ <;> decide +kernel

/-! ### EvacuationGoesSetBySet -/

theorem wit_Ev_1 :
    (Quiet (ev (mv MoveKind.evac MovePhase.prepare))) ∧
    ((ev (mv MoveKind.evac MovePhase.prepare)).flt.run = some (mv MoveKind.evac MovePhase.prepare)) ∧
    ((mv MoveKind.evac MovePhase.prepare).kind = MoveKind.evac) ∧
    ((mv MoveKind.evac MovePhase.prepare).checked = true) ∧
    ((mv MoveKind.evac MovePhase.prepare).phase = MovePhase.prepare) ∧
    ((ev (mv MoveKind.evac MovePhase.prepare)).destReady (mv MoveKind.evac MovePhase.prepare).dst = true) ∧
    (((ev (mv MoveKind.evac MovePhase.prepare)).slice (mv MoveKind.evac MovePhase.prepare).src).asleep = false) := by
  refine ⟨quiet_of _ ?_, ?_⟩ <;> decide +kernel

theorem wit_Ev_2 :
    (Quiet sfS) ∧
    (sfS.flt.run = some (mv MoveKind.evac (MovePhase.hold 3))) ∧
    ((mv MoveKind.evac (MovePhase.hold 3)).kind = MoveKind.evac) ∧
    ((mv MoveKind.evac (MovePhase.hold 3)).checked = true) ∧
    ((mv MoveKind.evac (MovePhase.hold 3)).phase = MovePhase.hold 3) ∧
    (sfS.setQuiet (mv MoveKind.evac (MovePhase.hold 3)).src (mv MoveKind.evac (MovePhase.hold 3)).home 3 = true) ∧
    ((sfS.slice (mv MoveKind.evac (MovePhase.hold 3)).src).trk = []) ∧
    ((sfS.slice (mv MoveKind.evac (MovePhase.hold 3)).src).ingress = []) ∧
    ((sfS.slice (mv MoveKind.evac (MovePhase.hold 3)).src).wakeHold = []) ∧
    ((sfS.slice (mv MoveKind.evac (MovePhase.hold 3)).src).recs = []) ∧
    ((sfS.slice (mv MoveKind.evac (MovePhase.hold 3)).src).ar.inj = []) ∧
    (∀ w < 16, ((sfS.slice (mv MoveKind.evac (MovePhase.hold 3)).src).sfGet 3 w).dir.ok = true) ∧
    ((mv MoveKind.evac (MovePhase.hold 3)).src ≠ (mv MoveKind.evac (MovePhase.hold 3)).dst) := by
  refine ⟨quiet_of _ ?_, ?_⟩ <;> decide +kernel

theorem wit_Ev_2b :
    (Quiet (ev (mv MoveKind.evac (MovePhase.hold 16383)))) ∧
    ((ev (mv MoveKind.evac (MovePhase.hold 16383))).flt.run = some (mv MoveKind.evac (MovePhase.hold 16383))) ∧
    ((mv MoveKind.evac (MovePhase.hold 16383)).kind = MoveKind.evac) ∧
    ((mv MoveKind.evac (MovePhase.hold 16383)).checked = true) ∧
    ((mv MoveKind.evac (MovePhase.hold 16383)).phase = MovePhase.hold 16383) ∧
    ((ev (mv MoveKind.evac (MovePhase.hold 16383))).setQuiet (mv MoveKind.evac (MovePhase.hold 16383)).src
         (mv MoveKind.evac (MovePhase.hold 16383)).home 16383 =
       true) ∧
    (((ev (mv MoveKind.evac (MovePhase.hold 16383))).slice (mv MoveKind.evac (MovePhase.hold 16383)).src).trk = []) ∧
    (((ev (mv MoveKind.evac (MovePhase.hold 16383))).slice (mv MoveKind.evac (MovePhase.hold 16383)).src).ingress = []) ∧
    (((ev (mv MoveKind.evac (MovePhase.hold 16383))).slice (mv MoveKind.evac (MovePhase.hold 16383)).src).wakeHold = []) ∧
    (((ev (mv MoveKind.evac (MovePhase.hold 16383))).slice (mv MoveKind.evac (MovePhase.hold 16383)).src).recs = []) ∧
    (((ev (mv MoveKind.evac (MovePhase.hold 16383))).slice (mv MoveKind.evac (MovePhase.hold 16383)).src).ar.inj = []) ∧
    (∀ w < 16,
       (((ev (mv MoveKind.evac (MovePhase.hold 16383))).slice (mv MoveKind.evac (MovePhase.hold 16383)).src).sfGet 16383
               w).dir.ok =
         true) ∧
    ((mv MoveKind.evac (MovePhase.hold 16383)).src ≠ (mv MoveKind.evac (MovePhase.hold 16383)).dst) := by
  refine ⟨quiet_of _ ?_, ?_⟩ <;> decide +kernel

theorem wit_Ev_3 :
    (Quiet (ev m3)) ∧
    ((ev m3).flt.run = some m3) ∧
    (m3.kind = MoveKind.evac) ∧
    (m3.checked = true) ∧
    (4 ∈ m3.tell) := by
  refine ⟨quiet_of _ ?_, ?_⟩ <;> decide +kernel

theorem wit_Ev_4 :
    (Quiet wEv_4) ∧
    (wEv_4.flt.run = some m3) ∧
    (m3.kind = MoveKind.evac) ∧
    (m3.checked = true) ∧
    (m3.phase = MovePhase.spread 3) ∧
    ((wEv_4.port 4).marker = true) ∧
    (4 ∈ m3.mark) ∧
    ((wEv_4.slice m3.src).trk = []) ∧
    ((wEv_4.slice m3.src).ingress = []) ∧
    ((wEv_4.slice m3.src).wakeHold = []) := by
  refine ⟨quiet_of _ ?_, ?_⟩ <;> decide +kernel

theorem wit_Ev_5 :
    (Quiet (ev (mv MoveKind.evac (MovePhase.spread 3)))) ∧
    ((ev (mv MoveKind.evac (MovePhase.spread 3))).flt.run = some (mv MoveKind.evac (MovePhase.spread 3))) ∧
    ((mv MoveKind.evac (MovePhase.spread 3)).kind = MoveKind.evac) ∧
    ((mv MoveKind.evac (MovePhase.spread 3)).checked = true) ∧
    ((mv MoveKind.evac (MovePhase.spread 3)).phase = MovePhase.spread 3) ∧
    ((mv MoveKind.evac (MovePhase.spread 3)).mark = []) := by
  refine ⟨quiet_of _ ?_, ?_⟩ <;> decide +kernel

theorem wit_Ev_6 :
    (Quiet (ev m6)) ∧
    ((ev m6).flt.run = some m6) ∧
    (m6.kind = MoveKind.evac) ∧
    (m6.checked = true) ∧
    (m6.phase = MovePhase.spread 3) ∧
    (m6.released = true) ∧
    (m6.tell = []) ∧
    (m6.sent ≤ m6.passed) := by
  refine ⟨quiet_of _ ?_, ?_⟩ <;> decide +kernel

theorem wit_Ev_6b :
    (Quiet (ev m6b)) ∧
    ((ev m6b).flt.run = some m6b) ∧
    (m6b.kind = MoveKind.evac) ∧
    (m6b.checked = true) ∧
    (m6b.phase = MovePhase.spread 16383) ∧
    (m6b.released = true) ∧
    (m6b.tell = []) ∧
    (m6b.sent ≤ m6b.passed) := by
  refine ⟨quiet_of _ ?_, ?_⟩ <;> decide +kernel

/-! ### MoveEndsAtDestination -/

theorem wit_End_1 :
    (Quiet (withoutMove evF)) ∧
    (memIdle evF) ∧
    (evF.flt.run = some (mv MoveKind.evac MovePhase.final)) ∧
    ((mv MoveKind.evac MovePhase.final).src ≠ (mv MoveKind.evac MovePhase.final).dst) ∧
    (∀ (i : Fin 17), (evF.slice i).recs = []) ∧
    ((evF.slice (mv MoveKind.evac MovePhase.final).src).trk = []) ∧
    ((evF.slice (mv MoveKind.evac MovePhase.final).src).ingress = []) ∧
    ((evF.slice (mv MoveKind.evac MovePhase.final).dst).ingress = []) ∧
    ((evF.slice (mv MoveKind.evac MovePhase.final).src).wakeHold = []) ∧
    ((evF.slice (mv MoveKind.evac MovePhase.final).dst).wakeHold = []) ∧
    (∀ (i : Fin 17), (evF.slice i).ar.inj = []) ∧
    (evF.par.job = ParJob.none) ∧
    (evF.flt.log.length < 256) ∧
    ((mv MoveKind.evac MovePhase.final).kind = MoveKind.evac) ∧
    ((mv MoveKind.evac MovePhase.final).phase = MovePhase.final) ∧
    (evF.glb.admHold = 0) ∧
    ((evF.src (srcSlice (mv MoveKind.evac MovePhase.final).src)).severe = false) := by
  refine ⟨quiet_of _ ?_, idle _ ?_, ?_⟩ <;> decide +kernel

theorem wit_End_2 :
    (Quiet (withoutMove (tk MoveKind.takeover false))) ∧
    (memIdle (tk MoveKind.takeover false)) ∧
    ((tk MoveKind.takeover false).flt.run = some wEnd_2m) ∧
    (wEnd_2m.src ≠ wEnd_2m.dst) ∧
    (∀ (i : Fin 17), ((tk MoveKind.takeover false).slice i).recs = []) ∧
    (((tk MoveKind.takeover false).slice wEnd_2m.src).trk = []) ∧
    (((tk MoveKind.takeover false).slice wEnd_2m.src).ingress = []) ∧
    (((tk MoveKind.takeover false).slice wEnd_2m.dst).ingress = []) ∧
    (((tk MoveKind.takeover false).slice wEnd_2m.src).wakeHold = []) ∧
    (((tk MoveKind.takeover false).slice wEnd_2m.dst).wakeHold = []) ∧
    (∀ (i : Fin 17), ((tk MoveKind.takeover false).slice i).ar.inj = []) ∧
    ((tk MoveKind.takeover false).par.job = ParJob.none) ∧
    ((tk MoveKind.takeover false).flt.log.length < 256) ∧
    ((tk MoveKind.takeover false).glb.admHold = BitVec.ofNat (16 : ℕ) ((2 : ℕ) ^ wEnd_2m.home.val)) ∧
    (wEnd_2m.checked = true) ∧
    ((tk MoveKind.takeover false).destReady wEnd_2m.dst = true) ∧
    (5 ≠ wEnd_2m.dst) ∧
    (wEnd_2m.kind = MoveKind.takeover) ∧
    (((tk MoveKind.takeover false).retainedOf wEnd_2m.home).getD wEnd_2m.src = 5) := by
  refine ⟨quiet_of _ ?_, idle _ ?_, ?_⟩ <;> decide +kernel

theorem wit_End_3 :
    (Quiet (withoutMove rt)) ∧
    (memIdle rt) ∧
    (rt.flt.run = some wEnd_3m) ∧
    (wEnd_3m.src ≠ wEnd_3m.dst) ∧
    (∀ (i : Fin 17), (rt.slice i).recs = []) ∧
    ((rt.slice wEnd_3m.src).trk = []) ∧
    ((rt.slice wEnd_3m.src).ingress = []) ∧
    ((rt.slice wEnd_3m.dst).ingress = []) ∧
    ((rt.slice wEnd_3m.src).wakeHold = []) ∧
    ((rt.slice wEnd_3m.dst).wakeHold = []) ∧
    (∀ (i : Fin 17), (rt.slice i).ar.inj = []) ∧
    (rt.par.job = ParJob.none) ∧
    (rt.flt.log.length < 256) ∧
    (rt.glb.admHold = BitVec.ofNat (16 : ℕ) ((2 : ℕ) ^ wEnd_3m.home.val)) ∧
    (wEnd_3m.checked = true) ∧
    (rt.destReady wEnd_3m.dst = true) ∧
    (7 ≠ wEnd_3m.dst) ∧
    (wEnd_3m.kind = MoveKind.ret) ∧
    (rt.degraded wEnd_3m.home = true) ∧
    (rt.retainedOf wEnd_3m.home = some 7) ∧
    (wEnd_3m.cmd = true) ∧
    (rt.flt.cmd.held = none) := by
  refine ⟨quiet_of _ ?_, idle _ ?_, ?_⟩ <;> decide +kernel

/-! ### LogsAndHeartbeat -/

theorem wit_Log_1 :
    (Quiet wLog_1) :=
  quiet_of _ (by decide +kernel)

theorem wit_Log_2 :
    (Quiet wLog_2) :=
  quiet_of _ (by decide +kernel)

theorem wit_Log_3 :
    (Quiet on) ∧
    (on.glb.everEnabled = true) ∧
    (BitVec.toNat on.now % 100 = 0) := by
  refine ⟨quiet_of _ ?_, ?_⟩ <;> decide +kernel

theorem wit_Log_3b :
    (Quiet wLog_3b) ∧
    (wLog_3b.glb.everEnabled = true) ∧
    (BitVec.toNat wLog_3b.now % 100 = 0) := by
  refine ⟨quiet_of _ ?_, ?_⟩ <;> decide +kernel

/-! ### NetworkLinks -/

theorem wit_Net_0 :
    (hd 0 4 2 ∈ (netS 0).netWinners fun x => true) ∧
    ((hd 0 4 2).meets (hd 0 4 2) = true) := by
  decide +kernel

theorem wit_Net_0b :
    (hd 0 4 2 ∈ (netS 0).netWinners fun x => true) ∧
    (hd 0 3 0 ∈ (netS 0).netHeads) ∧
    ((netS 0).mayLeave (fun x => true) (hd 0 3 0) = true) ∧
    ((hd 0 3 0).meets (hd 0 4 2) = true) := by
  decide +kernel

theorem wit_Net_0c :
    (hd 0 4 2 ∈ (netS 0).netWinners fun x => false) ∧
    ((hd 0 4 2).f.out < 4) := by
  decide +kernel

theorem wit_Net_0d :
    (hd 4 4 2 ∈ (netS 4).netWinners fun x => true) ∧
    (4 ≤ (hd 4 4 2).f.out) := by
  decide +kernel

theorem wit_Net_1 :
    (Quiet (linksInOrder (lks 1))) ∧
    (mild (lks 1) (linkSrc l0)) ∧
    (((lks 1).link l0).failed = false) ∧
    (((lks 1).link l0).fails ≠ 2) := by
  refine ⟨quiet_of _ ?_, (show _ < _ from ?_), ?_⟩ <;> decide +kernel

theorem wit_Net_2 :
    (Quiet (linksInOrder (lks 1))) ∧
    (mild (lks 1) (linkSrc l0)) ∧
    (((lks 1).link l0).failed = false) ∧
    (((lks 1).link l0).fails < 2) := by
  refine ⟨quiet_of _ ?_, (show _ < _ from ?_), ?_⟩ <;> decide +kernel

theorem wit_Net_2b :
    (Quiet (linksInOrder (lks 3))) ∧
    (mild (lks 3) (linkSrc l0)) ∧
    (((lks 3).link l0).failed = false) ∧
    (((lks 3).link l0).fails = 3) ∧
    (((lks 3).src (linkSrc l0)).severe = false ∧ (lks 3).fld 59 260 5 4 = 0 ∧ (lks 3).fld 59 260 1 0 = 0) := by
  refine ⟨quiet_of _ ?_, (show _ < _ from ?_), ?_⟩ <;> decide +kernel

theorem wit_Net_3 :
    (Quiet (linksInOrder (lks 2))) ∧
    (mild (lks 2) (linkSrc l0)) ∧
    (((lks 2).link l0).failed = false) ∧
    (((lks 2).link l0).fails = 2) ∧
    (((lks 2).link l0).spares + 1 ≤ 2) := by
  refine ⟨quiet_of _ ?_, (show _ < _ from ?_), ?_⟩ <;> decide +kernel

theorem wit_Net_4 :
    (Quiet (linksInOrder (lks 2))) ∧
    (mild (lks 2) (linkSrc l0)) ∧
    (((lks 2).link l0).failed = false) ∧
    (((lks 2).link l0).fails = 2) ∧
    (2 < ((lks 2).link l0).spares + 2) ∧
    (((lks 2).src (linkSrc l0)).severe = false ∧ (lks 2).fld 59 260 5 4 = 0 ∧ (lks 2).fld 59 260 1 0 = 0) := by
  refine ⟨quiet_of _ ?_, (show _ < _ from ?_), ?_⟩ <;> decide +kernel

/-! ### RegisterWrites -/

theorem wit_Rw_0 :
    (Quiet on) ∧
    (on.trusted CsrPath.maint = true) ∧
    (64 < 240) ∧
    (regFields 0 64 ≠ []) ∧
    (∀ f ∈ regFields 0 64, f.kind ≠ FieldKind.wo) ∧
    (on.tstClosed = false) ∧
    (on.flt.run = none) ∧
    (on.tst.phase = LtPhase.none) ∧
    (on.glb.det = true → (0, 64) ≠ (0, 92)) ∧
    (0 = 17 → on.dark 16 = false) ∧
    (on.stOpen = false) ∧
    (∀ f ∈ regFields 0 64, f.kind = FieldKind.st) ∧
    (on.roNow 0 64 = 0) ∧
    (∀ (k : ℕ), islandOf 0 64 = some k → on.islBusy k = false) := by
  refine ⟨quiet_of _ ?_, ?_⟩ <;> decide +kernel

theorem wit_Rw_0b :
    (Quiet (on.setReg 0 5 258)) ∧
    ((on.setReg 0 5 258).trusted CsrPath.maint = true) ∧
    (5 < 240) ∧
    (regFields 0 5 ≠ []) ∧
    (∀ f ∈ regFields 0 5, f.kind ≠ FieldKind.wo) ∧
    ((on.setReg 0 5 258).tstClosed = false) ∧
    ((on.setReg 0 5 258).flt.run = none) ∧
    ((on.setReg 0 5 258).tst.phase = LtPhase.none) ∧
    ((on.setReg 0 5 258).glb.det = true → (0, 5) ≠ (0, 92)) ∧
    (0 = 17 → (on.setReg 0 5 258).dark 16 = false) ∧
    (islandOf 0 5 = none) ∧
    (∀ f ∈ regFields 0 5, f.kind = FieldKind.sq) ∧
    (sqSelected 0 5 = false) := by
  refine ⟨quiet_of _ ?_, ?_⟩ <;> decide +kernel

theorem wit_Rw_0c :
    (Quiet (on.setReg 0 5 258)) ∧
    ((on.setReg 0 5 258).trusted CsrPath.maint = true) ∧
    (5 < 240) ∧
    (regFields 0 5 ≠ []) ∧
    (∀ f ∈ regFields 0 5, f.kind ≠ FieldKind.wo) ∧
    ((on.setReg 0 5 258).tstClosed = false) ∧
    ((on.setReg 0 5 258).flt.run = none) ∧
    ((on.setReg 0 5 258).tst.phase = LtPhase.none) ∧
    ((on.setReg 0 5 258).glb.det = true → (0, 5) ≠ (0, 92)) ∧
    (0 = 17 → (on.setReg 0 5 258).dark 16 = false) ∧
    (islandOf 0 5 = none) ∧
    (∀ f ∈ regFields 0 5, f.kind = FieldKind.sq) ∧
    (sqSelected 0 5 = false) := by
  refine ⟨quiet_of _ ?_, ?_⟩ <;> decide +kernel

theorem wit_Rw_1 :
    (Quiet opn) ∧
    (opn.trusted CsrPath.maint = true) ∧
    (64 < 240) ∧
    (regFields 0 64 ≠ []) ∧
    (∀ f ∈ regFields 0 64, f.kind ≠ FieldKind.wo) ∧
    (opn.tstClosed = false) ∧
    (opn.flt.run = none) ∧
    (opn.tst.phase = LtPhase.none) ∧
    (opn.glb.det = true → (0, 64) ≠ (0, 92)) ∧
    (0 = 17 → opn.dark 16 = false) ∧
    (islandOf 0 64 = none) ∧
    (∀ f ∈ regFields 0 64, f.kind ≠ FieldKind.sq) ∧
    (opn.stOpen = true ∨ ¬∀ f ∈ regFields 0 64, f.kind = FieldKind.st) ∧
    (opn.flt.log.length < 256) := by
  refine ⟨quiet_of _ ?_, ?_⟩ <;> decide +kernel

theorem wit_Rw_1b :
    (Quiet on) ∧
    (on.trusted CsrPath.maint = true) ∧
    (64 < 240) ∧
    (regFields 60 64 ≠ []) ∧
    (∀ f ∈ regFields 60 64, f.kind ≠ FieldKind.wo) ∧
    (on.tstClosed = false) ∧
    (on.flt.run = none) ∧
    (on.tst.phase = LtPhase.none) ∧
    (on.glb.det = true → (60, 64) ≠ (0, 92)) ∧
    (60 = 17 → on.dark 16 = false) ∧
    (islandOf 60 64 = none) ∧
    (∀ f ∈ regFields 60 64, f.kind ≠ FieldKind.sq) ∧
    (on.stOpen = true ∨ ¬∀ f ∈ regFields 60 64, f.kind = FieldKind.st) ∧
    (on.flt.log.length < 256) := by
  refine ⟨quiet_of _ ?_, ?_⟩ <;> decide +kernel

theorem wit_Rw_2 :
    (Quiet (fused opn)) ∧
    ((fused opn).trusted (CsrPath.port 3) = true) ∧
    (172 < 240) ∧
    (regFields 6 172 ≠ []) ∧
    (∀ f ∈ regFields 6 172, f.kind ≠ FieldKind.wo) ∧
    ((fused opn).tstClosed = false) ∧
    ((fused opn).flt.run = none) ∧
    ((fused opn).tst.phase = LtPhase.none) ∧
    ((fused opn).glb.det = true → (6, 172) ≠ (0, 92)) ∧
    (6 = 17 → (fused opn).dark 16 = false) ∧
    (islandOf 6 172 = some 5) ∧
    ((fused opn).stOpen = true ∨ ¬∀ f ∈ regFields 6 172, f.kind = FieldKind.st) ∧
    ((fused opn).dark 5 = false) ∧
    (∀ (i : Fin 17), islSlice 5 = some i → ((fused opn).slice i).ctl.dom.a = Pwr.on) ∧
    ((fused opn).islBusy 5 = false) := by
  refine ⟨quiet_of _ ?_, ?_⟩ <;> decide +kernel

theorem wit_Rw_3 :
    (Quiet busyI) ∧
    (busyI.trusted CsrPath.maint = true) ∧
    (172 < 240) ∧
    (regFields 6 172 ≠ []) ∧
    (∀ f ∈ regFields 6 172, f.kind ≠ FieldKind.wo) ∧
    (busyI.tstClosed = false) ∧
    (busyI.flt.run = none) ∧
    (busyI.tst.phase = LtPhase.none) ∧
    (busyI.glb.det = true → (6, 172) ≠ (0, 92)) ∧
    (6 = 17 → busyI.dark 16 = false) ∧
    (islandOf 6 172 = some 5) ∧
    (busyI.stOpen = true ∨ ¬∀ f ∈ regFields 6 172, f.kind = FieldKind.st) ∧
    (busyI.dark 5 = false) ∧
    (∀ (i : Fin 17), islSlice 5 = some i → (busyI.slice i).ctl.dom.a = Pwr.on) ∧
    (busyI.islBusy 5 = true) := by
  refine ⟨quiet_of _ ?_, ?_⟩ <;> decide +kernel

/-! ### PostedWritesAndConfigurationCrc -/

theorem wit_Pwr_1 :
    (Quiet (posted false false)) ∧
    ((posted false false).csr.posted = [pw false false]) ∧
    ((pw false false).isl = 5) ∧
    ((pw false false).applied = false) ∧
    ((pw false false).bit = none) ∧
    (islandOf (pw false false).page (pw false false).word = some 5) ∧
    ((pw false false).word < 240) ∧
    (∀ (i : Fin 17), islSlice 5 = some i → ((posted false false).slice i).ctl.dom.a = Pwr.on) ∧
    (∀ f ∈ regFields (pw false false).page (pw false false).word, f.kind ≠ FieldKind.sq ∧ f.kind ≠ FieldKind.wo) := by
  refine ⟨quiet_of _ ?_, ?_⟩ <;> decide +kernel

theorem wit_Pwr_2 :
    (Quiet rdWait) ∧
    (rdWait.pageAwake 6 = true) ∧
    (tabGet false rdWait.csr.crcWait 6 = true ∨ rdWait.crcv 6 = false ∨ rdWait.pageCrc 6 = rdWait.reg 6 255) ∧
    (rdWait.csr.posted = [pw true true]) ∧
    ((pw true true).page = 6) ∧
    ((pw true true).passSeen = true) ∧
    (rdWait.csr.reads = [{ who := CsrReader.direct CsrPath.maint, off := 6 * 4096 + 4 * 172 }]) := by
  refine ⟨quiet_of _ ?_, ?_⟩ <;> decide +kernel

theorem wit_Crc_1 :
    (Quiet on) ∧
    (on.pageAwake 6 = true) ∧
    (on.csr.reads = []) ∧
    (tabGet false on.csr.crcWait 6 = true ∨ on.crcv 6 = false ∨ on.pageCrc 6 = on.reg 6 255) := by
  refine ⟨quiet_of _ ?_, ?_⟩ <;> decide +kernel

theorem wit_Crc_1b :
    (Quiet (posted true true)) ∧
    ((posted true true).pageAwake 6 = true) ∧
    ((posted true true).csr.reads = []) ∧
    (tabGet false (posted true true).csr.crcWait 6 = true ∨
       (posted true true).crcv 6 = false ∨ (posted true true).pageCrc 6 = (posted true true).reg 6 255) := by
  refine ⟨quiet_of _ ?_, ?_⟩ <;> decide +kernel

theorem wit_Crc_1c :
    (Quiet (posted true false)) ∧
    ((posted true false).pageAwake 6 = true) ∧
    ((posted true false).csr.reads = []) ∧
    (tabGet false (posted true false).csr.crcWait 6 = true ∨
       (posted true false).crcv 6 = false ∨ (posted true false).pageCrc 6 = (posted true false).reg 6 255) := by
  refine ⟨quiet_of _ ?_, ?_⟩ <;> decide +kernel

theorem wit_Crc_2 :
    (Quiet crcBad) ∧
    (crcBad.pageCrc 61 ≠ crcBad.reg 61 255) ∧
    (crcBad.fld 59 260 5 4 = 0) ∧
    (crcBad.fld 59 260 3 2 = 0) ∧
    (crcBad.pageAwake 61 = true) ∧
    (crcBad.csr.reads = []) ∧
    (tabGet false crcBad.csr.crcWait 61 = false) ∧
    (crcBad.crcv 61 = true) ∧
    (17 ≤ crcSource 61) ∧
    ((crcBad.src (crcSource 61)).severe = false) := by
  refine ⟨crcBad_quiet, crcBad_ne, crcBad_fld _ _ _, crcBad_fld _ _ _, ?_⟩ <;> decide +kernel

theorem wit_Crc_3 :
    (Quiet crcOld) ∧
    (crcOld.glb.stt = Stt.enabled) ∧
    (crcOld.crcv 63 = false) ∧
    (crcOld.reached (tabGet 0 crcOld.csr.staleAt 63 + 100000000) = true) := by
  refine ⟨quiet_of _ ?_, ?_⟩ <;> decide +kernel

theorem wit_Crc_4 :
    (Quiet on) :=
  quiet_of _ (by decide +kernel)

/-! ### OtherRegisterAccesses -/

theorem wit_Acc_0 :
    (Quiet busyI) ∧
    (busyI.tstClosed = false) ∧
    (busyI.trusted CsrPath.maint = true) ∧
    (busyI.csrHolds (pageOff 6 172) = true) := by
  refine ⟨quiet_of _ ?_, ?_⟩ <;> decide +kernel

theorem wit_Acc_1 :
    (Quiet (fused on)) ∧
    ((fused on).tstClosed = false) ∧
    (∀ (k : ℕ), islandOf 0 88 = some k → (fused on).islBusy k = false) ∧
    ((fused on).trusted (CsrPath.port 3) = true) ∧
    (mailboxOf 0 88 = some (88, 2)) := by
  refine ⟨quiet_of _ ?_, ?_⟩ <;> decide +kernel

theorem wit_Acc_1b :
    (Quiet on) ∧
    (on.tstClosed = false) ∧
    (∀ (k : ℕ), islandOf 59 92 = some k → on.islBusy k = false) ∧
    (on.trusted CsrPath.maint = true) ∧
    (mailboxOf 59 92 = some (92, 4)) := by
  refine ⟨quiet_of _ ?_, ?_⟩ <;> decide +kernel

theorem wit_Acc_2 :
    (Quiet on) ∧
    (on.tstClosed = false) ∧
    (∀ (k : ℕ), islandOf 60 64 = some k → on.islBusy k = false) ∧
    (on.trusted CsrPath.maint = true) ∧
    (regFields 60 64 ≠ []) ∧
    (aliasBarred 60 64 = false) := by
  refine ⟨quiet_of _ ?_, ?_⟩ <;> decide +kernel

theorem wit_Acc_3 :
    (Quiet on) ∧
    (on.tstClosed = false) ∧
    (∀ (k : ℕ), islandOf 0 10 = some k → on.islBusy k = false) ∧
    (on.trusted CsrPath.maint = true) ∧
    (regFields 0 10 ≠ []) ∧
    (aliasBarred 0 10 = true) := by
  refine ⟨quiet_of _ ?_, ?_⟩ <;> decide +kernel

theorem wit_Acc_3b :
    (Quiet on) ∧
    (on.tstClosed = false) ∧
    (∀ (k : ℕ), islandOf 0 10 = some k → on.islBusy k = false) ∧
    (on.trusted CsrPath.maint = true) ∧
    (regFields 0 10 ≠ []) ∧
    (aliasBarred 0 10 = true) := by
  refine ⟨quiet_of _ ?_, ?_⟩ <;> decide +kernel

theorem wit_Acc_3c :
    (Quiet opn) ∧
    (opn.tstClosed = false) ∧
    (∀ (k : ℕ), islandOf 60 64 = some k → opn.islBusy k = false) ∧
    (opn.trusted CsrPath.maint = true) ∧
    (regFields 60 64 ≠ []) ∧
    (aliasBarred 60 64 = false) ∧
    (islandOf 60 64 = none) ∧
    (64 < 240) ∧
    (opn.stOpen = true) ∧
    (opn.flt.run = none) ∧
    (opn.tst.phase = LtPhase.none) := by
  refine ⟨quiet_of _ ?_, ?_⟩ <;> decide +kernel

theorem wit_Acc_4 :
    (Quiet opn) ∧
    (opn.tstClosed = false) ∧
    (∀ (k : ℕ), islandOf 6 172 = some k → opn.islBusy k = false) ∧
    (opn.trusted CsrPath.maint = true) ∧
    (regFields 6 172 ≠ []) ∧
    (aliasBarred 6 172 = false) ∧
    (islandOf 6 172 = some 5) ∧
    (opn.dark 5 = false) ∧
    (opn.stOpen = true) ∧
    (opn.flt.run = none) ∧
    (opn.tst.phase = LtPhase.none) ∧
    (∀ (i : Fin 17), islSlice 5 = some i → (opn.slice i).ctl.dom.a = Pwr.on) := by
  refine ⟨quiet_of _ ?_, ?_⟩ <;> decide +kernel

theorem wit_Ins_1 :
    (Quiet on) ∧
    (on.tstClosed = false) ∧
    (∀ (k : ℕ), islandOf 6 172 = some k → on.islBusy k = false) ∧
    (BitVec.extractLsb' 38 20 (dr false true (1024 * 6 + 172) 3) = BitVec.ofNat 20 (1024 * 6 + 172)) ∧
    ((dr false true (1024 * 6 + 172) 3).getLsbD 59 = false) := by
  refine ⟨quiet_of _ ?_, ?_⟩ <;> decide +kernel

theorem wit_Ins_2 :
    (Quiet on) ∧
    (on.tstClosed = false) ∧
    (∀ (k : ℕ), islandOf 6 172 = some k → on.islBusy k = false) ∧
    (BitVec.extractLsb' 38 20 (dr true false (1024 * 6 + 172) 3) = BitVec.ofNat 20 (1024 * 6 + 172)) ∧
    (on.tst.insStat ≠ 1) ∧
    ((dr true false (1024 * 6 + 172) 3).getLsbD 59 = true) ∧
    ((dr true false (1024 * 6 + 172) 3).getLsbD 58 = false) ∧
    (mailboxOf 6 172 = none) := by
  refine ⟨quiet_of _ ?_, ?_⟩ <;> decide +kernel

theorem wit_Ins_3 :
    (Quiet opn) ∧
    (opn.tstClosed = false) ∧
    (∀ (k : ℕ), islandOf 6 172 = some k → opn.islBusy k = false) ∧
    (BitVec.extractLsb' 38 20 (dr true true (1024 * 6 + 172) 3) = BitVec.ofNat 20 (1024 * 6 + 172)) ∧
    (opn.tst.insStat ≠ 1) ∧
    ((dr true true (1024 * 6 + 172) 3).getLsbD 59 = true) ∧
    ((dr true true (1024 * 6 + 172) 3).getLsbD 58 = true) ∧
    (islandOf 6 172 = some 5) ∧
    (opn.dark 5 = false) ∧
    (regFields 6 172 ≠ []) ∧
    (opn.stOpen = true) ∧
    (opn.flt.run = none) ∧
    (opn.tst.phase = LtPhase.none) ∧
    (∀ (i : Fin 17), islSlice 5 = some i → (opn.slice i).ctl.dom.a = Pwr.on) := by
  refine ⟨quiet_of _ ?_, ?_⟩ <;> decide +kernel

/-! ### LiveTest -/

theorem wit_Lt_1 :
    (Quiet noHome) ∧
    (noHome.tstClosed = false) ∧
    (noHome.tst.lt.accepts 1 = true) ∧
    (noHome.flt.run = none) ∧
    (noHome.tst.phase = LtPhase.none) ∧
    (noHome.slFenced 5 = false) ∧
    ((noHome.src (srcSlice 5)).severe = false) ∧
    ((noHome.slice 5).ctl.retained = none) ∧
    ((noHome.slice 5).ctl.resetting = false) ∧
    (noHome.usableSlice 5 = true) ∧
    (noHome.homesOf 5 = []) ∧
    (noHome.glb.ld.st.res = Res.running → noHome.glb.ld.sel.getLsbD 5 = false) := by
  refine ⟨quiet_of _ ?_, ?_⟩ <;> decide +kernel

theorem wit_Lt_2 :
    (Quiet freeD) ∧
    (freeD.tstClosed = false) ∧
    (freeD.tst.lt.accepts 1 = true) ∧
    (freeD.flt.run = none) ∧
    (freeD.tst.phase = LtPhase.none) ∧
    (freeD.slFenced 5 = false) ∧
    ((freeD.src (srcSlice 5)).severe = false) ∧
    ((freeD.slice 5).ctl.retained = none) ∧
    ((freeD.slice 5).ctl.resetting = false) ∧
    (freeD.usableSlice 5 = true) ∧
    (freeD.homesOf 5 = [5]) ∧
    (freeD.degraded 5 = false) ∧
    (freeD.isFree 16 = true) ∧
    ((5 : Fin (17 : ℕ)) ≠ (16 : Fin (17 : ℕ))) ∧
    ((freeD.slice 16).asleep = true) ∧
    (freeD.glb.ld.st.res = Res.nothing) ∧
    (freeD.flt.log.length < 256) := by
  refine ⟨quiet_of _ ?_, ?_⟩ <;> decide +kernel

theorem wit_Lt_3 :
    (Quiet (bist id)) ∧
    ((bist id).tstClosed = false) ∧
    (List.find? (bist id).bistRuns (List.finRange 17) = some 5) := by
  refine ⟨quiet_of _ ?_, ?_⟩ <;> decide +kernel

theorem wit_Lt_3b :
    (Quiet (bist id)) ∧
    ((bist id).tstClosed = false) ∧
    (List.find? (bist id).bistRuns (List.finRange 17) = some 5) := by
  refine ⟨quiet_of _ ?_, ?_⟩ <;> decide +kernel

theorem wit_Lt_3c :
    (Quiet (bist id)) ∧
    ((bist id).tstClosed = false) ∧
    (List.find? (bist id).bistRuns (List.finRange 17) = some 5) := by
  refine ⟨quiet_of _ ?_, ?_⟩ <;> decide +kernel

theorem wit_Lt_4 :
    (Quiet on) ∧
    (on.tstClosed = false) ∧
    (on.tst.lt.res ≠ Res.running) ∧
    (1 ≠ on.tst.lt.rseq) := by
  refine ⟨quiet_of _ ?_, ?_⟩ <;> decide +kernel

theorem wit_Lt_5 :
    (Quiet (withoutMove lts)) ∧
    (memIdle lts) ∧
    (lts.tstClosed = false) ∧
    (lts.glb.admHold = 0) ∧
    (lts.flt.run = some ltm) ∧
    (ltm.kind = MoveKind.ltMove) ∧
    (ltm.phase = MovePhase.prepare) ∧
    (ltm.cmd = false) ∧
    (ltm.src = 5) ∧
    (ltm.dst = 16) ∧
    ((5 : Fin (17 : ℕ)) ≠ (16 : Fin (17 : ℕ))) ∧
    (lts.tst.phase = LtPhase.move) ∧
    (lts.tst.lt.res = Res.running) ∧
    (2 ≠ lts.tst.lt.rseq) ∧
    (lts.tst.lt.held = none) ∧
    (lts.tst.ltAborted = false) ∧
    (lts.glb.route.wm = 0) ∧
    (∀ (j : Fin 17), (lts.slice j).trk = [] ∧ (lts.slice j).recs = [] ∧ (lts.slice j).ingress = [] ∧ (lts.slice j).wakeHold = []) := by
  refine ⟨quiet_of _ ?_, idle _ ?_, ?_⟩ <;> decide +kernel

/-! ### ArrayCommandsAndWrapper -/

theorem wit_Ar_1 :
    (Quiet opn) ∧
    (opn.tstClosed = false) ∧
    (opn.tst.acmd.accepts 1 = true) ∧
    (opn.tst.acmd.held = none) ∧
    ((opn.slice 5).ctl.dom.a ≠ Pwr.off) := by
  refine ⟨quiet_of _ ?_, ?_⟩ <;> decide +kernel

theorem wit_Ar_2 :
    (Quiet (opnd 524295)) ∧
    ((opnd 524295).tstClosed = false) ∧
    ((opnd 524295).tst.acmd.accepts 1 = true) ∧
    ((opnd 524295).tst.acmd.held = none) ∧
    (((opnd 524295).slice 5).ctl.dom.a ≠ Pwr.off) ∧
    ((opnd 524295).remapOk 5 = true) ∧
    ((opnd 524295).opndWord.toNat < arrayWords 3) := by
  refine ⟨quiet_of _ ?_, ?_⟩ <;> decide +kernel

theorem wit_Ar_2b :
    (Quiet (opnd 16252935)) ∧
    ((opnd 16252935).tstClosed = false) ∧
    ((opnd 16252935).tst.acmd.accepts 1 = true) ∧
    ((opnd 16252935).tst.acmd.held = none) ∧
    (((opnd 16252935).slice 5).ctl.dom.a ≠ Pwr.off) ∧
    ((opnd 16252935).remapOk 5 = true) ∧
    ((opnd 16252935).opndWord.toNat < arrayWords 9) := by
  refine ⟨quiet_of _ ?_, ?_⟩ <;> decide +kernel

theorem wit_Ar_3 :
    (Quiet (opnd 16777223)) ∧
    ((opnd 16777223).tstClosed = false) ∧
    ((opnd 16777223).tst.acmd.accepts 1 = true) ∧
    ((opnd 16777223).tst.acmd.held = none) ∧
    (((opnd 16777223).slice 5).ctl.dom.a ≠ Pwr.off) ∧
    ((3 : Fin (10 : ℕ)) ≠ (9 : Fin (10 : ℕ))) ∧
    ((opnd 16777223).opndWord.toNat < arrayWords 3) ∧
    (BitVec.extractLsb' 24 8 (opnd 16777223).tst.aopnd &&& checkMask 3 ≠ 0) := by
  refine ⟨quiet_of _ ?_, ?_⟩ <;> decide +kernel

theorem wit_Ar_4 :
    (Quiet opn) ∧
    (opn.tstClosed = false) ∧
    (opn.tst.acmd.accepts 1 = true) ∧
    (opn.tst.acmd.held = none) ∧
    ((opn.slice 5).ctl.dom.a ≠ Pwr.off) ∧
    ((opn.slice 5).ar.init.getLsbD 9 = true) := by
  refine ⟨quiet_of _ ?_, ?_⟩ <;> decide +kernel

theorem wit_Ar_5 :
    (Quiet opn) ∧
    (opn.tstClosed = false) ∧
    (opn.tst.acmd.accepts 1 = true) ∧
    (opn.tst.acmd.held = none) ∧
    ((opn.slice 5).ctl.dom.a ≠ Pwr.off) := by
  refine ⟨quiet_of _ ?_, ?_⟩ <;> decide +kernel

theorem wit_Ar_6 :
    (Quiet off5) ∧
    (off5.tstClosed = false) ∧
    (off5.tst.acmd.accepts 1 = true) ∧
    (off5.tst.acmd.held = none) ∧
    ((off5.slice 5).ctl.dom.a = Pwr.off) ∧
    (Instr.remaprd 1 5 9 ∈
       [Instr.remaprd 1 5#5 9#4, Instr.remapwr 1 5#5 9#4, Instr.inj 1 5#5 9#4, Instr.trread 1 5#5, Instr.trclr 1 5#5]) := by
  refine ⟨quiet_of _ ?_, ?_⟩ <;> decide +kernel

theorem wit_Ar_6b :
    (Quiet off5) ∧
    (off5.tstClosed = false) ∧
    (off5.tst.acmd.accepts 1 = true) ∧
    (off5.tst.acmd.held = none) ∧
    ((off5.slice 5).ctl.dom.a = Pwr.off) ∧
    (Instr.remapwr 1 5 9 ∈
       [Instr.remaprd 1 5#5 9#4, Instr.remapwr 1 5#5 9#4, Instr.inj 1 5#5 9#4, Instr.trread 1 5#5, Instr.trclr 1 5#5]) := by
  refine ⟨quiet_of _ ?_, ?_⟩ <;> decide +kernel

theorem wit_Ar_6c :
    (Quiet off5) ∧
    (off5.tstClosed = false) ∧
    (off5.tst.acmd.accepts 1 = true) ∧
    (off5.tst.acmd.held = none) ∧
    ((off5.slice 5).ctl.dom.a = Pwr.off) ∧
    (Instr.inj 1 5 9 ∈
       [Instr.remaprd 1 5#5 9#4, Instr.remapwr 1 5#5 9#4, Instr.inj 1 5#5 9#4, Instr.trread 1 5#5, Instr.trclr 1 5#5]) := by
  refine ⟨quiet_of _ ?_, ?_⟩ <;> decide +kernel

theorem wit_Ar_6d :
    (Quiet off5) ∧
    (off5.tstClosed = false) ∧
    (off5.tst.acmd.accepts 1 = true) ∧
    (off5.tst.acmd.held = none) ∧
    ((off5.slice 5).ctl.dom.a = Pwr.off) ∧
    (Instr.trread 1 5 ∈
       [Instr.remaprd 1 5#5 9#4, Instr.remapwr 1 5#5 9#4, Instr.inj 1 5#5 9#4, Instr.trread 1 5#5, Instr.trclr 1 5#5]) := by
  refine ⟨quiet_of _ ?_, ?_⟩ <;> decide +kernel

theorem wit_Ar_6e :
    (Quiet off5) ∧
    (off5.tstClosed = false) ∧
    (off5.tst.acmd.accepts 1 = true) ∧
    (off5.tst.acmd.held = none) ∧
    ((off5.slice 5).ctl.dom.a = Pwr.off) ∧
    (Instr.trclr 1 5 ∈
       [Instr.remaprd 1 5#5 9#4, Instr.remapwr 1 5#5 9#4, Instr.inj 1 5#5 9#4, Instr.trread 1 5#5, Instr.trclr 1 5#5]) := by
  refine ⟨quiet_of _ ?_, ?_⟩ <;> decide +kernel

theorem wit_Ar_7 :
    (Quiet wAr_7) ∧
    (wAr_7.tstClosed = false) := by
  refine ⟨quiet_of _ ?_, ?_⟩ <;> decide +kernel

theorem wit_Ar_8 :
    (Quiet on) ∧
    (on.tstClosed = false) := by
  refine ⟨quiet_of _ ?_, ?_⟩ <;> decide +kernel

theorem wit_Ar_9 :
    (Quiet State.reset) ∧
    (State.reset.tstClosed = false) ∧
    (State.reset.glb.coldLow = true) := by
  refine ⟨quiet_of _ ?_, ?_⟩ <;> decide +kernel

theorem wit_Ar_9a :
    (Quiet State.reset) ∧
    (State.reset.tstClosed = false) ∧
    (State.reset.glb.coldLow = true) := by
  refine ⟨quiet_of _ ?_, ?_⟩ <;> decide +kernel

theorem wit_Ar_9b :
    (Quiet State.reset) ∧
    (State.reset.tstClosed = false) ∧
    (State.reset.glb.coldLow = true) := by
  refine ⟨quiet_of _ ?_, ?_⟩ <;> decide +kernel

theorem wit_Ar_10 :
    (Quiet on) ∧
    (on.tstClosed = false) ∧
    (on.glb.coldLow = false) ∧
    (Instr.wsExtest ∈ [Instr.wsExtest, Instr.wsIntest, Instr.wsClamp]) := by
  refine ⟨quiet_of _ ?_, ?_⟩ <;> decide +kernel

theorem wit_Ar_10a :
    (Quiet on) ∧
    (on.tstClosed = false) ∧
    (on.glb.coldLow = false) ∧
    (Instr.wsIntest ∈ [Instr.wsExtest, Instr.wsIntest, Instr.wsClamp]) := by
  refine ⟨quiet_of _ ?_, ?_⟩ <;> decide +kernel

theorem wit_Ar_10b :
    (Quiet on) ∧
    (on.tstClosed = false) ∧
    (on.glb.coldLow = false) ∧
    (Instr.wsClamp ∈ [Instr.wsExtest, Instr.wsIntest, Instr.wsClamp]) := by
  refine ⟨quiet_of _ ?_, ?_⟩ <;> decide +kernel

/-! ### Small tests -/

/-- What the checks refuse, one ill-formed command for each reason, and a well-formed one beside each. -/
theorem test_wf_opcode : (Instr.forwardedDat 3 5 dt0).illFormed = some .opcode ∧ (Instr.forwardedDat 3 4 dt0).wf = true := by decide
theorem test_wf_source : (Instr.corrEvent 58).illFormed = some .source ∧ (Instr.corrEvent 126).wf = true := by decide
theorem test_wf_source_uncor : (Instr.uncorEvent 127).illFormed = some .source ∧ (Instr.uncorEvent 57).wf = true := by decide
theorem test_wf_link : (Instr.nocLinkReplay (.hop 0 0 7 0) false).illFormed = some .link ∧ (Instr.laneTestDone (.hop 0 1 7 0) 0).wf = true := by
  decide
theorem test_wf_agent : (Instr.snoopDeadlineExpiry 23 63).illFormed = some .agent ∧ (Instr.compackAllowanceExpiry 23 62).wf = true := by
  decide
theorem test_wf_word : (Instr.bistDone [(3, 1040)]).illFormed = some .arrayWord ∧ (Instr.bistDone [(3, 1039)]).wf = true := by decide
theorem test_wf_power : (Instr.powerStatChange 0 3).illFormed = some .powerState ∧ (Instr.powerStatChange 49 2).wf = true := by decide

/-- The table gives no row any bits. -/
theorem test_no_word : decodeTableWord 32 0x12345678 = none := rfl
theorem test_place_none : State.withFetchWord on 32 1 = on := rfl

/-- R21, by hand: with masks 1, 2, 4 and 8 the home is the line number modulo 16; with mask 3 bit 0 is the parity of two bits. -/
theorem test_hash_home : hashHome 1 2 4 8 0x1D = 13 ∧ hashHome 3 0 0 0 1 = 1 ∧ hashHome 3 0 0 0 3 = 0 := by decide
/-- R21, R85, R234: the worked address of file 01. -/
theorem test_worked_address : hashHome 0x00404011 0x00808022 0x01010044 0x02020088 0x48D159E2 = 10 ∧ sfSet 0x48D159E2 = 15015 ∧
    sfTag 0x48D159E2 = 0x12345 := by decide +kernel
/-- R38: the check value of this CRC (polynomial 0x1021, initial value 0xFFFF) over the digits 1 to 9. -/
theorem test_crc : crc16 (0x313233343536373839 : BitVec 72) = 0x29B1 := by decide +kernel
/-- R41, R47, R49: the worked flits of file 02. -/
theorem test_worked_req : reqWord 0 ⟨6, 5, 0x2A, 0x01C, 0x48D159E2, 0⟩ =
    (0x00C29500E000091A : BitVec 64) ++ (0x2B3C40000000 : BitVec 48) := by decide +kernel
theorem test_worked_rsp : rspWord 6 ⟨6, 63, 5, 0x2A, 0x01C, 0, 0, 0x48D159E2, 0⟩ =
    (0x30DF8A5403800000 : BitVec 64) ++ (0x91A2B3C40000 : BitVec 48) := by decide +kernel
theorem test_worked_dat : (datWord 0 false ⟨6, (5 : BitVec 6) ++ (0x1C : BitVec 12), 0x2A, true, 0, 3, 0⟩).extractLsb' 0 48 =
    0x00614070AA18 := by decide +kernel
/-- R21: PA[38] is outside every mask. -/
theorem test_hash_top : hashHome 0xFFFFFFFF 0 0 0 (1 <<< 32) = 0 := by decide +kernel
/-- R85, by hand: PA[6] and PA[20] set give set 0 and TAG 1, and the two give the line back. -/
theorem test_sf_set : sfSet 0x4001 = 0 ∧ sfTag 0x4001 = 1 ∧ sfLine 0 1 = 0x4001 := by decide
/-- R234, by hand: PA[6] and PA[17] set give MSC set 0 and tag 1. -/
theorem test_msc_set : mscSet 0x801 = 0 ∧ mscTag 0x801 = 1 := by decide
/-- R262, by hand: x4, one rank bit, masks 1 << k. Row 1 turns the subchannel bit and nothing else. -/
theorem test_coord : coordOf false 1 (fun k => 1 <<< k) (1 <<< 14) = ⟨0, 1, 0, 0, 0, 1⟩ := by decide
theorem test_coord_x8 : coordOf true 0 (fun _ => 0) 0xFFF = ⟨63 * 16, 1, 3, 7, 0, 0⟩ := by decide
/-- R260: bits 0 and 2 of 0b1101 go. -/
theorem test_drop : dropBit 0 (dropBit 2 13) = 2 := by decide
/-- R278 to R281: a burst without a flipped bit reads as it was written; the bits of one device are put right, those of two are not. -/
theorem test_burst_clean : readBurst false ⟨7, true⟩ 0 = .poison 7 := by decide +kernel
theorem test_burst_device : (∃ d, readBurst false ⟨7, false⟩ 1 = .corrected 7 d) ∧ readBurst false ⟨7, false⟩ 0x11 = .lost :=
  ⟨⟨0, by decide +kernel⟩, by decide +kernel⟩
theorem test_burst_secded : (∃ d, readBurst true ⟨7, false⟩ 1 = .corrected 7 d) ∧ readBurst true ⟨7, false⟩ 3 = .lost :=
  ⟨⟨0, by decide +kernel⟩, by decide +kernel⟩
/-- R291, by hand: the sideband of virtual channel 2 and output 4, and of virtual channel 0 and output 1, with their parity bits. -/
theorem test_sideband : sideband 2 4 = 0xA0 ∧ sideband 0 1 = 0x09 := by decide
/-- The ports of file 00: two agents up to 31, four from 32 on, three at the last port, none for 63. -/
theorem test_ports : portOf 31 = some 15 ∧ portOf 32 = some 16 ∧ portOf 48 = some 20 ∧ portOf 62 = some 23 ∧ portOf 63 = none := by decide

/-- An empty queue passes one tick (log entry 2). -/
theorem test_tick : step on = .next { on with now := 1000001 } := rfl
/-- A cold reset answers the reset state with the queue kept. -/
theorem test_cold : step { on with pending := [.coldResetAssert, .logPop] } = .next { State.reset with pending := [.logPop] } := rfl
/-- R39: an agent belongs to one port. -/
theorem test_carries : carries 3 6 = true ∧ carries 3 7 = true ∧ carries 3 8 = false ∧ carries 23 63 = false := by decide

end Sys2Proof.Tests
end

section
/-! What an event leaves alone (R374, R413): a counter changes the registers, and an entry of the fault log the log, or the counter of
the entries that were lost. With them the checks of a request and its completion at the network interface, one lemma each. -/

namespace Sys2Proof.Machine

/-- A counter's event changes the registers alone. -/
theorem bump_frame (s : State) (n o hi lo : Nat) : ∃ r, s.bump n o hi lo = { s with regs := r } := by
  unfold State.bump; dsimp only; split <;> exact ⟨_, rfl⟩

@[simp] theorem bump_flt (s : State) (n o hi lo : Nat) : (s.bump n o hi lo).flt = s.flt := by
  obtain ⟨r, h⟩ := bump_frame s n o hi lo
  rw [h]

@[simp] theorem bump_now (s : State) (n o hi lo : Nat) : (s.bump n o hi lo).now = s.now := by
  obtain ⟨r, h⟩ := bump_frame s n o hi lo
  rw [h]

/-- A counter's event leaves every register but its own alone. -/
theorem bump_reg_ne (s : State) (n o hi lo m u : Nat) (h : 256 * m + u ≠ 256 * n + o / 4) :
    (s.bump n o hi lo).reg m u = s.reg m u := by
  unfold State.bump; dsimp only; split
  · rfl
  · exact setReg_reg_ne _ _ _ _ _ _ h

/-- An entry for the fault log changes the log and the registers alone. -/
theorem logEnt_frame (s : State) (e : LogEnt) : ∃ r l, s.logEnt e = { s with regs := r, flt := { s.flt with log := l } } := by
  unfold State.logEnt; split
  · exact ⟨_, _, rfl⟩
  · obtain ⟨r, h⟩ := bump_frame s 59 0x160 23 16
    exact ⟨r, s.flt.log, h⟩

/-- Of the registers an entry for the fault log changes the one that counts the entries lost, and no other. -/
theorem logEnt_reg_ne (s : State) (e : LogEnt) (m u : Nat) (h : 256 * m + u ≠ 256 * 59 + 0x58) :
    (s.logEnt e).reg m u = s.reg m u := by
  unfold State.logEnt; split
  · rfl
  · exact bump_reg_ne _ _ _ _ _ _ _ h

/-- No agent answers for the events of a port. -/
theorem srcAg_srcPort (p : Fin 24) : srcAg (srcPort p) = 63 := if_neg (by unfold srcPort; omega)

/-- A change of a port that changes nothing. -/
theorem modPort_same (s : State) (p : Fin 24) (f : Port → Port) (h : f (s.port p) = s.port p) : s.modPort p f = s := by
  show { s with ports := s.ports.set p.val (f (s.port p)) } = s
  rw [h, show s.port p = s.ports[p.val] from rfl, Vector.set_getElem_self]

/-! ### A request from an untrusted port (R407) -/

/-- The refusal of an untrusted request changes the fault log and the registers alone. -/
theorem untrusted_frame (s : State) (path : CsrPath) (q : PartId) (pa : LineAddr) :
    ∃ r l, s.untrusted path q pa = { s with regs := r, flt := { s.flt with log := l } } := by
  cases path with
  | maint => exact ⟨s.regs, s.flt.log, rfl⟩
  | port p =>
    obtain ⟨r, hr⟩ := bump_frame s 0 0x014 23 16
    obtain ⟨r', l, hl⟩ := logEnt_frame (s.bump 0 0x014 23 16) ⟨0x0B, BitVec.ofNat 7 (srcPort p), srcAg (srcPort p), q, pa, _⟩
    exact ⟨r', l, hl.trans (by rw [hr])⟩

/-- Of the registers the refusal changes GLB_ACCERR and the count of lost log entries, and no other. -/
theorem untrusted_reg_ne (s : State) (path : CsrPath) (q : PartId) (pa : LineAddr) (m u : Nat)
    (h0 : 256 * m + u ≠ 5) (h59 : 256 * m + u ≠ 256 * 59 + 0x58) : (s.untrusted path q pa).reg m u = s.reg m u := by
  cases path with
  | maint => rfl
  | port p => exact (logEnt_reg_ne _ _ _ _ h59).trans (bump_reg_ne _ _ _ _ _ _ _ h0)

/-- While the fault log has room, the refusal counts the request and logs it as a contract event of the port. -/
theorem untrusted_of_room (s : State) (p : Fin 24) (q : PartId) (pa : LineAddr) (h : s.flt.log.length < 256) :
    s.untrusted (.port p) q pa = (s.bump 0 0x014 23 16).modFlt fun x =>
      { x with log := x.log ++ [⟨0x0B, BitVec.ofNat 7 (srcPort p), 63, q, pa, s.now⟩] } := by
  show (s.bump 0 0x014 23 16).logEnt ⟨0x0B, BitVec.ofNat 7 (srcPort p), srcAg (srcPort p), q, pa, _⟩ = _
  rw [srcAg_srcPort, bump_now]
  exact if_pos (by rwa [bump_flt])

/-- A counter's event looks at no port. -/
theorem bump_modPort (s : State) (p : Fin 24) (f : Port → Port) (n o hi lo : Nat) :
    (s.modPort p f).bump n o hi lo = (s.bump n o hi lo).modPort p f := by
  unfold State.bump
  dsimp only
  rw [apply_ite fun t : State => t.modPort p f]
  rfl

/-- An entry for the fault log looks at no port. -/
theorem logEnt_modPort (s : State) (p : Fin 24) (f : Port → Port) (e : LogEnt) :
    (s.modPort p f).logEnt e = (s.logEnt e).modPort p f := by
  unfold State.logEnt
  rw [bump_modPort]
  rw [apply_ite fun t : State => t.modPort p f]
  rfl

/-- The refusal looks at no port. -/
theorem untrusted_modPort (s : State) (path : CsrPath) (q : PartId) (pa : LineAddr) (p : Fin 24) (f : Port → Port) :
    (s.modPort p f).untrusted path q pa = (s.untrusted path q pa).modPort p f := by
  cases path with
  | maint => rfl
  | port r =>
    show ((s.modPort p f).bump 0 0x014 23 16).logEnt _ = _
    rw [bump_modPort, logEnt_modPort]
    rfl

@[simp] theorem untrusted_pending (s : State) (path : CsrPath) (q : PartId) (pa : LineAddr) :
    (s.untrusted path q pa).pending = s.pending := by
  obtain ⟨r, l, h⟩ := untrusted_frame s path q pa
  rw [h]

@[simp] theorem untrusted_now (s : State) (path : CsrPath) (q : PartId) (pa : LineAddr) : (s.untrusted path q pa).now = s.now := by
  obtain ⟨r, l, h⟩ := untrusted_frame s path q pa
  rw [h]

@[simp] theorem untrusted_port (s : State) (path : CsrPath) (q : PartId) (pa : LineAddr) (p : Fin 24) :
    (s.untrusted path q pa).port p = s.port p := by
  obtain ⟨r, l, h⟩ := untrusted_frame s path q pa
  rw [h]; rfl

@[simp] theorem untrusted_part (s : State) (path : CsrPath) (q k : PartId) (pa : LineAddr) :
    (s.untrusted path q pa).part k = s.part k := by
  obtain ⟨r, l, h⟩ := untrusted_frame s path q pa
  rw [h]; rfl

@[simp] theorem untrusted_agFenced (s : State) (path : CsrPath) (q : PartId) (pa : LineAddr) (a : Agent) :
    (s.untrusted path q pa).agFenced a = s.agFenced a := by
  obtain ⟨r, l, h⟩ := untrusted_frame s path q pa
  rw [h]; rfl

@[simp] theorem untrusted_csr (s : State) (path : CsrPath) (q : PartId) (pa : LineAddr) : (s.untrusted path q pa).csr = s.csr := by
  obtain ⟨r, l, h⟩ := untrusted_frame s path q pa
  rw [h]

@[simp] theorem untrusted_slices (s : State) (path : CsrPath) (q : PartId) (pa : LineAddr) : (s.untrusted path q pa).slices = s.slices := by
  obtain ⟨r, l, h⟩ := untrusted_frame s path q pa
  rw [h]

@[simp] theorem untrusted_chans (s : State) (path : CsrPath) (q : PartId) (pa : LineAddr) : (s.untrusted path q pa).chans = s.chans := by
  obtain ⟨r, l, h⟩ := untrusted_frame s path q pa
  rw [h]

@[simp] theorem untrusted_dram (s : State) (path : CsrPath) (q : PartId) (pa : LineAddr) : (s.untrusted path q pa).dram = s.dram := by
  obtain ⟨r, l, h⟩ := untrusted_frame s path q pa
  rw [h]

@[simp] theorem untrusted_par (s : State) (path : CsrPath) (q : PartId) (pa : LineAddr) : (s.untrusted path q pa).par = s.par := by
  obtain ⟨r, l, h⟩ := untrusted_frame s path q pa
  rw [h]

@[simp] theorem untrusted_glb (s : State) (path : CsrPath) (q : PartId) (pa : LineAddr) : (s.untrusted path q pa).glb = s.glb := by
  obtain ⟨r, l, h⟩ := untrusted_frame s path q pa
  rw [h]

/-- The refusal leaves the credit limits of a port alone. -/
@[simp] theorem untrusted_rLimit (s : State) (path : CsrPath) (q k : PartId) (pa : LineAddr) (p : Fin 24) :
    (s.untrusted path q pa).rLimit p k = s.rLimit p k := by
  unfold State.rLimit State.fld
  rw [untrusted_reg_ne] <;> unfold prtPage <;> omega

@[simp] theorem untrusted_dLimit (s : State) (path : CsrPath) (q k : PartId) (pa : LineAddr) (p : Fin 24) :
    (s.untrusted path q pa).dLimit p k = s.dLimit p k := by
  unfold State.dLimit State.fld
  rw [untrusted_reg_ne] <;> unfold prtPage <;> omega

/-- A register access from an untrusted port is refused, whatever it is. -/
theorem csrWriteTo_untrusted (s : State) (path : CsrPath) (off : Nat) (v : BitVec 32) (h : s.trusted path = false) :
    s.csrWriteTo path off v = (s.untrusted path).answerCsr 0 true := if_neg (by simp [h])

theorem csrRead_untrusted (s : State) (path : CsrPath) (off : Nat) (h : s.trusted path = false) :
    s.csrRead path off = (s.untrusted path).answerCsr 0 true := if_neg (by simp [h])

theorem aliasTo_untrusted (s : State) (path : CsrPath) (n w b : Nat) (wr : Option Bool) (h : s.trusted path = false) :
    s.aliasTo path n w b wr = (s.untrusted path).answerCsr 0 true := by
  cases wr with
  | none => exact csrRead_untrusted s path _ h
  | some v => exact csrWriteTo_untrusted s path _ _ h

/-! ### A completion at the network interface -/

/-- Flits that are offered for the first time change the allowances of their port alone (R177). -/
theorem foldl_flitOut_frame (dl : Tk) (l : List Flit) (x : Port) :
    ∃ acks, l.foldl (fun x g => x.flitOut dl g) x = { x with acks := acks } := by
  induction l generalizing x with
  | nil => exact ⟨x.acks, rfl⟩
  | cons g l ih =>
    obtain ⟨k, hk⟩ : ∃ k, x.flitOut dl g = { x with acks := k } := by cases g <;> exact ⟨_, rfl⟩
    obtain ⟨acks, h⟩ := ih (x.flitOut dl g)
    exact ⟨acks, by rw [List.foldl_cons, h, hk]⟩

/-- A port that is up sends a flit on its channel. -/
theorem offer_up (s : State) (p : Fin 24) (f : Flit) (h : (s.port p).up = true) :
    ∃ acks, s.offer p f = s.modPort p fun x => { x with acks := acks, link := x.link.send f } := by
  obtain ⟨acks, ha⟩ := foldl_flitOut_frame (s.after 5)
    ((((s.port p).link.send f).txOf f).sentOf (((s.port p).link.txOf f).waiting ++ [f])) { s.port p with link := (s.port p).link.send f }
  refine ⟨acks, (if_pos h).trans ?_⟩
  rw [modPort_const]
  dsimp only
  rw [ha]
  rfl

/-- An agent that is not fenced gets an RSP flit of its partition's generation on its port's channel (R47). -/
theorem sendRsp_up (s : State) (p : Fin 24) (op : RspOp) (a : ReqArgs) (st : Status) (gr : Grant) (info : BitVec 16)
    (ho : portOf a.src = some p) (hu : (s.port p).up = true) (hf : s.agFenced a.src = false) (hg : a.gen = (s.part a.part).gen) :
    ∃ acks, s.sendRsp op a st gr info false = s.modPort p fun x => { x with
      acks := acks, link := x.link.send (.rsp op ⟨63, a.src, a.part, a.gen, a.atag, st.code, gr.code, a.pa, info⟩) } := by
  have he : s.egressCheck a.src a.part a.gen = (s, true) := by simp [State.egressCheck, hf, hg]
  unfold State.sendRsp State.sendCompFlit
  rw [ho]
  dsimp only
  rw [he]
  dsimp only
  obtain ⟨acks, h⟩ := offer_up (s.modPort p fun x => { x with
      acks := x.acks.filter fun k => !(k.needComp && k.isFor a.src a.part a.atag a.gen) }) p
    (.rsp op ⟨63, a.src, a.part, a.gen, a.atag, st.code, gr.code, a.pa, info⟩) (by rw [modPort_port_self]; exact hu)
  exact ⟨acks, h.trans (modPort_modPort _ _ _ _)⟩

/-- Port `x` after a completion flit `f` has left, and the REQ credit of partition q, and its data credit where `dat`, have come back. -/
def Port.completed (x : Port) (acks : List AckTimer) (f : Flit) (q : PartId) (dat : Bool) : Port :=
  { x with
    acks := acks
    link := x.link.send f
    cred := { x.cred with
      reqDue := x.cred.reqDue ++ [(q, 1)]
      datDue := x.cred.datDue ++ if dat then [(q, 1)] else [] } }

/-- A REQ credit comes back to a port whose issued count is within its limit: a pulse falls due (R58). -/
theorem retReq_modPort (s : State) (p : Fin 24) (q : PartId) (f : Port → Port) (h : ((f (s.port p)).rIss q).toNat ≤ s.rLimit p q) :
    (s.modPort p f).retReq p q = s.modPort p fun x => (f x).dueR q 1 := by
  refine (if_pos ?_).trans (modPort_modPort _ _ _ _)
  rw [modPort_port_self]
  exact h

/-- A data credit comes back to a port whose issued count is within its limit. -/
theorem retDat_modPort (s : State) (p : Fin 24) (q : PartId) (f : Port → Port) (h : ((f (s.port p)).dIss q).toNat ≤ s.dLimit p q) :
    (s.modPort p f).retDat p q = s.modPort p fun x => (f x).dueD q 1 := by
  refine (if_pos ?_).trans (modPort_modPort _ _ _ _)
  rw [modPort_port_self]
  exact h

/-- A request that completes at the network interface gets its flit, and its credits go back, where no limit is below what was issued
(R54, R58). -/
theorem niComplete_up (s : State) (p : Fin 24) (h : Held) (op : RspOp) (st : Status) (info : BitVec 16) (hst : st ≠ .fenced)
    (ho : portOf h.a.src = some p) (hu : (s.port p).up = true) (hf : s.agFenced h.a.src = false)
    (hg : h.a.gen = (s.part h.a.part).gen) (hr : ((s.port p).rIss h.a.part).toNat ≤ s.rLimit p h.a.part)
    (hd : ((s.port p).dIss h.a.part).toNat ≤ s.dLimit p h.a.part) :
    ∃ acks, s.niComplete p h op st info = s.modPort p fun x => x.completed acks
      (.rsp op ⟨63, h.a.src, h.a.part, h.a.gen, h.a.atag, st.code, Grant.i.code, h.a.pa, info⟩) h.a.part h.cd.isSome := by
  have hl : s.logFenced h st = s := if_neg fun hc => hst hc.1
  obtain ⟨acks, hs⟩ := sendRsp_up s p op h.a st .i info ho hu hf hg
  refine ⟨acks, ?_⟩
  unfold State.niComplete
  rw [hl, hs, retReq_modPort _ _ _ _ hr]
  cases h.cd with
  | none => simp [Port.completed, Port.dueR]
  | some l => exact retDat_modPort _ _ _ _ hd

/-! ### The checks of a request (R35) -/

/-- The record of a request at its arrival, with the companion that it takes. -/
def State.arrival (s : State) (op : ReqOp) (a : ReqArgs) (o : Option Orphan) : Held :=
  { op := op, a := a, cd := o.map Orphan.l, at' := s.edge, why := .companion, counted := false }

/-- A well-formed request of an agent that passes checks 1 and 2 goes on to its companion. -/
theorem reqArrive_passes (s : State) (p : Fin 24) (op : ReqOp) (a : ReqArgs) (h : Safety.FlitPasses s p a.src)
    (hm : s.malformed op a = none) : s.reqArrive p op a = (s.linkTake p .req).fromCheck4 p (s.arrival op a none) := by
  have hs : (s.linkTake p .req).sourceCheck p a.src = (s.linkTake p .req, true) := by
    have h1 : (s.linkTake p .req).portFenced p = false := h.port
    have h2 : (s.linkTake p .req).agFenced a.src = false := h.agent
    simp [State.sourceCheck, h1, h2, h.own]
  have hm' : (s.linkTake p .req).malformed op a = none := hm
  unfold State.reqArrive State.creditCheck
  rw [h.up, hs]
  dsimp only [Bool.not_true]
  rw [hm']
  rfl

/-- Port `x` without the companion `o`. -/
def Port.without (x : Port) : Option Orphan → Port
  | none => x
  | some o => { x with orphans := x.orphans.erase o }

/-- Port `x` once it has taken a REQ flit from its link, and with it the companion `o`. -/
def Port.tookReq (x : Port) (o : Option Orphan) : Port := ({ x with link := x.link.rx .req LinkRx.take } : Port).without o

@[simp] theorem tookReq_cred (x : Port) (o : Option Orphan) : (x.tookReq o).cred = x.cred := by cases o <;> rfl
@[simp] theorem tookReq_up (x : Port) (o : Option Orphan) : (x.tookReq o).up = x.up := by cases o <;> rfl
@[simp] theorem tookReq_held (x : Port) (o : Option Orphan) : (x.tookReq o).held = x.held := by cases o <;> rfl
@[simp] theorem tookReq_resetting (x : Port) (o : Option Orphan) : (x.tookReq o).resetting = x.resetting := by cases o <;> rfl
@[simp] theorem tookReq_rspo (x : Port) (o : Option Orphan) : (x.tookReq o).link.rspo = x.link.rspo := by cases o <;> rfl

/-- A request takes the companion that waits for it, or needs none (R43). -/
theorem fromCheck4_companion (s : State) (p : Fin 24) (h : Held) (o : Option Orphan) (hc : h.cd = none)
    (ho : if needsCompanion h.op h.a.arg then (s.port p).companionOf h.a.src h.a.atag = o ∧ o ≠ none else o = none) :
    s.fromCheck4 p h = (s.modPort p (·.without o)).fromCheck5 p none { h with cd := o.map Orphan.l } := by
  unfold State.fromCheck4
  split at ho
  · next hn =>
    obtain ⟨ho, hne⟩ := ho
    rw [if_pos hn, ho]
    obtain ⟨o, rfl⟩ := Option.ne_none_iff_exists'.1 hne
    rfl
  · next hn =>
    subst ho
    rw [if_neg hn, modPort_same _ _ _ rfl, Option.map_none, ← hc]

/-- A request of a running partition to the aperture goes to the CSR block (R20). -/
theorem fromCheck5_aperture (s : State) (p : Fin 24) (h : Held) (hg : h.a.gen = (s.part h.a.part).gen)
    (hr : (s.part h.a.part).st = .run) (hd : reqIsDrain h.op = false) (ha : s.inAperture h.a.pa = true) :
    s.fromCheck5 p none h = s.csrServe p h := by
  have hg' : (h.a.gen != (s.part h.a.part).gen) = false := by simp [hg]
  have hr' : ((s.part h.a.part).st != .run) = false := by simp [hr]
  have hp : s.modPort p (·.putHeld none none) = s := modPort_same _ _ _ rfl
  unfold State.fromCheck5
  rw [hg', hr', Held.isDrain, hd, ha, hp]
  rfl

/-- Where nothing holds messages up, a request from an untrusted port comes back FAILED (R407). -/
theorem csrServe_untrusted (s : State) (p : Fin 24) (h : Held) (hn : s.netClear = true) (ht : s.trusted (.port p) = false) :
    s.csrServe p h = (s.untrusted (.port p) h.a.part h.a.pa).niComplete p h .comp .failed 0 := by
  have hc : (s.untrusted (.port p) h.a.part h.a.pa).netClear = true := by
    obtain ⟨r, l, he⟩ := untrusted_frame s (.port p) h.a.part h.a.pa
    rw [he]
    exact hn
  calc s.csrServe p h = s.csrTake p h := if_pos (by simp [hn])
    _ = (s.untrusted (.port p) h.a.part h.a.pa).csrReply p h .failed none := if_pos (by simp [ht])
    _ = _ := if_pos (by simp [hc])

end Sys2Proof.Machine
end

section
/-! O60 (R407): the refusal of an untrusted port leaves a quiet state quiet, so that nothing more follows in the step; a request to the
aperture comes to it through the checks of R35, and its completion leaves at its own port. -/

namespace Sys2Proof.Safety

open Sys2Proof.Machine

variable {s : State}

/-- An agent's port is the one that carries it. -/
theorem portOf_of_carries {p : Fin 24} {a : Agent} (h : carries p a = true) : portOf a = some p := beq_iff_eq.1 h

/-- The refusal of an untrusted request leaves a quiet state quiet. -/
theorem Quiet.untrusted (h : Quiet s) (path : CsrPath) (q : PartId) (pa : LineAddr) : Quiet (s.untrusted path q pa) := by
  cases path with
  | maint => exact h
  | port p => exact (h.bump _ _ _ _ (by unfold watched; decide)).logEnt _

/-- A direct access that an untrusted port is refused ends with the refusal (R407). -/
theorem Quiet.commandEnd_untrusted (h : Quiet s) (p : Fin 24) :
    Machine.commandEnd s ((s.untrusted (.port p)).answerCsr 0 true) =
      .next (((s.bump 0 0x014 23 16).log 0x0B (srcPort p)).modCsr fun c => { c with resp := some (0, true) }).setPins :=
  ((h.untrusted (.port p) 0 0).modCsr _ (h.untrusted (.port p) 0 0).reads).commandEnd (untrusted_pending s _ _ _) (untrusted_now s _ _ _)

/-- A request is a command whose effect is its arrival at the port. -/
theorem exec_reqCommand (s : State) (op : ReqOp) (p : Fin 24) (f : ReqArgs) :
    exec (reqCommand op p f) s = Machine.commandEnd s (s.reqArrive p op f) := by
  cases op <;> rfl

variable {p : Fin 24} {op : ReqOp} {f : ReqArgs} {o : Option Orphan}

/-- A request to the aperture from an untrusted port passes the checks before, and is refused at the CSR block (R407, R159). -/
theorem reqArrive_untrusted (hq : Quiet s) (ht : s.trusted (.port p) = false) (hd : reqIsDrain op = false) (hp : FlitPasses s p f.src)
    (hm : s.malformed op f = none)
    (ho : if needsCompanion op f.arg then (s.port p).companionOf f.src f.atag = o ∧ o ≠ none else o = none)
    (hg : f.gen = (s.part f.part).gen) (hr : (s.part f.part).st = .run) (ha : s.inAperture f.pa = true) :
    s.reqArrive p op f =
      ((s.untrusted (.port p) f.part f.pa).modPort p (·.tookReq o)).niComplete p (s.arrival op f o) .comp .failed 0 := by
  have hn : (s.modPort p (·.tookReq o)).netClear = true := hq.netClear
  calc s.reqArrive p op f
    _ = (s.linkTake p .req).fromCheck4 p (s.arrival op f none) := reqArrive_passes s p op f hp hm
    _ = ((s.linkTake p .req).modPort p (·.without o)).fromCheck5 p none (s.arrival op f o) :=
      fromCheck4_companion _ p _ o rfl (by rw [State.linkTake, modPort_port_self]; exact ho)
    _ = (s.modPort p (·.tookReq o)).fromCheck5 p none (s.arrival op f o) := by rw [State.linkTake, modPort_modPort]; rfl
    _ = (s.modPort p (·.tookReq o)).csrServe p (s.arrival op f o) := fromCheck5_aperture _ p _ hg hr hd ha
    _ = _ := (csrServe_untrusted _ p _ hn ht).trans (by rw [untrusted_modPort]; rfl)

/-- The refused request gets its `Comp` FAILED, and its credits go back. -/
theorem niComplete_untrusted (hp : FlitPasses s p f.src) (hg : f.gen = (s.part f.part).gen)
    (hri : ((s.port p).rIss f.part).toNat ≤ s.rLimit p f.part) (hdi : ((s.port p).dIss f.part).toNat ≤ s.dLimit p f.part) :
    ∃ acks, ((s.untrusted (.port p) f.part f.pa).modPort p (·.tookReq o)).niComplete p (s.arrival op f o) .comp .failed 0 =
      (s.untrusted (.port p) f.part f.pa).modPort p fun x => (x.tookReq o).completed acks
        (.rsp .comp ⟨63, f.src, f.part, f.gen, f.atag, Status.failed.code, 0, f.pa, 0⟩) f.part o.isSome := by
  have hx : ((s.untrusted (.port p) f.part f.pa).modPort p (·.tookReq o)).port p = (s.port p).tookReq o := by
    rw [modPort_port_self, untrusted_port]
  obtain ⟨acks, h⟩ := niComplete_up ((s.untrusted (.port p) f.part f.pa).modPort p (·.tookReq o)) p (s.arrival op f o) .comp .failed 0
    (by decide) (portOf_of_carries hp.own) (by rw [hx, tookReq_up]; exact hp.up)
    ((untrusted_agFenced _ _ _ _ _).trans hp.agent) (hg.trans (congrArg Part.gen (untrusted_part _ _ _ _ _)).symm)
    (by rw [hx, Port.rIss, tookReq_cred]; exact hri.trans_eq (untrusted_rLimit s _ _ _ _ p).symm)
    (by rw [hx, Port.dIss, tookReq_cred]; exact hdi.trans_eq (untrusted_dLimit s _ _ _ _ p).symm)
  refine ⟨acks, h.trans ?_⟩
  rw [modPort_modPort, State.arrival, Option.isSome_map]
  rfl

/-- Settles O60: both forms come to the same refusal, which leaves the state quiet. -/
theorem untrustedPortIsRefused : Obligations.UntrustedPortIsRefused := by
  intro s p hq hf
  have ht : s.trusted (.port p) = false := hf
  refine ⟨fun page w v b wr c hc => ?_, fun op f o hd hp hm ho hg hr ha hri hdi hroom => ?_⟩
  · have he := hq.commandEnd_untrusted p
    simp only [List.mem_cons, List.not_mem_nil, or_false] at hc
    obtain rfl | rfl | rfl := hc
    · exact (congrArg (commandEnd s) (csrWriteTo_untrusted s _ _ v ht)).trans he
    · exact (congrArg (commandEnd s) (csrRead_untrusted s _ _ ht)).trans he
    · exact (congrArg (commandEnd s) (aliasTo_untrusted s _ _ _ _ wr ht)).trans he
  · obtain ⟨acks, hc⟩ := niComplete_untrusted (op := op) (o := o) hp hg hri hdi
    have hu := (reqArrive_untrusted hq ht hd hp hm ho hg hr ha).trans hc
    have hquiet := (hq.untrusted (.port p) f.part f.pa).modPort p (fun x => (x.tookReq o).completed acks
      (.rsp .comp ⟨63, f.src, f.part, f.gen, f.atag, Status.failed.code, 0, f.pa, 0⟩) f.part o.isSome)
      (tookReq_resetting _ o) fun k hk => .inl (tookReq_held _ o ▸ hk)
    have hend := hquiet.ends hu (untrusted_pending s _ _ _) (untrusted_now s _ _ _)
    have hlog := untrusted_of_room s p f.part f.pa hroom
    refine ⟨_, (exec_reqCommand s op p f).trans hend, ?_, ?_, ?_, ?_, ?_, ?_⟩
    · rw [setPins_port, modPort_port_self, untrusted_port]
      exact congrArg (LinkTx.push · _) (tookReq_rspo _ o)
    · rw [setPins_port, modPort_port_self, untrusted_port, Port.completed, tookReq_cred]
    · rw [setPins_port, modPort_port_self, untrusted_port, Port.completed, tookReq_cred]
      cases o <;> rfl
    · rw [setPins_regs, modPort_regs, hlog, modFlt_regs]
    · rw [setPins_flt, modPort_flt, hlog, modFlt_flt, bump_flt]
    · simp +contextual [modPort_port_ne]

end Sys2Proof.Safety
end

section
/-! The outputs of the always-on island after a step (R354, R426, R449, R452). Every command but the assertion of the cold reset sets them
last, and a tick changes nothing that they show. `State.coldAssert` gives them their reset levels, also where the wrapper, which it leaves
as it is, hands them to their boundary cells; what those hold is the free value `Config.boundaryCell` (log entry 83). O3 therefore
follows neither way from the model: `outputsFollowState_iff_cells` says on what it turns. -/

namespace Sys2Proof.Safety

open Sys2Proof.Machine

/-- Every command but the assertion of the cold reset ends with what follows from it. -/
theorem exec_eq_commandEnd (c : Instr) (s : State) (h : c ≠ .coldResetAssert) : ∃ u, exec c s = commandEnd s u := by
  cases c
  case coldResetAssert => exact absurd rfl h
  all_goals exact ⟨_, rfl⟩

/-- The queue and the time are no part of what the outputs show. -/
theorem pinsOk_setPins (s : State) (q : List Instr) (n : Tk) : pinsOk { s.setPins with pending := q, now := n } := rfl

/-- What follows from a command ends with the outputs. -/
theorem pinsOk_commandEnd {s t u : State} (h : commandEnd s u = .next t) : pinsOk t := by
  rw [← Host.Outcome.next.inj h]
  exact pinsOk_setPins _ _ _

/-- A tick of the time base changes nothing that the outputs show. -/
theorem pinsOk_tick {s : State} (h : pinsOk s) : pinsOk s.tick := congrArg State.tick h

/-- Outputs that their cells do not drive show the command counter, the fault log and the severe sources. -/
theorem outputs_of_pinsOk {t : State} (h : pinsOk t) (hc : t.cellsDrive = false) :
    (t.pins.irqCmd = true ↔ t.flag 0 0x038 0 = true ∧ t.fld 0 0x028 23 16 ≠ 0) ∧ (t.pins.irqFlt = true ↔ t.flt.log ≠ []) ∧
    (t.pins.faultN = false ↔ t.unacked = true) := by
  have hp : t.setPins.pins = t.pins := congrArg State.pins h
  rw [← hp]
  simp [State.setPins, hc]

/-- The boundary cells of the four outputs hold the levels that the outputs have in a cold reset. -/
def cellsAtReset : Prop :=
  Config.boundaryCell 0 = false ∧ Config.boundaryCell 1 = true ∧ Config.boundaryCell 2 = false ∧ Config.boundaryCell 3 = false

/-- The assertion of the cold reset leaves the outputs right where no boundary cell drives them, or the cells hold the same levels. -/
theorem pinsOk_coldAssert_iff (s : State) : pinsOk s.coldAssert ↔ (s.coldAssert.cellsDrive = true → cellsAtReset) := by
  unfold pinsOk State.setPins
  cases s.coldAssert.cellsDrive with
  | false => exact iff_of_true rfl fun h => nomatch h
  | true =>
    constructor
    · intro h _
      exact ⟨congrArg (·.pins.alive) h, congrArg (·.pins.faultN) h, congrArg (·.pins.irqFlt) h, congrArg (·.pins.irqCmd) h⟩
    · intro h
      obtain ⟨h0, h1, h2, h3⟩ := h rfl
      simp only [h0, h1, h2, h3]
      rfl

/-- A step keeps the outputs right, save the assertion of a cold reset under WS_EXTEST or WS_CLAMP. -/
theorem pinsOk_step {s t : State} (hs : pinsOk s) (h : step s = .next t)
    (hc : s.pending.head? = some .coldResetAssert → t.cellsDrive = true → cellsAtReset) : pinsOk t := by
  cases hq : s.pending with
  | nil =>
    simp only [step, hq] at h
    cases h
    exact pinsOk_tick hs
  | cons c cs =>
    simp only [step, hq] at h
    by_cases hcold : c = .coldResetAssert
    · subst hcold
      cases h
      exact (pinsOk_coldAssert_iff _).2 (hc (by rw [hq]; rfl))
    · obtain ⟨u, hu⟩ := exec_eq_commandEnd c { s with pending := cs } hcold
      exact pinsOk_commandEnd (hu.symm.trans h)

/-- A cold reset is asserted while WS_EXTEST is in force in a cold reset. -/
def coldInExtest : State := ({ State.reset with tst := { State.reset.tst with wir := 1 }, pending := [.coldResetAssert] } : State).setPins

/-- O3 says of the free value what no rule says: it holds exactly where the boundary cells happen to hold the reset levels. -/
theorem outputsFollowState_iff_cells : Obligations.OutputsFollowState ↔ cellsAtReset := by
  constructor
  · intro h
    obtain ⟨hp, -⟩ := h coldInExtest _ rfl rfl
    exact (pinsOk_coldAssert_iff _).1 hp rfl
  · intro hc s t hs h
    have ht := pinsOk_step hs h fun _ _ => hc
    exact ⟨ht, outputs_of_pinsOk ht⟩

end Sys2Proof.Safety
end

section
/-! What a CORR event leaves alone (R351, R374): it changes the fault collector, and the register that counts lost log entries. A protocol
fault of a port is such an event of the port, so the fault of a snoop credit too many (R434) leaves every port's credits as they are. -/

namespace Sys2Proof.Machine

/-- An entry for the fault log leaves the sources alone. -/
@[simp] theorem logEnt_src (s : State) (e : LogEnt) (k : Nat) : (s.logEnt e).src k = s.src k := by
  obtain ⟨r, l, h⟩ := logEnt_frame s e
  rw [h]; rfl

/-- State t is s but for the fault collector and the registers. -/
def FaultsOnly (s t : State) : Prop := ∃ r f, t = { s with regs := r, flt := f }

theorem FaultsOnly.trans {s t u : State} (h : FaultsOnly s t) (h' : FaultsOnly t u) : FaultsOnly s u := by
  obtain ⟨_, _, rfl⟩ := h
  obtain ⟨r, f, rfl⟩ := h'
  exact ⟨r, f, rfl⟩

theorem FaultsOnly.modFlt (s : State) (g : Flt → Flt) : FaultsOnly s (s.modFlt g) := ⟨s.regs, g s.flt, rfl⟩

theorem FaultsOnly.log (s : State) (ty : BitVec 8) (n : Nat) (q : PartId) (pa : LineAddr) : FaultsOnly s (s.log ty n q pa) := by
  obtain ⟨r, l, h⟩ := logEnt_frame s ⟨ty, BitVec.ofNat 7 n, srcAg n, q, pa, s.now⟩
  exact ⟨r, _, h⟩

theorem FaultsOnly.makeSevere (s : State) (n : Nat) : FaultsOnly s (s.makeSevere n) := by
  unfold State.makeSevere
  split
  · exact ⟨s.regs, s.flt, rfl⟩
  · exact ((FaultsOnly.modFlt s _).trans (.log _ _ _ _ _)).trans (.modFlt _ _)

theorem FaultsOnly.corrEv (s : State) (n : Nat) (q : PartId) (pa : LineAddr) : FaultsOnly s (s.corrEv n q pa) := by
  have severeIf (t : State) (c : Prop) [Decidable c] : FaultsOnly t (if c then t.makeSevere n else t) := by
    split
    · exact .makeSevere t n
    · exact ⟨t.regs, t.flt, rfl⟩
  unfold State.corrEv
  dsimp only
  split
  · exact ((FaultsOnly.modFlt s _).trans (.log _ _ _ _ _)).trans (severeIf _ _)
  · exact (FaultsOnly.modFlt s _).trans (severeIf _ _)

@[simp] theorem protPort_pending (s : State) (p : Fin 24) (q : PartId) (pa : LineAddr) : (s.protPort p q pa).pending = s.pending := by
  obtain ⟨r, f, h⟩ := FaultsOnly.corrEv s (srcPort p) q pa
  rw [State.protPort, h]

@[simp] theorem protPort_now (s : State) (p : Fin 24) (q : PartId) (pa : LineAddr) : (s.protPort p q pa).now = s.now := by
  obtain ⟨r, f, h⟩ := FaultsOnly.corrEv s (srcPort p) q pa
  rw [State.protPort, h]

@[simp] theorem protPort_port (s : State) (p k : Fin 24) (q : PartId) (pa : LineAddr) : (s.protPort p q pa).port k = s.port k := by
  obtain ⟨r, f, h⟩ := FaultsOnly.corrEv s (srcPort p) q pa
  rw [State.protPort, h]; rfl

/-! ### A snoop credit (R434) -/

/-- A port that is up and holds fewer than 255 snoop credits takes one more. -/
theorem snoopCreditIn_of_lt (s : State) (p : Fin 24) (hu : (s.port p).up = true) (h : (s.port p).snpCred < 255) :
    s.snoopCreditIn p = s.modPort p fun x => { x with snpCred := x.snpCred + 1 } := by
  simp only [State.snoopCreditIn, hu, h, Bool.not_true, Bool.false_eq_true, if_false, if_true]

/-- A port that is up and holds 255 counts a protocol fault instead. -/
theorem snoopCreditIn_of_full (s : State) (p : Fin 24) (hu : (s.port p).up = true) (h : 255 ≤ (s.port p).snpCred) :
    s.snoopCreditIn p = s.protPort p := by
  simp only [State.snoopCreditIn, hu, Nat.not_lt.2 h, Bool.not_true, Bool.false_eq_true, if_false]

end Sys2Proof.Machine

namespace Sys2Proof.Safety

open Sys2Proof.Machine

/-- A CORR event that does not make its source severe adds one to the source's count of them (R413). -/
theorem corrEv_mild_corr {s : State} (n : Nat) (h : mild s n) : ((s.corrEv n).src n).corr = ((s.src n).count1 false).corr := by
  rw [corrEv_mild n h]
  dsimp only
  split
  · rw [State.log, logEnt_src, modSrc_src_self]
  · rw [modSrc_src_self]

/-- Settles O26: a credit below the limit is added; one at the limit is a CORR event of the port, which reaches no port's credits. -/
theorem snoopCreditsAreHeld : Obligations.SnoopCreditsAreHeld := by
  intro s p hq hu
  refine ⟨fun hlt => ?_, fun hfull hm => ⟨?_, fun q => ?_, ?_⟩⟩
  · have hquiet := hq.modPort p (fun x => { x with snpCred := x.snpCred + 1 }) rfl fun _ => .inl
    exact hquiet.ends (snoopCreditIn_of_lt s p hu hlt) rfl rfl
  · have hquiet : Quiet (s.protPort p) := hq.corrEv_mild (srcPort p) hm
    exact hquiet.ends (snoopCreditIn_of_full s p hu hfull) (protPort_pending s p 0 0) (protPort_now s p 0 0)
  · rw [protPort_port]
  · exact corrEv_mild_corr (srcPort p) hm

end Sys2Proof.Safety
end

section
/-! O16: the words of the four kinds of flit read back field by field (R38, R41, R46, R47, R49), and a flit that is taken does what its
command does. -/

namespace Sys2Proof.Machine

/-! ### Bits of a word that is laid out field after field -/

/-- All bits of a word, from a place that is bit 0. -/
theorem extractLsb'_all {n k : Nat} (x : BitVec n) (h : k = 0) : x.extractLsb' k n = x := by
  subst h
  exact BitVec.extractLsb'_eq_self

/-- A bit above the last field lies in the fields before it. -/
theorem getLsbD_append_high {v w k : Nat} (x : BitVec v) (y : BitVec w) (h : w ≤ k) : (x ++ y).getLsbD k = x.getLsbD (k - w) := by
  rw [BitVec.getLsbD_append, if_neg (Nat.not_lt.2 h)]

/-- The last field, where it is one bit wide. -/
theorem getLsbD_append_ofBool {v k : Nat} (x : BitVec v) (b : Bool) (h : k = 0) : (x ++ BitVec.ofBool b).getLsbD k = b := by
  subst h
  rw [BitVec.getLsbD_append, if_pos Nat.one_pos]
  cases b <;> rfl

/-! ### Words and opcodes read back -/

/-- A flit with its CRC says what was put into it. -/
@[simp] theorem flitIn_flitOf {n : Nat} (w : BitVec n) : flitIn (flitOf w) = some w := by
  have h1 : (flitOf w).extractLsb' 16 n = w := BitVec.extractLsb'_append_eq_left
  have h2 : (flitOf w).extractLsb' 0 16 = crc16 w := BitVec.extractLsb'_append_eq_right
  rw [flitIn, h1, h2, if_pos rfl]

@[simp] theorem reqOpOf_code (op : ReqOp) : reqOpOf (reqCode op) = some op := by cases op <;> rfl
@[simp] theorem rspOpOf_code (op : RspOp) : rspOpOf op.code = some op := by cases op <;> rfl
@[simp] theorem datOpOf_code (op : DatOp) : datOpOf op.code = some op := by cases op <;> rfl
@[simp] theorem snpOpOf_code (op : SnpOp) : snpOpOf op.code = some op := by cases op <;> rfl

/-- The opcodes from 0x13 up name no request (R50). -/
theorem reqOpOf_reserved (c : BitVec 5) (h : 0x13 ≤ c.toNat) : reqOpOf c = none := List.getElem?_eq_none h

@[simp] theorem reqOfWord_reqWord (opc : BitVec 5) (a : ReqArgs) : reqOfWord (reqWord opc a) = (opc, a) := by
  cases a
  simp (disch := decide) only [reqOfWord, reqWord, BitVec.extractLsb'_append_eq_of_le, BitVec.extractLsb'_append_eq_of_add_le,
    extractLsb'_all]

@[simp] theorem rspOfWord_rspWord (opc : BitVec 5) (a : RspArgs) : rspOfWord (rspWord opc a) = (opc, a) := by
  cases a
  simp (disch := decide) only [rspOfWord, rspWord, BitVec.extractLsb'_append_eq_of_le, BitVec.extractLsb'_append_eq_of_add_le,
    extractLsb'_all]

@[simp] theorem datOfWord_datWord (opc : BitVec 5) (dir : Bool) (a : DatArgs) : datOfWord (datWord opc dir a) = (opc, dir, a) := by
  cases a
  simp (disch := decide) only [datOfWord, datWord, BitVec.extractLsb'_append_eq_of_le, BitVec.extractLsb'_append_eq_of_add_le,
    extractLsb'_all, getLsbD_append_ofBool, getLsbD_append_high]

@[simp] theorem snpOfWord_snpWord (f : SnpFlit) : snpOfWord (snpWord f) = some f := by
  cases f
  simp (disch := decide) only [snpOfWord, snpWord, BitVec.extractLsb'_append_eq_of_le, BitVec.extractLsb'_append_eq_of_add_le,
    extractLsb'_all, snpOpOf_code, Option.map_some]

/-! ### What a flit's bits stand for -/

theorem reqFlitCommand_flitOf (p : Fin 24) (opc : BitVec 5) (a : ReqArgs) :
    reqFlitCommand p (flitOf (reqWord opc a)) = (reqOpOf opc).map fun op => reqCommand op p a := by
  rw [reqFlitCommand, flitIn_flitOf, Option.bind_some, reqOfWord_reqWord]

theorem rspFlitCommand_flitOf (p : Fin 24) (op : RspOp) (a : RspArgs) :
    rspFlitCommand p (flitOf (rspWord op.code a)) = if op = .compAck then some (.compack p a) else Safety.answerCmd op p a := by
  rw [rspFlitCommand, flitIn_flitOf, Option.bind_some, rspOfWord_rspWord, rspOpOf_code]
  cases op <;> rfl

theorem datFlitCommand_flitOf_agent (p : Fin 24) (opc : BitVec 5) (a : DatArgs) :
    datFlitCommand p (flitOf (datWord opc false a)) = some (.forwardedDat p opc a) := by
  rw [datFlitCommand, flitIn_flitOf, Option.bind_some, datOfWord_datWord]
  rfl

theorem datFlitCommand_flitOf_efkar (p : Fin 24) (a : DatArgs) :
    datFlitCommand p (flitOf (datWord DatOp.datDirty.code true a)) = some (.datdirty p a) ∧
    datFlitCommand p (flitOf (datWord DatOp.datWr.code true a)) = some (.datwr p a) := by
  constructor <;> rw [datFlitCommand, flitIn_flitOf, Option.bind_some, datOfWord_datWord] <;> rfl

/-! ### A flit that is taken -/

/-- A good flit with the expected number does what it says, where that is nothing on a port that is down (R431, R435). -/
theorem linkIn_expected {α : Type} {s : State} {p : Fin 24} {c : PortChan} {k : LinkRx} (v : α) (f : α → State)
    (hk : (s.port p).link.rxAt c = some k) (hd : (s.port p).up = false → f v = s) :
    s.linkIn p c (k.last + 1) (some v) f = f v := by
  unfold State.linkIn
  rw [hk]
  cases hu : (s.port p).up with
  | false => exact (hd hu).symm
  | true => simp [State.linkRefuses]

theorem reqArrive_down {s : State} {p : Fin 24} (op : ReqOp) (a : ReqArgs) (h : (s.port p).up = false) : s.reqArrive p op a = s :=
  if_pos (by rw [h]; rfl)

theorem answerArrive_down {s : State} {p : Fin 24} (op : RspOp) (f : RspArgs) (h : (s.port p).up = false) : s.answerArrive p op f = s :=
  if_pos (by rw [h]; rfl)

theorem compAckArrive_down {s : State} {p : Fin 24} (f : RspArgs) (h : (s.port p).up = false) : s.compAckArrive p f = s :=
  if_pos (by rw [h]; rfl)

theorem datDirtyArrive_down {s : State} {p : Fin 24} (f : DatArgs) (h : (s.port p).up = false) : s.datDirtyArrive p f = s :=
  if_pos (by rw [h]; rfl)

theorem datWrArrive_down {s : State} {p : Fin 24} (f : DatArgs) (h : (s.port p).up = false) : s.datWrArrive p f = s :=
  if_pos (by rw [h]; rfl)

theorem forwardedCode_down {s : State} {p : Fin 24} (opc : BitVec 5) (f : DatArgs) (h : (s.port p).up = false) :
    s.forwardedCode p opc f = s := by
  unfold State.forwardedCode
  split
  · exact if_pos (by rw [h]; rfl)
  · exact if_pos (by rw [h]; rfl)

/-- A REQ flit of the expected number that is a command does what the command does. -/
theorem exec_of_reqFlitCommand (s : State) (p : Fin 24) (w : BitVec 128) (c : Instr) (h : reqFlitCommand p w = some c) :
    exec c s = commandEnd s (s.reqFlit p ((s.port p).link.req.last + 1) w) := by
  obtain ⟨v, hv, h⟩ := Option.bind_eq_some_iff.1 h
  obtain ⟨op, hop, rfl⟩ := Option.map_eq_some_iff.1 h
  rw [Safety.exec_reqCommand, State.reqFlit, hv, linkIn_expected v _ rfl]
  · simp only [hop]
  · simp only [hop]
    exact reqArrive_down op _

/-- An RSP flit of the expected number that is a command does what the command does. -/
theorem exec_of_rspFlitCommand (s : State) (p : Fin 24) (w : BitVec 128) (c : Instr) (h : rspFlitCommand p w = some c) :
    exec c s = commandEnd s (s.rspFlit p ((s.port p).link.rspi.last + 1) w) := by
  obtain ⟨v, hv, h⟩ := Option.bind_eq_some_iff.1 h
  rw [State.rspFlit, hv]
  split at h <;> cases h
  case h_6 hop =>
    rw [linkIn_expected v _ rfl] <;> simp only [hop]
    · rfl
    · exact compAckArrive_down _
  all_goals
    next hop =>
      rw [linkIn_expected v _ rfl] <;> simp only [hop]
      · rfl
      · exact answerArrive_down _ _

/-- A DAT flit of the expected number that is a command does what the command does. -/
theorem exec_of_datFlitCommand (s : State) (p : Fin 24) (w : BitVec 576) (c : Instr) (h : datFlitCommand p w = some c) :
    exec c s = commandEnd s (s.datFlit p ((s.port p).link.dati.last + 1) w) := by
  obtain ⟨v, hv, h⟩ := Option.bind_eq_some_iff.1 h
  rw [State.datFlit, hv]
  dsimp only at h
  split at h
  · next hdir =>
    cases h
    rw [linkIn_expected v _ rfl] <;> simp only [hdir, if_true]
    · rfl
    · exact forwardedCode_down _ _
  · next hdir =>
    split at h <;> cases h
    · next hop =>
      rw [linkIn_expected v _ rfl] <;> simp only [hdir, hop]
      · rfl
      · exact datDirtyArrive_down _
    · next hop =>
      rw [linkIn_expected v _ rfl] <;> simp only [hdir, hop]
      · rfl
      · exact datWrArrive_down _

end Sys2Proof.Machine

namespace Sys2Proof.Safety

open Sys2Proof.Machine

/-- Settles O16: each kind of word reads back, and a flit that is taken does what its command does. -/
theorem flitsCarryMessages : Obligations.FlitsCarryMessages := by
  refine ⟨fun p op a => ?_, fun p opc a h => ?_, fun p op a c h => ?_, fun p a => rspFlitCommand_flitOf p .compAck a,
    datFlitCommand_flitOf_efkar, datFlitCommand_flitOf_agent, fun f => ?_,
    fun s p w d c => ⟨exec_of_reqFlitCommand s p w c, exec_of_rspFlitCommand s p w c, exec_of_datFlitCommand s p d c⟩⟩
  · rw [reqFlitCommand_flitOf, reqOpOf_code, Option.map_some]
  · rw [reqFlitCommand_flitOf, reqOpOf_reserved opc h, Option.map_none]
  · have hne : op ≠ .compAck := fun e => by subst e; cases h
    rw [rspFlitCommand_flitOf, if_neg hne, h]
  · rw [flitIn_flitOf, Option.bind_some, snpOfWord_snpWord]

end Sys2Proof.Safety
end


section
/-! O1, O2 and O4: one step, and the state after reset. -/

namespace Sys2Proof.Machine

/-! ### The units after power-up -/

@[simp] theorem reset_port (p : Fin 24) : State.reset.port p = Port.zero := Vector.getElem_replicate _
@[simp] theorem reset_slice (i : Fin 17) : State.reset.slice i = Slice.zero := Vector.getElem_replicate _
@[simp] theorem reset_chan (n : Fin 16) : State.reset.chan n = Chan.zero := Vector.getElem_replicate _

/-- Home h is served by slice h (R5). -/
theorem reset_serving (h : Fin 16) : State.reset.serving h = some (h.castLE (by decide)) := by
  revert h
  decide

/-- No partition is enabled. -/
theorem reset_partEn (q : PartId) : State.reset.partEn q = false := by
  revert q
  decide +kernel

end Sys2Proof.Machine

namespace Sys2Proof.Safety

open Sys2Proof.Machine

/-- Settles O1: `step` looks at the queue alone. -/
theorem stepRunsFront : Obligations.StepRunsFront := by
  intro s c cs h
  rw [step, h]

/-- On an empty queue a tick passes. -/
theorem step_of_empty {s : State} (h : s.pending = []) : step s = .next s.tick := by
  rw [step, h]

/-- Settles O2: every command but the assertion of the cold reset ends with `commandEnd`, which keeps the queue and the time. -/
theorem everyStepAnswers : Obligations.EveryStepAnswers := by
  intro s
  refine ⟨fun h => ?_, fun c cs h => ?_⟩
  · exact step_of_empty h
  · rw [stepRunsFront s c cs h]
    by_cases hc : c = .coldResetAssert
    · subst hc
      exact ⟨_, rfl, rfl, rfl⟩
    · obtain ⟨u, hu⟩ := exec_eq_commandEnd c { s with pending := cs } hc
      exact ⟨_, hu, rfl, (if_neg hc).symm⟩

/-- Settles O4: each field has its reset value. -/
theorem resetState : Obligations.ResetState := by
  refine ⟨rfl, rfl, rfl, rfl, fun h => ⟨reset_serving h, ?_⟩, by decide, reset_partEn, rfl, fun _ => ⟨rfl, rfl⟩, fun p => ?_,
    fun i => ?_, rfl, memoryOk_reset⟩
  · exact BitVec.getLsbD_zero
  · rw [reset_port]
    rfl
  · rw [reset_slice]
    exact ⟨rfl, rfl⟩

end Sys2Proof.Safety
end


section
/-! What holds of the shared operations: an operation applied to every slice, port or channel that changes its own unit alone is one change of
all of them; and the power requests that follow a command change the power pins alone. -/

namespace Sys2Proof.Machine

/-! ### Every unit at once -/

/-- A fold in which one element alone has an effect is that effect. -/
theorem foldl_one {σ ι : Type} (f : σ → ι → σ) (s : σ) (n : ι) (l : List ι) (hn : n ∈ l) (hd : l.Nodup) (h : ∀ m ≠ n, f s m = s)
    (h' : ∀ m ≠ n, f (f s n) m = f s n) : l.foldl f s = f s n := by
  induction l with
  | nil => cases hn
  | cons k l ih =>
    obtain ⟨hk, hd⟩ := List.nodup_cons.1 hd
    by_cases e : k = n
    · subst e
      exact Safety.foldl_fixed _ _ _ fun m hm => h' m fun e => hk (e ▸ hm)
    · rw [List.foldl_cons, h k e]
      exact ih ((List.mem_cons.1 hn).resolve_left (Ne.symm e)) hd

/-- Setting each element of a list of places in turn. -/
theorem foldl_set_getElem {α : Type} {n : Nat} (g : Fin n → α → α) (l : List (Fin n)) (hl : l.Nodup) (v : Vector α n) (j : Fin n) :
    (l.foldl (fun v i => v.set i.val (g i v[i.val])) v)[j.val] = if j ∈ l then g j v[j.val] else v[j.val] := by
  induction l generalizing v with
  | nil => rfl
  | cons i l ih =>
    obtain ⟨hi, hl⟩ := List.nodup_cons.1 hl
    rw [List.foldl_cons, ih hl]
    by_cases e : j = i
    · subst e
      simp [hi]
    · have hv : i.val ≠ j.val := fun h => e (Fin.ext h.symm)
      simp [e, Vector.getElem_set_ne _ _ hv]

/-- Setting every element in turn. -/
theorem foldl_set_all {α : Type} {n : Nat} (g : Fin n → α → α) (v : Vector α n) :
    (List.finRange n).foldl (fun v i => v.set i.val (g i v[i.val])) v = Vector.ofFn fun i => g i v[i.val] := by
  ext j hj
  have h := foldl_set_getElem g (List.finRange n) (List.nodup_finRange n) v ⟨j, hj⟩
  rw [if_pos (List.mem_finRange _)] at h
  rw [Vector.getElem_ofFn]
  exact h

/-- Every slice changes. -/
def State.mapSlices (s : State) (g : Fin 17 → Slice → Slice) : State := { s with slices := Vector.ofFn fun i => g i (s.slice i) }
/-- Every port changes. -/
def State.mapPorts (s : State) (g : Fin 24 → Port → Port) : State := { s with ports := Vector.ofFn fun p => g p (s.port p) }
/-- Every channel changes. -/
def State.mapChans (s : State) (g : Fin 16 → Chan → Chan) : State := { s with chans := Vector.ofFn fun n => g n (s.chan n) }

@[simp] theorem mapSlices_slice (s : State) (g : Fin 17 → Slice → Slice) (i : Fin 17) : (s.mapSlices g).slice i = g i (s.slice i) :=
  Vector.getElem_ofFn _
@[simp] theorem mapPorts_port (s : State) (g : Fin 24 → Port → Port) (p : Fin 24) : (s.mapPorts g).port p = g p (s.port p) :=
  Vector.getElem_ofFn _
@[simp] theorem mapChans_chan (s : State) (g : Fin 16 → Chan → Chan) (n : Fin 16) : (s.mapChans g).chan n = g n (s.chan n) :=
  Vector.getElem_ofFn _

/-- An operation for every slice that changes its slice alone, whatever the slices are, is one change of all of them. -/
theorem eachSlice_eq (s : State) (f : State → Fin 17 → State) (g : Fin 17 → Slice → Slice)
    (h : ∀ v i, f { s with slices := v } i = ({ s with slices := v } : State).modSlice i (g i)) : s.eachSlice f = s.mapSlices g := by
  have hom := List.foldl_hom (l := List.finRange 17) (init := s.slices) (fun v => ({ s with slices := v } : State))
    (g₁ := fun (v : Vector Slice 17) (i : Fin 17) => v.set i.val (g i v[i.val]) i.isLt) (g₂ := f) h
  exact hom.trans (congrArg (fun v => ({ s with slices := v } : State)) (foldl_set_all g s.slices))

/-- An operation for every port that changes its port alone, whatever the ports are, is one change of all of them. -/
theorem eachPort_eq (s : State) (f : State → Fin 24 → State) (g : Fin 24 → Port → Port)
    (h : ∀ v p, f { s with ports := v } p = ({ s with ports := v } : State).modPort p (g p)) : s.eachPort f = s.mapPorts g := by
  have hom := List.foldl_hom (l := List.finRange 24) (init := s.ports) (fun v => ({ s with ports := v } : State))
    (g₁ := fun (v : Vector Port 24) (i : Fin 24) => v.set i.val (g i v[i.val]) i.isLt) (g₂ := f) h
  exact hom.trans (congrArg (fun v => ({ s with ports := v } : State)) (foldl_set_all g s.ports))

/-- An operation for every channel that changes its channel alone, whatever the channels are, is one change of all of them. -/
theorem eachChan_eq (s : State) (f : State → Fin 16 → State) (g : Fin 16 → Chan → Chan)
    (h : ∀ v n, f { s with chans := v } n = ({ s with chans := v } : State).modChan n (g n)) : s.eachChan f = s.mapChans g := by
  have hom := List.foldl_hom (l := List.finRange 16) (init := s.chans) (fun v => ({ s with chans := v } : State))
    (g₁ := fun (v : Vector Chan 16) (i : Fin 16) => v.set i.val (g i v[i.val]) i.isLt) (g₂ := f) h
  exact hom.trans (congrArg (fun v => ({ s with chans := v } : State)) (foldl_set_all g s.chans))

/-! ### Power requests -/

section
variable (s : State)

/-- Power requests change the power pins alone. -/
theorem syncPower_frame : ∃ p, s.syncPower = { s with pins := p } := by
  obtain ⟨l, m, h⟩ := Safety.syncPower_pins s
  exact ⟨_, h⟩

@[simp] theorem syncPower_pending : s.syncPower.pending = s.pending := by obtain ⟨p, h⟩ := syncPower_frame s; rw [h]
@[simp] theorem syncPower_now : s.syncPower.now = s.now := by obtain ⟨p, h⟩ := syncPower_frame s; rw [h]
@[simp] theorem syncPower_glb : s.syncPower.glb = s.glb := by obtain ⟨p, h⟩ := syncPower_frame s; rw [h]
@[simp] theorem syncPower_regs : s.syncPower.regs = s.regs := by obtain ⟨p, h⟩ := syncPower_frame s; rw [h]
@[simp] theorem syncPower_ports : s.syncPower.ports = s.ports := by obtain ⟨p, h⟩ := syncPower_frame s; rw [h]
@[simp] theorem syncPower_slices : s.syncPower.slices = s.slices := by obtain ⟨p, h⟩ := syncPower_frame s; rw [h]
@[simp] theorem syncPower_chans : s.syncPower.chans = s.chans := by obtain ⟨p, h⟩ := syncPower_frame s; rw [h]
@[simp] theorem syncPower_dram : s.syncPower.dram = s.dram := by obtain ⟨p, h⟩ := syncPower_frame s; rw [h]
@[simp] theorem syncPower_noc : s.syncPower.noc = s.noc := by obtain ⟨p, h⟩ := syncPower_frame s; rw [h]
@[simp] theorem syncPower_flt : s.syncPower.flt = s.flt := by obtain ⟨p, h⟩ := syncPower_frame s; rw [h]
@[simp] theorem syncPower_par : s.syncPower.par = s.par := by obtain ⟨p, h⟩ := syncPower_frame s; rw [h]
@[simp] theorem syncPower_svc : s.syncPower.svc = s.svc := by obtain ⟨p, h⟩ := syncPower_frame s; rw [h]
@[simp] theorem syncPower_tst : s.syncPower.tst = s.tst := by obtain ⟨p, h⟩ := syncPower_frame s; rw [h]
@[simp] theorem syncPower_csr : s.syncPower.csr = s.csr := by obtain ⟨p, h⟩ := syncPower_frame s; rw [h]
@[simp] theorem syncPower_port (p : Fin 24) : s.syncPower.port p = s.port p := congrArg (·[p.val]) (syncPower_ports s)
@[simp] theorem syncPower_slice (i : Fin 17) : s.syncPower.slice i = s.slice i := congrArg (·[i.val]) (syncPower_slices s)
@[simp] theorem syncPower_chan (n : Fin 16) : s.syncPower.chan n = s.chan n := congrArg (·[n.val]) (syncPower_chans s)
@[simp] theorem syncPower_reg (n w : Nat) : s.syncPower.reg n w = s.reg n w := by obtain ⟨p, h⟩ := syncPower_frame s; rw [h]; rfl
@[simp] theorem syncPower_src (n : Nat) : s.syncPower.src n = s.src n := by obtain ⟨p, h⟩ := syncPower_frame s; rw [h]; rfl
@[simp] theorem syncPower_part (q : PartId) : s.syncPower.part q = s.part q := by obtain ⟨p, h⟩ := syncPower_frame s; rw [h]; rfl
@[simp] theorem syncPower_serving (h : Fin 16) : s.syncPower.serving h = s.serving h := by obtain ⟨p, h⟩ := syncPower_frame s; rw [h]; rfl

end

end Sys2Proof.Machine

namespace Sys2Proof.Safety

open Sys2Proof.Machine

/-- Where no move begins to prepare its destination, none is prepared. -/
theorem movePrep_of_run {s : State} (h : ∀ m, s.flt.run = some m → m.checked = true ∨ (m.phase ≠ .prepare ∧ m.phase ≠ .copy)) :
    s.movePrep = s := by
  unfold State.movePrep
  split
  · rfl
  · next m hm =>
    refine if_neg ?_
    obtain hc | ⟨h1, h2⟩ := h m hm <;> simp_all

end Sys2Proof.Safety
end


section
/-! What runs by itself, step by step (log entry 10): when a step does nothing, each by the one condition that it looks at. They serve the
commands after which one step does something. -/

namespace Sys2Proof.Safety

open Sys2Proof.Machine

variable {s : State}

theorem liftHold_of_adm (h : ∀ k : Fin 16, s.glb.admHold.getLsbD k.val = true → ∃ m, s.flt.run = some m ∧ m.home = k ∧ evacLike m.kind = false) :
    s.liftHold = s := by
  unfold State.liftHold
  split
  · rfl
  · refine foldl_fixed _ _ _ fun k _ => ?_
    cases hb : s.glb.admHold.getLsbD k.val with
    | false => simp
    | true =>
      obtain ⟨m, hm, rfl, he⟩ := h k hb
      simp [hm, he]

theorem loadStep_of_waits (h : loadWaits s.glb.ld) : s.loadStep = s := by
  unfold State.loadStep
  by_cases hr : s.glb.ld.st.res = .running
  · obtain ⟨h1, h2, h3⟩ := h hr
    simp only [hr, h1, bne_self_eq_false, Bool.false_eq_true, if_false]
    split
    · next e => exact absurd e h2
    · next e => exact if_neg fun hc => h3 e (by simp only [Bool.and_eq_true, beq_iff_eq] at hc; tauto)
    · rfl
  · exact if_pos (by simp [hr])

theorem parStep_of_waits (h : jobWaits s.par.job) : s.parStep = s := by
  unfold jobWaits at h
  unfold State.parStep
  split <;> simp_all

theorem engineSteps_of_waits (hl : loadWaits s.glb.ld) (hj : jobWaits s.par.job) : s.engineSteps = s := by
  unfold State.engineSteps
  rw [loadStep_of_waits hl, parStep_of_waits hj, ite_self]

theorem commitStep_of_stt (h : s.glb.cmd.res = .running → s.glb.stt ≠ .ready ∧ s.glb.stt ≠ .committed) : s.commitStep = s :=
  if_neg fun ⟨hr, hs, _⟩ => by
    obtain ⟨h1, h2⟩ := h hr
    exact hs.elim h1 h2

theorem startStep_of_stt (h : s.glb.stt ≠ .init ∧ s.glb.stt ≠ .train ∧ s.glb.stt ≠ .load) : s.startStep = s := by
  obtain ⟨h1, h2, h3⟩ := h
  unfold State.startStep
  split
  · exact absurd ‹_› h1
  · exact absurd ‹_› h2
  · exact absurd ‹_› h3
  · rfl

theorem disableStep_of_msc (h : s.glb.stt = .disabling → ∀ i, (s.slice i).mem.ctl.mode ≠ .on) : s.disableStep = s := by
  unfold State.disableStep
  split
  · next hd => exact foldl_fixed _ _ _ fun i _ => by simp [h hd i]
  · rfl

theorem detWake_of_awake (h : s.glb.det = true → ∀ i, (s.homesOf i).any s.detHome = true →
    (s.slice i).asleep = false ∧ (s.slice i).ctl.dom.c = .on) : s.detWake = s := by
  unfold State.detWake
  split
  · next hd =>
    refine foldl_fixed _ _ _ fun i _ => ?_
    split
    · next ha =>
      obtain ⟨h1, h2⟩ := h hd i ha
      exact modSlice_same _ _ _ (by simp [h1, h2])
    · rfl
  · rfl

theorem bcastStep_of_nil (h : s.glb.bc.sweep = []) : s.bcastStep = s := if_pos (by simp [h])

theorem ltBackStep_of_run (h : s.tst.phase = .back → s.flt.run ≠ none) : s.ltBackStep = s :=
  if_neg fun hc => h hc.1 (by simpa using hc.2)

theorem portResetStep_of_none (h : ∀ p, (s.port p).resetting = false) : s.portResetStep = s :=
  foldl_fixed _ _ _ fun p _ => by simp [h p]

theorem slcResetStep_of_none (h : ∀ i, (s.slice i).ctl.resetWait = false) : s.slcResetStep = s :=
  foldl_fixed _ _ _ fun i _ => by simp [h i]

theorem csrReads_of_held (h : ∀ w ∈ s.csr.reads, s.csrHolds w.off = true) : s.csrReads = s := by
  have h1 : s.csr.reads.filter (fun w => !s.csrHolds w.off) = [] := by
    rw [List.filter_eq_nil_iff]
    intro w hw
    simp [h w hw]
  have h2 : s.csr.reads.filter (fun w => s.csrHolds w.off) = s.csr.reads := List.filter_eq_self.2 h
  unfold State.csrReads
  rw [h1]
  show { s with csr := { s.csr with reads := s.csr.reads.filter fun w => s.csrHolds w.off } } = s
  rw [h2]

theorem recheck_of_none (h : ∀ p, ∀ k ∈ (s.port p).held, s.heldReady k = false) : s.eachPort State.recheckPort = s :=
  foldl_fixed _ _ _ fun p _ => by
    have hf : (s.port p).held.filter s.heldReady = [] := by
      rw [List.filter_eq_nil_iff]
      intro k hk
      simp [h p k hk]
    simp [State.recheckPort, hf]

theorem pump_of_none (h : ∀ p, ∀ k ∈ (s.port p).held, k.why ≠ .admission) : s.pump = s :=
  foldl_fixed _ _ _ fun p _ => by
    have ha : (s.port p).held.any (·.why == .admission) = false := by
      rw [List.any_eq_false]
      intro k hk
      simpa using h p k hk
    simp [State.pumpPort, ha]

theorem idleWatch_of_none (h : ∀ i, (s.slice i).ctl.autoRet = false) : s.idleWatch = s :=
  foldl_fixed _ _ _ fun i _ => by simp [h i]

/-! ### The steps together -/

/-- What runs by itself, as the step before each group leaves it. -/
theorem selfSteps_eq {s s₁ s₂ s₃ s₄ s₅ : State} (h₁ : s.movePrep.liftHold.engineSteps = s₁)
    (h₂ : s₁.commitStep.startStep.disableStep = s₂) (h₃ : s₂.detWake = s₃)
    (h₄ : s₃.bcastStep.ltBackStep.portResetStep.slcResetStep.csrReads = s₄) (h₅ : (s₄.eachPort State.recheckPort).pump = s₅) :
    s.selfSteps = s₅ := by
  subst h₁ h₂ h₃ h₄ h₅
  rfl

/-- After the steps no source is due, no flit is on the networks and no slice returns to RET: the power requests and the outputs end the
command. -/
theorem settle_of_selfSteps {s t : State} (hd : s.flt.due = []) (h : s.selfSteps = t) (hn : t.noc.bufs = [] ∧ t.noc.wait = [])
    (hd' : t.flt.due = []) (hi : ∀ i, (t.slice i).ctl.autoRet = false) : s.settle = t.syncPower.setPins := by
  unfold State.settle
  rw [dueStep_nil _ _ hd, h, netRun_clear hn, dueStep_nil _ _ hd', idleWatch_of_none fun i => by rw [syncPower_slice]; exact hi i]

/-- Where one source is due, its action is all that the sources start. -/
theorem settle_of_due {s t : State} {n : Nat} (hd : s.flt.due = [n]) (ha : (s.modFlt fun f => { f with due := [] }).dueAct n = t)
    (ht : t.flt.due = []) : s.settle = t.settle := by
  have h : ∀ k, s.dueStep (k + 1) = t := fun k => by
    have h1 : s.dueOnce = t := by
      simp only [State.dueOnce, hd, List.mergeSort_singleton, List.foldl_cons, List.foldl_nil]
      exact ha
    simp only [State.dueStep, hd, h1]
    exact dueStep_nil t k ht
  unfold State.settle
  rw [show dueRounds = 127 + 1 from rfl, h, dueStep_nil t _ ht]

/-- The steps that look at the block's registers, ports, slices' controls and networks, and not at start-up or DET mode, have nothing to do. -/
structure Calm (s : State) : Prop where
  due : s.flt.due = []
  run : ∀ m, s.flt.run = some m → m.checked = true ∨ (m.phase ≠ .prepare ∧ m.phase ≠ .copy)
  adm : ∀ h : Fin 16, s.glb.admHold.getLsbD h.val = true → ∃ m, s.flt.run = some m ∧ m.home = h ∧ evacLike m.kind = false
  load : loadWaits s.glb.ld
  job : jobWaits s.par.job
  sweep : s.glb.bc.sweep = []
  back : s.tst.phase = .back → s.flt.run ≠ none
  ports : ∀ p, (s.port p).resetting = false ∧ ∀ h ∈ (s.port p).held, h.why ≠ .admission ∧ s.heldReady h = false
  net : s.noc.bufs = [] ∧ s.noc.wait = []
  reads : ∀ w ∈ s.csr.reads, s.csrHolds w.off = true
  slices : ∀ i, (s.slice i).ctl.resetWait = false ∧ (s.slice i).ctl.autoRet = false

theorem Quiet.calm (h : Quiet s) : Calm s := { h with }

theorem Calm.first (h : Calm s) : s.movePrep.liftHold.engineSteps = s := by
  rw [movePrep_of_run h.run, liftHold_of_adm h.adm, engineSteps_of_waits h.load h.job]

theorem Calm.resets (h : Calm s) : s.bcastStep.ltBackStep.portResetStep.slcResetStep.csrReads = s := by
  rw [bcastStep_of_nil h.sweep, ltBackStep_of_run h.back, portResetStep_of_none fun p => (h.ports p).1,
    slcResetStep_of_none fun i => (h.slices i).1, csrReads_of_held h.reads]

theorem Calm.held (h : Calm s) : (s.eachPort State.recheckPort).pump = s := by
  rw [recheck_of_none fun p k hk => ((h.ports p).2 k hk).2, pump_of_none fun p k hk => ((h.ports p).2 k hk).1]

/-- In a calm state the steps of start-up, COMMIT and DISABLE go on, DET slices wake, and nothing else happens. -/
theorem Calm.settle {s t u : State} (h : Calm s) (ht : s.commitStep.startStep.disableStep = t) (hu : t.detWake = u) (hc : Calm u) :
    s.settle = u.syncPower.setPins :=
  settle_of_selfSteps h.due (selfSteps_eq h.first ht hu hc.resets hc.held) hc.net hc.due fun i => (hc.slices i).2

/-- A command's end by the state that it settles in. -/
theorem commandEnd_settle {s t u : State} (h : t.settle = u) (hp : u.pending = s.pending) (hn : u.now = s.now) :
    Machine.commandEnd s t = .next u := by
  unfold Machine.commandEnd
  rw [h, ← hp, ← hn]

end Sys2Proof.Safety
end


section
/-! O5: the cold reset, and the releases of the two resets (R381, R394, R447, R452). -/

namespace Sys2Proof.Machine

/-- Where the cold reset is released, its release changes nothing. -/
theorem coldRelease_released {s : State} (h : s.glb.coldLow = false) : s.coldRelease = s := if_neg (by simp [h])

/-- A change of the block's own state that changes nothing. -/
theorem modGlb_same (s : State) (f : Glb → Glb) (h : f s.glb = s.glb) : s.modGlb f = s := by
  rw [State.modGlb, h]

/-- Start-up begins in RESET with both resets released and no entry of a warm reset under way (R381). -/
theorem startUp_ready {s : State} (hs : s.glb.stt = .reset) (hc : s.glb.coldLow = false) (hw : s.glb.warmLow = false)
    (he : s.glb.warmEntry = false) :
    s.startUp = s.modGlb fun g => { g with stt := .fuse, fuse := { g.fuse with req := s.edge } } :=
  if_pos (by simp [hs, hc, hw, he])

/-- Start-up does not begin while a reset is low or the entry of a warm reset runs, nor outside RESET. -/
theorem startUp_waits {s : State} (h : s.glb.stt ≠ .reset ∨ s.glb.coldLow = true ∨ s.glb.warmLow = true ∨ s.glb.warmEntry = true) :
    s.startUp = s :=
  if_neg fun hc => by
    obtain ⟨h1, h2, h3, h4⟩ := hc
    simp_all

end Sys2Proof.Machine

namespace Sys2Proof.Safety

open Sys2Proof.Machine

variable {s : State}

/-- The levels of the reset pins and the wrapper's instruction are nothing that goes on by itself. -/
theorem Quiet.resetPins (h : Quiet s) (c w : Bool) (n : BitVec 3) :
    Quiet ((s.modGlb fun g => { g with coldLow := c, warmLow := w }).modTst fun t => { t with wir := n }) := { h with }

/-- While the fuse step waits for a word nothing goes on by itself. -/
theorem Quiet.fuseStep (h : Quiet s) (t : Tk) :
    Quiet (s.modGlb fun g => { g with stt := .fuse, fuse := { g.fuse with req := t } }) :=
  { h with stt := ⟨nofun, nofun, nofun⟩, gc := fun _ => ⟨nofun, nofun⟩, msc := nofun }

/-- The release of the cold reset, in RESET. -/
theorem exec_coldResetRelease (h : Quiet s) (hc : s.glb.coldLow = true) (hs : s.glb.stt = .reset) :
    let u := (s.modGlb fun g => { g with coldLow := false }).modTst fun t => { t with wir := 0 }
    (s.glb.warmLow = false → s.glb.warmEntry = false → exec .coldResetRelease s =
      .next (u.modGlb fun g => { g with stt := .fuse, fuse := { g.fuse with req := s.edge } }).setPins) ∧
    (s.glb.warmLow = true → exec .coldResetRelease s = .next u.setPins) := by
  have hq := h.resetPins false s.glb.warmLow 0
  have hr : s.coldRelease = ((s.modGlb fun g => { g with coldLow := false }).modTst fun t => { t with wir := 0 }).startUp := if_pos hc
  refine ⟨fun hw he => ?_, fun hw => ?_⟩
  · exact (hq.fuseStep s.edge).ends (hr.trans (startUp_ready hs rfl hw he)) rfl rfl
  · exact hq.ends (hr.trans (startUp_waits (.inr (.inr (.inl hw))))) rfl rfl

/-- The release of the warm-reset pin, in RESET. -/
theorem exec_warmResetRelease (h : Quiet s) (hs : s.glb.stt = .reset) :
    let u := s.modGlb fun g => { g with warmLow := false }
    (s.glb.coldLow = false → s.glb.warmEntry = false → exec .warmResetRelease s =
      .next (u.modGlb fun g => { g with stt := .fuse, fuse := { g.fuse with req := s.edge } }).setPins) ∧
    (s.glb.coldLow = true ∨ s.glb.warmEntry = true → exec .warmResetRelease s = .next u.setPins) := by
  have hq := h.resetPins s.glb.coldLow false s.tst.wir
  refine ⟨fun hc he => ?_, fun hw => ?_⟩
  · exact (hq.fuseStep s.edge).ends (startUp_ready hs hc rfl he) rfl rfl
  · exact hq.ends (startUp_waits (.inr (hw.imp id .inr))) rfl rfl

/-- Settles O5: each reset pin that is released lets start-up begin where the other condition holds too. -/
theorem resetsOfTheBlock : Obligations.ResetsOfTheBlock := by
  refine ⟨fun s => ?_, fun s h hs => ?_, fun s h hs hc hw => ?_⟩
  · refine ⟨_, rfl, rfl, rfl, rfl, rfl, rfl, rfl, rfl, reset_port, reset_slice, reset_chan, rfl, fun _ => ⟨rfl, rfl, rfl, rfl⟩, rfl, rfl, rfl,
      rfl, rfl⟩
  · refine ⟨fun hc => (exec_coldResetRelease h hc hs).1, fun hc => (exec_coldResetRelease h hc hs).2, fun hc _ =>
      (exec_warmResetRelease h hs).1 hc, fun hc _ => (exec_warmResetRelease h hs).2 hc⟩
  · have hpin : (s.modGlb fun g => { g with warmLow := false }) = s := modGlb_same s _ (by rw [← hw])
    exact ⟨h.ends (coldRelease_released hc) rfl rfl, h.ends ((congrArg State.startUp hpin).trans (startUp_waits (.inl hs))) rfl rfl⟩


end Sys2Proof.Safety
end


section
/-! O6: the entry of a warm reset, and what is left when it takes effect (R148, R395, R396, R404). -/

namespace Sys2Proof.Machine

/-! ### Ranks in self-refresh -/

@[simp] theorem modRank_rank_self (x : Chan) (r : Nat) (f : Rank → Rank) : (x.modRank r f).rank r = f (x.rank r) := tabGet_tabSet_self _ _ _ _

theorem modRank_rank_ne (x : Chan) {r q : Nat} (f : Rank → Rank) (h : q ≠ r) : (x.modRank r f).rank q = x.rank q :=
  tabGet_tabSet_ne _ _ _ _ _ _ h

/-- A change of some ranks touches nothing of the channel but its ranks. -/
theorem foldl_modRank_frame (f : Nat → Rank → Rank) (l : List Nat) (c : Chan) :
    ∃ t, l.foldl (fun c r => c.modRank r (f r)) c = { c with ranks := t } := by
  induction l generalizing c with
  | nil => exact ⟨c.ranks, rfl⟩
  | cons r l ih =>
    obtain ⟨t, h⟩ := ih (c.modRank r (f r))
    exact ⟨t, h⟩

/-- A change of some ranks, each once, by what each becomes. -/
theorem foldl_modRank_rank (f : Nat → Rank → Rank) (l : List Nat) (hl : l.Nodup) (c : Chan) (q : Nat) :
    (l.foldl (fun c r => c.modRank r (f r)) c).rank q = if q ∈ l then f q (c.rank q) else c.rank q := by
  induction l generalizing c with
  | nil => rfl
  | cons r l ih =>
    obtain ⟨hr, hl⟩ := List.nodup_cons.1 hl
    rw [List.foldl_cons, ih hl]
    by_cases e : q = r
    · subst e
      simp [hr]
    · simp [e, modRank_rank_ne]

/-- Ranks that enter self-refresh change nothing of the channel but its ranks and banks. -/
theorem restRanks_frame (c : Chan) (n : Nat) : ∃ t, c.restRanks n = { c with banks := [], ranks := t } := by
  obtain ⟨t, h⟩ := foldl_modRank_frame (fun _ k => { k with selfRef := true, owed := 0, due := 0, cls1 := false, makeup := false })
    (List.range n) { c with banks := [] }
  exact ⟨t, h⟩

/-- The ranks of a channel that rests are in self-refresh. -/
theorem restRanks_selfRef (c : Chan) {n r : Nat} (h : r < n) : ((c.restRanks n).rank r).selfRef = true := by
  have he := foldl_modRank_rank (fun _ k => { k with selfRef := true, owed := 0, due := 0, cls1 := false, makeup := false })
    (List.range n) List.nodup_range { c with banks := [] } r
  rw [if_pos (List.mem_range.2 h)] at he
  exact congrArg Rank.selfRef he

/-! ### The entry -/

/-- A port whose link stops for a warm reset. -/
def Port.stopped (x : Port) : Port := { x with up := false, link := .zero, cred := .zero, snpCred := 0 }

/-- A slice that a warm reset wakes where it is in RET. -/
def Slice.wokenFromRet (x : Slice) : Slice := if x.ctl.dom.a = .ret then { x with ctl := { x.ctl with waking := true } } else x

/-- The entry of a warm reset: every port stops, and every slice in RET wakes. -/
def State.warmEntering (s : State) : State :=
  ((s.modGlb fun g => { g with warmLow := true, warmEntry := true }).mapPorts fun _ => Port.stopped).mapSlices fun _ => Slice.wokenFromRet

@[simp] theorem warmEntering_port (s : State) (p : Fin 24) : s.warmEntering.port p = (s.port p).stopped := Vector.getElem_ofFn _
@[simp] theorem warmEntering_slice (s : State) (i : Fin 17) : s.warmEntering.slice i = (s.slice i).wokenFromRet := Vector.getElem_ofFn _

/-- A slice that wakes changes nothing but its wake flag. -/
theorem wokenFromRet_frame (x : Slice) : ∃ w, x.wokenFromRet = { x with ctl := { x.ctl with waking := w } } := by
  unfold Slice.wokenFromRet
  split <;> exact ⟨_, rfl⟩

theorem warmAssert_eq {s : State} (hw : s.glb.warmLow = false) (hc : s.glb.coldLow = false) : s.warmAssert = s.warmEntering := by
  unfold State.warmAssert
  rw [if_neg (by simp [hw]), if_neg (by simp [hc]), eachPort_eq _ _ (fun _ => Port.stopped) fun _ _ => rfl]
  refine eachSlice_eq _ _ _ fun v i => ?_
  generalize ({ (s.modGlb _).mapPorts _ with slices := v } : State) = t
  split
  · next h =>
    rw [State.wakeFor, modSlice_const, modSlice_const t i Slice.wokenFromRet]
    rw [beq_iff_eq] at h
    have ha : (t.slice i).asleep = true := by simp [Slice.asleep, h]
    simp [Slice.wokenFromRet, h, ha, show (Pwr.ret == Pwr.off) = false from rfl]
  · next h =>
    refine (Safety.modSlice_same t i _ (if_neg fun e => h ?_)).symm
    exact beq_iff_eq.2 e

/-! ### The end of the entry -/

/-- With one write in the controllers and nothing on the memory side of the slices, that write reaches the DRAM. -/
theorem warmWrites_one {s : State} {n : Fin 16} {w : WrEnt} (hm : Safety.memIdle s) (hn : (s.chan n).wq = [w]) (hc : w.copy = false)
    (ho : ∀ m, m ≠ n → (s.chan m).wq = []) : s.warmWrites = s.dramPut n w.cla w.l := by
  have hput : (((s.chan n).wq.filter fun w => !w.copy).foldl (fun s w => s.dramPut n w.cla w.l) s) = s.dramPut n w.cla w.l := by
    simp [hn, hc]
  have hch : s.eachChan (fun s n => ((s.chan n).wq.filter fun w => !w.copy).foldl (fun s w => s.dramPut n w.cla w.l) s) =
      s.dramPut n w.cla w.l := by
    refine (foldl_one _ s n _ (List.mem_finRange n) (List.nodup_finRange 16) (fun m hm => ?_) fun m hm => ?_).trans hput
    · simp [ho m hm]
    · rw [hput]
      simp [ho m hm]
  unfold State.warmWrites
  rw [hch]
  refine Safety.foldl_fixed _ _ _ fun i _ => ?_
  have hi : ((s.dramPut n w.cla w.l).slice i).mem.wmb = [] := (hm i).1
  simp [hi]

/-- What a warm reset leaves of a state whose writes have reached the DRAM. -/
def State.warmReset (s : State) : State :=
  { State.reset with
    pending := s.pending
    now := s.now
    wraps := s.wraps
    freeCtr := s.freeCtr
    dram := s.dram
    glb := { State.reset.glb with coldLow := false, warmLow := s.glb.warmLow, wasWarm := true }
    slices := Vector.ofFn fun i => { Slice.zero with ar := warmArrays (s.warmSource i).ar (s.slice i).ar }
    chans := Vector.ofFn fun n => (s.chan n).warm (s.ranks n)
    flt := { State.reset.flt with log := s.flt.log }
    tst := { State.reset.tst with wir := s.tst.wir }
    pins := s.pins.atReset s.edge }

theorem warmDone_eq {s : State} (h : s.glb.warmEntry = true) (hr : ∀ i, (s.slice i).ctl.dom.a ≠ .ret) :
    s.warmDone = s.warmWrites.warmReset.startUp := if_neg (by simp [h, hr])

@[simp] theorem warmReset_slice (s : State) (i : Fin 17) :
    s.warmReset.slice i = { Slice.zero with ar := warmArrays (s.warmSource i).ar (s.slice i).ar } := Vector.getElem_ofFn _
@[simp] theorem warmReset_chan (s : State) (n : Fin 16) : s.warmReset.chan n = (s.chan n).warm (s.ranks n) := Vector.getElem_ofFn _
@[simp] theorem warmReset_port (s : State) (p : Fin 24) : s.warmReset.port p = Port.zero := reset_port p

/-- Of a channel a warm reset keeps its lost-write table, its training and its contents; its ranks rest. -/
theorem warm_frame (c : Chan) (n : Nat) : ∃ t, c.warm n = { Chan.zero with
    trn := { Training.zero with res := c.trn.res }, lost := c.lost, blank := c.blank, ranks := t } := by
  obtain ⟨t, h⟩ := restRanks_frame { Chan.zero with trn := { Training.zero with res := c.trn.res }, lost := c.lost, blank := c.blank } n
  exact ⟨t, h⟩

/-- A warm reset keeps a channel's lost-write table and its results of training, and leaves it with no write and every rank resting. -/
theorem warm_keeps (c : Chan) (n : Nat) : (c.warm n).lost = c.lost ∧ (c.warm n).trn.res = c.trn.res ∧ (c.warm n).wq = [] ∧
    ∀ r < n, ((c.warm n).rank r).selfRef = true := by
  obtain ⟨t, h⟩ := warm_frame c n
  exact ⟨by rw [h], by rw [h], by rw [h]; rfl, fun r hr => restRanks_selfRef _ hr⟩

/-- A line reads after a warm reset as before. -/
theorem warmReset_dramGet (s : State) (n : Fin 16) (k : Nat) : s.warmReset.dramGet n k = s.dramGet n k := by
  have hb : ∀ m, (s.warmReset.chan m).blank = (s.chan m).blank := fun m => by
    obtain ⟨t, h⟩ := warm_frame (s.chan m) (s.ranks m)
    rw [warmReset_chan, h]
  unfold State.dramGet State.dramNone
  rw [hb]
  rfl

/-- After a warm reset start-up goes on to the fuse step, unless the warm-reset pin is low. -/
theorem warmReset_startUp (s : State) : ∃ r, s.warmReset.startUp = s.warmReset.modGlb fun g =>
    { g with stt := if s.glb.warmLow then .reset else .fuse, fuse := { g.fuse with req := r } } := by
  cases h : s.glb.warmLow with
  | true => exact ⟨0, (startUp_waits (s := s.warmReset) (.inr (.inr (.inl h)))).trans (modGlb_same s.warmReset _ rfl).symm⟩
  | false => exact ⟨s.edge, startUp_ready (s := s.warmReset) rfl rfl h rfl⟩

end Sys2Proof.Machine

namespace Sys2Proof.Safety

open Sys2Proof.Machine

variable {s : State}

/-- A warm reset leaves nothing that goes on by itself. -/
theorem quiet_warmReset (s : State) : Quiet s.warmReset where
  due := rfl
  adm h e := by simp [State.warmReset, State.reset] at e
  load := nofun
  job := trivial
  gc := nofun
  stt := ⟨nofun, nofun, nofun⟩
  msc := nofun
  sweep := rfl
  back := nofun
  net := ⟨rfl, rfl⟩
  links := rfl
  det := nofun
  reads _ h := absurd h List.not_mem_nil
  ports p := by rw [warmReset_port]; exact ⟨rfl, fun _ h => absurd h List.not_mem_nil⟩
  slices i := by rw [warmReset_slice]; exact ⟨rfl, rfl⟩
  run := nofun
  supply k hk _ := by
    have hw : s.warmReset.pdWant k = .on := by
      have hf : s.warmReset.glb.fuse.done = false := rfl
      have hd : (⟨.on, .on, .on⟩ : Domains).part k = .on := by simp [Domains.part]
      unfold State.pdWant
      dsimp only
      rw [warmReset_slice, hf, Bool.and_false, Bool.false_and, if_neg Bool.false_ne_true]
      split
      · rfl
      · split
        · rfl
        · exact hd
    exact hw.symm

/-- Nor does its start-up. -/
theorem quiet_startUp (s : State) : Quiet s.warmReset.startUp := by
  unfold State.startUp
  split
  · exact (quiet_warmReset s).fuseStep _
  · exact quiet_warmReset s

/-- In the entry of a warm reset slices that wake are all that goes on by itself, through their power requests. -/
theorem Quiet.still_warmEntering (h : Quiet s) : Still s.warmEntering :=
  { h.toStill with
    msc := fun e i => by
      have hi := h.msc e i
      obtain ⟨w, hw⟩ := wokenFromRet_frame (s.slice i)
      rw [warmEntering_slice, hw]
      exact hi
    ports := fun p => by
      have hp := h.ports p
      rw [warmEntering_port]
      exact hp
    det := fun e i hi => by
      have hd := h.det e i hi
      obtain ⟨w, hw⟩ := wokenFromRet_frame (s.slice i)
      rw [warmEntering_slice, hw]
      exact hd
    slices := fun i => by
      have hi := h.slices i
      obtain ⟨w, hw⟩ := wokenFromRet_frame (s.slice i)
      rw [warmEntering_slice, hw]
      exact hi }

/-- Settles O6: the entry stops the links alone, and what it ends with has written the one write that waited. -/
theorem warmResetKeepsLogAndMemory : Obligations.WarmResetKeepsLogAndMemory := by
  intro s h hc
  refine ⟨fun hw => ?_, fun he hr hm ⟨n, w, hn, hcp, ho⟩ => ?_⟩
  · have hend := h.still_warmEntering.ends (movePrep_of_run h.run) (warmAssert_eq hw hc) rfl rfl
    refine ⟨_, hend, ?_, ?_, fun p => ?_, fun i => ?_, ?_, ?_, ?_, ?_⟩
    · rw [setPins_glb, syncPower_glb]; rfl
    · rw [setPins_glb, syncPower_glb]; rfl
    · rw [setPins_port, syncPower_port, warmEntering_port]
      exact ⟨rfl, rfl, rfl, rfl⟩
    · rw [setPins_slice, syncPower_slice, warmEntering_slice]
      rfl
    · rw [setPins_chans, syncPower_chans]; rfl
    · rw [setPins_dram, syncPower_dram]; rfl
    · rw [setPins_regs, syncPower_regs]; rfl
    · rw [setPins_flt, syncPower_flt]; rfl
  · have hw := warmWrites_one hm hn hcp ho
    have hend : exec .warmEntryComplete s = .next (s.dramPut n w.cla w.l).warmReset.startUp.setPins := by
      refine (quiet_startUp _).ends ((warmDone_eq he hr).trans (by rw [hw])) ?_ ?_ <;>
      · obtain ⟨r, hs⟩ := warmReset_startUp (s.dramPut n w.cla w.l)
        rw [hs]
        rfl
    obtain ⟨r, hs⟩ := warmReset_startUp (s.dramPut n w.cla w.l)
    rw [hs] at hend
    refine ⟨_, hend, rfl, rfl, rfl, rfl, rfl, rfl, rfl, warmReset_port (s.dramPut n w.cla w.l), fun i => ?_, fun m v hv => ?_, fun m => ?_⟩
    · rw [setPins_slice, modGlb_slice, warmReset_slice]
      exact ⟨rfl, rfl⟩
    · obtain rfl : m = n := Classical.byContradiction fun e => by simp [ho m e] at hv
      obtain rfl : w = v := by simpa [hn] using hv
      exact ⟨(warmReset_dramGet _ _ _).trans (dramGet_dramPut_self _ _ _ _),
        fun k j hk => (warmReset_dramGet _ _ _).trans (dramGet_dramPut_ne _ _ _ _ _ _ hk)⟩
    · rw [setPins_chan, modGlb_chan, warmReset_chan]
      exact warm_keeps (s.chan m) (s.ranks m)

end Sys2Proof.Safety
end


section
/-! An operation for every unit that may do to each one of several things; and what an UNCOR event changes (R351, R374). -/

namespace Sys2Proof.Machine

/-! ### Every unit at once, by what becomes of each -/

/-- A fold that sets each element of a list of places once, each to something that is related to what it was. -/
theorem foldl_set_rel_list {σ α : Type} {n : Nat} (f : σ → Fin n → σ) (mk : Vector α n → σ) (P : Fin n → α → α → Prop)
    (h : ∀ v i, ∃ x, f (mk v) i = mk (v.set i.val x) ∧ P i v[i.val] x) (l : List (Fin n)) (hl : l.Nodup) (v : Vector α n) :
    ∃ v', l.foldl f (mk v) = mk v' ∧ ∀ i : Fin n, if i ∈ l then P i v[i.val] v'[i.val] else v'[i.val] = v[i.val] := by
  induction l generalizing v with
  | nil => exact ⟨v, rfl, fun i => rfl⟩
  | cons k l ih =>
    obtain ⟨hk, hl⟩ := List.nodup_cons.1 hl
    obtain ⟨x, hx, hp⟩ := h v k
    obtain ⟨v', hv, hall⟩ := ih hl (v.set k.val x)
    refine ⟨v', by rw [List.foldl_cons, hx, hv], fun i => ?_⟩
    have hi := hall i
    by_cases e : i = k
    · subst e
      rw [if_neg hk, Vector.getElem_set_self] at hi
      rw [if_pos List.mem_cons_self, hi]
      exact hp
    · have hne : k.val ≠ i.val := fun h => e (Fin.ext h.symm)
      rw [Vector.getElem_set_ne _ _ hne] at hi
      simpa [e] using hi

theorem foldl_set_rel {σ α : Type} {n : Nat} (f : σ → Fin n → σ) (mk : Vector α n → σ) (P : Fin n → α → α → Prop)
    (h : ∀ v i, ∃ x, f (mk v) i = mk (v.set i.val x) ∧ P i v[i.val] x) (v : Vector α n) :
    ∃ v', (List.finRange n).foldl f (mk v) = mk v' ∧ ∀ i : Fin n, P i v[i.val] v'[i.val] := by
  obtain ⟨v', hv, hall⟩ := foldl_set_rel_list f mk P h (List.finRange n) (List.nodup_finRange n) v
  exact ⟨v', hv, fun i => by simpa using hall i⟩

/-- An operation for every slice that changes its slice alone changes the slices alone, each as it does. -/
theorem eachSlice_rel (s : State) (f : State → Fin 17 → State) (P : Fin 17 → Slice → Slice → Prop)
    (h : ∀ v i, ∃ x, f { s with slices := v } i = ({ s with slices := v } : State).modSlice i (fun _ => x) ∧ P i v[i.val] x) :
    ∃ v, s.eachSlice f = { s with slices := v } ∧ ∀ i : Fin 17, P i (s.slice i) v[i.val] :=
  foldl_set_rel f (fun v => ({ s with slices := v } : State)) P h s.slices

/-- The same for ports. -/
theorem eachPort_rel (s : State) (f : State → Fin 24 → State) (P : Fin 24 → Port → Port → Prop)
    (h : ∀ v i, ∃ x, f { s with ports := v } i = ({ s with ports := v } : State).modPort i (fun _ => x) ∧ P i v[i.val] x) :
    ∃ v, s.eachPort f = { s with ports := v } ∧ ∀ i : Fin 24, P i (s.port i) v[i.val] :=
  foldl_set_rel f (fun v => ({ s with ports := v } : State)) P h s.ports

/-- The same for channels. -/
theorem eachChan_rel (s : State) (f : State → Fin 16 → State) (P : Fin 16 → Chan → Chan → Prop)
    (h : ∀ v i, ∃ x, f { s with chans := v } i = ({ s with chans := v } : State).modChan i (fun _ => x) ∧ P i v[i.val] x) :
    ∃ v, s.eachChan f = { s with chans := v } ∧ ∀ i : Fin 16, P i (s.chan i) v[i.val] :=
  foldl_set_rel f (fun v => ({ s with chans := v } : State)) P h s.chans

/-- Slices of DET homes that wake change their wake flags alone (R178). -/
theorem detWake_frame (s : State) : ∃ v, s.detWake = { s with slices := v } ∧ ∀ i : Fin 17, ∃ w f,
    v[i.val] = { s.slice i with ctl := { (s.slice i).ctl with waking := w, fromOff := f } } := by
  unfold State.detWake
  split
  · refine eachSlice_rel s _ (fun _ x y => ∃ w f, y = { x with ctl := { x.ctl with waking := w, fromOff := f } }) fun v i => ?_
    generalize hu : ({ s with slices := v } : State) = u
    have hx : u.slices[i.val] = v[i.val] := by rw [← hu]
    dsimp only
    split
    · refine ⟨_, modSlice_const _ _ _, ?_⟩
      rw [← hx]
      dsimp only
      split
      · exact ⟨_, _, rfl⟩
      · exact ⟨_, _, rfl⟩
    · exact ⟨_, (Safety.modSlice_same u i (fun _ => u.slice i) rfl).symm, by rw [← hx]; exact ⟨_, _, rfl⟩⟩
  · exact ⟨s.slices, rfl, fun i => ⟨_, _, rfl⟩⟩

/-! ### Events of fault sources -/

/-- State t is s after events of fault sources: the registers, the log, the records of the sources and the actions that are due differ. -/
def EventOnly (s t : State) : Prop :=
  ∃ r l x d, t = { s with regs := r, flt := { s.flt with log := l, src := x, due := d } }

theorem EventOnly.refl (s : State) : EventOnly s s := ⟨_, _, _, _, rfl⟩

theorem EventOnly.trans {s t u : State} (h : EventOnly s t) (h' : EventOnly t u) : EventOnly s u := by
  obtain ⟨_, _, _, _, rfl⟩ := h
  obtain ⟨r, l, x, d, rfl⟩ := h'
  exact ⟨r, l, x, d, rfl⟩

theorem EventOnly.modSrc (s : State) (n : Nat) (f : Src → Src) : EventOnly s (s.modSrc n f) := ⟨_, _, _, _, rfl⟩

theorem EventOnly.logEnt (s : State) (e : LogEnt) : EventOnly s (s.logEnt e) := by
  obtain ⟨r, l, h⟩ := logEnt_frame s e
  exact ⟨r, l, _, _, h⟩

theorem EventOnly.makeSevere (s : State) (n : Nat) : EventOnly s (s.makeSevere n) := by
  unfold State.makeSevere
  split
  · exact .refl s
  · exact ((EventOnly.modSrc s _ _).trans (.logEnt _ _)).trans ⟨_, _, _, _, rfl⟩

theorem EventOnly.corrEv (s : State) (n : Nat) (q : PartId) (pa : LineAddr) : EventOnly s (s.corrEv n q pa) := by
  unfold State.corrEv
  dsimp only
  have hs (t : State) (c : Prop) [Decidable c] : EventOnly t (if c then t.makeSevere n else t) := by
    split
    · exact .makeSevere t n
    · exact .refl t
  refine EventOnly.trans ?_ (hs _ _)
  split
  · exact (EventOnly.modSrc s _ _).trans (.logEnt _ _)
  · exact EventOnly.modSrc s _ _

theorem EventOnly.uncorEv (s : State) (n : Nat) (q : PartId) (pa : LineAddr) : EventOnly s (s.uncorEv n q pa) := by
  unfold State.uncorEv
  dsimp only
  have hl := (EventOnly.modSrc s n fun x => { (x.count1 true) with corrOnly := false }).trans (.logEnt _ ⟨0x02, BitVec.ofNat 7 n, srcAg n, q, pa, s.now⟩)
  split
  · exact hl.trans ⟨_, _, _, _, rfl⟩
  · exact hl.trans (.makeSevere _ n)

@[simp] theorem logEnt_due (s : State) (e : LogEnt) : (s.logEnt e).flt.due = s.flt.due := by
  obtain ⟨r, l, h⟩ := logEnt_frame s e
  rw [h]

@[simp] theorem count1_severe (x : Src) (u : Bool) : (x.count1 u).severe = x.severe := by
  unfold Src.count1
  repeat' split
  all_goals rfl

/-- A source that becomes severe is logged, and its action is due. -/
theorem makeSevere_of_mild {s : State} {n : Nat} (h : (s.src n).severe = false) :
    s.makeSevere n = ((s.modSrc n fun x => { x with severe := true }).log 0x03 n).modFlt fun x => { x with due := x.due ++ [n] } :=
  if_neg (by simp [h])

/-- A source that is severe is logged no more. -/
theorem makeSevere_of_severe {s : State} {n : Nat} (h : (s.src n).severe = true) : s.makeSevere n = s := if_pos h

theorem makeSevere_src (s : State) (n m : Nat) : (s.makeSevere n).src m = if m = n then { s.src n with severe := true } else s.src m := by
  cases h : (s.src n).severe with
  | true =>
    rw [makeSevere_of_severe h]
    split
    · next e => subst e; rw [← h]
    · rfl
  | false =>
    rw [makeSevere_of_mild h]
    refine (logEnt_src _ _ m).trans ?_
    split
    · next e => subst e; exact modSrc_src_self _ _ _
    · next e => exact modSrc_src_ne _ _ _ _ e

theorem makeSevere_due (s : State) (n : Nat) : (s.makeSevere n).flt.due = if (s.src n).severe then s.flt.due else s.flt.due ++ [n] := by
  cases h : (s.src n).severe with
  | true => rw [makeSevere_of_severe h]; rfl
  | false =>
    rw [makeSevere_of_mild h]
    exact congrArg (· ++ [n]) (logEnt_due _ _)

/-- Where no move leaves the source, an UNCOR event of it makes it severe. -/
theorem uncorEv_eq {s : State} {n : Nat} (q : PartId) (pa : LineAddr) (h : s.uncorLeaves n = false) :
    s.uncorEv n q pa = ((s.modSrc n fun x => { (x.count1 true) with corrOnly := false }).log 0x02 n q pa).makeSevere n :=
  if_neg (by simp [h])

/-- A source that is not severe is none that a move leaves. -/
theorem uncorLeaves_of_mild {s : State} {n : Nat} (h : (s.src n).severe = false) : s.uncorLeaves n = false := by
  simp [State.uncorLeaves, h]

/-- The record of a source after an UNCOR event that made it severe, or that found it so. -/
def Src.uncored (x : Src) : Src := { (x.count1 true) with corrOnly := false, severe := true }

theorem uncorEv_src {s : State} {n : Nat} (q : PartId) (pa : LineAddr) (h : s.uncorLeaves n = false) (m : Nat) :
    (s.uncorEv n q pa).src m = if m = n then (s.src n).uncored else s.src m := by
  rw [uncorEv_eq q pa h, makeSevere_src, State.log, logEnt_src, logEnt_src, modSrc_src_self]
  split
  · rfl
  · next e => exact modSrc_src_ne _ _ _ _ e

theorem uncorEv_due {s : State} {n : Nat} (q : PartId) (pa : LineAddr) (h : s.uncorLeaves n = false) :
    (s.uncorEv n q pa).flt.due = if (s.src n).severe then s.flt.due else s.flt.due ++ [n] := by
  rw [uncorEv_eq q pa h, makeSevere_due, State.log, logEnt_src, logEnt_due, modSrc_src_self]
  simp only [count1_severe]
  rfl

end Sys2Proof.Machine
end


section
/-! O7: the fuse step (R381, R382, R445). After a word the next one is awaited; after the last one init and training begin. -/

namespace Sys2Proof.Machine

/-- Without spare enable slice 16 loses its power, and keeps what it waits for. -/
theorem dropSpare_frame (s : State) : ∃ x, s.dropSpare = s.modSlice 16 (fun _ => x) ∧
    x.ctl.resetWait = (s.slice 16).ctl.resetWait ∧ x.ctl.autoRet = (s.slice 16).ctl.autoRet := by
  unfold State.dropSpare
  split
  · exact ⟨s.slice 16, (Safety.modSlice_same s 16 _ rfl).symm, rfl, rfl⟩
  · exact ⟨_, modSlice_const _ _ _, rfl, rfl⟩

/-- A training that starts changes its channel alone: it runs, from the DFI handshake where it is full and from the read sweep where not. -/
theorem trainStart_frame (s : State) (n : Fin 16) (full : Bool) : ∃ c, s.trainStart n full = s.modChan n (fun _ => c) ∧
    c.trn.phase = (if full then .dfi else .read) ∧ c.trn.valid = false ∧ c.trn.full = full := by
  unfold State.trainStart State.wakeRanks
  cases full <;>
  · simp only [if_true, Bool.false_eq_true, if_false]
    rw [modChan_modChan, modChan_const]
    exact ⟨_, rfl, rfl, rfl, rfl⟩

/-- What the bundle holds once a word has been taken. -/
theorem take_done (f : Fuse) (w : BitVec 32) (late : Bool) (t : Tk) (h : f.idx = 15) :
    f.take w late t = { f with words := tabSet 0 f.words 15 w, idx := 16, req := t, late := f.late || late, done := true
                               ok := ({ f with words := tabSet 0 f.words 15 w, late := f.late || late } : Fuse).check } := by
  unfold Fuse.take
  rw [h]
  rfl

theorem take_more (f : Fuse) (w : BitVec 32) (late : Bool) (t : Tk) (h : f.idx < 15) :
    f.take w late t = { f with words := tabSet 0 f.words f.idx w, idx := f.idx + 1, req := t, late := f.late || late } :=
  if_neg (by simp; omega)

/-- A late word never lets the bundle pass. -/
theorem check_late {f : Fuse} (h : f.check = true) : f.late = false := by
  simp only [Fuse.check, Bool.and_eq_true, Bool.not_eq_true'] at h
  exact h.1.1.1

/-- The substitute values of a bundle that has been read and has not passed (R382). -/
theorem substitutes {f : Fuse} (hd : f.done = true) (h : f.ok = false) : (∀ k, f.keyHash k = 0) ∧ f.maxPart = 1 ∧ f.spare = false ∧
    f.detPermit = false ∧ f.dbgLock = true ∧ f.apLock = true ∧ f.trust = 0 := by
  have hv : f.valid = false := by simp [Fuse.valid, h]
  simp [Fuse.keyHash, Fuse.maxPart, Fuse.spare, Fuse.detPermit, Fuse.dbgLock, Fuse.apLock, Fuse.trust, hv, hd]

/-- A word that is given in time, or noted as missing in its time, is taken. -/
theorem fuseWord_take {s : State} (w : BitVec 32) {late : Bool} (hs : s.glb.stt = .fuse) (hd : s.glb.fuse.done = false)
    (hl : late = false ∨ s.reached (s.glb.fuse.req + 50) = true) :
    let l := late || s.reached (s.glb.fuse.req + 51)
    let t := s.modGlb fun g => { g with fuse := g.fuse.take (if l then 0 else w) l s.edge }
    s.fuseWord w late = if t.glb.fuse.done then t.fuseDone else t :=
  if_pos (by
    obtain rfl | h := hl
    · simp [hs, hd]
    · rw [h]
      simp [hs, hd])

end Sys2Proof.Machine

namespace Sys2Proof.Safety

open Sys2Proof.Machine

variable {s : State}

/-- Before the bundle is latched, its words and its place are nothing that goes on by itself. -/
theorem Quiet.fuseTakes (h : Quiet s) (f : Fuse → Fuse) (hd : s.glb.fuse.done = false) (hf : (f s.glb.fuse).done = false) :
    Quiet (s.modGlb fun g => { g with fuse := f g.fuse }) :=
  { h with
    supply := fun k hk hm => by
      have hw : (s.modGlb fun g => { g with fuse := f g.fuse }).pdWant k = s.pdWant k := by
        unfold State.pdWant
        rw [show (s.modGlb fun g => { g with fuse := f g.fuse }).glb.fuse = f s.glb.fuse from rfl, hd, hf]
        simp only [Bool.and_false, Bool.false_and]
        rfl
      rw [hw]
      exact h.supply k hk hm }

/-- A severe network island starts nothing (R352). -/
theorem settle_srcNet (h : s.flt.due = [] ∨ s.flt.due = [srcNet]) : s.settle = (s.modFlt fun f => { f with due := [] }).settle := by
  obtain h | h := h
  · congr 1
    rw [State.modFlt, ← h]
  · exact settle_of_due h rfl rfl

/-- No move leaves a source that is no slice. -/
theorem uncorLeaves_of_ge {n : Nat} (h : 17 ≤ n) : s.uncorLeaves n = false := by
  unfold State.uncorLeaves
  split
  · next m hm =>
    have hne : (srcSlice m.src == n) = false := beq_eq_false_iff_ne.2 (by unfold srcSlice; omega)
    rw [hne, Bool.false_and, Bool.and_false]
  · exact Bool.and_false _

/-- A bundle that has not passed makes the network island severe, and nothing else happens to it. -/
theorem fuseEvent (b : State) (hb : b.flt.due = []) : ∃ r l x d, (if b.glb.fuse.ok then b else b.uncorEv srcNet) =
      { b with regs := r, flt := { b.flt with log := l, src := x, due := d } } ∧ (d = [] ∨ d = [srcNet]) ∧
      (b.glb.fuse.ok = false → (tabGet .zero x srcNet).severe = true) := by
  cases hok : b.glb.fuse.ok with
  | true => exact ⟨_, _, _, _, rfl, .inl hb, nofun⟩
  | false =>
    obtain ⟨r, l, x, d, h⟩ := EventOnly.uncorEv b srcNet 0 0
    have hl : b.uncorLeaves srcNet = false := uncorLeaves_of_ge (by decide)
    have hd := uncorEv_due 0 0 hl
    have hs := uncorEv_src 0 0 hl srcNet
    rw [h] at hd hs
    refine ⟨r, l, x, d, h, ?_, fun _ => ?_⟩
    · rw [hb] at hd
      exact (Bool.eq_false_or_eq_true (b.src srcNet).severe).imp (fun e => by rw [e] at hd; exact hd) fun e => by rw [e] at hd; exact hd
    · exact congrArg Src.severe (hs.trans (if_pos rfl))

/-- The power requests and the outputs change the pins alone. -/
theorem powerAndPins_frame (s : State) : ∃ p, s.syncPower.setPins = { s with pins := p } := by
  obtain ⟨p, hp⟩ := syncPower_frame s
  rw [hp]
  exact ⟨_, rfl⟩

/-- DET slices that wake leave a calm state calm. -/
theorem Calm.detWake (h : Calm s) : Calm s.detWake := by
  obtain ⟨v, hv, hw⟩ := detWake_frame s
  rw [hv]
  exact { h with
    slices := fun i => by
      obtain ⟨w, f, hi⟩ := hw i
      show v[i.val].ctl.resetWait = false ∧ v[i.val].ctl.autoRet = false
      rw [hi]
      exact h.slices i }

/-- In INIT, while slice 0 is not initialised, DET slices wake, power requests follow, and nothing else happens. -/
theorem Calm.settle_init (h : Calm s) (hs : s.glb.stt = .init) (h0 : (s.slice 0).ar.init ≠ 0x3FF) :
    ∃ v p, s.settle = { s with slices := v, pins := p } := by
  have hst : s.commitStep.startStep.disableStep = s := by
    rw [commitStep_of_stt fun _ => by rw [hs]; exact ⟨Stt.noConfusion, Stt.noConfusion⟩]
    have h1 : s.startStep = s := by
      have hn : s.slicesAll (fun x => x.ar.init == 0x3FF) = false := by
        rw [State.slicesAll, List.all_eq_false]
        exact ⟨0, List.mem_finRange _, fun e => h0 (by simpa [State.usableSlice] using e)⟩
      unfold State.startStep
      rw [hs]
      exact if_neg (by rw [hn]; exact Bool.false_ne_true)
    rw [h1, disableStep_of_msc fun e => by rw [hs] at e; cases e]
  obtain ⟨v, hv, -⟩ := detWake_frame s
  obtain ⟨p, hp⟩ := powerAndPins_frame s.detWake
  exact ⟨v, p, (h.settle hst rfl h.detWake).trans (hp.trans (by rw [hv]))⟩

/-- Once the last word has been taken init and every training begin, and a bundle that has not passed makes the network island severe. -/
theorem Quiet.fuseDone (h : Quiet s) (F : Fuse) (h0 : (s.slice 0).ar.init ≠ 0x3FF) :
    ∃ t, (s.modGlb fun g => { g with fuse := F }).fuseDone.settle = t ∧ t.pending = s.pending ∧ t.now = s.now ∧ t.glb.stt = .init ∧
      t.glb.fuse = F ∧ (F.ok = false → (t.src srcNet).severe = true) ∧ ∀ n, (t.chan n).trn.phase = (if s.glb.wasWarm then .read else .dfi) ∧
        (t.chan n).trn.valid = false ∧ (t.chan n).trn.full = !s.glb.wasWarm := by
  obtain ⟨a, ha⟩ : ∃ a, a = (s.modGlb fun g => { g with fuse := F }).modGlb fun g => { g with stt := .init } := ⟨_, rfl⟩
  obtain ⟨x, hx, hxw, hxr⟩ := dropSpare_frame a
  obtain ⟨r, l, sr, d, he, hd, hsev⟩ := fuseEvent (a.modSlice 16 fun _ => x) (by rw [ha]; exact h.due)
  obtain ⟨u, hu⟩ : ∃ u : State, u = { a.modSlice 16 fun _ => x with
    regs := r, flt := { (a.modSlice 16 fun _ => x).flt with log := l, src := sr, due := d } } := ⟨_, rfl⟩
  obtain ⟨v, hv, hch⟩ := eachChan_rel u (fun t n => t.trainStart n (!s.glb.wasWarm))
    (fun _ _ c => c.trn.phase = (if s.glb.wasWarm then .read else .dfi) ∧ c.trn.valid = false ∧ c.trn.full = !s.glb.wasWarm) fun v n => by
      obtain ⟨c, hc, hph, hva, hfu⟩ := trainStart_frame { u with chans := v } n (!s.glb.wasWarm)
      exact ⟨c, hc, hph.trans (by cases s.glb.wasWarm <;> rfl), hva, hfu⟩
  have hdone : (s.modGlb fun g => { g with fuse := F }).fuseDone = { u with chans := v } := by
    unfold State.fuseDone
    dsimp only
    rw [← ha, hx, he, ← hu]
    exact hv
  have hslice : ∀ i : Fin 17, (u.slice i).ctl.resetWait = false ∧ (u.slice i).ctl.autoRet = false := fun i => by
    have hi := h.slices i
    have hui : u.slice i = (a.modSlice 16 fun _ => x).slice i := by rw [hu]; rfl
    rw [hui, modSlice_slice]
    split
    · next e => subst e; rw [hxw, hxr, ha]; exact hi
    · rw [ha]; exact hi
  have hcalm : Calm (({ u with chans := v } : State).modFlt fun f => { f with due := [] }) := by
    subst hu ha
    exact { h.calm with due := rfl, slices := hslice }
  have hinit : (u.slice 0).ar.init ≠ 0x3FF := by
    have hui : u.slice 0 = (a.modSlice 16 fun _ => x).slice 0 := by rw [hu]; rfl
    rw [hui, modSlice_slice, if_neg (by decide), ha]
    exact h0
  obtain ⟨w, p, hw⟩ := hcalm.settle_init (by rw [hu, ha]; rfl) hinit
  refine ⟨_, by rw [hdone, settle_srcNet (by rw [hu]; exact hd), hw], ?_, ?_, ?_, ?_, ?_, ?_⟩ <;> subst hu ha
  · rfl
  · rfl
  · rfl
  · rfl
  · exact hsev
  · exact hch

/-- A word before the last one leaves the step waiting for the next. -/
theorem Quiet.fuseMore (h : Quiet s) (w : BitVec 32) {late : Bool} (hs : s.glb.stt = .fuse) (hd : s.glb.fuse.done = false)
    (hi : s.glb.fuse.idx < 15) (hl : late = false ∨ s.reached (s.glb.fuse.req + 50) = true) :
    let l := late || s.reached (s.glb.fuse.req + 51)
    Machine.commandEnd s (s.fuseWord w late) = .next (s.modGlb fun g => { g with fuse := { g.fuse with
      words := tabSet 0 g.fuse.words g.fuse.idx (if l then 0 else w), idx := g.fuse.idx + 1, req := s.edge, late := g.fuse.late || l } }).setPins := by
  intro l
  have ht : s.fuseWord w late = _ := fuseWord_take w hs hd hl
  have hf := take_more s.glb.fuse (if l then 0 else w) l s.edge hi
  have hq := h.fuseTakes (fun f => { f with words := tabSet 0 f.words f.idx (if l then 0 else w), idx := f.idx + 1, req := s.edge
                                            late := f.late || l }) hd hd
  refine hq.ends (ht.trans ((if_neg ?_).trans ?_)) rfl rfl
  · exact fun e => absurd (hd.symm.trans ((congrArg Fuse.done hf).symm.trans e)) Bool.false_ne_true
  · exact congrArg (fun f => { s with glb := { s.glb with fuse := f } }) hf

/-- The last word latches the bundle, and init and the training of every channel begin. -/
theorem Quiet.fuseLast (h : Quiet s) (w : BitVec 32) {late : Bool} (hs : s.glb.stt = .fuse) (hd : s.glb.fuse.done = false)
    (hi : s.glb.fuse.idx = 15) (hl : late = false ∨ s.reached (s.glb.fuse.req + 50) = true) (h0 : (s.slice 0).ar.init ≠ 0x3FF) :
    let l := late || s.reached (s.glb.fuse.req + 51)
    ∃ t, Machine.commandEnd s (s.fuseWord w late) = .next t ∧ t.glb.stt = .init ∧
      t.glb.fuse = s.glb.fuse.take (if l then 0 else w) l s.edge ∧ (t.glb.fuse.ok = false → (t.src srcNet).severe = true) ∧
      ∀ n, (t.chan n).trn.phase = (if s.glb.wasWarm then .read else .dfi) ∧ (t.chan n).trn.valid = false ∧
        (t.chan n).trn.full = !s.glb.wasWarm := by
  intro l
  have ht : s.fuseWord w late = _ := fuseWord_take w hs hd hl
  obtain ⟨t, hset, hp, hn, hst, hf, hsev, hch⟩ := h.fuseDone (s.glb.fuse.take (if l then 0 else w) l s.edge) h0
  refine ⟨t, commandEnd_settle (hset ▸ congrArg State.settle (ht.trans (if_pos ?_))) hp hn, hst, hf, by rwa [hf], hch⟩
  exact congrArg Fuse.done (take_done s.glb.fuse (if l then 0 else w) l s.edge hi)

/-- Settles O7: a word more is a step of the count, and the last one goes through `Quiet.fuseDone`. -/
theorem fuseWordsInTurn : Obligations.FuseWordsInTurn := by
  intro s w h hs hd
  refine ⟨fun hi => ⟨h.fuseMore w hs hd hi (.inl rfl), fun ht => ?_, fun ht => ?_⟩, fun hi h0 c hc => ?_⟩
  · have hm := h.fuseMore 0 hs hd hi (late := true) (.inr ht)
    simp only [Bool.true_or, if_true, Bool.or_true] at hm
    exact hm
  · exact h.ends (if_neg (by rw [ht]; simp)) rfl rfl
  · obtain ⟨W, late, hl, hex, hval, hdec⟩ : ∃ W late, (late = false ∨ s.reached (s.glb.fuse.req + 50) = true) ∧
        exec c s = Machine.commandEnd s (s.fuseWord W late) ∧ (late = decide (c = .fuseAckTimeout)) ∧ (late = false → W = w) := by
      obtain rfl | ⟨rfl, ht⟩ := hc
      · exact ⟨w, false, .inl rfl, rfl, rfl, fun _ => rfl⟩
      · exact ⟨0, true, .inr ht, rfl, rfl, nofun⟩
    obtain ⟨t, he, hst, hf, hsev, hch⟩ := h.fuseLast W hs hd hi hl h0
    have hk := take_done s.glb.fuse (if late || s.reached (s.glb.fuse.req + 51) then 0 else W) (late || s.reached (s.glb.fuse.req + 51)) s.edge hi
    rw [hk] at hf
    have hd : t.glb.fuse.done = true := by rw [hf]
    refine ⟨t, hex.trans he, hst, hd, fun hok => ?_, ?_, fun hok => ?_, hch⟩
    · rw [hf] at hok
      have hlate := check_late hok
      simp only [Bool.or_eq_false_iff, hval, decide_eq_false_iff_not] at hlate
      obtain ⟨hl, ⟨hc', hr⟩⟩ := hlate
      exact ⟨hr, hl, hc.resolve_right fun e => hc' e.1⟩
    · rw [hf]
      cases late with
      | false =>
        have hc' := of_decide_eq_false hval.symm
        simp [hdec rfl, hc']
      | true =>
        have hc' := of_decide_eq_true hval.symm
        simp [hc']
    · obtain ⟨a, b, c, d, e, f, g⟩ := substitutes hd hok
      exact ⟨a, b, c, d, e, f, g, hsev hok⟩

end Sys2Proof.Safety
end


section
/-! Rules that many commands of the ports and of the fault block share: counting a stale message, a flit taken, snoops that leave, and the
answer area of a port in which nothing waits for a line. -/

namespace Sys2Proof.Machine

/-- What a change of a partition's part of the table leaves of the others, and of its own. -/
theorem modPart_part (s : State) (q r : PartId) (f : Part → Part) : (s.modPart q f).part r = if r = q then f (s.part q) else s.part r := by
  split
  · next h => rw [h, modPart_part_self]
  · next h => exact modPart_part_ne s q r f h

@[simp] theorem staleMsg_st (s : State) (q r : PartId) : ((s.staleMsg q).part r).st = (s.part r).st := by
  unfold State.staleMsg
  rw [modPart_part]
  split
  · next h => rw [h]; split <;> rfl
  · rfl

@[simp] theorem staleMsg_gen (s : State) (q r : PartId) : ((s.staleMsg q).part r).gen = (s.part r).gen := by
  unfold State.staleMsg
  rw [modPart_part]
  split
  · next h => rw [h]; split <;> rfl
  · rfl

/-- A flit taken out of a channel of the link. -/
@[simp] theorem linkTake_part (s : State) (p : Fin 24) (c : PortChan) (q : PartId) : (s.linkTake p c).part q = s.part q := rfl

/-- Where no snoop waits for a line of the answer area, none takes one. -/
theorem bindArea_of_none (s : State) (p : Fin 24) (h : ∀ g ∈ (s.port p).egress, g.waitsArea = false) : s.bindArea p = s := by
  have hn : (s.port p).egress.filter EgSnp.waitsArea = [] := List.filter_eq_nil_iff.2 fun g hg => by simp [h g hg]
  unfold State.bindArea
  dsimp only
  rw [hn, List.take_nil]
  rfl

/-- Where no snoop waits for a line of the answer area, one that is dropped leaves the others as they are. -/
theorem dropSnoop_of_none (s : State) (p : Fin 24) (g : EgSnp) (h : ∀ k ∈ (s.port p).egress, k.waitsArea = false) :
    s.dropSnoop p g = s.modPort p fun x => { x with egress := x.egress.erase g } :=
  bindArea_of_none _ _ fun k hk => by
    rw [modPort_port_self] at hk
    exact h k (List.mem_of_mem_erase hk)

/-- A snoop offered to a link that is up joins its channel; no allowance is taken out, as none of the flits that leave is an answer. -/
theorem offer_snp (s : State) (p : Fin 24) (f : SnpFlit) (hu : (s.port p).up = true) (hw : ∀ k ∈ (s.port p).link.snp.waiting, ∃ f, k = .snp f) :
    s.offer p (.snp f) = s.modPort p fun x => { x with link := { x.link with snp := x.link.snp.push (.snp f) } } := by
  unfold State.offer
  rw [if_pos hu, modPort_const, modPort_const s p fun x => { x with link := { x.link with snp := x.link.snp.push (.snp f) } }]
  congr 1
  funext _
  refine Safety.foldl_fixed _ _ _ fun k hk => ?_
  obtain hk | hk := List.mem_append.1 (List.mem_of_mem_take hk)
  · obtain ⟨g, rfl⟩ := hw k hk
    rfl
  · rw [List.mem_singleton.1 hk]
    rfl

end Sys2Proof.Machine

namespace Sys2Proof.Safety

open Sys2Proof.Machine

variable {s : State}

/-- What is counted of a partition is nothing that goes on by itself. -/
theorem Quiet.modPart (h : Quiet s) (q : PartId) (f : Part → Part) (hs : (f (s.part q)).st = (s.part q).st) (hg : (f (s.part q)).gen = (s.part q).gen) :
    Quiet (s.modPart q f) :=
  { h with
    ports := fun p => by
      refine ⟨(h.ports p).1, fun k hk => ⟨((h.ports p).2 k hk).1, ?_⟩⟩
      have hk := ((h.ports p).2 k hk).2
      have hq : ((s.modPart q f).part k.a.part).st = (s.part k.a.part).st ∧ ((s.modPart q f).part k.a.part).gen = (s.part k.a.part).gen := by
        rw [modPart_part]
        split
        · next e => rw [e]; exact ⟨hs, hg⟩
        · exact ⟨rfl, rfl⟩
      unfold State.heldReady at hk ⊢
      rw [hq.1, hq.2]
      exact hk }

theorem Quiet.staleMsg (h : Quiet s) (q : PartId) : Quiet (s.staleMsg q) := by
  refine h.modPart q _ ?_ ?_ <;> split <;> rfl

/-- A flit that is taken changes its link alone. -/
theorem Quiet.linkTake (h : Quiet s) (p : Fin 24) (c : PortChan) : Quiet (s.linkTake p c) := h.modPort p _ rfl fun _ => .inl

end Sys2Proof.Safety
end


section
/-! O20, O25 and O50: buckets, credit pulses, snoops that leave, the fault log and the heartbeat. -/

namespace Sys2Proof.Machine

theorem bucketKey_inj {q q' : PartId} {c c' : Bool} (h : bucketKey q' c' = bucketKey q c) : (q', c') = (q, c) := by
  unfold bucketKey at h
  have hc : c' = c := by cases c <;> cases c' <;> simp at h ⊢ <;> omega
  subst hc
  have hq : q'.toNat = q.toNat := by omega
  rw [BitVec.eq_of_toNat_eq hq]

/-- The level of a bucket after a change of one. -/
theorem setBucket_bucket (x : Port) (q q' : PartId) (c c' : Bool) (v : Nat) :
    (x.setBucket q c v).bucket q' c' = if (q', c') = (q, c) then v else x.bucket q' c' := by
  unfold Port.setBucket Port.bucket
  split
  · next h =>
    obtain ⟨rfl, rfl⟩ := Prod.mk.inj h
    exact tabGet_tabSet_self _ _ _ _
  · next h => exact tabGet_tabSet_ne _ _ _ _ _ _ fun e => h (bucketKey_inj e)

theorem popDue_cons (q : PartId) (n : Nat) (l : List (PartId × Nat)) : popDue ((q, n) :: l) = (some q, if n ≤ 1 then l else (q, n - 1) :: l) :=
  (apply_ite (some q, ·) (n ≤ 1) l ((q, n - 1) :: l)).symm

/-- What becomes of the next snoop of a port whose link is up and in which none waits for a line of the answer area. -/
theorem snoopSend_next {s : State} {p : Fin 24} {g : EgSnp} (hu : (s.port p).up = true) (hn : (s.port p).nextSnoop = some g)
    (hw : ∀ k ∈ (s.port p).egress, k.waitsArea = false) (hs : ∀ k ∈ (s.port p).link.snp.waiting, ∃ f, k = .snp f) :
    s.snoopSend p = if s.agFenced g.f.dst then s.modPort p fun x => { x with egress := x.egress.erase g }
      else if !g.f.anon && g.f.rgen != (s.part g.f.rpart).gen then
        (s.modPort p fun x => { x with egress := x.egress.erase g }).staleMsg g.f.rpart
      else if (s.port p).snpCred = 0 then s
      else s.modPort p fun x =>
        { x with snpCred := x.snpCred - 1, link := { x.link with snp := x.link.snp.push (.snp g.f) }
                 egress := if g.f.op = .qNotify then x.egress.erase g
                           else x.egress.map fun k => if k = g then { k with sent := true } else k } := by
  have ho : (s.modPort p fun x => { x with snpCred := x.snpCred - 1 }).offer p (.snp g.f) = _ :=
    (offer_snp _ p g.f (by simpa using hu) (by simpa using hs)).trans (modPort_modPort _ _ _ _)
  simp only [State.snoopSend, hu, hn, Bool.not_true, Bool.false_eq_true, if_false, ho, dropSnoop_of_none s p g hw]
  congr 3
  split
  · rw [dropSnoop_of_none _ _ _ (by simpa using hw), modPort_modPort]
  · rw [modPort_modPort]
    simp only [beq_iff_eq]

end Sys2Proof.Machine

namespace Sys2Proof.Safety

open Sys2Proof.Machine

/-- Settles O20: the pc of the credit signals is one change of the port, and a refill is one of its bucket. -/
theorem bucketsRefillAndCreditsReturn : Obligations.BucketsRefillAndCreditsReturn := by
  refine ⟨fun s p q c h hf => ?_, fun s p q c h hf => ?_, fun s p h hu => ?_⟩
  · refine ⟨_, (h.modPort p _ rfl fun _ => .inl).ends ((if_pos hf).trans (modPort_const _ _ _)) rfl rfl, ?_, fun q' c' hn => ?_, rfl, rfl, rfl, rfl⟩
    · exact (setBucket_bucket _ _ _ _ _ _).trans (if_pos rfl)
    · exact (setBucket_bucket _ _ _ _ _ _).trans (if_neg hn)
  · exact h.ends (if_neg (by rw [hf]; exact Bool.false_ne_true)) rfl rfl
  · refine ⟨{ (s.port p).cred with reqDue := (popDue (s.port p).cred.reqDue).2, datDue := (popDue (s.port p).cred.datDue).2
                                   reqPulse := (popDue (s.port p).cred.reqDue).1, datPulse := (popDue (s.port p).cred.datDue).1 },
      (h.modPort p _ rfl fun _ => .inl).ends (if_neg (by rw [hu]; exact Bool.false_ne_true)) rfl rfl, rfl, rfl, fun hr => ?_, fun hd => ?_,
      fun q n l hr => ?_, fun q n l hd => ?_⟩ <;> dsimp only
    · rw [hr]; exact ⟨rfl, rfl⟩
    · rw [hd]; exact ⟨rfl, rfl⟩
    · rw [hr, popDue_cons]; exact ⟨rfl, rfl⟩
    · rw [hd, popDue_cons]; exact ⟨rfl, rfl⟩

/-- Settles O25: each way a snoop leaves is one change of the port, as none waits for a line of the answer area. -/
theorem snoopsLeaveForCredits : Obligations.SnoopsLeaveForCredits := by
  intro s p g h hu hn hw hs
  have he := snoopSend_next hu hn hw hs
  have hq : Quiet (s.modPort p fun x => { x with egress := x.egress.erase g }) := h.modPort p _ rfl fun _ => .inl
  refine ⟨fun hf => hq.ends (he.trans (if_pos hf)) rfl rfl, fun hf hg => ?_, fun hf ha hg => ?_⟩ <;>
    rw [if_neg (by rw [hf]; exact Bool.false_ne_true)] at he
  · rw [if_neg (by simpa [or_iff_not_imp_left] using hg)] at he
    exact ⟨fun hc => h.ends (he.trans (if_pos hc)) rfl rfl,
      fun hc => (h.modPort p _ rfl fun _ => .inl).ends (he.trans (if_neg hc)) rfl rfl⟩
  · exact (hq.staleMsg _).ends (he.trans (if_pos (by simp [ha, hg]))) rfl rfl

/-- Settles O50. -/
theorem logsAndHeartbeat : Obligations.LogsAndHeartbeat := by
  intro s h
  refine ⟨(h.modFlt _ rfl rfl).ends rfl rfl rfl, (h.modChan _ _).ends rfl rfl rfl, fun he hn => (h.modFlt _ rfl rfl).ends ?_ rfl rfl⟩
  unfold State.heartbeat
  rw [he, hn]
  simp only [State.modFlt]
  cases s.standing.isEmpty <;> rfl

end Sys2Proof.Safety
end


section
/-! Rules for the status of a command (R377 to R379) and for the count of commands that have ended (R380). -/

namespace Sys2Proof.Machine

/-- A command that is accepted finds none running and brings another SEQ. -/
theorem accepts_iff (c : CmdSt) (seq : BitVec 8) : c.accepts seq = true ↔ c.res ≠ .running ∧ seq ≠ c.rseq := by
  simp [CmdSt.accepts]

/-- An abort ends the command that runs, where it has an abort point. -/
theorem tryAbort_running {c : CmdSt} {seq : BitVec 8} (hs : seq ≠ c.rseq) (hr : c.res = .running) : c.tryAbort seq true = (c.abort, true) := by
  simp [CmdSt.tryAbort, hs, hr]

/-- An abort that finds no command reads NOTHING. -/
theorem tryAbort_nothing {c : CmdSt} {seq : BitVec 8} (can : Bool) (hs : seq ≠ c.rseq) (hr : c.res ≠ .running) :
    c.tryAbort seq can = (c.nothingAt seq, false) := by
  simp [CmdSt.tryAbort, hs, hr]

/-- A command ends completed where no abort was held. -/
theorem complete_of_none {c : CmdSt} (h : c.held = none) : c.complete = { c with res := .completed } := by
  rw [CmdSt.complete, h]

/-- The count of ended commands is all that one more of them changes. -/
theorem done_frame (s : State) (page : Nat) : ∃ r, s.done page = { s with regs := r } := by
  unfold State.done
  dsimp only
  split_ifs <;> exact ⟨_, rfl⟩

variable (s : State) (page : Nat)

@[simp] theorem done_pending : (s.done page).pending = s.pending := by obtain ⟨r, h⟩ := done_frame s page; rw [h]
@[simp] theorem done_now : (s.done page).now = s.now := by obtain ⟨r, h⟩ := done_frame s page; rw [h]
@[simp] theorem done_glb : (s.done page).glb = s.glb := by obtain ⟨r, h⟩ := done_frame s page; rw [h]
@[simp] theorem done_ports : (s.done page).ports = s.ports := by obtain ⟨r, h⟩ := done_frame s page; rw [h]
@[simp] theorem done_slices : (s.done page).slices = s.slices := by obtain ⟨r, h⟩ := done_frame s page; rw [h]
@[simp] theorem done_chans : (s.done page).chans = s.chans := by obtain ⟨r, h⟩ := done_frame s page; rw [h]
@[simp] theorem done_dram : (s.done page).dram = s.dram := by obtain ⟨r, h⟩ := done_frame s page; rw [h]
@[simp] theorem done_noc : (s.done page).noc = s.noc := by obtain ⟨r, h⟩ := done_frame s page; rw [h]
@[simp] theorem done_flt : (s.done page).flt = s.flt := by obtain ⟨r, h⟩ := done_frame s page; rw [h]
@[simp] theorem done_par : (s.done page).par = s.par := by obtain ⟨r, h⟩ := done_frame s page; rw [h]
@[simp] theorem done_svc : (s.done page).svc = s.svc := by obtain ⟨r, h⟩ := done_frame s page; rw [h]
@[simp] theorem done_tst : (s.done page).tst = s.tst := by obtain ⟨r, h⟩ := done_frame s page; rw [h]
@[simp] theorem done_csr : (s.done page).csr = s.csr := by obtain ⟨r, h⟩ := done_frame s page; rw [h]
@[simp] theorem done_port (p : Fin 24) : (s.done page).port p = s.port p := by obtain ⟨r, h⟩ := done_frame s page; rw [h]; rfl
@[simp] theorem done_slice (i : Fin 17) : (s.done page).slice i = s.slice i := by obtain ⟨r, h⟩ := done_frame s page; rw [h]; rfl
@[simp] theorem done_chan (n : Fin 16) : (s.done page).chan n = s.chan n := by obtain ⟨r, h⟩ := done_frame s page; rw [h]; rfl
@[simp] theorem done_src (n : Nat) : (s.done page).src n = s.src n := by obtain ⟨r, h⟩ := done_frame s page; rw [h]; rfl
@[simp] theorem done_part (q : PartId) : (s.done page).part q = s.part q := by obtain ⟨r, h⟩ := done_frame s page; rw [h]; rfl

end Sys2Proof.Machine

namespace Sys2Proof.Safety

open Sys2Proof.Machine

variable {s : State}

/-- A command that changes one channel. -/
theorem Quiet.endsChan {t : State} {n : Fin 16} {f : Chan → Chan} (h : Quiet s) (ht : t = s.modChan n f) :
    Machine.commandEnd s t = .next (s.modChan n fun _ => f (s.chan n)).setPins := (h.modChan n _).ends (ht.trans (modChan_const _ _ _)) rfl rfl

/-- Counting one more command that has ended. -/
theorem Quiet.endsDone {t u : State} (h : Quiet u) (page : Nat) (ht : t = u.done page) (hp : u.pending = s.pending) (hn : u.now = s.now) :
    Machine.commandEnd s t = .next (u.done page).setPins := (h.done page).ends ht (by rw [done_pending, hp]) (by rw [done_now, hn])

end Sys2Proof.Safety
end


section
/-! O42: training (R275, R276). -/

namespace Sys2Proof.Machine

/-- A channel as its full training begins (R275). -/
def Chan.trainFull (c : Chan) : Chan :=
  let t : Training := { c.trn with
    phase := .dfi, full := true, rank := 0, lane := 0, code := 0, passed := [], lateCodes := [], fail := false, failRank := 0, valid := false, res := [] }
  { c with refOn := false, trn := t, initStart := true, dly := t.pins }

theorem trainStart_full (s : State) (n : Fin 16) : s.trainStart n true = s.modChan n Chan.trainFull := by
  simp only [State.trainStart, if_true, modChan_modChan]
  rfl

/-- Before the last lane the next setting is the next lane's, at the same code. -/
theorem next_lane {t : Training} (ranks minEye : Nat) (h : t.lane < 9) : t.next ranks minEye = { t with lane := t.lane + 1 } := if_pos h

/-- What a setting that is answered leaves of the sweep, before the last lane. -/
theorem delayDone_lane {s : State} {n : Fin 16} (pass late : Bool) (hp : (s.chan n).trn.phase = .read ∨ (s.chan n).trn.phase = .write)
    (hc : (s.chan n).trn.code < 127) (hl : (s.chan n).trn.lane < 9) :
    s.delayDone n pass late = s.modChan n fun c =>
      let t := if late then { c.trn with lateCodes := c.trn.lateCodes ++ [c.trn.code] }
        else if pass then { c.trn with passed := c.trn.passed ++ [128 * c.trn.lane + c.trn.code] } else c.trn
      let t := { t with lane := t.lane + 1 }
      { c with trn := t, dly := { t.pins with vld := false } } := by
  have hs : (s.chan n).trn.sweeps = true := by
    unfold Training.sweeps
    obtain hp | hp := hp <;> rw [hp] <;> rfl
  unfold State.delayDone
  dsimp only
  rw [if_pos hs, if_neg (by omega), modChan_const, next_lane _ _ (by cases late <;> cases pass <;> exact hl)]
  cases late <;> cases pass <;> rfl

end Sys2Proof.Machine

namespace Sys2Proof.Safety

open Sys2Proof.Machine

/-- Settles O42: each step of a training is one change of its channel. -/
theorem trainingGoesOn : Obligations.TrainingGoesOn := by
  intro s n seq pass h
  refine ⟨fun ha hf hp h1 h2 => ?_, fun hp => ?_, fun hp hc hl => ⟨?_, ?_⟩, fun hp hfu hfa hr hs => ?_, fun hr hs => ?_⟩
  · have hgo : ((s.chFenced n || !s.glb.everEnabled) && (s.chan n).trn.phase == .idle && s.glb.stt != .reset && s.glb.stt != .fuse) = true := by
      simpa [hp, h1, h2] using hf
    have ht : s.trainCmd n seq = s.modChan n _ :=
      (if_neg (by rw [ha]; exact Bool.false_ne_true)).trans ((if_pos hgo).trans ((trainStart_full _ n).trans (modChan_modChan _ _ _ _)))
    exact ⟨_, h.endsChan ht, rfl, rfl, rfl, rfl, rfl, rfl, rfl, rfl, rfl, rfl, rfl⟩
  · exact ⟨_, h.endsChan (if_pos hp), rfl, rfl, rfl⟩
  · refine ⟨_, h.endsChan (delayDone_lane pass false hp hc hl), ?_⟩
    cases pass <;> exact ⟨rfl, rfl, rfl, rfl, rfl, rfl⟩
  · exact ⟨_, h.endsChan (delayDone_lane false true hp hc hl), rfl, rfl, rfl, rfl⟩
  · have he : s.trainEnd n = (s.modChan n fun c => { c with trn := { c.trn with phase := .idle, valid := true }, dly := ⟨false, 0, 0, false, 0⟩ }, true) := by
      simp [State.trainEnd, hp, hfu, hfa]
    have ht : s.trainDone n = s.modChan n fun c => { c with trn := { c.trn with phase := .idle, valid := true }, dly := ⟨false, 0, 0, false, 0⟩ } := by
      simp [State.trainDone, he, hr, hs]
    exact ⟨_, h.endsChan ht, rfl, rfl⟩
  · refine Quiet.endsDone (h.modChan n _) _ ?_ rfl rfl
    unfold State.trainAbort
    rw [tryAbort_running hs hr]
    simp only [if_true, State.modTrn, modChan_modChan]
    rfl

end Sys2Proof.Safety
end


section
/-! A CORR event that leaves its source below the count of FLT_SEVCFG (R351), for a partition and a line. -/

/-! ### What events leave -/

namespace Sys2Proof.Machine

theorem EventOnly.setReg (s : State) (n w : Nat) (v : BitVec 32) : EventOnly s (s.setReg n w v) := ⟨_, _, _, _, rfl⟩
theorem EventOnly.bump (s : State) (n o hi lo : Nat) : EventOnly s (s.bump n o hi lo) := by
  obtain ⟨r, h⟩ := bump_frame s n o hi lo
  exact ⟨r, _, _, _, h⟩
theorem EventOnly.errCount (s : State) (n : Fin 16) (lo : Nat) : EventOnly s (s.errCount n lo) := .bump _ _ _ _ _
theorem EventOnly.done (s : State) (page : Nat) : EventOnly s (s.done page) := by
  obtain ⟨r, h⟩ := done_frame s page
  exact ⟨r, _, _, _, h⟩
theorem EventOnly.log (s : State) (ty : BitVec 8) (n : Nat) (q : PartId) (pa : LineAddr) : EventOnly s (s.log ty n q pa) := .logEnt _ _

variable {s t : State}

theorem EventOnly.pending (h : EventOnly s t) : t.pending = s.pending := by obtain ⟨r, l, x, d, rfl⟩ := h; rfl
theorem EventOnly.now (h : EventOnly s t) : t.now = s.now := by obtain ⟨r, l, x, d, rfl⟩ := h; rfl
theorem EventOnly.wraps (h : EventOnly s t) : t.wraps = s.wraps := by obtain ⟨r, l, x, d, rfl⟩ := h; rfl
theorem EventOnly.freeCtr (h : EventOnly s t) : t.freeCtr = s.freeCtr := by obtain ⟨r, l, x, d, rfl⟩ := h; rfl
theorem EventOnly.passNo (h : EventOnly s t) : t.passNo = s.passNo := by obtain ⟨r, l, x, d, rfl⟩ := h; rfl
theorem EventOnly.glb (h : EventOnly s t) : t.glb = s.glb := by obtain ⟨r, l, x, d, rfl⟩ := h; rfl
theorem EventOnly.ports (h : EventOnly s t) : t.ports = s.ports := by obtain ⟨r, l, x, d, rfl⟩ := h; rfl
theorem EventOnly.slices (h : EventOnly s t) : t.slices = s.slices := by obtain ⟨r, l, x, d, rfl⟩ := h; rfl
theorem EventOnly.chans (h : EventOnly s t) : t.chans = s.chans := by obtain ⟨r, l, x, d, rfl⟩ := h; rfl
theorem EventOnly.dram (h : EventOnly s t) : t.dram = s.dram := by obtain ⟨r, l, x, d, rfl⟩ := h; rfl
theorem EventOnly.noc (h : EventOnly s t) : t.noc = s.noc := by obtain ⟨r, l, x, d, rfl⟩ := h; rfl
theorem EventOnly.par (h : EventOnly s t) : t.par = s.par := by obtain ⟨r, l, x, d, rfl⟩ := h; rfl
theorem EventOnly.svc (h : EventOnly s t) : t.svc = s.svc := by obtain ⟨r, l, x, d, rfl⟩ := h; rfl
theorem EventOnly.tst (h : EventOnly s t) : t.tst = s.tst := by obtain ⟨r, l, x, d, rfl⟩ := h; rfl
theorem EventOnly.csr (h : EventOnly s t) : t.csr = s.csr := by obtain ⟨r, l, x, d, rfl⟩ := h; rfl
theorem EventOnly.pins (h : EventOnly s t) : t.pins = s.pins := by obtain ⟨r, l, x, d, rfl⟩ := h; rfl
theorem EventOnly.port (h : EventOnly s t) (p : Fin 24) : t.port p = s.port p := by obtain ⟨r, l, x, d, rfl⟩ := h; rfl
theorem EventOnly.slice (h : EventOnly s t) (i : Fin 17) : t.slice i = s.slice i := by obtain ⟨r, l, x, d, rfl⟩ := h; rfl
theorem EventOnly.chan (h : EventOnly s t) (n : Fin 16) : t.chan n = s.chan n := by obtain ⟨r, l, x, d, rfl⟩ := h; rfl
theorem EventOnly.part (h : EventOnly s t) (q : PartId) : t.part q = s.part q := by obtain ⟨r, l, x, d, rfl⟩ := h; rfl
theorem EventOnly.run (h : EventOnly s t) : t.flt.run = s.flt.run := by obtain ⟨r, l, x, d, rfl⟩ := h; rfl
theorem EventOnly.cmd (h : EventOnly s t) : t.flt.cmd = s.flt.cmd := by obtain ⟨r, l, x, d, rfl⟩ := h; rfl

end Sys2Proof.Machine

namespace Sys2Proof.Safety

open Sys2Proof.Machine

variable {s t : State} {n : Nat}

/-- Whether an event is mild is a question of its source, of the time and of FLT_SEVCFG. -/
theorem mild_congr (hs : t.src n = s.src n) (hn : t.now = s.now) (hr : t.reg 59 0x40 = s.reg 59 0x40) (h : mild s n) : mild t n := by
  have hf : ∀ hi lo, t.fld 59 0x100 hi lo = s.fld 59 0x100 hi lo := fun hi lo => by
    show ((t.reg 59 0x40).toNat >>> lo) % _ = ((s.reg 59 0x40).toNat >>> lo) % _
    rw [hr]
  have hw : t.sevWindow = s.sevWindow := congrArg (100 * ·) (hf 23 0)
  have hc : corrCount t n = corrCount s n := by
    unfold corrCount firstOfWindow State.since
    rw [hs, hn, hw]
  unfold mild
  rw [hc, hf]
  exact h

/-- What a mild event does. -/
theorem corrEv_of_mild (q : PartId) (pa : LineAddr) (h : mild s n) : s.corrEv n q pa =
    (let t := s.modSrc n fun x => { (x.count1 false) with count := corrCount s n, ws := if firstOfWindow s n then s.now else x.ws }
     if firstOfWindow s n then t.log 0x01 n q pa else t) := by
  have hl : ¬ s.fld 59 0x100 31 24 ≤ corrCount s n := Nat.not_le.2 h
  exact (if_neg hl).trans rfl

/-- A mild event is counted, may be logged, and changes nothing else. -/
theorem corrEv_mild_frame (q : PartId) (pa : LineAddr) (h : mild s n) : ∃ r l x,
    s.corrEv n q pa = { s with regs := r, flt := { s.flt with log := l, src := x } } ∧
      (tabGet .zero x n).corr = ((s.src n).count1 false).corr ∧ (tabGet .zero x n).severe = (s.src n).severe ∧
      ∀ k, k ≠ n → tabGet .zero x k = s.src k := by
  rw [corrEv_of_mild q pa h]
  dsimp only
  obtain ⟨t, ht⟩ : ∃ t, t = s.modSrc n fun x =>
      { (x.count1 false) with count := corrCount s n, ws := if firstOfWindow s n then s.now else x.ws } := ⟨_, rfl⟩
  have hn : (t.src n).corr = ((s.src n).count1 false).corr ∧ (t.src n).severe = (s.src n).severe := by
    rw [ht, modSrc_src_self]
    exact ⟨rfl, count1_severe _ _⟩
  have hk : ∀ k, k ≠ n → t.src k = s.src k := fun k e => by rw [ht]; exact modSrc_src_ne _ _ _ _ e
  rw [← ht]
  split
  · obtain ⟨r, l, hl⟩ := logEnt_frame t ⟨0x01, BitVec.ofNat 7 n, srcAg n, q, pa, t.now⟩
    exact ⟨r, l, t.flt.src, (by rw [State.log, hl, ht]; rfl), hn.1, hn.2, hk⟩
  · exact ⟨_, t.flt.log, t.flt.src, (by rw [ht]; rfl), hn.1, hn.2, hk⟩

theorem Quiet.corrEvOf (h : Quiet s) (q : PartId) (pa : LineAddr) (hm : mild s n) : Quiet (s.corrEv n q pa) := by
  rw [corrEv_of_mild q pa hm]
  dsimp only
  split
  · exact (h.modSrc _ _).logEnt _
  · exact h.modSrc _ _

end Sys2Proof.Safety
end


section
/-! O40: refresh, temperature polls and alerts (R272 to R274, R282, R283). -/

namespace Sys2Proof.Machine

@[simp] theorem bump_src (s : State) (n o hi lo k : Nat) : (s.bump n o hi lo).src k = s.src k := by
  rw [State.src, bump_flt]
  rfl
@[simp] theorem errCount_src (s : State) (n : Fin 16) (lo k : Nat) : (s.errCount n lo).src k = s.src k := bump_src _ _ _ _ _ _

end Sys2Proof.Machine

namespace Sys2Proof.Safety

open Sys2Proof.Machine

variable {s : State}

theorem Quiet.errCount (h : Quiet s) (n : Fin 16) (lo : Nat) : Quiet (s.errCount n lo) :=
  h.bump _ _ _ _ (by unfold watched dchPage; omega)

/-- A count of a channel's error register leaves the configuration of the fault block alone. -/
theorem mild_errCount {k : Nat} (n : Fin 16) (lo : Nat) (h : mild s k) : mild (s.errCount n lo) k :=
  mild_congr (errCount_src _ _ _ _) (EventOnly.errCount s n lo).now (bump_reg_ne _ _ _ _ _ _ _ (by unfold dchPage; omega)) h

/-- A mild event is counted once. -/
theorem corrEv_mild_src {n : Nat} (q : PartId) (pa : LineAddr) (h : mild s n) : ((s.corrEv n q pa).src n).corr = ((s.src n).count1 false).corr := by
  obtain ⟨r, l, x, he, hc, -⟩ := corrEv_mild_frame q pa h
  rw [he]
  exact hc

/-- Settles O40: a refresh or a poll is one change of its channel; an alert is a CORR event between two of them. -/
theorem refreshAndAlerts : Obligations.RefreshAndAlerts := by
  refine ⟨fun s n r hot h hr => ⟨fun hs hf hd => ?_, fun ho hq hi => ?_, fun hf hp => ?_⟩, fun s n r ok h hm hk => ?_⟩
  · refine (h.modChan n _).ends (if_neg ?_) rfl rfl
    simp [hs, hf]
    omega
  · exact (h.modChan n _).ends (if_pos (by simp [hr, ho, hq, hi])) rfl rfl
  · exact (h.modChan n _).ends (if_pos (by simp [State.mr4Due, hf, hp])) rfl rfl
  · obtain ⟨pa, hpa⟩ : ∃ pa, pa = (tabGet (0, false) (s.chan n).lastCmd r.val).1 := ⟨_, rfl⟩
    obtain ⟨sub, hsub⟩ : ∃ sub, sub = (tabGet (0, false) (s.chan n).lastCmd r.val).2 := ⟨_, rfl⟩
    obtain ⟨u, hu⟩ : ∃ u, u = (s.errCount n 0).modChan n fun c => { c with elog := c.elog.record 2 0xF (BitVec.ofNat 2 r.val) sub pa } := ⟨_, rfl⟩
    have hm' : mild u (srcChan n) := hu ▸ (mild_errCount n 0 hm : mild (s.errCount n 0) (srcChan n))
    have hq : Quiet u := hu ▸ (h.errCount n 0).modChan n _
    have hs := EventOnly.errCount s n 0
    have he := EventOnly.corrEv u (srcChan n) 0 pa
    have hun : u.chan n = { s.chan n with elog := (s.chan n).elog.record 2 0xF (BitVec.ofNat 2 r.val) sub pa } := by
      rw [hu, modChan_chan_self, hs.chan]
    have hum : ∀ m, m ≠ n → u.chan m = s.chan m := fun m hm => by rw [hu, modChan_chan_ne _ _ hm, hs.chan]
    have ht : s.alertEv n r.val ok = (u.corrEv (srcChan n) 0 pa).modChan n fun c => { c with
        replays := tabSet 0 c.replays r.val (if ok then 0 else tabGet 0 (s.chan n).replays r.val + 1) } := by
      have h2 : (tabGet 0 (s.chan n).replays r.val == 2) = false := beq_false_of_ne (by omega)
      unfold State.alertEv
      dsimp only
      rw [← hpa, ← hsub, ← hu, he.chan, hun, h2]
      simp
    refine ⟨_, ((hq.corrEvOf 0 pa hm').modChan n _).ends ht ?_ ?_, ?_⟩
    · rw [modChan_pending, he.pending, hu, modChan_pending, hs.pending]
    · rw [modChan_now, he.now, hu, modChan_now, hs.now]
    rw [setPins_chan, modChan_chan_self, he.chan, hun]
    refine ⟨tabGet_tabSet_self _ _ _ _, fun q hq => tabGet_tabSet_ne _ _ _ _ _ _ hq, by rw [hpa, hsub], ?_, rfl, rfl, fun m hm => ?_, ?_⟩
    · rw [setPins_src, modChan_src, corrEv_mild_src 0 pa hm', hu, modChan_src, errCount_src]
    · rw [setPins_chan, modChan_chan_ne _ _ hm, he.chan, hum m hm]
    · subst hu
      simp only [setPins_slices, setPins_dram, setPins_ports, setPins_glb, setPins_par, modChan_slices, modChan_dram, modChan_ports, modChan_glb,
        modChan_par, he.slices, he.dram, he.ports, he.glb, he.par, hs.slices, hs.dram, hs.ports, hs.glb, hs.par, and_self]

end Sys2Proof.Safety
end


section
/-! O43: a channel stops (R286) where nothing waits for it, its reset, and the log of its errors (R283, R399). -/

namespace Sys2Proof.Machine

theorem buddy_ne (n : Fin 16) : buddy n ≠ n := by revert n; decide
theorem buddy_buddy (n : Fin 16) : buddy (buddy n) = n := by revert n; decide

variable {s : State} {n : Fin 16}

/-- Whether the memory side is empty is a question of the slices. -/
theorem memIdle_congr {t : State} (h : Safety.memIdle s) (hs : t.slices = s.slices) : Safety.memIdle t := fun i => by
  rw [State.slice, hs]
  exact h i

/-- The merging buffer and the fetches of a slice in which none waits lose nothing. -/
theorem slcLost_idle (h : Safety.memIdle s) (i : Fin 17) (m : Fin 16) : s.slcLost i m = s := by
  obtain ⟨hb, hw, hf, -⟩ := h i
  have h1 : (s.modSlice i fun x => { x with mem := { x.mem with wtWait := x.mem.wtWait.filter fun w => w.home != m } }) = s :=
    Safety.modSlice_same s i _ (by rw [hw, List.filter_nil, ← hw])
  have h2 : s.pumpFetch i = s := by
    unfold State.pumpFetch
    dsimp only
    rw [hf, List.foldl_nil]
    exact Safety.modSlice_same s i _ (by rw [← hf])
  unfold State.slcLost
  dsimp only
  rw [hw, h1, List.filter_nil, List.foldl_nil, hb, List.filter_nil, List.foldl_nil, h2]

/-- A channel with nothing queued has nothing queued when a copy is dropped. -/
theorem dropCopy_queues (m : Fin 16) (hr : (s.chan n).rq = []) (hw : (s.chan n).wq = []) :
    ((s.dropCopy m).chan n).rq = [] ∧ ((s.dropCopy m).chan n).wq = [] := by
  unfold State.dropCopy
  rw [modChan_chan, modChan_chan]
  split <;> split <;> simp [hr, hw]

/-- The reset of a channel goes on when a copy is dropped. -/
theorem dropCopy_rst (m : Fin 16) : ((s.dropCopy m).chan n).rst = (s.chan n).rst ∧ ((s.dropCopy m).chan n).resetting = (s.chan n).resetting := by
  unfold State.dropCopy
  rw [modChan_chan, modChan_chan]
  split <;> split <;> exact ⟨rfl, rfl⟩

/-- A channel's mirror state stays when a copy is dropped. -/
theorem dropCopy_mode (m : Fin 16) : ((s.dropCopy m).chan n).mir.mode = (s.chan n).mir.mode := by
  unfold State.dropCopy
  rw [modChan_chan, modChan_chan]
  split <;> split <;> rfl

/-- Dropping a copy leaves the channels of other pairs alone. -/
theorem dropCopy_chan_ne {m k : Fin 16} (h : k ≠ m) (hb : k ≠ buddy m) : (s.dropCopy m).chan k = s.chan k :=
  (modChan_chan_ne _ _ hb).trans (modChan_chan_ne _ _ h)

/-- A channel with nothing queued that stops, while no write and no fetch waits in a slice, rests its ranks and drops its copy (R286, R287). -/
theorem chanStop_idle (h : Safety.memIdle s) (hr : (s.chan n).rq = []) (hw : (s.chan n).wq = []) :
    s.chanStop n = ((s.dropCopy n).dropCopy (buddy n)).modChan n fun c =>
      { (c.restRanks (s.ranks n)) with rq := [], wq := [], mir := { c.mir with mode := .none } } := by
  obtain ⟨u, hu⟩ : ∃ u, u = (s.dropCopy n).dropCopy (buddy n) := ⟨_, rfl⟩
  have hq := dropCopy_queues n hr hw
  obtain ⟨hur, huw⟩ := dropCopy_queues (buddy n) hq.1 hq.2
  obtain ⟨v, hv⟩ : ∃ v, v = u.modChan n fun c => { (c.restRanks (u.ranks n)) with rq := [], wq := [], mir := { c.mir with mode := .none } } := ⟨_, rfl⟩
  have hi : Safety.memIdle v := memIdle_congr h (by rw [hv, hu]; rfl)
  have hl : [n, buddy n].foldl (fun s h => if s.chLost h then s.eachSlice fun s i => s.slcLost i h else s) v = v :=
    Safety.foldl_fixed _ _ _ fun m _ => by
      split
      · exact Safety.foldl_fixed _ _ _ fun i _ => slcLost_idle hi i m
      · rfl
  have hs : (v.eachSlice fun s i => ((s.slice i).mem.wmb.filter fun w => w.issued && (w.home == n || w.home == buddy n)).foldl
      (fun s w => s.wmbOffer i w) s) = v :=
    Safety.foldl_fixed _ _ _ fun i _ => by rw [(hi i).1]; rfl
  have hv' : v = u.modChan n fun c => { (c.restRanks (s.ranks n)) with rq := [], wq := [], mir := { c.mir with mode := .none } } := by
    rw [hv, hu]
    rfl
  rw [← hu] at hur huw
  unfold State.chanStop
  dsimp only
  rw [← hu, ← hv, huw, hur, List.foldl_nil, List.foldl_nil, hl, hs, hv', hu]

end Sys2Proof.Machine
namespace Sys2Proof.Safety

open Sys2Proof.Machine

variable {s : State}

theorem Quiet.dropCopy (h : Quiet s) (n : Fin 16) : Quiet (s.dropCopy n) := (h.modChan _ _).modChan _ _

/-- What a channel that stops leaves, while nothing waits for it, of what a reset looks at, and of the other pairs. -/
theorem chanStop_idle_spec {n : Fin 16} (h : Quiet s) (hm : memIdle s) (hr : (s.chan n).rq = []) (hw : (s.chan n).wq = []) :
    ∃ t, s.chanStop n = t ∧ Quiet t ∧ (∃ v, t = { s with chans := v }) ∧ (t.chan n).rst = (s.chan n).rst ∧
      (t.chan n).resetting = (s.chan n).resetting ∧ (t.chan n).rq = [] ∧ (t.chan n).wq = [] ∧ (t.chan n).mir.mode = .none ∧
      (∀ r, r < s.ranks n → ((t.chan n).rank r).selfRef = true) ∧ (∀ m, m ≠ n → (t.chan m).mir.mode = (s.chan m).mir.mode) ∧
      (∀ m, m ≠ n → m ≠ buddy n → t.chan m = s.chan m) := by
  obtain ⟨u, hu⟩ : ∃ u, u = (s.dropCopy n).dropCopy (buddy n) := ⟨_, rfl⟩
  have hrst : (u.chan n).rst = (s.chan n).rst ∧ (u.chan n).resetting = (s.chan n).resetting := by
    rw [hu, (dropCopy_rst _).1, (dropCopy_rst _).2, (dropCopy_rst _).1, (dropCopy_rst _).2]
    exact ⟨rfl, rfl⟩
  obtain ⟨k, hk⟩ := restRanks_frame (u.chan n) (s.ranks n)
  refine ⟨_, chanStop_idle hm hr hw, ((h.dropCopy _).dropCopy _).modChan _ _, ⟨_, rfl⟩, ?_, ?_, ?_, ?_, ?_, fun r hr => ?_, fun m hn => ?_, fun m hn hb => ?_⟩
  any_goals rw [modChan_chan_self, ← hu]
  · rw [hk]; exact hrst.1
  · rw [hk]; exact hrst.2
  · exact restRanks_selfRef _ hr
  · rw [modChan_chan_ne _ _ hn, dropCopy_mode, dropCopy_mode]
  · rw [modChan_chan_ne _ _ hn, dropCopy_chan_ne hb (by rwa [buddy_buddy]), dropCopy_chan_ne hn hb]

/-- A command that ends with another is counted, and no more. -/
theorem Quiet.doneIf {b : State} (h : Quiet b) (c : Bool) (page : Nat) :
    ∃ r, (if c then b.done page else b) = { b with regs := r } ∧ Quiet { b with regs := r } := by
  cases c with
  | true =>
    obtain ⟨r, hr⟩ := done_frame b page
    exact ⟨r, hr, hr ▸ h.done page⟩
  | false => exact ⟨b.regs, rfl, h⟩

theorem clearSq_frame (s : State) (page : Nat) (own : Nat → Bool) : ∃ r, s.clearSq page own = { s with regs := r } := by
  unfold State.clearSq
  refine List.foldlRecOn (motive := fun t : State => ∃ r, t = { s with regs := r }) (List.range 240) _ ⟨s.regs, rfl⟩ fun t ht w _ => ?_
  obtain ⟨r, rfl⟩ := ht
  dsimp only
  split <;> exact ⟨_, rfl⟩

/-- Registers of a page but the first that a reset clears change no register that is watched. -/
theorem Quiet.clearSq (h : Quiet s) (page : Nat) (own : Nat → Bool) (hp : 1 ≤ page) : Quiet (s.clearSq page own) := by
  unfold State.clearSq
  refine List.foldlRecOn (List.range 240) _ h fun t ht w _ => ?_
  dsimp only
  split
  · exact ht.setReg _ _ _ (by unfold watched; omega)
  · exact ht

/-- Settles O43: the reset of a channel in which nothing waits is a chain of changes of its channel and of its partner's. -/
theorem channelReset : Obligations.ChannelReset := by
  intro s n seq h
  refine ⟨(h.modChan n _).ends rfl rfl rfl, fun ha hf hm hw hr => ?_, fun hr hs => ?_⟩
  · obtain ⟨a, hA⟩ : ∃ a, a = s.modChan n fun c => { c with rst := c.rst.accept seq, resetting := true } := ⟨_, rfl⟩
    have hac : a.chan n = { s.chan n with rst := (s.chan n).rst.accept seq, resetting := true } := by rw [hA, modChan_chan_self]
    obtain ⟨b, hb, hqb, ⟨v, hv⟩, hrst, hres, -, -, -, -, -, hne⟩ :=
      chanStop_idle_spec (n := n) (hA ▸ h.modChan n _ : Quiet a) (memIdle_congr hm (by rw [hA]; rfl)) (by rw [hac]; exact hr) (by rw [hac]; exact hw)
    obtain ⟨r, hr1, hq1⟩ := hqb.doneIf ((b.chan n).trn.st.res == .running) (dchPage n)
    obtain ⟨r, hr2, hq2⟩ := hq1.doneIf ((b.chan n).mir.st.res == .running) (dchPage n)
    obtain ⟨c, hc⟩ : ∃ c : State, c = { b with regs := r } := ⟨_, rfl⟩
    have hqc : Quiet c := hc ▸ hq2
    obtain ⟨e, he⟩ : ∃ e, e = (c.modCsr fun k => { k with snaps := k.snaps.filter fun e => e.2.1 / 256 != dchPage n }).clearSq (dchPage n) unitOwn := ⟨_, rfl⟩
    have hqe : Quiet e := he ▸ (hqc.modCsr _ hqc.reads).clearSq _ _ (by unfold dchPage; omega)
    obtain ⟨r', hr'⟩ := clearSq_frame (c.modCsr fun k => { k with snaps := k.snaps.filter fun e => e.2.1 / 256 != dchPage n }) (dchPage n) unitOwn
    have ht : s.chanResetCmd n seq = (e.modChan n Chan.wiped).modChan n Chan.trainFull := by
      have hfa : a.chFenced n = true := by rw [hA]; exact hf
      unfold State.chanResetCmd
      rw [ha, Bool.not_true, if_neg Bool.false_ne_true]
      dsimp only
      rw [← hA, hfa, if_pos rfl, hb, hr1]
      exact (congrArg (fun s : State => (((s.modCsr fun k => { k with snaps := k.snaps.filter fun e => e.2.1 / 256 != dchPage n }).clearSq
        (dchPage n) unitOwn).modChan n Chan.wiped).trainStart n true) (hr2.trans hc.symm)).trans (by rw [← he, trainStart_full])
    have hec : e.chan n = b.chan n := by rw [he, hr', hc]; rfl
    have htn : (((e.modChan n Chan.wiped).modChan n Chan.trainFull).setPins).chan n = (b.chan n).wiped.trainFull := by
      rw [setPins_chan, modChan_chan_self, modChan_chan_self, hec]
    have hfr : ∃ v r k, e = { s with chans := v, regs := r, csr := k } := ⟨_, _, _, by rw [he, hr', hc, hv, hA]; rfl⟩
    refine ⟨_, ((hqe.modChan _ _).modChan _ _).ends ht ?_ ?_, ?_⟩
    · obtain ⟨_, _, _, hf⟩ := hfr
      rw [hf]; rfl
    · obtain ⟨_, _, _, hf⟩ := hfr
      rw [hf]; rfl
    rw [htn]
    refine ⟨hrst.trans (by rw [hac]), hres.trans (by rw [hac]), rfl, rfl, rfl, rfl, rfl, ?_, fun m hm hmb => ?_, ?_⟩
    · obtain ⟨_, _, _, hfr⟩ := hfr
      rw [hfr]; exact hf
    · rw [setPins_chan, modChan_chan_ne _ _ hm, modChan_chan_ne _ _ hm]
      refine Eq.trans ?_ ((hne m hm hmb).trans ?_)
      · rw [he, hr', hc]; rfl
      · rw [hA]; exact modChan_chan_ne _ _ hm
    · obtain ⟨_, _, _, hf⟩ := hfr
      rw [hf]
      exact ⟨rfl, rfl, rfl, rfl⟩
  · refine Quiet.endsDone (h.modChan n _) _ ?_ rfl rfl
    unfold State.chanResetAbort
    rw [tryAbort_running hs hr]
    simp only [if_true, modChan_modChan]
    rfl

end Sys2Proof.Safety
end


section
/-! O45: FENCE of a channel and ACK (R352, R353, R360). -/

namespace Sys2Proof.Machine

theorem unitOf_srcChan (n : Fin 16) : unitOf (BitVec.ofNat 7 (srcChan n)).toNat = .chan n := by revert n; decide

theorem unitOf_none {n : Nat} (h : 57 < n) (h' : ¬ (64 ≤ n ∧ n ≤ 126)) : unitOf n = .none := by
  unfold unitOf
  rw [if_neg (by omega), if_neg (by omega), if_neg (by omega), if_neg (by omega), if_neg h']

theorem unitOf_ne_none {n : Nat} (h : n ≤ 57 ∨ (64 ≤ n ∧ n ≤ 126)) : unitOf n ≠ .none := by
  unfold unitOf
  split_ifs
  any_goals exact FltUnit.noConfusion
  omega

variable {s : State} {seq : BitVec 8} {n : Nat}

/-- A FENCE or an ACK of a number that names no unit is refused. -/
theorem fenceCmd_none (ha : s.flt.cmd.accepts seq = true) (h : unitOf n = .none) :
    s.fenceCmd seq n = (s.modFlt fun x => { x with cmd := x.cmd.refuse seq 0x01 }).done 59 := by
  simp [State.fenceCmd, State.fltCmd, ha, h]

theorem ackCmd_none (ha : s.flt.cmd.accepts seq = true) (h : unitOf n = .none) :
    s.ackCmd seq n = (s.modFlt fun x => { x with cmd := x.cmd.refuse seq 0x01 }).done 59 := by
  simp [State.ackCmd, State.fltCmd, ha, h]

/-- An ACK of a unit changes its source. -/
theorem ackCmd_unit (ha : s.flt.cmd.accepts seq = true) (h : unitOf n ≠ .none) : s.ackCmd seq n =
    (((s.modFlt fun x => { x with cmd := x.cmd.accept seq }).modSrc n fun x => { x with acked := x.acked || x.severe }).modFlt fun x =>
      { x with cmd := x.cmd.complete }).done 59 := by
  unfold State.ackCmd State.fltCmd
  cases hu : unitOf n with
  | none => exact absurd hu h
  | _ => simp [ha]

/-- A FENCE of a channel is the fence of that channel. -/
theorem fenceCmd_chan {k : Fin 16} (ha : s.flt.cmd.accepts seq = true) (h : unitOf n = .chan k) : s.fenceCmd seq n =
    (((s.modFlt fun x => { x with cmd := x.cmd.accept seq }).fenceChan k).modFlt fun x => { x with cmd := x.cmd.complete }).done 59 := by
  simp [State.fenceCmd, State.fltCmd, ha, h]

theorem EventOnly.markFenced (s : State) (n : Nat) (a : Agent) (m : Bool) : EventOnly s (s.markFenced n a m) :=
  (EventOnly.modSrc s _ _).trans (.logEnt _ _)

/-- A source that is marked as fenced is fenced. -/
theorem markFenced_src (s : State) (n m : Nat) (a : Agent) (k : Bool) :
    (s.markFenced n a k).src m = if m = n then { s.src n with fenced := true, masked := (s.src n).masked || k } else s.src m := by
  refine (logEnt_src _ _ m).trans ?_
  split
  · next e => subst e; exact modSrc_src_self _ _ _
  · next e => exact modSrc_src_ne _ _ _ _ e

/-- The registers of a channel are none that a fence counts in. -/
theorem markFenced_dch (s : State) (n o hi lo : Nat) (a : Agent) (m : Bool) (k : Fin 16) (ho : o < 1024) :
    (s.markFenced n a m).fld (dchPage k) o hi lo = s.fld (dchPage k) o hi lo := by
  unfold State.fld
  rw [State.markFenced, logEnt_reg_ne _ _ _ _ (by unfold dchPage; omega)]
  rfl

theorem markFenced_mirrored (s : State) (n : Nat) (a : Agent) (m : Bool) (k : Fin 16) : (s.markFenced n a m).mirrored k = s.mirrored k :=
  congrArg (· == 1) (markFenced_dch s n 0x100 31 31 a m k (by decide))

theorem markFenced_ranks (s : State) (n : Nat) (a : Agent) (m : Bool) (k : Fin 16) : (s.markFenced n a m).ranks k = s.ranks k :=
  congrArg (2 ^ ·) (markFenced_dch s n 0x100 9 8 a m k (by decide))

/-- The fence of an unmirrored channel, which stops, while its partner runs no resync. -/
theorem fenceChan_unmirrored {k : Fin 16} (hf : s.chFenced k = false) (hm : s.mirrored k = false)
    (hc : (((s.markFenced (srcChan k) 63 false).chanStop k).chan (buddy k)).mir.mode ≠ .resync) :
    s.fenceChan k = (s.markFenced (srcChan k) 63 false).chanStop k := by
  simp only [State.fenceChan, hf, hm, Bool.false_eq_true, if_false, Bool.not_false, Bool.true_or, Bool.not_true, markFenced_mirrored,
    Bool.and_false]
  unfold State.resyncLost
  rw [if_neg hc]

end Sys2Proof.Machine

namespace Sys2Proof.Safety

open Sys2Proof.Machine

variable {s : State}

/-- Settles O45: the fence of the channel stops it (`chanStop_idle_spec`); an ACK changes its source alone. -/
theorem fenceAndAck : Obligations.FenceAndAck := by
  intro s seq src n h ha
  refine ⟨fun hm hf hi hw hr hc hh => ?_, fun hu => ?_, fun hu hn => ⟨?_, ?_⟩⟩
  · obtain ⟨u, hu⟩ : ∃ u, u = s.modFlt fun x => { x with cmd := x.cmd.accept seq } := ⟨_, rfl⟩
    obtain ⟨a, hA⟩ : ∃ a, a = u.markFenced (srcChan n) 63 false := ⟨_, rfl⟩
    have hqa : Quiet a := hA ▸ hu ▸ ((h.modFlt _ rfl rfl).modSrc _ _).logEnt _
    have hac : ∀ k, a.chan k = s.chan k := fun k => by rw [hA, (EventOnly.markFenced _ _ _ _).chan, hu]; rfl
    have hev := EventOnly.markFenced u (srcChan n) 63 false
    obtain ⟨b, hb, hqb, ⟨v, hv⟩, -, -, hbr, hbw, -, hself, hmode, hne⟩ := chanStop_idle_spec (n := n) hqa (memIdle_congr hi (by rw [hA, hev.slices, hu]; rfl))
      (by rw [hac, hr]) (by rw [hac, hw])
    have ht : s.fenceCmd seq (BitVec.ofNat 7 (srcChan n)).toNat = (b.modFlt fun x => { x with cmd := x.cmd.complete }).done 59 := by
      rw [fenceCmd_chan ha (unitOf_srcChan n), ← hu, fenceChan_unmirrored (by rw [hu]; exact hf) (by rw [hu]; exact hm), ← hA, hb]
      rw [← hA, hb, hmode _ (buddy_ne n), hac]
      exact hc
    refine ⟨_, (hqb.modFlt _ rfl rfl).endsDone 59 ht ?_ ?_, ?_⟩
    · rw [modFlt_pending, hv]; dsimp only; rw [hA, hev.pending, hu]; rfl
    · rw [modFlt_now, hv]; dsimp only; rw [hA, hev.now, hu]; rfl
    obtain ⟨r, hr'⟩ := done_frame (b.modFlt fun x => { x with cmd := x.cmd.complete }) 59
    have hcmd : (b.modFlt fun x => { x with cmd := x.cmd.complete }).flt.cmd = { s.flt.cmd.accept seq with res := .completed } := by
      rw [modFlt_flt, hv]
      dsimp only
      rw [hA, hev.cmd, hu]
      exact complete_of_none hh
    simp only [setPins_chan, done_chan, modFlt_chan, setPins_flt, done_flt, setPins_dram, done_dram, setPins_ports, done_ports, setPins_glb, done_glb,
      modFlt_dram, modFlt_ports, modFlt_glb]
    refine ⟨?_, by rw [hcmd], by rw [hcmd]; rfl, fun r hr => hself r (by rw [hA, markFenced_ranks, hu]; exact hr), hbr, hbw,
      fun m hm hmb => (hne m hm hmb).trans (hac m), ?_⟩
    · unfold State.chFenced
      rw [setPins_src, done_src]
      show (tabGet .zero b.flt.src _).fenced = true
      rw [hv, hA]
      exact (congrArg Src.fenced (markFenced_src u _ _ _ _)).trans (by rw [if_pos rfl])
    · rw [hv, hA, hev.dram, hev.ports, hev.glb, hu]
      exact ⟨rfl, rfl, rfl⟩
  · exact ((h.modFlt _ rfl rfl).modSrc _ _).endsDone 59 ((ackCmd_unit ha (unitOf_ne_none hu)).trans rfl) rfl rfl
  · exact (h.modFlt _ rfl rfl).endsDone 59 (fenceCmd_none ha (unitOf_none hu hn)) rfl rfl
  · exact (h.modFlt _ rfl rfl).endsDone 59 (ackCmd_none ha (unitOf_none hu hn)) rfl rfl

end Sys2Proof.Safety
end


section
/-! O37: the write merging buffer towards the controllers (R247, R248, R264), where nothing waits behind it and the network is clear. -/

namespace Sys2Proof.Machine

variable {s : State} {i : Fin 17}

/-- A slice and a channel change in either order. -/
theorem modSlice_modChan (s : State) (i : Fin 17) (n : Fin 16) (f : Slice → Slice) (g : Chan → Chan) :
    (s.modSlice i f).modChan n g = (s.modChan n g).modSlice i f := rfl

/-- Over a clear network a message arrives at once. -/
theorem carry_of_clear (m : NetMsg) (a b : EndPt) (det : Bool) (f : State → State) (h : s.netClear = true) : s.carry m a b det f = f s :=
  if_pos (by rw [h]; rfl)

theorem carryMem_of_clear (n : Fin 16) (out : Bool) (m : NetMsg) (det : Bool) (f : State → State) (h : s.netClear = true) :
    s.carryMem i n out m det f = f s := by
  unfold State.carryMem
  rw [carry_of_clear _ _ _ _ _ h, carry_of_clear _ _ _ _ _ h]
  split
  · rfl
  · split <;> rfl

/-- With no flit on the networks no write is on its way to a channel. -/
theorem netWrites_of_clear (n : Fin 16) (h : s.noc.bufs = [] ∧ s.noc.wait = []) : s.netWrites n = 0 := by
  simp [State.netWrites, State.netFlits, h.1, h.2]

/-- Reports of several writes leave for their port in order. -/
theorem foldl_reportDrain (l : List WId) (fenced : Bool) (s : State) : l.foldl (fun s d => s.reportDrain i d fenced) s =
    s.modSlice i fun x => { x with mem := { x.mem with drainRep := x.mem.drainRep ++ l.map (⟨·, fenced⟩) } } := by
  induction l generalizing s with
  | nil => exact (Safety.modSlice_same s i _ (by simp)).symm
  | cons d l ih =>
    rw [List.foldl_cons, ih, State.reportDrain, modSlice_modSlice]
    simp

/-- A buffer in which nothing waits lets nothing in. -/
theorem pumpWt_idle (h : (s.slice i).mem.wtWait = []) : s.pumpWt i = s := by
  unfold State.pumpWt
  rw [h]
  exact Safety.modSlice_same s i _ (by rw [← h])

theorem releaseFetches_idle (h : (s.slice i).mem.fetchHold = []) : s.releaseFetches i = s := by
  unfold State.releaseFetches
  dsimp only
  rw [h, List.filter_nil, List.foldl_nil]
  exact Safety.modSlice_same s i _ (by rw [h, List.filter_nil, ← h])

/-- An entry that becomes FREE where nothing waits for it reports its writes, and nothing else happens. -/
theorem wmbFree_idle (w : WmbEnt) (fenced : Bool) (hw : (s.slice i).mem.wtWait = []) (hf : (s.slice i).mem.fetchHold = []) :
    s.wmbFree i w fenced = s.modSlice i fun x => { x with mem := { x.mem with
      wmb := x.mem.wmb.filter fun e => e.id != w.id, drainRep := x.mem.drainRep ++ w.writes.map (⟨·, fenced⟩) } } := by
  unfold State.wmbFree
  dsimp only
  rw [foldl_reportDrain, modSlice_modSlice, pumpWt_idle (by rw [modSlice_slice_self]; exact hw), releaseFetches_idle (by rw [modSlice_slice_self]; exact hf)]

/-- An unmirrored channel that is not fenced is where a write of its lines goes. -/
theorem writePlaces_unmirrored {n : Fin 16} (cla : Nat) (hf : s.chFenced n = false) (hm : s.mirrored n = false) :
    s.writePlaces n cla = [(n, cla, false)] := by
  simp [State.writePlaces, State.takesWrites, hf, hm]

/-- The one entry of a buffer, when it changes. -/
theorem modWmb_single {x : Slice} {e : WmbEnt} (h : x.mem.wmb = [e]) (f : WmbEnt → WmbEnt) :
    (x.modWmb e.id f).mem.wmb = [f e] := by
  simp [Slice.modWmb, h]

/-- An entry that its only controller has accepted becomes FREE. -/
theorem wmbSettle_single {e : WmbEnt} {n : Fin 16} {cla : Nat} (hw : (s.slice i).mem.wmb = [e])
    (hp : s.writePlaces e.home (s.memCla e.addr) = [(n, cla, false)]) (ha : e.acc = 1) : s.wmbSettle i e.id = s.wmbFree i e false := by
  simp [State.wmbSettle, hw, hp, ha, placeBit]

/-- The controller of an unmirrored channel takes the one entry of a buffer. -/
theorem wqTake_single {e : WmbEnt} (hw : (s.slice i).mem.wmb = [e]) (hf : s.chFenced e.home = false) (hm : s.mirrored e.home = false) (ha : e.acc = 0) (hwt : (s.slice i).mem.wtWait = [])
    (hfh : (s.slice i).mem.fetchHold = []) :
    s.wqTake e.home false i e.id = (s.modChan e.home fun c => c.wqPush (s.memCla e.addr) e.addr e.l false).modSlice i fun x => { x with mem := { x.mem with
      wmb := [], drainRep := x.mem.drainRep ++ e.writes.map (⟨·, false⟩) } } := by
  obtain ⟨u, hu⟩ : ∃ u, u = (s.modChan e.home fun c => c.wqPush (s.memCla e.addr) e.addr e.l false).modSlice i fun x =>
      x.modWmb e.id fun e => { e with acc := e.acc ||| placeBit false } := ⟨_, rfl⟩
  have hus : (u.slice i).mem.wmb = [{ e with acc := 1 }] := by
    rw [hu, modSlice_slice_self, modChan_slice, modWmb_single hw, ha]
    rfl
  have hset : u.wmbSettle i e.id = u.wmbFree i { e with acc := 1 } false :=
    wmbSettle_single (e := { e with acc := 1 }) hus (writePlaces_unmirrored _ (by rw [hu]; exact hf) (by rw [hu]; exact hm)) rfl
  have ht : s.wqTake e.home false i e.id = u.wmbSettle i e.id := by
    simp [State.wqTake, hw, writePlaces_unmirrored _ hf hm, hu]
  rw [ht, hset, wmbFree_idle _ _ (by rw [hu, modSlice_slice_self]; exact hwt) (by rw [hu, modSlice_slice_self]; exact hfh), hu, modSlice_modSlice,
    modSlice_const, modSlice_const _ i fun x => { x with mem := { x.mem with wmb := [], drainRep := x.mem.drainRep ++ e.writes.map (⟨·, false⟩) } }]
  simp [Slice.modWmb, hw]

/-- A buffer's one entry, ISSUED and not yet sent, is offered to the one channel that takes it and has room. -/
theorem wmbOffer_single {e : WmbEnt} (hcl : s.netClear = true) (hw : (s.slice i).mem.wmb = [e])
    (hf : s.chFenced e.home = false) (hm : s.mirrored e.home = false) (ha : e.acc = 0) (hs : e.sent = 0)
    (hr : s.wqRoom e.home (s.memCla e.addr) = true) (hwt : (s.slice i).mem.wtWait = []) (hfh : (s.slice i).mem.fetchHold = []) :
    s.wmbOffer i e = (s.modChan e.home fun c => c.wqPush (s.memCla e.addr) e.addr e.l false).modSlice i fun x => { x with mem := { x.mem with
      wmb := [], drainRep := x.mem.drainRep ++ e.writes.map (⟨·, false⟩) } } := by
  obtain ⟨u, hu⟩ : ∃ u, u = s.modSlice i fun x => x.modWmb e.id fun e => { e with sent := e.sent ||| placeBit false } := ⟨_, rfl⟩
  have hus : (u.slice i).mem.wmb = [{ e with sent := 1 }] := by
    rw [hu, modSlice_slice_self, modWmb_single hw, hs]
    rfl
  have htake := wqTake_single (s := u) (e := { e with sent := 1 }) hus (by rw [hu]; exact hf) (by rw [hu]; exact hm) ha
    (by rw [hu, modSlice_slice_self]; exact hwt) (by rw [hu, modSlice_slice_self]; exact hfh)
  obtain ⟨v, hv⟩ : ∃ v, v = (s.modChan e.home fun c => c.wqPush (s.memCla e.addr) e.addr e.l false).modSlice i fun x =>
      { x with mem := { x.mem with wmb := [], drainRep := x.mem.drainRep ++ e.writes.map (⟨·, false⟩) } } := ⟨_, rfl⟩
  have hvs : (v.slice i).mem.wmb = [] := by rw [hv, modSlice_slice_self]
  have hut : u.wqTake e.home false i e.id = v := by
    refine htake.trans ?_
    rw [hv, hu]
    rw [modSlice_modChan, modSlice_modSlice]
    rfl
  have hcar := carryMem_of_clear (s := u) (i := i) e.home true (.write i e.id e.home false) (e.want.getLsbD 1 || s.detAddr e.addr)
    (fun s => s.wqTake e.home false i e.id) (by rw [hu]; exact hcl)
  unfold State.wmbOffer
  rw [writePlaces_unmirrored _ hf hm, List.foldl_cons, List.foldl_nil]
  dsimp only
  rw [hw, List.find?_cons_of_pos (by simp)]
  simp only [hs, hr, ← hu, hcar, hut]
  simp [← hv, State.wmbSettle, hvs]

end Sys2Proof.Machine

namespace Sys2Proof.Safety

open Sys2Proof.Machine

variable {s : State} {i : Fin 17}

/-- What the merging buffer issues next: an eligible entry that a DET fetch, else another fetch, matches, where there is one. -/
theorem wmbNext_some {w : WmbEnt} (hw : w ∈ (s.slice i).mem.wmb) (he : s.wmbEligible i w = true) :
    ∃ v, s.wmbNext i = some v ∧ v ∈ (s.slice i).mem.wmb ∧ s.wmbEligible i v = true ∧
      (w.want.getLsbD 1 = true → v.want.getLsbD 1 = true) ∧ (w.want ≠ 0 → v.want ≠ 0) := by
  obtain ⟨es, hes⟩ : ∃ es, es = (s.slice i).mem.wmb.filter (s.wmbEligible i) := ⟨_, rfl⟩
  have hwe : w ∈ es := hes ▸ List.mem_filter.2 ⟨hw, he⟩
  have hmem : ∀ v ∈ es, v ∈ (s.slice i).mem.wmb ∧ s.wmbEligible i v = true := fun v hv => List.mem_filter.1 (hes ▸ hv)
  unfold State.wmbNext
  rw [← hes]
  dsimp only
  cases h1 : es.find? fun w => w.want.getLsbD 1 with
  | some v =>
    have hv := List.find?_some h1
    exact ⟨v, rfl, (hmem v (List.mem_of_find?_eq_some h1)).1, (hmem v (List.mem_of_find?_eq_some h1)).2, fun _ => hv, fun _ e => by
      rw [e] at hv; exact absurd hv (by decide)⟩
  | none =>
    have hn1 : w.want.getLsbD 1 = true → False := fun e => List.find?_eq_none.1 h1 w hwe e
    cases h2 : es.find? fun w => w.want != 0 with
    | some v =>
      have hv := List.find?_some h2
      exact ⟨v, rfl, (hmem v (List.mem_of_find?_eq_some h2)).1, (hmem v (List.mem_of_find?_eq_some h2)).2, fun e => (hn1 e).elim,
        fun _ => by simpa using hv⟩
    | none =>
      have hn2 : w.want ≠ 0 → False := fun e => List.find?_eq_none.1 h2 w hwe (by simpa using e)
      cases es with
      | nil => exact absurd hwe List.not_mem_nil
      | cons v l => exact ⟨v, rfl, (hmem v List.mem_cons_self).1, (hmem v List.mem_cons_self).2, fun e => (hn1 e).elim, fun e => (hn2 e).elim⟩

/-- Settles O37. -/
theorem wmbEntriesReachTheirChannel : Obligations.WmbEntriesReachTheirChannel := by
  refine ⟨fun s i h => ?_, fun s i w h hw he => ?_, fun s i w n cla h hw hi hn hc ha hse hm hf hq hno hfe hwt => ?_⟩
  · refine ⟨_, (h.modSlice i _ rfl rfl).ends rfl rfl rfl, List.length_map _, fun k e hk => ?_⟩
    refine (List.getElem?_map.trans (congrArg _ hk)).trans (congrArg some ?_)
    dsimp only
    split
    · next h => rw [h, Bool.or_true]
    · next h => rw [Bool.eq_false_iff.2 h, Bool.or_false]
  · obtain ⟨v, hv, hvm, hve, h1, h2⟩ := wmbNext_some hw he
    refine ⟨v, hvm, hve, h1, h2, (h.modSlice i _ rfl rfl).ends ?_ rfl rfl⟩
    unfold State.wmbIssueStep
    rw [hv]
  · subst hn hc
    have hroom : s.wqRoom w.home (s.memCla w.addr) = true := by
      have hany : ((s.chan w.home).wq.any fun e => e.cla == s.memCla w.addr && !e.corr && !e.copy) = false :=
        List.any_eq_false.2 fun e he => by
          have := hno e he
          grind
      rw [State.wqRoom, netWrites_of_clear _ h.net, hany]
      simpa using hq
    have hoff := wmbOffer_single (i := i) h.netClear hw hf hm ha hse hroom hwt hfe
    have ht : s.wmbAcceptStep i = s.wmbOffer i w := by
      have hpl := writePlaces_unmirrored (s.memCla w.addr) hf hm
      have hfind : ∀ p : WmbEnt → Bool, [w].find? p = none ∨ [w].find? p = some w := fun p => by
        cases hp : p w <;> simp [hp]
      have hfil : (s.slice i).mem.wmb.filter (fun w => w.issued && (s.writePlaces w.home (s.memCla w.addr)).any fun pl =>
          w.sent &&& placeBit pl.2.2 == 0 && s.wqRoom pl.1 pl.2.1) = [w] := by
        simp [hw, hi, hpl, hse, hroom]
      unfold State.wmbAcceptStep
      dsimp only
      rw [hfil]
      obtain h1 | h1 := hfind fun w => w.want.getLsbD 1 <;> obtain h2 | h2 := hfind fun w => w.want != 0 <;> rw [h1, h2] <;> rfl
    refine ⟨_, ((h.modChan _ _).modSlice i _ rfl rfl).ends (ht.trans hoff) rfl rfl, ?_⟩
    simp only [setPins_chan, setPins_slice, modSlice_chan, modChan_chan_self, modSlice_slice_self, modChan_slice]
    refine ⟨rfl, trivial, trivial, fun m hm => modChan_chan_ne _ _ hm, fun j hj => modSlice_slice_ne _ _ hj, rfl, rfl, rfl, rfl, rfl, rfl⟩

end Sys2Proof.Safety
end


section
/-! O41: the registers of a channel can say that it has eight ranks, and the exit from self-refresh at the beginning of a RESYNC wakes four. -/

namespace Sys2Proof.Safety

open Sys2Proof.Machine

/-- After a cold reset nothing goes on by itself. -/
theorem quiet_reset : Quiet State.reset where
  due := rfl
  adm h e := by
    have : ¬ (0 : BitVec 16).getLsbD h.val = true := by simp
    exact absurd e this
  load := nofun
  job := trivial
  gc := nofun
  stt := ⟨nofun, nofun, nofun⟩
  msc := nofun
  sweep := rfl
  back := nofun
  ports p := by
    rw [reset_port]
    exact ⟨rfl, fun _ h => absurd h List.not_mem_nil⟩
  net := ⟨rfl, rfl⟩
  det := nofun
  reads _ h := absurd h List.not_mem_nil
  slices i := by
    rw [reset_slice]
    exact ⟨rfl, rfl⟩
  run := nofun
  supply k hk _ := by
    show Pwr.on = State.reset.pdWant k
    have hd : ∀ h, State.reset.detHome h = false := fun _ => rfl
    have hw : State.reset.wantsC (pdSlice k) = false := by
      have ha : (State.reset.homesOf (pdSlice k)).any State.reset.detHome = false := List.any_eq_false.2 fun h _ => by rw [hd]; decide
      simp only [State.wantsC, reset_slice, ha]
      rfl
    unfold State.pdWant
    dsimp only
    rw [reset_slice, hw, Bool.and_false]
    unfold Domains.part
    simp [State.reset, Slice.zero, SlcCtl.zero]
  links := rfl

/-- The reset state, with the pair of channels 0 and 1 mirrored and of eight ranks each by DCH_CFG, channel 0 fenced and trained, and its rank 5
in self-refresh. -/
def eightRanks : State :=
  { State.reset with
    regs := [(256 * 18 + 0x40, 0x80000300)]
    flt := { State.reset.flt with src := [(srcChan 0, { Src.zero with fenced := true })] }
    chans := State.reset.chans.set 0 { Chan.zero with
      trn := { Training.zero with valid := true, full := true }, ranks := [(5, { Rank.zero with selfRef := true })] } }

theorem eightRanks_quiet : Quiet eightRanks := { quiet_reset with }

theorem Quiet.wakeRanks {s : State} (h : Quiet s) (n : Fin 16) : Quiet (s.wakeRanks n)  := by
  unfold State.wakeRanks
  exact h.modChan _ _

/-- The beginning of a RESYNC (R287). -/
theorem resyncCmd_begins {s : State} {n : Fin 16} {seq : BitVec 8} (ha : (s.chan n).mir.st.accepts seq = true)
    (hc : (s.chFenced n && s.mirrored n && (s.chan n).trn.valid && (s.chan n).trn.full && !(s.chan n).trn.fail &&
      (s.chan n).trn.phase == .idle && !(s.chan n).resetting && !s.chFenced (buddy n)) = true) :
    s.resyncCmd n seq = (s.wakeRanks n).modChan n fun c =>
      { c with mir := { st := c.mir.st.accept seq, mode := .resync, wm := 0, copy := none } } := by
  unfold State.resyncCmd
  rw [ha]
  exact if_pos hc

/-- The RESYNC that begins wakes ranks 0 to 3, and leaves rank 5 in self-refresh. -/
theorem wakeRanks_rank (s : State) (n : Fin 16) (r : Nat) (h : 4 ≤ r) : ((s.wakeRanks n).chan n).rank r = (s.chan n).rank r := by
  unfold State.wakeRanks
  rw [modChan_chan_self]
  have hr := foldl_modRank_rank (fun _ k => { k with selfRef := false, owed := 0, due := 0, cls1 := false, makeup := false
                                                     dueAt := s.dcNow n + s.refreshEvery n (s.chan n).hot })
    (List.range 4) List.nodup_range { s.chan n with refOn := true, polled := s.dcNow n } r
  rw [if_neg (by rw [List.mem_range]; omega)] at hr
  exact hr

/-- Refutes O41: DCH_CFG can name eight ranks (`eightRanks`), of which the beginning of a RESYNC takes four out of self-refresh. -/
theorem not_resyncCopiesTheMirror : ¬ Obligations.ResyncCopiesTheMirror := by
  intro h
  have hq := eightRanks_quiet
  obtain ⟨c, hc, -, hself, -⟩ := (h eightRanks 0 1 hq (by decide)).1 (by decide) (by decide) (by decide) rfl rfl rfl rfl rfl
  have hx := ((hq.wakeRanks 0).modChan 0 _).ends (resyncCmd_begins (s := eightRanks) (n := 0) (seq := 1) (by decide) (by decide)) rfl rfl
  have ho : (c.rank 5).selfRef = ((eightRanks.wakeRanks 0).chan 0 |>.rank 5).selfRef := by
    have he := Host.Outcome.next.inj (hc.symm.trans hx)
    have hn := congrArg (fun t : State => ((t.chan 0).rank 5).selfRef) he
    simp only [setPins_chan, modChan_chan_self] at hn
    exact hn
  rw [wakeRanks_rank _ _ _ (by decide), hself 5 (by decide)] at ho
  exact absurd ho (by decide)

end Sys2Proof.Safety
end


section
/-! O39, the check codes: a burst without a flipped bit reads as what was written (R278 to R280). -/

namespace Sys2Proof.Machine

/-! ### The data of a line from its bytes -/

/-- The sum of the digits of a number below a place. -/
theorem foldl_digits (b N n a : Nat) : (List.range n).foldl (fun u k => u + N / b ^ k % b * b ^ k) a = a + N % b ^ n := by
  induction n with
  | zero => simp [Nat.mod_one]
  | succ n ih => rw [List.range_succ, List.foldl_append, ih, List.foldl_cons, List.foldl_nil, Nat.mod_pow_succ, Nat.mul_comm (b ^ n), Nat.add_assoc]

/-- The bytes of one codeword give its 64 bits of the line. -/
theorem bytes_of_word (d : Line) (i : Nat) :
    ((List.range 8).map fun k => (d.extractLsb' (64 * i + 8 * k) 8, k)).foldl (fun u c => u + c.1.toNat * 2 ^ (64 * i + 8 * c.2)) 0 =
      d.toNat / (2 ^ 64) ^ i % 2 ^ 64 * (2 ^ 64) ^ i := by
  have h := foldl_digits (2 ^ 8) (d.toNat / (2 ^ 64) ^ i) 8 0
  rw [Nat.zero_add, ← pow_mul (2 : Nat) 8 8] at h
  have hterm : ∀ k, (d.extractLsb' (64 * i + 8 * k) 8).toNat * 2 ^ (64 * i + 8 * k) =
      d.toNat / (2 ^ 64) ^ i / (2 ^ 8) ^ k % 2 ^ 8 * (2 ^ 8) ^ k * (2 ^ 64) ^ i := fun k => by
    rw [BitVec.extractLsb'_toNat, Nat.shiftRight_eq_div_pow, pow_add, pow_mul, pow_mul, Nat.div_div_eq_div_mul]
    ring
  have hfold : ∀ (l : List Nat) (a : Nat), l.foldl (fun u k => u + (d.extractLsb' (64 * i + 8 * k) 8).toNat * 2 ^ (64 * i + 8 * k)) (a * (2 ^ 64) ^ i) =
      l.foldl (fun u k => u + d.toNat / (2 ^ 64) ^ i / (2 ^ 8) ^ k % 2 ^ 8 * (2 ^ 8) ^ k) a * (2 ^ 64) ^ i := fun l => by
    induction l with
    | nil => exact fun _ => rfl
    | cons k l ih => intro a; rw [List.foldl_cons, List.foldl_cons, hterm, ← Nat.add_mul, ih]
  rw [List.foldl_map]
  have h0 := hfold (List.range 8) 0
  rw [Nat.zero_mul, h] at h0
  exact h0

/-- The data bits of codewords whose data symbols are those of a line are the line. -/
theorem lineOf_codewords (d : Line) (g : Nat → List (BitVec 8)) (h : ∀ i, (g i).take 8 = (List.range 8).map fun k => d.extractLsb' (64 * i + 8 * k) 8) :
    lineOf ((List.range 8).map g) = d := by
  have hz : ((List.range 8).map g).zipIdx = (List.range 8).map fun i => (g i, i) := rfl
  have hz' : ∀ i, ((List.range 8).map fun k => d.extractLsb' (64 * i + 8 * k) 8).zipIdx =
      (List.range 8).map fun k => (d.extractLsb' (64 * i + 8 * k) 8, k) := fun _ => rfl
  unfold lineOf
  rw [hz, List.foldl_map]
  simp only [h, hz', bytes_of_word]
  rw [foldl_digits, Nat.zero_add, ← pow_mul]
  rw [show 64 * 8 = 512 from rfl, Nat.mod_eq_of_lt d.isLt, BitVec.ofNat_toNat, BitVec.setWidth_eq]

/-! ### The codewords -/

/-- Times alpha + 1 undoes times its inverse. -/
theorem gfThird_mul (x : BitVec 8) : gfDouble (gfMul x gfThird) ^^^ gfMul x gfThird = x := by
  revert x
  decide

theorem gfDouble_xor (a b : BitVec 8) : gfDouble (a ^^^ b) = gfDouble a ^^^ gfDouble b := by
  unfold gfDouble
  rw [BitVec.msb_xor, BitVec.shiftLeft_xor_distrib]
  cases a.msb <;> cases b.msb <;> simp <;> grind

/-- The syndromes of eight data symbols with their check symbols are those of what has been added to the check symbols. -/
theorem syndromes_checked (ds : List (BitVec 8)) (a b : BitVec 8) :
    let s := syndromes ds
    let c := gfMul (s.1 ^^^ gfShift 2 s.2) gfThird
    syndromes (ds ++ [c ^^^ a, s.1 ^^^ c ^^^ b]) = (a ^^^ b, gfDouble a ^^^ b) := by
  intro s c
  have hg : gfShift 2 s.2 = gfDouble (gfDouble s.2) := rfl
  have h3 : gfDouble c ^^^ c = s.1 ^^^ gfShift 2 s.2 := gfThird_mul (s.1 ^^^ gfShift 2 s.2)
  have h1 : ds.foldl (· ^^^ ·) 0 = s.1 := rfl
  have h2 : ds.foldl (fun v c => gfDouble v ^^^ c) 0 = s.2 := rfl
  unfold syndromes
  rw [List.foldl_append, List.foldl_append, h1, h2]
  simp only [List.foldl_cons, List.foldl_nil, gfDouble_xor]
  rw [hg] at h3
  refine Prod.ext ?_ ?_
  · grind
  · calc gfDouble (gfDouble s.2) ^^^ (gfDouble c ^^^ gfDouble a) ^^^ (s.1 ^^^ c ^^^ b)
        = (s.1 ^^^ gfDouble (gfDouble s.2)) ^^^ (gfDouble c ^^^ c) ^^^ (gfDouble a ^^^ b) := by ac_rfl
      _ = gfDouble a ^^^ b := by rw [h3, BitVec.xor_self, BitVec.zero_xor]

/-! ### A burst without a flipped bit -/

/-- The symbols of a burst in which no bit is flipped. -/
theorem received_zero (l : PLine) (i : Nat) : received l 0 i = l.codeword i := by
  have hs : ∀ d, symOf 0 i d = 0 := fun d => by simp [symOf, beatBits]
  have hf : ∀ c : BitVec 8 × Nat, c.1 ^^^ symOf 0 i c.2 = c.1 := fun c => by
    rw [hs]
    exact BitVec.xor_zero
  unfold received
  simp only [hf]
  exact List.zipIdx_map_fst ..

/-- The data symbols of codeword i. -/
def PLine.symbols (l : PLine) (i : Nat) : List (BitVec 8) := (List.range 8).map fun k => l.data.extractLsb' (64 * i + 8 * k) 8

/-- A codeword is its data symbols and its check symbols, with what the marker adds to them. -/
theorem codeword_eq (l : PLine) (i : Nat) :
    let s := syndromes (l.symbols i)
    let c := gfMul (s.1 ^^^ gfShift 2 s.2) gfThird
    l.codeword i = l.symbols i ++ [c ^^^ (if l.pois then 0xE5 else 0), s.1 ^^^ c ^^^ (if l.pois then 0x3C else 0)] := by
  intro s c
  cases h : l.pois with
  | true => simp only [PLine.codeword, h]; rfl
  | false =>
    have h0 : ∀ x : BitVec 8, x ^^^ 0 = x := fun _ => BitVec.xor_zero
    simp only [PLine.codeword, h, Bool.false_eq_true, if_false, h0]
    rfl

theorem syndromes_codeword (l : PLine) (i : Nat) :
    syndromes (l.codeword i) = if l.pois then (0xD9, 0xEB) else (0, 0) := by
  rw [codeword_eq]
  refine (syndromes_checked (l.symbols i) _ _).trans ?_
  cases l.pois <;> decide

/-- Without a marker a codeword is clean. -/
theorem cwDecode_clean {l : PLine} (i : Nat) (h : l.pois = false) : cwDecode (l.codeword i) = .clean := by
  simp [cwDecode, syndromes_codeword, h]

/-- With the marker it is none that a corrected symbol could explain. -/
theorem cwDecode_marked {l : PLine} (i : Nat) (h : l.pois = true) : cwDecode (l.codeword i) = .bad := by
  unfold cwDecode
  rw [syndromes_codeword, h]
  decide

/-- The marker taken off leaves the codeword of the clean line. -/
theorem unmark_codeword {l : PLine} (i : Nat) (h : l.pois = true) : unmark (l.codeword i) = PLine.codeword ⟨l.data, false⟩ i := by
  have hx : ∀ x y : BitVec 8, x ^^^ y ^^^ y = x ^^^ 0 := fun x y => by rw [BitVec.xor_assoc, BitVec.xor_self]; rfl
  rw [codeword_eq, codeword_eq, h]
  exact congrArg (l.symbols i ++ ·) (congrArg₂ (fun a b => [a, b]) (hx _ 0xE5) (hx _ 0x3C))

/-- Codewords that are all clean decode to their data. -/
theorem lineDecode_clean {ws : List (List (BitVec 8))} (h : ∀ w ∈ ws, cwDecode w = .clean) : lineDecode ws = .ok (lineOf ws) := by
  unfold lineDecode
  dsimp only
  rw [List.filterMap_eq_nil_iff.2 fun w hw => by rw [h w hw]]

/-- A first codeword that cannot be corrected loses the line. -/
theorem lineDecode_bad {w : List (BitVec 8)} {ws : List (List (BitVec 8))} (h : cwDecode w = .bad) : lineDecode (w :: ws) = .lost := by
  simp [lineDecode, h]

/-- Eight clean codewords are the data of their line. -/
theorem lineDecode_codewords {l : PLine} (h : l.pois = false) : lineDecode ((List.range 8).map l.codeword) = .ok l.data := by
  rw [lineDecode_clean fun w hw => by obtain ⟨i, -, rfl⟩ := List.mem_map.1 hw; exact cwDecode_clean i h]
  rw [lineOf_codewords l.data l.codeword fun i => by rw [codeword_eq]; rfl]

/-- A burst of x4 devices without a flipped bit reads as what was written. -/
theorem read4_zero (l : PLine) : read4 l 0 = if l.pois then .poison l.data else .ok l.data := by
  have hr : (List.range 8).map (received l 0) = (List.range 8).map l.codeword := List.map_congr_left fun i _ => received_zero l i
  unfold read4
  dsimp only
  rw [hr]
  cases h : l.pois with
  | false => rw [lineDecode_codewords h]; rfl
  | true =>
    have hu : ((List.range 8).map l.codeword).map unmark = (List.range 8).map (PLine.codeword ⟨l.data, false⟩) := by
      rw [List.map_map]
      exact List.map_congr_left fun i _ => unmark_codeword i h
    have hb : lineDecode ((List.range 8).map l.codeword) = .lost := lineDecode_bad (w := l.codeword 0) (cwDecode_marked 0 h)
    rw [hb, hu, lineDecode_codewords rfl]
    rfl

/-- A burst of x8 devices without a flipped bit reads as what was written. -/
theorem read8_zero (l : PLine) : read8 l 0 = if l.pois then .poison l.data else .ok l.data := by
  have hc : (List.range 8).map (cwErr 0) = List.replicate 8 0 := by
    have h : ∀ i, cwErr 0 i = 0 := fun i => by simp [cwErr, beatBits]
    rw [List.map_congr_left fun i _ => h i]
    rfl
  have hm : ∀ i, metaOf l 0 i = if l.pois then 0x5A else 0 := fun i => by
    unfold metaOf beatBits
    cases l.pois <;> simp
  have hp : (List.range 8).filter (fun i => metaOf l 0 i == 0x5A) = if l.pois then List.range 8 else [] := by
    simp only [hm]
    cases l.pois <;> rfl
  have hs : secded 0#72 = some none := rfl
  unfold read8
  dsimp only
  rw [hc, hp]
  cases l.pois <;> simp [List.replicate, hs, -Nat.reducePow]

theorem readBurst_zero (x8 : Bool) (l : PLine) : readBurst x8 l 0 = if l.pois then .poison l.data else .ok l.data := by
  cases x8 with
  | true => exact read8_zero l
  | false => exact read4_zero l

end Sys2Proof.Machine
end


section
/-! An UNCOR event whose source starts nothing (R351, R352): what the command leaves is what it did, with the source severe. -/

namespace Sys2Proof.Machine

variable {s : State}

@[simp] theorem count1_fenced (x : Src) (u : Bool) : (x.count1 u).fenced = x.fenced := by
  unfold Src.count1
  repeat' split
  all_goals rfl

/-- A source that becomes severe is logged, which counts in FLT_LOGCNT where the log is full. -/
theorem makeSevere_reg_ne (s : State) (n m u : Nat) (h : 256 * m + u ≠ 256 * 59 + 0x58) : (s.makeSevere n).reg m u = s.reg m u := by
  cases hs : (s.src n).severe with
  | true => rw [makeSevere_of_severe hs]
  | false =>
    rw [makeSevere_of_mild hs, modFlt_reg]
    exact logEnt_reg_ne _ _ _ _ h

/-- Of the registers an event changes the one that counts the log's lost entries, and no other. -/
theorem uncorEv_reg_ne (s : State) (n m u : Nat) (q : PartId) (pa : LineAddr) (h : 256 * m + u ≠ 256 * 59 + 0x58) :
    (s.uncorEv n q pa).reg m u = s.reg m u := by
  have hl : ((s.modSrc n fun x => { (x.count1 true) with corrOnly := false }).log 0x02 n q pa).reg m u = s.reg m u := logEnt_reg_ne _ _ _ _ h
  unfold State.uncorEv
  dsimp only
  split
  · exact hl
  · exact (makeSevere_reg_ne _ _ _ _ h).trans hl

theorem corrEv_reg_ne (s : State) (n m u : Nat) (q : PartId) (pa : LineAddr) (h : 256 * m + u ≠ 256 * 59 + 0x58) :
    (s.corrEv n q pa).reg m u = s.reg m u := by
  have hs (t : State) (c : Prop) [Decidable c] : (if c then t.makeSevere n else t).reg m u = t.reg m u := by
    split
    · exact makeSevere_reg_ne _ _ _ _ h
    · rfl
  unfold State.corrEv
  dsimp only
  rw [hs]
  split
  · exact logEnt_reg_ne _ _ _ _ h
  · rfl

/-- The record of a source after a mild CORR event. -/
theorem corrEv_mild_src_self {n : Nat} (q : PartId) (pa : LineAddr) (h : Safety.mild s n) : (s.corrEv n q pa).src n =
    { ((s.src n).count1 false) with count := Safety.corrCount s n, ws := if Safety.firstOfWindow s n then s.now else (s.src n).ws } := by
  rw [Safety.corrEv_of_mild q pa h]
  dsimp only
  split
  · rw [State.log, logEnt_src, modSrc_src_self]
  · rw [modSrc_src_self]

end Sys2Proof.Machine

namespace Sys2Proof.Safety

open Sys2Proof.Machine

variable {s : State}

/-- An event alone, its source's action not being due any more, leaves nothing that goes on by itself. -/
theorem Quiet.event {t : State} (h : Quiet s) (he : EventOnly s t) (hr : t.reg 0 0x5C = s.reg 0 0x5C) :
    Quiet (t.modFlt fun f => { f with due := [] }) := by
  obtain ⟨r, l, x, d, rfl⟩ := he
  exact h.mono h.due.symm rfl rfl h.load h.job h.gc rfl rfl rfl rfl rfl (fun _ => ⟨rfl, fun _ => .inl⟩) (fun _ => ⟨rfl, rfl⟩) ⟨rfl, rfl⟩ rfl
    ⟨rfl, rfl⟩ hr h.reads

theorem Quiet.uncorEvent (h : Quiet s) (n : Nat) (q : PartId) (pa : LineAddr) :
    Quiet ((s.uncorEv n q pa).modFlt fun f => { f with due := [] }) :=
  h.event (.uncorEv s n q pa) (uncorEv_reg_ne _ _ _ _ _ _ (by decide))

/-- A command that leaves one source due, which starts nothing. -/
theorem Quiet.endsDue {t u : State} {n : Nat} (h : Quiet u) (hd : t.flt.due = [n]) (hu : (t.modFlt fun f => { f with due := [] }) = u)
    (ha : u.dueAct n = u) (hp : u.pending = s.pending) (hn : u.now = s.now) : Machine.commandEnd s t = .next u.setPins :=
  commandEnd_settle ((settle_of_due hd (hu.symm ▸ ha) h.due).trans h.settle) hp hn

theorem unitOf_slice (i : Fin 17) : unitOf (srcSlice i) = .slice i := by revert i; decide
theorem unitOf_port (p : Fin 24) : unitOf (srcPort p) = .port p := by revert p; decide
theorem unitOf_chan (n : Fin 16) : unitOf (srcChan n) = .chan n := by revert n; decide

/-- A channel whose severity FLT_ACTCFG answers with nothing. -/
theorem dueAct_chan {n : Fin 16} (h : s.fld 59 0x104 3 2 = 0) : s.dueAct (srcChan n) = s := by
  simp [State.dueAct, unitOf_chan, h]

/-- A port whose severity FLT_ACTCFG answers with nothing. -/
theorem dueAct_port {p : Fin 24} (h : s.fld 59 0x104 5 4 ≠ 1) : s.dueAct (srcPort p) = s := by
  simp [State.dueAct, unitOf_port, h]

/-- The network island. -/
theorem dueAct_net : s.dueAct srcNet = s := rfl

/-- A slice that serves a home, where FLT_ACTCFG sets no action. -/
theorem dueAct_slice {i : Fin 17} (h : s.fld 59 0x104 7 6 ≠ 1) (hh : s.homesOf i ≠ []) : s.dueAct (srcSlice i) = s := by
  simp [State.dueAct, unitOf_slice, h, hh]

end Sys2Proof.Safety
end


section
/-! O39: a read that completes returns to its slice (R278 to R281). -/

namespace Sys2Proof.Machine

/-- A memory event for a transaction joins the slice's queue. -/
def Slice.memBack (x : Slice) (tid : Nat) (m : MemStat) (l : PLine) : Slice :=
  { x with mem := { x.mem with memq := x.mem.memq ++ [⟨tid, m, some l, true⟩] } }

variable {s : State} {n : Fin 16} {e : RdEnt} {tid : Nat} {pa : LineAddr}

/-- What a read has found for a transaction returns to its slice, and the MSC, which is OFF, takes no copy. -/
theorem readGives_trk (l : PLine) (hn : s.netClear = true) (hf : e.f.fetchFor = .trk tid) (ha : e.f.addr = .line pa) (hm : e.f.mir = false)
    (ho : (s.slice e.f.slice).mem.ctl.mode = .off) :
    s.readGives n e l = s.modSlice e.f.slice fun x => x.memBack tid (if l.pois then .poison else .ok) l := by
  have hfill : s.modSlice e.f.slice (·.mscFill pa l) = s := Safety.modSlice_same s _ _ (by rw [Slice.mscFill, ho]; rfl)
  unfold State.readGives
  rw [hf, hm, if_neg FetchFor.noConfusion]
  dsimp only
  rw [Bool.false_and, if_neg Bool.false_ne_true, State.readBack, carryMem_of_clear _ _ _ _ _ hn, State.fetchReturn, hf, ha]
  dsimp only
  rw [hfill, ite_self]
  rfl

/-- What the error log of a channel records of a read changes that log alone. -/
theorem readLog_frame (s : State) (n : Fin 16) (e : RdEnt) (ty : BitVec 2) (dev : BitVec 4) :
    ∃ l, s.readLog n e ty dev = s.modChan n fun c => { c with elog := l } := by
  unfold State.readLog
  dsimp only
  rw [modChan_const]
  exact ⟨_, (modChan_const s n fun c => { c with elog := _ }).symm⟩

/-- A count of a register and a change of a channel in either order. -/
theorem bump_modChan (s : State) (n : Fin 16) (f : Chan → Chan) (p o hi lo : Nat) :
    (s.modChan n f).bump p o hi lo = (s.bump p o hi lo).modChan n f := by
  unfold State.bump
  dsimp only
  rw [show (s.modChan n f).fld p o hi lo = s.fld p o hi lo from rfl]
  split <;> rfl

end Sys2Proof.Machine

namespace Sys2Proof.Safety

open Sys2Proof.Machine

variable {s : State}

theorem Quiet.memBack (h : Quiet s) (i : Fin 17) (tid : Nat) (m : MemStat) (l : PLine) : Quiet (s.modSlice i fun x => x.memBack tid m l) :=
  h.modSlice i _ rfl rfl

/-- The address of a transaction's line, for the logs. -/
theorem addrPa_line (s : State) (pa : LineAddr) : s.addrPa (.line pa) = pa := rfl

/-- A correction writeback joins an empty queue of a channel that is not fenced, unless a write of the line has been issued since. -/
theorem correct_of_empty {n : Fin 16} (cla : Nat) {e : RdEnt} (d : Line) (hp : e.past = false) (hf : s.chFenced n = false) (hw : (s.chan n).wq = [])
    (hn : s.noc.bufs = [] ∧ s.noc.wait = []) : s.correct n cla e d = s.modChan n fun c => c.wqPush cla e.f.addr ⟨d, false⟩ true :=
  if_pos (by simp [State.wqRoom, netWrites_of_clear n hn, hp, hf, hw])

section

variable {n : Fin 16} {e : RdEnt} {es : List RdEnt} {tid : Nat} {pa : LineAddr} {l : PLine} {err : BitVec 640} {v : Line}

/-- A channel's reads but the oldest, which has come back. -/
def readTaken (s : State) (n : Fin 16) (es : List RdEnt) : State := s.modChan n fun c => { c with inflight := es }

theorem readComplete_eq {r : ReadRes} (hin : (s.chan n).inflight = e :: es) (hg : e.got = some l) (ha : e.f.addr = .line pa)
    (hr : readBurst (s.flag (dchPage n) 0x100 6) l err = r) :
    s.readComplete n err = match (motive := ReadRes → State) r with
      | .ok d => (readTaken s n es).readGives n e ⟨d, false⟩
      | .corrected d dev => (((((readTaken s n es).errCount n 18).readLog n e 0 dev).corrEv (srcChan n) 0 pa).correct n e.cla e d).readGives n e ⟨d, false⟩
      | .poison d => ((readTaken s n es).errCount n 6).readGives n e ⟨d, true⟩
      | .lost => ((((readTaken s n es).errCount n 12).readLog n e 1 0xF).uncorEv (srcChan n) 0 pa).readLost n e := by
  subst hr
  unfold State.readComplete State.readUE
  rw [hin]
  dsimp only
  rw [hg, ha, Option.getD_some]
  rfl

variable (h : Quiet s) (hf : e.f.fetchFor = .trk tid) (ha : e.f.addr = .line pa) (hm : e.f.mir = false)
  (ho : (s.slice e.f.slice).mem.ctl.mode = .off)
include h hf ha hm ho

theorem read_ok_ends : Machine.commandEnd s ((readTaken s n es).readGives n e ⟨v, false⟩) = .next
    ((readTaken s n es).modSlice e.f.slice fun x => x.memBack tid .ok ⟨v, false⟩).setPins := by
  have hq : Quiet (readTaken s n es) := h.modChan n _
  exact (hq.memBack _ tid .ok ⟨v, false⟩).ends (readGives_trk _ hq.netClear hf ha hm ho) rfl rfl

theorem read_poison_ends : Machine.commandEnd s (((readTaken s n es).errCount n 6).readGives n e ⟨v, true⟩) = .next
    ((readTaken (s.bump (dchPage n) 0x180 11 6) n es).modSlice e.f.slice fun x => x.memBack tid .poison ⟨v, true⟩).setPins := by
  have hb : (readTaken s n es).errCount n 6 = readTaken (s.bump (dchPage n) 0x180 11 6) n es := bump_modChan _ _ _ _ _ _ _
  have he := EventOnly.bump s (dchPage n) 0x180 11 6
  have hq : Quiet (readTaken (s.bump (dchPage n) 0x180 11 6) n es) := (h.errCount n 6).modChan n _
  rw [hb]
  exact (hq.memBack _ tid .poison ⟨v, true⟩).ends
    (readGives_trk _ hq.netClear hf ha hm (by rw [readTaken, modChan_slice, he.slice]; exact ho)) he.pending he.now

theorem read_corrected_ends (dev : BitVec 4) (hmi : mild s (srcChan n)) (hfe : s.chFenced n = false) (hpa : e.past = false)
    (hwq : (s.chan n).wq = []) : ∃ t, Machine.commandEnd s (((((readTaken s n es).errCount n 18).readLog n e 0 dev).corrEv (srcChan n) 0 pa).correct
        n e.cla e v |>.readGives n e ⟨v, false⟩) = .next t ∧
      (t.slice e.f.slice).mem.memq = (s.slice e.f.slice).mem.memq ++ [⟨tid, .ok, some ⟨v, false⟩, true⟩] ∧ (t.chan n).inflight = es ∧
      (t.chan n).wq = [⟨(s.chan n).nextId, e.cla, .line pa, ⟨v, false⟩, (s.chan n).dc,
        (s.chan n).rq.any fun r => r.cla == e.cla && r.arr == (s.chan n).dc && r.cls.isNone, true, false⟩] ∧
      (t.src (srcChan n)).corr = ((s.src (srcChan n)).count1 false).corr ∧
      (∀ m, m ≠ n → t.chan m = s.chan m) ∧ (∀ j, j ≠ e.f.slice → t.slice j = s.slice j) ∧ t.dram = s.dram ∧ t.ports = s.ports ∧
      t.par = s.par := by
  obtain ⟨u, hu⟩ : ∃ u, u = readTaken s n es := ⟨_, rfl⟩
  have hq : Quiet u := hu ▸ h.modChan n _
  have he := EventOnly.errCount u n 18
  obtain ⟨k, hL⟩ := readLog_frame (u.errCount n 18) n e 0 dev
  obtain ⟨a, hA⟩ : ∃ a, a = (u.errCount n 18).readLog n e 0 dev := ⟨_, rfl⟩
  obtain ⟨b, hB⟩ : ∃ b, b = a.corrEv (srcChan n) 0 pa := ⟨_, rfl⟩
  rw [← hu, ← hA, ← hB]
  rw [hL] at hA
  have hqa : Quiet a := hA ▸ (hq.errCount n 18).modChan n _
  have hma : mild a (srcChan n) := hA ▸ (mild_errCount n 18 (hu ▸ hmi) : mild (u.errCount n 18) (srcChan n))
  have hqb : Quiet b := hB ▸ hqa.corrEvOf _ _ hma
  have hb : EventOnly a b := hB ▸ EventOnly.corrEv a (srcChan n) 0 pa
  have hbn : b.chan n = { s.chan n with inflight := es, elog := k } := by
    rw [hb.chan, hA, modChan_chan_self, he.chan, hu, readTaken, modChan_chan_self]
  have has : a.src (srcChan n) = s.src (srcChan n) := by rw [hA, modChan_src, errCount_src, hu, readTaken, modChan_src]
  have hbf : b.chFenced n = false := by
    unfold State.chFenced
    rw [hB, corrEv_mild_src_self _ _ hma, has]
    exact (count1_fenced _ _).trans hfe
  have hbo : b.slices = s.slices ∧ b.dram = s.dram ∧ b.ports = s.ports ∧ b.par = s.par ∧ b.pending = s.pending ∧ b.now = s.now := by
    rw [hb.slices, hb.dram, hb.ports, hb.par, hb.pending, hb.now, hA, hu]
    rw [hu] at he
    exact ⟨he.slices, he.dram, he.ports, he.par, he.pending, he.now⟩
  obtain ⟨hsl, hdr, hpo, hpr, hpe, hno⟩ := hbo
  have hbs : ∀ j, b.slice j = s.slice j := fun j => by unfold State.slice; rw [hsl]
  have ht := readGives_trk (s := b.modChan n fun c => c.wqPush e.cla e.f.addr ⟨v, false⟩ true) (n := n) ⟨v, false⟩
    (hqb.modChan n _).netClear hf ha hm (by rw [modChan_slice, hbs]; exact ho)
  rw [correct_of_empty e.cla v hpa hbf (by rw [hbn]; exact hwq) hqb.net]
  refine ⟨_, ((hqb.modChan n _).memBack _ tid _ _).ends ht hpe hno, ?_, ?_, ?_, ?_, fun m hmn => ?_, fun j hj => ?_, hdr, hpo, hpr⟩
  · rw [setPins_slice, modSlice_slice_self, modChan_slice, hbs]
    rfl
  · rw [setPins_chan, modSlice_chan, modChan_chan_self, hbn]
    rfl
  · rw [setPins_chan, modSlice_chan, modChan_chan_self, hbn, ← ha, Chan.wqPush]
    dsimp only
    rw [hwq]
    rfl
  · rw [setPins_src, modSlice_src, modChan_src, hB, corrEv_mild_src 0 pa hma, has]
  · rw [setPins_chan, modSlice_chan, modChan_chan_ne _ _ hmn, hb.chan, hA, modChan_chan_ne _ _ hmn, he.chan, hu, readTaken, modChan_chan_ne _ _ hmn]
  · rw [setPins_slice, modSlice_slice_ne _ _ hj, modChan_slice, hbs]

theorem read_lost_ends (hmr : s.mirrored n = false) (hse : (s.src (srcChan n)).severe = false) (hcf : s.fld 59 0x104 3 2 = 0) :
    ∃ t v, Machine.commandEnd s (((((readTaken s n es).errCount n 12).readLog n e 1 0xF).uncorEv (srcChan n) 0 pa).readLost n e) = .next t ∧
      (t.slice e.f.slice).mem.memq = (s.slice e.f.slice).mem.memq ++ [⟨tid, .poison, some ⟨v, true⟩, true⟩] ∧ (t.chan n).inflight = es ∧
      (t.src (srcChan n)).severe = true ∧ (∀ m, m ≠ n → t.chan m = s.chan m) ∧ (∀ j, j ≠ e.f.slice → t.slice j = s.slice j) ∧
      t.dram = s.dram ∧ t.ports = s.ports ∧ t.par = s.par := by
  obtain ⟨u, hu⟩ : ∃ u, u = readTaken s n es := ⟨_, rfl⟩
  have hq : Quiet u := hu ▸ h.modChan n _
  have he := EventOnly.errCount u n 12
  obtain ⟨k, hL⟩ := readLog_frame (u.errCount n 12) n e 1 0xF
  obtain ⟨a, hA⟩ : ∃ a, a = (u.errCount n 12).readLog n e 1 0xF := ⟨_, rfl⟩
  obtain ⟨b, hB⟩ : ∃ b, b = a.uncorEv (srcChan n) 0 pa := ⟨_, rfl⟩
  rw [← hu, ← hA, ← hB]
  rw [hL] at hA
  have hqa : Quiet a := hA ▸ (hq.errCount n 12).modChan n _
  have has : (a.src (srcChan n)).severe = false := by rw [hA, modChan_src, errCount_src, hu, readTaken, modChan_src]; exact hse
  have hul := uncorLeaves_of_mild has
  have hb : EventOnly a b := hB ▸ EventOnly.uncorEv a (srcChan n) 0 pa
  have hqb : Quiet (b.modFlt fun f => { f with due := [] }) := hB ▸ hqa.uncorEvent (srcChan n) 0 pa
  have hreg : ∀ m w, 256 * m + w ≠ 256 * 59 + 0x58 → 256 * m + w ≠ 256 * dchPage n + 0x60 → b.reg m w = s.reg m w := fun m w h1 h2 => by
    rw [hB, uncorEv_reg_ne _ _ _ _ _ _ h1, hA, modChan_reg, State.errCount, bump_reg_ne _ _ _ _ _ _ _ h2, hu, readTaken, modChan_reg]
  have hbm : b.mirrored n = false := by
    unfold State.mirrored State.flag State.fld at hmr ⊢
    rw [hreg _ _ (by unfold dchPage; omega) (by omega)]
    exact hmr
  have hbf : b.fld 59 0x104 3 2 = 0 := by
    unfold State.fld at hcf ⊢
    rw [hreg _ _ (by omega) (by unfold dchPage; omega)]
    exact hcf
  have hbd : b.flt.due = [srcChan n] := by
    rw [hB, uncorEv_due _ _ hul, has, hqa.due]
    rfl
  have hbs : (b.src (srcChan n)).severe = true := by
    rw [hB, uncorEv_src _ _ hul, if_pos rfl]
    rfl
  have hbn : b.chan n = { s.chan n with inflight := es, elog := k } := by
    rw [hb.chan, hA, modChan_chan_self, he.chan, hu, readTaken, modChan_chan_self]
  have hbo : b.slices = s.slices ∧ b.dram = s.dram ∧ b.ports = s.ports ∧ b.par = s.par ∧ b.pending = s.pending ∧ b.now = s.now := by
    rw [hb.slices, hb.dram, hb.ports, hb.par, hb.pending, hb.now, hA, hu]
    rw [hu] at he
    exact ⟨he.slices, he.dram, he.ports, he.par, he.pending, he.now⟩
  obtain ⟨hsl, hdr, hpo, hpr, hpe, hno⟩ := hbo
  have hbsl : ∀ j, b.slice j = s.slice j := fun j => by unfold State.slice; rw [hsl]
  have hbnet : b.tickFree.netClear = true := hqb.netClear
  have ht : b.readLost n e = b.tickFree.modSlice e.f.slice fun x => x.memBack tid .poison ⟨Config.poisonFill b.freeCtr, true⟩ := by
    unfold State.readLost
    rw [hbm, Bool.and_false, Bool.false_and, Bool.false_and, if_neg Bool.false_ne_true]
    exact readGives_trk _ hbnet hf ha hm (by rw [show b.tickFree.slice e.f.slice = b.slice e.f.slice from rfl, hbsl]; exact ho)
  rw [ht]
  have hend := Quiet.endsDue (s := s) (n := srcChan n) (t := b.tickFree.modSlice e.f.slice fun x => x.memBack tid .poison ⟨Config.poisonFill b.freeCtr, true⟩)
    (u := (b.modFlt fun f => { f with due := [] }).tickFree.modSlice e.f.slice fun x => x.memBack tid .poison ⟨Config.poisonFill b.freeCtr, true⟩)
    (hqb.tickFree.memBack _ tid _ _) hbd rfl (dueAct_chan hbf) hpe hno
  refine ⟨_, Config.poisonFill b.freeCtr, hend, ?_, ?_, hbs, fun m hmn => ?_, fun j hj => ?_, hdr, hpo, hpr⟩
  · rw [setPins_slice, modSlice_slice_self]
    exact congrArg (fun x : Slice => x.mem.memq ++ _) (hbsl _)
  · exact congrArg (·.inflight) hbn
  · refine Eq.trans (hb.chan m) ?_
    rw [hA, modChan_chan_ne _ _ hmn, he.chan, hu, readTaken, modChan_chan_ne _ _ hmn]
  · rw [setPins_slice, modSlice_slice_ne _ _ hj]
    exact hbsl j

end

/-- Settles O39: in each class of R280 the read is one memory event of its slice, after what the class counts, logs and reports. -/
theorem readReturnsToSlice : Obligations.ReadReturnsToSlice := by
  refine ⟨readBurst_zero, fun s n e es i tid pa l err h hin hi hf ha hm hg ho => ?_⟩
  subst hi
  refine ⟨fun v hv => ?_, fun v hv => ?_, fun v dev hv hmi hfe hpa hwq => ?_, fun hv hmr hse hcf => ?_⟩
  · exact (congrArg (Machine.commandEnd s) (readComplete_eq hin hg ha hv)).trans (read_ok_ends h hf ha hm ho)
  · exact (congrArg (Machine.commandEnd s) (readComplete_eq hin hg ha hv)).trans (read_poison_ends h hf ha hm ho)
  · obtain ⟨t, ht, hr⟩ := read_corrected_ends (es := es) (v := v) h hf ha hm ho dev hmi hfe hpa hwq
    exact ⟨t, (congrArg (Machine.commandEnd s) (readComplete_eq hin hg ha hv)).trans ht, hr⟩
  · obtain ⟨t, v, ht, hr⟩ := read_lost_ends (es := es) (n := n) h hf ha hm ho hmr hse hcf
    exact ⟨t, v, (congrArg (Machine.commandEnd s) (readComplete_eq hin hg ha hv)).trans ht, hr⟩

end Sys2Proof.Safety
end


section
/-! O38: a dc of a channel that has one request and no refresh to send issues the request (R267, R270, R280). -/

namespace Sys2Proof.Machine

/-- A change of a channel that changes nothing. -/
theorem modChan_same (s : State) (n : Fin 16) (f : Chan → Chan) (h : f (s.chan n) = s.chan n) : s.modChan n f = s := by
  have : s.chans.set n.val (f (s.chan n)) n.isLt = s.chans := by
    rw [h]
    ext j hj
    simp only [State.chan, Vector.getElem_set]
    split
    · next e => subst e; rfl
    · rfl
  show { s with chans := s.chans.set n.val (f (s.chan n)) n.isLt } = s
  rw [this]

/-- Where no message is on the networks, none changes. -/
theorem netMap_of_nil {s : State} (h : s.noc.bufs = [] ∧ s.noc.wait = []) (f : NetMsg → NetMsg) : s.netMap f = s := by
  unfold State.netMap
  dsimp only
  rw [h.1, h.2, List.map_nil, List.map_nil]
  have hn : s.noc = { s.noc with bufs := [], wait := [] } := by rw [← h.1, ← h.2]
  rw [← hn]

/-- A rank that has no refresh to send at a dc, and is awake. -/
structure Rank.Idle (k : Rank) (dc : Nat) : Prop where
  due : k.due = 0
  cls1 : k.cls1 = false
  makeup : k.makeup = false
  selfRef : k.selfRef = false
  busy : k.busy ≤ dc

theorem Rank.Idle.postpone {k : Rank} {dc : Nat} (h : k.Idle dc) (at' : Nat) : (k.postpone at').Idle dc := by
  unfold Rank.postpone
  rw [h.cls1]
  exact ⟨rfl, rfl, rfl, h.selfRef, h.busy⟩

theorem Rank.Idle.toSend {k : Rank} {dc : Nat} (h : k.Idle dc) : k.toSend = 0 := by
  rw [Rank.toSend, h.cls1, h.makeup]
  exact h.due

variable {s : State} {n : Fin 16} {dc : Nat}

/-- What a dc changes of a channel before it issues anything: the delay that the sideband offers, the count, drain mode, the DRAM interface
and the ranks. -/
def Chan.dcBegin (c : Chan) (dly : DlyPins) (dc : Nat) (drain : Bool) (ranks : Tab Rank) : Chan :=
  { c with dly := dly, dc := dc, drainMode := drain, dfi := none, ranks := ranks }

theorem offerDelay_frame (c : Chan) : ∃ d, c.offerDelay = { c with dly := d } := by
  unfold Chan.offerDelay
  split
  · exact ⟨_, rfl⟩
  · exact ⟨_, rfl⟩

/-- Postponing the refreshes of the ranks with queued fetches leaves them idle. -/
theorem foldl_postpone (l : List Nat) {t : State} {x : Chan} {d : DlyPins} {m : Bool} {k : Tab Rank}
    (ht : t = s.modChan n fun _ => x.dcBegin d dc m k) (hk : ∀ r, (tabGet .zero k r).Idle dc) :
    ∃ k, l.foldl (fun s r => if s.rankFetches n r then s.modChan n fun c => c.modRank r (·.postpone c.dc) else s) t =
      (s.modChan n fun _ => x.dcBegin d dc m k) ∧ ∀ r, (tabGet .zero k r).Idle dc := by
  refine List.foldlRecOn (motive := fun t : State => ∃ k, t = (s.modChan n fun _ => x.dcBegin d dc m k) ∧ ∀ r, (tabGet .zero k r).Idle dc)
    l _ ⟨k, ht, hk⟩ fun t ⟨k, ht, hk⟩ r _ => ?_
  split
  · refine ⟨tabSet .zero k r ((tabGet .zero k r).postpone dc), ?_, fun q => ?_⟩
    · rw [ht, modChan_modChan]
      rfl
    · by_cases e : q = r
      · subst e
        rw [tabGet_tabSet_self]
        exact (hk q).postpone dc
      · rw [tabGet_tabSet_ne _ _ _ _ _ _ e]
        exact hk q
  · exact ⟨k, ht, hk⟩

/-- A rank with nothing to send sends nothing. -/
theorem refreshCmd_of_idle {r : Nat} (h : ((s.chan n).rank r).Idle dc) (c : Bool) : s.refreshCmd n r c = none := by
  unfold State.refreshCmd
  dsimp only
  rw [h.toSend]
  rfl

/-- Of one candidate that is legal, which a channel without a refresh to send has, the next command is issued. -/
theorem dcStep_issues (hf : s.chFenced n = false) (hdc : max ((s.chan n).dc + 1) (s.dcNow n) = dc) (hr : ∀ r, ((s.chan n).rank r).Idle dc) :
    ∃ d m k, (∀ r, (tabGet .zero k r).Idle dc) ∧ ∀ c, (s.modChan n fun x => x.dcBegin d dc m k).cands n = [c] →
      ((s.chan n).dcBegin d dc m k).legal (s.timing n) c = true → s.dcStep n = (s.modChan n fun x => x.dcBegin d dc m k).issueCmd n c := by
  obtain ⟨d, hd⟩ := offerDelay_frame (s.chan n)
  obtain ⟨k, hk, hi⟩ := foldl_postpone (s := s) (n := n) (dc := dc) (x := s.chan n) (d := d) (m := s.drainModeOf n) (List.range (s.ranks n)) rfl hr
  refine ⟨d, s.drainModeOf n, k, hi, fun c hc hl => ?_⟩
  obtain ⟨v, hv⟩ : ∃ v, v = s.modChan n fun x => x.dcBegin d dc (s.drainModeOf n) k := ⟨_, rfl⟩
  have hvc : v.chan n = (s.chan n).dcBegin d dc (s.drainModeOf n) k := by rw [hv, modChan_chan_self]
  have hnone (b : Bool) : ((List.range (s.ranks n)).findSome? fun r => v.refreshCmd n r b) = none :=
    List.findSome?_eq_none_iff.2 fun r _ => refreshCmd_of_idle (dc := dc) (by rw [hvc]; exact hi r) b
  have hbeg : (List.range (s.ranks n)).foldl (fun s r => if s.rankFetches n r then s.modChan n fun c => c.modRank r (·.postpone c.dc) else s)
      (s.modChan n fun c => { c.offerDelay with dc := max (c.dc + 1) (s.dcNow n), drainMode := s.drainModeOf n, dfi := none }) = v := by
    rw [hv, modChan_const s n fun x => x.dcBegin d dc (s.drainModeOf n) k, ← hk, modChan_const, hd, hdc]
    rfl
  have hvf : v.chFenced n = false := by rw [hv]; exact hf
  have hvt : v.timing n = s.timing n := by rw [hv]; rfl
  unfold State.dcStep
  dsimp only
  rw [show (s.modChan n fun c => { c.offerDelay with dc := max (c.dc + 1) (s.dcNow n), drainMode := s.drainModeOf n, dfi := none }).ranks n = s.ranks n
    from rfl, hbeg, hnone, hnone, Option.none_or]
  dsimp only
  rw [hvf, Bool.false_and, if_neg Bool.false_ne_true, hvc, hvt, hv, hc, List.mergeSort_singleton, List.find?_cons_of_pos hl]

/-- A column command to an idle rank is legal when its timing allows it. -/
theorem legal_of_col {x : Chan} {t : Timing} {c : Cand} (hk : (x.rank c.co.rank).Idle x.dc) (hn : x.need c.co = .col)
    (ho : x.colOk t c.co c.wr = true) : x.legal t c = true := by
  unfold Chan.legal
  dsimp only
  rw [hk.selfRef, hk.cls1, hn, ho, Bool.false_or, if_neg (by simpa using hk.busy)]
  rfl

/-- Where no repair by a read of the mirror copy is under way, a write of a line cancels none. -/
theorem outdate_of_none (cla : Nat) (hb : ∀ e ∈ (s.chan (buddy n)).rq ++ (s.chan (buddy n)).inflight, e.f.mir = false)
    (hs : ∀ i, ∀ f ∈ (s.slice i).mem.fetchWait, f.mir = false) (hnet : s.noc.bufs = [] ∧ s.noc.wait = []) : s.outdate n cla = s := by
  have ho : ∀ f : FetchReq, f.mir = false → s.outdated n cla f = false := fun f hf => by rw [State.outdated, hf]; rfl
  have h1 : (s.eachSlice fun s' i => if (s'.slice i).mem.fetchWait.any (s'.outdated n cla) then
      s'.modSlice i fun x => { x with mem := { x.mem with fetchWait := x.mem.fetchWait.map fun f => if s.outdated n cla f then { f with past := true } else f } }
      else s') = s :=
    Safety.foldl_fixed _ _ _ fun i _ => if_neg (by
      rw [Bool.not_eq_true, List.any_eq_false]
      exact fun f hf => by rw [ho f (hs i f hf)]; exact Bool.false_ne_true)
  have hmap : ∀ l : List RdEnt, (∀ e ∈ l, e.f.mir = false) → l.map (fun r => if s.outdated n cla r.f then { r with past := true } else r) = l :=
    fun l hl => (List.map_congr_left fun e he => by rw [ho _ (hl e he)]; rfl).trans (List.map_id l)
  unfold State.outdate
  dsimp only
  rw [h1, netMap_of_nil hnet]
  refine modChan_same _ _ _ ?_
  rw [hmap _ fun e he => hb e (List.mem_append_left _ he), hmap _ fun e he => hb e (List.mem_append_right _ he)]

/-- The one write of a channel, as the scheduler sees it. -/
def State.writeCand (s : State) (n : Fin 16) (w : WrEnt) : Cand := ⟨true, w.id, (s.chan n).writeClass w, w.arr, s.coord n w.cla, true⟩

/-- The one fetch of a channel, as the scheduler sees it. -/
def State.fetchCand (s : State) (n : Fin 16) (e : RdEnt) : Cand := ⟨false, e.id, s.readClass e, e.arr, s.coord n e.cla, true⟩

theorem cands_write {w : WrEnt} (hr : (s.chan n).rq = []) (hw : (s.chan n).wq = [w]) (hn : (s.chan n).need (s.coord n w.cla) = .col) :
    s.cands n = [s.writeCand n w] := by
  simp [State.cands, State.writeCand, hr, hw, hn]

theorem cands_fetch {e : RdEnt} (hr : (s.chan n).rq = [e]) (hw : (s.chan n).wq = []) (hn : (s.chan n).need (s.coord n e.cla) = .col) :
    s.cands n = [s.fetchCand n e] := by
  simp [State.cands, State.fetchCand, hr, hw, hn]

/-- The one write of a channel, issued. -/
theorem issueCmd_write {w : WrEnt} (hw : (s.chan n).wq = [w]) (hn : (s.chan n).need (s.coord n w.cla) = .col) :
    ∃ x, s.issueCmd n (s.writeCand n w) = (s.modChan n fun _ => x).dramWrote n w ∧ x.wq = [] ∧ x.dc = (s.chan n).dc ∧
      x.blank = (s.chan n).blank := by
  unfold State.issueCmd
  dsimp only
  rw [show (s.writeCand n w).co = s.coord n w.cla from rfl, hn, hw, List.find?_cons_of_pos (by simp [State.writeCand])]
  dsimp only
  rw [modChan_modChan, modChan_const]
  refine ⟨_, rfl, ?_, rfl, rfl⟩
  simp [Chan.wrote, Chan.modBank, hw]

/-- A line reads alike where the DRAM is the same and the same channels are blank. -/
theorem dramGet_congr {t : State} (hd : t.dram = s.dram) (hb : ∀ m, (t.chan m).blank = (s.chan m).blank) (m : Fin 16) (k : Nat) :
    t.dramGet m k = s.dramGet m k := by
  simp only [State.dramGet, State.dramNone, hd, hb]

theorem dramGet_modChan (f : Chan → Chan) (hb : ∀ c, (f c).blank = c.blank) (m : Fin 16) (k : Nat) : (s.modChan n f).dramGet m k = s.dramGet m k :=
  dramGet_congr (s := s) (t := s.modChan n f) rfl (fun j => by
    rw [modChan_chan]
    by_cases h : j = n
    · rw [if_pos h, h]
      exact hb _
    · rw [if_neg h]) m k

/-- The one fetch of a channel, issued, where no slice has a fetch to send. -/
theorem issueCmd_fetch {e : RdEnt} (hr : (s.chan n).rq = [e]) (hn : (s.chan n).need (s.coord n e.cla) = .col)
    (hf : ∀ i, (s.slice i).mem.fetchWait = []) :
    ∃ x, s.issueCmd n (s.fetchCand n e) = (s.modChan n fun _ => x) ∧ x.rq = [] ∧ x.dc = (s.chan n).dc ∧
      x.inflight = (s.chan n).inflight ++ [{ e with cls := some (s.readClass e), got := some (s.dramGet n e.cla) }] := by
  have hp : ∀ t : State, t.slices = s.slices → (t.eachSlice fun s i => if (s.slice i).mem.fetchWait.isEmpty then s else s.pumpFetch i) = t :=
    fun t ht => Safety.foldl_fixed _ _ _ fun i _ => if_pos (by rw [State.slice, ht]; exact List.isEmpty_iff.2 (hf i))
  unfold State.issueCmd
  dsimp only
  rw [show (s.fetchCand n e).co = s.coord n e.cla from rfl, hn, hr, List.find?_cons_of_pos (by simp [State.fetchCand])]
  dsimp only
  rw [if_neg (by simp [State.fetchCand]), dramGet_modChan, modChan_modChan, hp, modChan_const]
  · refine ⟨_, rfl, ?_, rfl, ?_⟩
    · simp [hr, State.fetchCand]
    · rfl
  · rfl
  · exact fun _ => rfl

end Sys2Proof.Machine

namespace Sys2Proof.Safety

open Sys2Proof.Machine

/-- Settles O38. -/
theorem queuedAccessIsIssued : Obligations.QueuedAccessIsIssued := by
  intro s n h hf dc hr
  obtain ⟨d, m, k, hk, hstep⟩ := dcStep_issues (dc := dc) hf rfl fun r => by
    obtain ⟨h1, h2, h3, h4, h5⟩ := hr r
    exact ⟨h1, h2, h3, h4, h5⟩
  obtain ⟨v, hv⟩ : ∃ v, v = s.modChan n fun x => x.dcBegin d dc m k := ⟨_, rfl⟩
  have hvn : v.chan n = (s.chan n).dcBegin d dc m k := by rw [hv, modChan_chan_self]
  have hq : Quiet v := hv ▸ h.modChan n _
  refine ⟨fun w hrq hwq hneed hcol hmir hfw => ?_, fun e hrq hwq hneed hcol hfw => ?_⟩
  · have hc := cands_write (s := v) (by rw [hvn]; exact hrq) (by rw [hvn]; exact hwq) (by rw [hvn, hv]; exact hneed)
    obtain ⟨x, hx, hxq, hxd, hxb⟩ := issueCmd_write (s := v) (n := n) (w := w) (by rw [hvn]; exact hwq) (by rw [hvn, hv]; exact hneed)
    have hleg : ((s.chan n).dcBegin d dc m k).legal (s.timing n) (v.writeCand n w) = true :=
      legal_of_col (hk _) (by rw [hv]; exact hneed) (by rw [hv]; exact hcol)
    have hb := buddy_ne n
    have hout : (v.modChan n fun _ => x).outdate n w.cla = v.modChan n fun _ => x := by
      refine outdate_of_none _ ?_ (by rw [hv]; exact hfw) (by rw [hv]; exact h.net)
      rw [modChan_chan_ne _ _ hb, hv, modChan_chan_ne _ _ hb]
      exact hmir
    have hblank : ∀ j, ((v.modChan n fun _ => x).chan j).blank = (s.chan j).blank := fun j => by
      by_cases e : j = n
      · rw [e, modChan_chan_self, hxb, hvn]
        rfl
      · rw [modChan_chan_ne _ _ e, hv, modChan_chan_ne _ _ e]
    have ht : s.dcStep n = (v.modChan n fun _ => x).dramPut n w.cla w.l := by
      rw [hstep _ (hv ▸ hc) hleg, ← hv, hx, State.dramWrote, hout]
    refine ⟨_, ((hq.modChan n _).dramPut n _ _).ends ht (by rw [hv]; rfl) (by rw [hv]; rfl), (dramGet_dramPut_self (v.modChan n fun _ => x) n w.cla w.l :), fun j i hji => ?_, ?_, ?_, fun j hj => ?_, ?_⟩
    · exact (dramGet_dramPut_ne (v.modChan n fun _ => x) _ _ _ _ _ hji).trans (dramGet_congr (by rw [hv]; rfl) hblank j i)
    · rw [setPins_chan, dramPut_chan, modChan_chan_self, hxq]
    · rw [setPins_chan, dramPut_chan, modChan_chan_self, hxd, hvn]
      rfl
    · rw [setPins_chan, dramPut_chan, modChan_chan_ne _ _ hj, hv, modChan_chan_ne _ _ hj]
    · rw [hv]
      exact ⟨rfl, rfl, rfl, rfl, rfl, rfl⟩
  · have hc := cands_fetch (s := v) (by rw [hvn]; exact hrq) (by rw [hvn]; exact hwq) (by rw [hvn, hv]; exact hneed)
    obtain ⟨x, hx, hxq, hxd, hxi⟩ := issueCmd_fetch (s := v) (n := n) (e := e) (by rw [hvn]; exact hrq) (by rw [hvn, hv]; exact hneed)
      (by rw [hv]; exact hfw)
    have hleg : ((s.chan n).dcBegin d dc m k).legal (s.timing n) (v.fetchCand n e) = true :=
      legal_of_col (hk _) (by rw [hv]; exact hneed) (by rw [hv]; exact hcol)
    have hget : v.dramGet n e.cla = s.dramGet n e.cla := by
      rw [hv]
      exact dramGet_modChan (fun x => x.dcBegin d dc m k) (fun _ => rfl) _ _
    have ht : s.dcStep n = v.modChan n fun _ => x := by rw [hstep _ (hv ▸ hc) hleg, ← hv, hx]
    refine ⟨_, v.readClass e, (hq.modChan n _).ends ht (by rw [hv]; rfl) (by rw [hv]; rfl), ?_, ?_, ?_, fun j hj => ?_, ?_⟩
    · rw [setPins_chan, modChan_chan_self, hxq]
    · rw [setPins_chan, modChan_chan_self, hxi, hget, hvn]
      rfl
    · rw [setPins_chan, modChan_chan_self, hxd, hvn]
      rfl
    · rw [setPins_chan, modChan_chan_ne _ _ hj, hv, modChan_chan_ne _ _ hj]
    · rw [hv]
      exact ⟨rfl, rfl, rfl, rfl, rfl, rfl, rfl⟩

end Sys2Proof.Safety
end


section
/-! Rules for tracker entries: what a slice's table returns after a change, the changes that keep a state quiet, and the reads of arrays in
which no error was injected. Then O29 (R119, R120). -/

namespace Sys2Proof.Machine

variable {s : State} {i : Fin 17} {t : Nat} {e : Trk}

@[simp] theorem setEnt_ent_self (x : Slice) (t : Nat) (e : Option Trk) : (x.setEnt t e).ent t = e := tabGet_tabSet_self _ _ _ _

theorem setEnt_ent_ne (x : Slice) (e : Option Trk) {t k : Nat} (h : k ≠ t) : (x.setEnt t e).ent k = x.ent k := tabGet_tabSet_ne _ _ _ _ _ _ h

@[simp] theorem ent_setEnt_self (s : State) (i : Fin 17) (t : Nat) (e : Option Trk) : (s.setEnt i t e).ent i t = e := by
  rw [State.ent, State.setEnt, modSlice_slice_self, setEnt_ent_self]

theorem ent_setEnt_ne (s : State) (i : Fin 17) (e : Option Trk) {t k : Nat} (h : k ≠ t) : (s.setEnt i t e).ent i k = s.ent i k := by
  rw [State.ent, State.setEnt, modSlice_slice_self, setEnt_ent_ne _ _ h, State.ent]

theorem ent_setEnt_slice_ne (s : State) (e : Option Trk) (t k : Nat) {i j : Fin 17} (h : j ≠ i) : (s.setEnt i t e).ent j k = s.ent j k := by
  rw [State.ent, State.setEnt, modSlice_slice_ne _ _ h, State.ent]

@[simp] theorem setEnt_slice_self (s : State) (i : Fin 17) (t : Nat) (e : Option Trk) : (s.setEnt i t e).slice i = (s.slice i).setEnt t e :=
  modSlice_slice_self _ _ _

theorem setEnt_slice_ne (s : State) (e : Option Trk) (t : Nat) {i j : Fin 17} (h : j ≠ i) : (s.setEnt i t e).slice j = s.slice j :=
  modSlice_slice_ne _ _ h

/-- A change of a slice that leaves its tracker alone leaves the entries. -/
theorem ent_modSlice (s : State) (i j : Fin 17) (f : Slice → Slice) (k : Nat) (h : (f (s.slice i)).trk = (s.slice i).trk) :
    (s.modSlice i f).ent j k = s.ent j k := by
  rw [State.ent, modSlice_slice]
  split
  · next e => rw [e, Slice.ent, h]; rfl
  · rfl

/-- The entries of a slice are those of another where their tables are. -/
theorem ent_congr {u : State} (h : (u.slice i).trk = (s.slice i).trk) (k : Nat) : u.ent i k = s.ent i k :=
  congrArg (fun t => tabGet none t k) h

/-- A change of a bound entry. -/
theorem modEnt_of_ent (h : s.ent i t = some e) (f : Trk → Trk) : s.modEnt i t f = s.setEnt i t (some (f e)) := by
  rw [State.modEnt, h]

theorem stir_of_ent (h : s.ent i t = some e) (f : Trk → Trk) : s.stir i t f = s.setEnt i t (some ((f e).wake false)) := modEnt_of_ent h _

theorem setEnt_setEnt (s : State) (i : Fin 17) (t : Nat) (a b : Option Trk) : (s.setEnt i t a).setEnt i t b =
    s.modSlice i fun x => (x.setEnt t a).setEnt t b := modSlice_modSlice _ _ _ _

/-! ### Waking -/

/-- A transaction that does not wait sleeps no longer. -/
theorem wake_of_ready {b : Bool} (h : e.stat = .ready b) (tmo : Bool) : e.wake tmo = e := by
  rw [Trk.wake, h]

/-- A transaction that waits for SVC, for which neither message nor memory event is there, goes on with SVC. -/
theorem wake_svc {me tm q : Bool} {pc : BitVec 10} (hs : e.stat = .parked false me tm true q pc) (hm : e.m.memEv = []) (hv : e.m.svc = true) (tmo : Bool) :
    e.wake tmo = { e with stat := .ready false, pc := e.pc + 1, m := { e.m with svc := false, ev := 2 } } := by
  simp [Trk.wake, hs, hm, hv]

/-! ### Arrays without an injected error (R84, R457) -/

theorem errOf_of_nil {a : Arrays} (h : a.inj = []) (arr : Fin 10) (w : Nat) : a.errOf arr w = .good := by
  rw [Arrays.errOf, h]
  rfl

theorem readWord_of_nil (h : (s.slice i).ar.inj = []) (arr : Fin 10) (w : Nat) : s.readWord i arr w = (s, false) := by
  rw [State.readWord, errOf_of_nil h]

theorem readRun_of_nil (h : (s.slice i).ar.inj = []) (arr : Fin 10) (w n : Nat) : s.readRun i arr w n = (s, false) :=
  Safety.foldl_fixed _ _ _ fun k _ => by
    dsimp only
    rw [readWord_of_nil h]
    rfl

theorem readTrk_of_nil (h : (s.slice i).ar.inj = []) (t : Nat) : s.readTrk i t = (s, false) := by
  rw [State.readTrk, readRun_of_nil h]

theorem withTrk_of_nil (h : (s.slice i).ar.inj = []) (t : Nat) (f : State → State) : s.withTrk i t f = f s := by
  rw [State.withTrk, readTrk_of_nil h]

theorem readRepl_of_nil (h : (s.slice i).ar.inj = []) (set : Nat) : s.readRepl i set = s := by
  rw [State.readRepl, readWord_of_nil h]

end Sys2Proof.Machine

namespace Sys2Proof.Safety

open Sys2Proof.Machine

variable {s : State}

theorem Quiet.setEnt (h : Quiet s) (i : Fin 17) (t : Nat) (e : Option Trk) : Quiet (s.setEnt i t e) := h.modSlice i _ rfl rfl

end Sys2Proof.Safety

namespace Sys2Proof.Machine

variable {s : State} {p : Fin 24}

/-- A port at which no drain waits has none that is ready. -/
theorem drainCheck_of_nil (h : (s.port p).drains = []) : s.drainCheck p = s := by
  have hp : (s.modPort p fun x => { x with drains := x.drains.filter fun d => !(d.waits.isEmpty && d.place.isSome) }) = s :=
    modPort_same _ _ _ (by rw [h, List.filter_nil, ← h])
  unfold State.drainCheck
  dsimp only
  rw [hp, h]
  rfl

/-- A drain's transaction with its result: 1 where a write that it counts was fenced (log entry 16). -/
def Trk.drainResult (e : Trk) (fenced : Bool) : Trk :=
  { e with x := { e.x with f1 := if fenced then 1 else 0 }
           m := { e.m with svc := true, svcStat := if fenced then .fenced else .ok } }

/-- The one drain of a port, when it waits for nothing more, gets its result. -/
theorem drainCheck_ready {d : DrainRec} {j : Fin 17} {n : Nat} (h : (s.port p).drains = [d]) (hw : d.waits = []) (hp : d.place = some (j, n)) :
    s.drainCheck p = (s.modPort p fun x => { x with drains := [] }).stir j n fun e => e.drainResult d.fenced := by
  have hm : (s.modPort p fun x => { x with drains := x.drains.filter fun d => !(d.waits.isEmpty && d.place.isSome) }) =
      s.modPort p fun x => { x with drains := [] } := by
    rw [modPort_const, modPort_const s p fun x => { x with drains := [] }, h]
    simp [hw, hp]
  unfold State.drainCheck
  dsimp only
  rw [hm, h, List.filter_cons_of_pos (by rw [hw, hp]; rfl), List.filter_nil, List.foldl_cons, List.foldl_nil, hp]
  rfl

end Sys2Proof.Machine

namespace Sys2Proof.Safety

open Sys2Proof.Machine

/-- Settles O29. -/
theorem drainReportsArrive : Obligations.DrainReportsArrive := by
  intro s i r l w h hr hinj hw0 hws hwid
  obtain ⟨u, hu⟩ : ∃ u, u = s.modSlice i fun x => { x with mem := { x.mem with drainRep := l } } := ⟨_, rfl⟩
  have hq : Quiet u := hu ▸ h.modSlice i _ rfl rfl
  have hup : u.port r.w.port = s.port r.w.port := by rw [hu]; rfl
  have ht : s.drainReportIn i = u.writeMark r.w false true r.fenced := by
    rw [State.drainReportIn, hr]
    dsimp only
    rw [← hu, carry_of_clear _ _ _ _ _ hq.netClear]
  refine ⟨fun hd => ?_, fun d j n e me tm sv pc hd hev hwt hpl hent hst hmem => ?_⟩
  · have hmark : u.writeMark r.w false true r.fenced = u.modPort r.w.port fun x => { x with
        writes := if w.completed then [] else [{ w with drained := true, fenced := w.fenced || r.fenced }] } := by
      unfold State.writeMark
      rw [if_neg hw0]
      dsimp only
      rw [drainCheck_of_nil (by rw [modPort_port_self, hup, hd]; rfl), modPort_const, modPort_const u r.w.port fun x => { x with
        writes := if w.completed then [] else [{ w with drained := true, fenced := w.fenced || r.fenced }] }, hup, hws, hd]
      cases hc : w.completed <;> simp [hwid, hc]
    exact (hu ▸ hq.modPort r.w.port _ rfl fun _ => .inl).ends (ht.trans (hu ▸ hmark)) rfl rfl
  · obtain ⟨f, hf⟩ : ∃ f : Port → Port, u.writeMark r.w false true r.fenced = (u.modPort r.w.port f).drainCheck r.w.port ∧
        (f (s.port r.w.port)).drains = [{ d with waits := [], fenced := d.fenced || r.fenced }] ∧
        (f (s.port r.w.port)).resetting = (s.port r.w.port).resetting ∧ (f (s.port r.w.port)).held = (s.port r.w.port).held := by
      unfold State.writeMark
      rw [if_neg hw0]
      refine ⟨_, rfl, ?_, rfl, rfl⟩
      simp [hd, hev, hwt]
    obtain ⟨hmark, hfd, hfr, hfh⟩ := hf
    obtain ⟨v, hv⟩ : ∃ v, v = (u.modPort r.w.port f).modPort r.w.port fun x => { x with drains := [] } := ⟨_, rfl⟩
    have hqv : Quiet v := by
      rw [hv, modPort_modPort]
      exact hq.modPort _ _ (by rw [hup]; exact hfr) (by rw [hup, show _ = _ from hfh]; exact fun _ => .inl)
    have hue : ∀ k, u.ent j k = s.ent j k := fun k => by rw [hu]; exact ent_modSlice _ _ _ _ _ rfl
    have hve : ∀ k, v.ent j k = s.ent j k := fun k => by
      rw [hv]
      exact hue k
    have hchk := drainCheck_ready (s := u.modPort r.w.port f) (p := r.w.port) (d := { d with waits := [], fenced := d.fenced || r.fenced })
      (by rw [modPort_port_self, hup, hfd]) rfl hpl
    rw [hmark, hchk, ← hv, stir_of_ent (by rw [hve, hent])] at ht
    have hents : ∀ X k, k ≠ n → (v.setEnt j n X).ent j k = s.ent j k := fun X k hk =>
      (ent_setEnt_ne v j X hk).trans (hve k)
    refine ⟨_, _, (hqv.setEnt j n _).ends ht ?_ ?_, ?_, ent_setEnt_self v j n _, ?_⟩
    · rw [hv, hu]; rfl
    · rw [hv, hu]; rfl
    · rw [setPins_port, State.setEnt, modSlice_port, hv, modPort_port_self]
    · rw [wake_svc (e := e.drainResult (d.fenced || r.fenced)) hst hmem rfl]
      refine ⟨rfl, rfl, rfl, fun k hk => ?_, ?_⟩
      · exact hents _ k hk
      simp [State.setEnt, hv, hu]

end Sys2Proof.Safety
end


section
/-! O28: deadlines that a port times, and the panic levels (R65, R122, R177, R271). -/

namespace Sys2Proof.Machine

variable {s : State} {p : Fin 24}

/-- The panic level of an I/O port, sampled while its link is up. -/
theorem panicLevel_eq (lvl : BitVec 4) (h1 : 16 ≤ p.val) (h2 : p.val ≤ 19) : s.panicLevel p lvl = s.modPort p fun x =>
    { x with panicLvl := lvl, panic := if x.up = false then x.panic
                                       else if s.fld (prtPage p) 0x300 11 8 ≤ lvl.toNat then true
                                       else if lvl.toNat ≤ s.fld (prtPage p) 0x300 3 0 then false else x.panic } := by
  rw [modPort_const s p fun x => { x with panicLvl := lvl, panic := _ }]
  cases hu : (s.port p).up with
  | false => simp [State.panicLevel, State.panicSample, h1, h2, hu, modPort_const s p]
  | true => simp [State.panicLevel, State.panicSample, h1, h2, hu, modPort_modPort, modPort_const s p]

/-- The deadline of the one snoop at a port: a report leaves, and the snoop is marked, or goes with its transaction. -/
theorem snoopDeadline_single {g : EgSnp} {a : Agent} {i : Fin 17} {d : Tk} (hn : s.netClear = true) (he : (s.port p).egress = [g]) (ha : g.f.dst = a)
    (hop : g.f.op ≠ .qNotify) (hr : g.reported = false) (har : g.arrived = false) (hd : g.dl = some d) (hdl : s.reached d = true)
    (hi : g.f.slice = BitVec.ofNat 5 i.val) : s.snoopDeadline p a = (s.modPort p fun x =>
      { x with egress := if g.gone then [] else [{ g with reported := true }] }).modSlice i fun x =>
        { x with expRep := x.expRep ++ [⟨g.f.tid.toNat, g.age, a⟩] } := by
  have hlt : g.f.slice.toNat < 17 := by rw [hi, BitVec.toNat_ofNat]; omega
  have hfi : (⟨g.f.slice.toNat, hlt⟩ : Fin 17) = i := Fin.ext (by simp only [hi, BitVec.toNat_ofNat]; omega)
  have hp : (s.modPort p fun x => { x with egress := if g.gone then x.egress.erase g else
        (x.egress.map fun k => if k == g then { k with reported := true } else k) }) =
      s.modPort p fun x => { x with egress := if g.gone then [] else [{ g with reported := true }] } := by
    rw [modPort_const, modPort_const s p fun x => { x with egress := if g.gone then [] else [{ g with reported := true }] }, he]
    simp
  unfold State.snoopDeadline
  dsimp only
  rw [he, List.find?_cons_of_pos (by simp [ha, hop, hr, har, hd, hdl])]
  dsimp only
  rw [hp, dif_pos hlt, hfi, carry_of_clear]
  · rfl
  · exact hn

end Sys2Proof.Machine

namespace Sys2Proof.Safety

open Sys2Proof.Machine

variable {s : State}

/-- A fault counted against an agent is a CORR event of it. -/
theorem protAgent_of_ne {a : Agent} (h : a ≠ 63) (q : PartId) (pa : LineAddr) : s.protAgent a q pa = s.corrEv (srcAgent a) q pa := if_neg h

/-- An expiry report that a slice takes: a CORR event of the agent, and UKM where its transaction is open. -/
theorem expiryReport_of_ent {i : Fin 17} {r : ExpRep} {l : List ExpRep} {e : Trk} (hinj : (s.slice i).ar.inj = []) (hr : (s.slice i).expRep = r :: l)
    (ha : r.ag ≠ 63) (he : s.ent i r.tid = some e) : ∃ q pa, s.expiryReport i =
      (let u := (s.modSlice i fun x => { x with expRep := l }).corrEv (srcAgent r.ag) q pa
       if e.opens ∧ e.age = r.age then u.setEnt i r.tid (some e.setUkm) else u) := by
  obtain ⟨v, hv⟩ : ∃ v, v = s.modSlice i fun x => { x with expRep := l } := ⟨_, rfl⟩
  have hve : v.ent i r.tid = some e := by rw [hv, ent_modSlice]; exact he; rfl
  unfold State.expiryReport
  rw [hr]
  dsimp only
  rw [← hv, hve, Option.filter_some]
  by_cases hc : e.opens = true ∧ e.age = r.age
  · refine ⟨e.r.a.part, e.r.a.pa, ?_⟩
    have hu := EventOnly.corrEv v (srcAgent r.ag) e.r.a.part e.r.a.pa
    rw [if_pos (by simpa using hc), if_pos hc]
    dsimp only
    rw [protAgent_of_ne ha, withTrk_of_nil (by rw [hu.slice, hv, modSlice_slice_self]; exact hinj), modEnt_of_ent (by rw [State.ent, hu.slice]; exact hve)]
  · refine ⟨0, 0, ?_⟩
    rw [if_neg (by simpa using hc), if_neg hc]
    exact protAgent_of_ne ha 0 0

/-- Settles O28. -/
theorem deadlinesAndLevelsAtThePort : Obligations.DeadlinesAndLevelsAtThePort := by
  refine ⟨fun s p a i h => ⟨fun g d he ha hop hr har hd hdl hi => ?_, fun r l e hinj hr ha hm he => ?_⟩,
    fun s p a lvl h => ⟨fun k d hk hka hd hdl ha hm => ?_, fun h1 h2 => ?_⟩⟩
  · exact ((h.modPort p _ rfl fun _ => .inl).modSlice i _ rfl rfl).ends (snoopDeadline_single h.netClear he ha hop hr har hd hdl hi) rfl rfl
  · obtain ⟨q, pa, ht⟩ := expiryReport_of_ent hinj hr ha he
    obtain ⟨v, hv⟩ : ∃ v, v = s.modSlice i fun x => { x with expRep := l } := ⟨_, rfl⟩
    have hqv : Quiet v := hv ▸ h.modSlice i _ rfl rfl
    have hmv : mild v (srcAgent r.ag) := hv ▸ hm
    obtain ⟨u, hu⟩ : ∃ u, u = v.corrEv (srcAgent r.ag) q pa := ⟨_, rfl⟩
    have hqu : Quiet u := hu ▸ hqv.corrEvOf q pa hmv
    have heu : EventOnly v u := hu ▸ EventOnly.corrEv v (srcAgent r.ag) q pa
    obtain ⟨w, hw⟩ : ∃ w, w = if e.opens ∧ e.age = r.age then u.setEnt i r.tid (some e.setUkm) else u := ⟨_, rfl⟩
    rw [← hv, ← hu] at ht
    dsimp only at ht
    rw [← hw] at ht
    have hue : ∀ k, u.ent i k = s.ent i k := fun k => by rw [State.ent, heu.slice, hv]; exact ent_modSlice _ _ _ _ _ rfl
    have hqw : Quiet w := by
      rw [hw]
      split
      · exact hqu.setEnt _ _ _
      · exact hqu
    have hwf : ∃ x, w = { u with slices := x } ∧ (∀ j, j ≠ i → w.slice j = u.slice j) ∧ (w.slice i).expRep = (u.slice i).expRep ∧
        w.ent i r.tid = some (if e.opens ∧ e.age = r.age then e.setUkm else e) ∧ ∀ k, k ≠ r.tid → w.ent i k = u.ent i k := by
      rw [hw]
      split
      · exact ⟨_, rfl, fun j hj => setEnt_slice_ne _ _ _ hj, by rw [setEnt_slice_self]; rfl, ent_setEnt_self _ _ _ _, fun k hk => ent_setEnt_ne _ _ _ hk⟩
      · exact ⟨_, rfl, fun j _ => rfl, rfl, (hue _).trans he, fun k _ => rfl⟩
    obtain ⟨x, hx, hne, hexp, hent, hents⟩ := hwf
    refine ⟨_, hqw.ends ht ?_ ?_, hent, ?_, ?_, fun k hk => (hents k hk).trans (hue k), fun j hj => ?_, ?_⟩
    · rw [hx]; exact heu.pending.trans (by rw [hv]; rfl)
    · rw [hx]; exact heu.now.trans (by rw [hv]; rfl)
    · rw [setPins_slice, hexp, heu.slice, hv, modSlice_slice_self]
    · rw [setPins_src, hx]
      refine (congrArg Src.corr (show _ = u.src (srcAgent r.ag) from rfl)).trans ?_
      rw [hu, corrEv_mild_src q pa hmv, hv, modSlice_src]
    · rw [setPins_slice, hne j hj, heu.slice, hv, modSlice_slice_ne _ _ hj]
    · rw [hx]
      exact ⟨heu.ports.trans (by rw [hv]; rfl), heu.chans.trans (by rw [hv]; rfl), heu.dram.trans (by rw [hv]; rfl), heu.glb.trans (by rw [hv]; rfl),
        heu.par.trans (by rw [hv]; rfl)⟩
  · obtain ⟨v, hv⟩ : ∃ v, v = s.modPort p fun x => { x with acks := [] } := ⟨_, rfl⟩
    have hqv : Quiet v := hv ▸ h.modPort p _ rfl fun _ => .inl
    have heu := EventOnly.corrEv v (srcAgent a) k.part k.pa
    have ht : s.ackAllowance p a = v.corrEv (srcAgent a) k.part k.pa := by
      have hp : (s.modPort p fun x => { x with acks := x.acks.erase k }) = v := by
        rw [hv, modPort_const, modPort_const s p fun x => { x with acks := [] }, hk]
        simp
      unfold State.ackAllowance
      dsimp only
      rw [hk, List.find?_cons_of_pos (by simp [hka, hd, hdl])]
      dsimp only
      rw [hp, protAgent_of_ne ha]
    rw [← hv]
    exact (hqv.corrEvOf _ _ (hv ▸ hm)).ends ht (heu.pending.trans (by rw [hv]; rfl)) (heu.now.trans (by rw [hv]; rfl))
  · exact (h.modPort p _ rfl fun _ => .inl).ends (panicLevel_eq lvl h1 h2) rfl rfl

end Sys2Proof.Safety
end


section
/-! O27: acknowledgements and replays of a port's link layer (R431, R432, R435). -/

namespace Sys2Proof.Machine

variable {s : State} {p : Fin 24} {c : PortChan} {n : BitVec 5} {w : BitVec 576}

/-! ### The sending side -/

theorem tx_congr {l : PortLink} {k : LinkTx} {f g : LinkTx → LinkTx} (h : l.txAt c = some k) (he : f k = g k) : l.tx c f = l.tx c g := by
  cases c <;> cases h <;> simp [PortLink.tx, he]

theorem txAt_tx {l : PortLink} {k : LinkTx} (f : LinkTx → LinkTx) (h : l.txAt c = some k) : (l.tx c f).txAt c = some (f k) := by
  cases c <;> cases h <;> rfl

/-- Where no flit waits behind the window, none is offered when the window opens. -/
theorem linkMove_idle {k : LinkTx} (f g : LinkTx → LinkTx) (h : (s.port p).link.txAt c = some k) (hw : k.waiting = []) (he : f k = g k) :
    s.linkMove p c f = s.modPort p fun x => { x with link := x.link.tx c g } := by
  unfold State.linkMove
  rw [modPort_const, modPort_const s p fun x => { x with link := x.link.tx c g }]
  dsimp only
  rw [txAt_tx f h, h, tx_congr h he]
  unfold LinkTx.sentOf
  dsimp only
  rw [hw, List.take_nil]
  rfl

/-- What an acknowledgement of the flit after `a` leaves. -/
theorem freed_of_append {k : LinkTx} {a b : List (BitVec 5 × Flit)} {f : Flit} (h : k.unacked = a ++ (n, f) :: b) (ha : ∀ e ∈ a, e.1 ≠ n) :
    k.freed n = { k with unacked := b, wire := k.wire.filter fun e => b.any (·.1 == e.1) } := by
  have hd : (k.unacked.dropWhile (·.1 != n)).drop 1 = b := by
    rw [h, List.dropWhile_append_of_pos (by simpa using ha), List.dropWhile_cons_of_neg (by simp)]
    rfl
  unfold LinkTx.freed
  rw [if_pos (by simp [h]), hd]

theorem ackTo_of_append {k : LinkTx} {a b : List (BitVec 5 × Flit)} {f : Flit} (h : k.unacked = a ++ (n, f) :: b) (ha : ∀ e ∈ a, e.1 ≠ n)
    (hw : k.waiting = []) : k.ackTo n = { k with unacked := b, wire := k.wire.filter fun e => b.any (·.1 == e.1) } := by
  rw [LinkTx.ackTo, freed_of_append h ha, hw, LinkTx.fill, ← hw]

theorem resend_of_append {k : LinkTx} {a b : List (BitVec 5 × Flit)} {f : Flit} (h : k.unacked = a ++ (n, f) :: b) (ha : ∀ e ∈ a, e.1 ≠ n)
    (hw : k.waiting = []) : k.resend n = { k with unacked := b, wire := b } := by
  rw [LinkTx.resend, freed_of_append h ha, hw, LinkTx.fill, ← hw]

/-- On a channel of Efkar the agents ask for a replay. -/
theorem linkEvent_tx {k : LinkTx} (h : (s.port p).link.txAt c = some k) (hu : (s.port p).up = true) : s.linkEvent p c n w = s.linkResend p c n := by
  unfold State.linkEvent
  cases c <;> cases h <;> exact if_pos hu

/-! ### The receiving side -/

/-- A channel of the agents with its receiving side, and whether the CRC of the flit that comes fails. -/
def rxFlit (s : State) (p : Fin 24) (w : BitVec 576) (c : PortChan) (k : LinkRx) (bad : Bool) : Prop :=
  (c, k, bad) ∈ [(PortChan.req, (s.port p).link.req, (flitIn (n := 112) (w.extractLsb' 0 128)).isNone),
    (.rspi, (s.port p).link.rspi, (flitIn (n := 112) (w.extractLsb' 0 128)).isNone),
    (.dati, (s.port p).link.dati, (flitIn (n := 560) w).isNone)]

/-- One of the three channels of the agents. -/
theorem rxFlit_cases {k : LinkRx} {bad : Bool} (h : rxFlit s p w c k bad) :
    (c = .req ∧ k = (s.port p).link.req ∧ bad = (flitIn (n := 112) (w.extractLsb' 0 128)).isNone) ∨
    (c = .rspi ∧ k = (s.port p).link.rspi ∧ bad = (flitIn (n := 112) (w.extractLsb' 0 128)).isNone) ∨
    (c = .dati ∧ k = (s.port p).link.dati ∧ bad = (flitIn (n := 560) w).isNone) := by
  obtain h | h := List.mem_cons.1 h
  · exact .inl (by cases h; exact ⟨rfl, rfl, rfl⟩)
  · obtain h | h := List.mem_cons.1 h
    · exact .inr (.inl (by cases h; exact ⟨rfl, rfl, rfl⟩))
    · exact .inr (.inr (by cases List.mem_singleton.1 h; exact ⟨rfl, rfl, rfl⟩))

theorem linkIn_refused {α : Type} {k : LinkRx} {t : State} (v : Option α) (f : α → State) (hk : (s.port p).link.rxAt c = some k)
    (hu : (s.port p).up = true) (h : s.linkRefuses p c k n v.isNone = some t) : s.linkIn p c n v f = t := by
  unfold State.linkIn
  rw [hk, hu]
  dsimp only
  rw [h]
  rfl

theorem linkIn_down {α : Type} (v : Option α) (f : α → State) (hu : (s.port p).up = false) : s.linkIn p c n v f = s := by
  unfold State.linkIn
  rw [hu]
  cases (s.port p).link.rxAt c <;> rfl

/-- A flit that the receiver's rule refuses leaves what that rule says. -/
theorem linkEvent_refused {k : LinkRx} {bad : Bool} {t : State} (hk : rxFlit s p w c k bad) (hu : (s.port p).up = true)
    (h : s.linkRefuses p c k n bad = some t) : s.linkEvent p c n w = t := by
  obtain ⟨rfl, hk, hb⟩ | ⟨rfl, hk, hb⟩ | ⟨rfl, hk, hb⟩ := rxFlit_cases hk <;> rw [hb] at h
  · exact linkIn_refused (s := s) (p := p) (c := .req) _ _ (congrArg some hk.symm) hu h
  · exact linkIn_refused (s := s) (p := p) (c := .rspi) _ _ (congrArg some hk.symm) hu h
  · exact linkIn_refused (s := s) (p := p) (c := .dati) _ _ (congrArg some hk.symm) hu h

theorem rx_congr {k : LinkRx} {bad : Bool} {f g : LinkRx → LinkRx} (hk : rxFlit s p w c k bad) (he : f k = g k) :
    (s.port p).link.rx c f = (s.port p).link.rx c g := by
  obtain ⟨rfl, rfl, _⟩ | ⟨rfl, rfl, _⟩ | ⟨rfl, rfl, _⟩ := rxFlit_cases hk <;> simp [PortLink.rx, he]

/-- A port that is down takes nothing, and asks for nothing. -/
theorem linkEvent_down (hu : (s.port p).up = false) : s.linkEvent p c n w = s := by
  unfold State.linkEvent State.reqFlit State.rspFlit State.datFlit
  cases c
  case req => exact linkIn_down _ _ hu
  case rspi => exact linkIn_down _ _ hu
  case dati => exact linkIn_down _ _ hu
  all_goals exact if_neg (by rw [hu]; exact Bool.false_ne_true)

/-- What a port's link is while it asks for a replay. -/
def State.asks (s : State) (p : Fin 24) (c : PortChan) (run : Nat) : State := (s.corrEv (srcPort p)).modPort p fun x =>
  { x with link := x.link.rx c fun k => { k with waitReplay := true, rply := true, badRun := run } }

/-- Efkar asks for a replay before the third bad CRC in a row. -/
theorem linkAsk_below {k : LinkRx} {bad : Bool} {run : Nat} (hr : (if bad then k.badRun + 1 else k.badRun) = run) (h : run < 3) :
    s.linkAsk p c k bad = s.asks p c run := by
  have h3 : run ≠ 3 := by omega
  unfold State.linkAsk
  dsimp only
  rw [hr, if_neg h3, if_neg h3]
  rfl

/-- The expected flit with a bad CRC, or another one while no replay is awaited, makes Efkar ask for a replay. -/
theorem linkRefuses_bad {k : LinkRx} (h : k.waitReplay = false ∨ n = k.last + 1) : s.linkRefuses p c k n true = some (s.linkAsk p c k true) := by
  unfold State.linkRefuses
  by_cases e : n = k.last + 1
  · rw [if_pos e]
    rfl
  · rw [if_neg e, h.resolve_right e]
    rfl

/-- The third bad CRC in a row is an UNCOR event of the port. -/
theorem linkAsk_third {k : LinkRx} (h : k.badRun = 2) : s.linkAsk p c k true = (s.asks p c 0).uncorEv (srcPort p) := by
  unfold State.linkAsk
  dsimp only
  rw [h]
  rfl

end Sys2Proof.Machine

namespace Sys2Proof.Safety

open Sys2Proof.Machine

variable {s : State} {p : Fin 24}

theorem Quiet.asks (h : Quiet s) (hm : mild s (srcPort p)) (c : PortChan) (run : Nat) : Quiet (s.asks p c run) :=
  (h.corrEv_mild _ hm).modPort p _ rfl fun _ => .inl

theorem asks_congr {w : BitVec 576} {c : PortChan} {k : LinkRx} {bad : Bool} (hk : rxFlit s p w c k bad) (run : Nat) (f : LinkRx → LinkRx)
    (hf : { k with waitReplay := true, rply := true, badRun := run } = f k) :
    s.asks p c run = (s.corrEv (srcPort p)).modPort p fun x => { x with link := x.link.rx c f } := by
  have he := EventOnly.corrEv s (srcPort p) 0 0
  unfold State.asks
  rw [modPort_const, modPort_const _ p fun x => { x with link := x.link.rx c f }, he.port, rx_congr hk hf]

/-- Settles O27. -/
theorem portLinkAcknowledges : Obligations.PortLinkAcknowledges := by
  intro s p c n w h
  refine ⟨fun k a b fl hu hk hun ha hw => ⟨?_, fun hm => ?_⟩, fun k bad hk hm hu => ⟨fun hwt hn => ?_, fun hwt hn hb hr => ?_, fun hor hb =>
    ⟨fun hr => ?_, fun hr hs h4 h2 h0 => ?_⟩⟩, fun hd => ⟨?_, ?_⟩⟩
  · exact (h.modPort p _ rfl fun _ => .inl).ends ((if_pos hu).trans (linkMove_idle _ _ hk hw (ackTo_of_append hun ha hw))) rfl rfl
  · have he := EventOnly.corrEv s (srcPort p) 0 0
    exact ((h.corrEv_mild _ hm).modPort p _ rfl fun _ => .inl).ends ((linkEvent_tx hk hu).trans
      (linkMove_idle _ _ (by rw [he.port]; exact hk) hw (resend_of_append hun ha hw))) he.pending he.now
  · exact h.ends (linkEvent_refused hk hu ((if_neg hn).trans (if_pos hwt))) rfl rfl
  · have he := EventOnly.corrEv s (srcPort p) 0 0
    have href : s.linkRefuses p c k n bad = some (s.asks p c k.badRun) := by
      unfold State.linkRefuses
      rw [if_neg hn, hwt, if_neg Bool.false_ne_true, hb, linkAsk_below (run := k.badRun) rfl hr]
    exact (h.asks hm c _).ends (linkEvent_refused hk hu href) he.pending he.now
      |>.trans (by rw [asks_congr hk _ (fun k => { k with waitReplay := true, rply := true }) rfl])
  · have he := EventOnly.corrEv s (srcPort p) 0 0
    have href := (linkRefuses_bad (s := s) (p := p) (c := c) hor).trans (congrArg some (linkAsk_below (bad := true) (run := k.badRun + 1) rfl (Nat.succ_lt_succ hr)))
    rw [← hb] at href
    exact (h.asks hm c _).ends (linkEvent_refused hk hu href) he.pending he.now
      |>.trans (by rw [asks_congr hk _ (fun k => { k with waitReplay := true, rply := true, badRun := k.badRun + 1 }) rfl])
  · obtain ⟨u, hU⟩ : ∃ u, u = s.asks p c 0 := ⟨_, rfl⟩
    have hqu : Quiet u := hU ▸ h.asks hm c 0
    have href := (linkRefuses_bad (s := s) (p := p) (c := c) hor).trans (congrArg some (linkAsk_third hr))
    rw [← hb, ← hU] at href
    have heu := EventOnly.corrEv s (srcPort p) 0 0
    have hum : (u.src (srcPort p)).severe = false := by
      rw [hU, State.asks, modPort_src, corrEv_mild_src_self 0 0 hm]
      exact (count1_severe _ _).trans hs
    have hul := uncorLeaves_of_mild hum
    have he := EventOnly.uncorEv u (srcPort p) 0 0
    have hdue : (u.uncorEv (srcPort p)).flt.due = [srcPort p] := by
      rw [uncorEv_due 0 0 hul, hum, hqu.due]
      rfl
    have hf : (u.uncorEv (srcPort p)).fld 59 0x104 5 4 ≠ 1 := by
      unfold State.fld at h4 ⊢
      rw [uncorEv_reg_ne _ _ _ _ _ _ (by omega), hU, State.asks, modPort_reg, corrEv_reg_ne _ _ _ _ _ _ (by omega), h4]
      decide
    refine ⟨_, (hqu.uncorEvent (srcPort p) 0 0).endsDue ((congrArg (fun t : State => t.flt.due) (linkEvent_refused hk hu href)).trans hdue)
      (congrArg (·.modFlt fun f => { f with due := [] }) (linkEvent_refused hk hu href)) (dueAct_port hf) ?_ ?_, ?_, ?_, ?_⟩
    · exact he.pending.trans (by rw [hU]; exact heu.pending)
    · exact he.now.trans (by rw [hU]; exact heu.now)
    · exact congrArg Src.severe ((uncorEv_src 0 0 hul (srcPort p)).trans (if_pos rfl))
    · refine (congrArg Port.link (he.port p)).trans ?_
      rw [hU, State.asks, modPort_port_self, heu.port]
    · exact ⟨he.slices.trans (by rw [hU]; exact heu.slices), he.chans.trans (by rw [hU]; exact heu.chans), he.dram.trans (by rw [hU]; exact heu.dram)⟩
  · exact h.ends (linkEvent_down hd) rfl rfl
  · exact h.ends (if_neg (by rw [hd]; exact Bool.false_ne_true)) rfl rfl

end Sys2Proof.Safety
end


section
/-! O24: data from one agent to another passes the block (R39, R65, R67, R69). -/

namespace Sys2Proof.Machine

variable {s : State} {p : Fin 24} {opc : BitVec 5} {f : DatArgs}

/-- A change of snoops that leaves none waiting for a line of the answer area, at a port where none does. -/
theorem modEgress_of_none (q : EgSnp → Bool) (g : EgSnp → EgSnp) (h : ∀ k ∈ (s.port p).egress, k.waitsArea = false)
    (hg : ∀ k, (g k).waitsArea = k.waitsArea) : s.modEgress p q g =
      s.modPort p fun x => { x with egress := (x.egress.map fun k => if q k then g k else k).filter fun k => !k.over } :=
  bindArea_of_none _ _ fun k hk => by
    rw [modPort_port_self] at hk
    obtain ⟨k', hk', rfl⟩ := List.mem_map.1 (List.mem_of_mem_filter hk)
    split
    · rw [hg, h k' hk']
    · exact h k' hk'

/-- The answer to a snoop that a flit between agents belongs to (R65). -/
def fwdAnswers (f : DatArgs) (g : EgSnp) : Bool :=
  g.f.op != .qNotify && g.f.rag == f.agt && g.f.rpart == f.id.extractLsb' 12 6 && g.f.ratag == f.id.extractLsb' 0 12 && g.f.rgen == f.gen

/-- The port at which a flit between agents has come in: the link takes it, and the snoops it belongs to are marked. -/
def Port.tookFwd (x : Port) (f : DatArgs) : Port :=
  { x with link := x.link.rx .dati LinkRx.take
           egress := (x.egress.map fun g => if fwdAnswers f g then { g with fwdIn := true } else g).filter fun g => !g.over }

theorem forwardedCode_of_op {op : DatOp} (h : datOpOf opc = some op) (hw : op ≠ .datWr) : s.forwardedCode p opc f = s.forwardedArrive p op f := by
  unfold State.forwardedCode
  rw [h, Option.filter_some, if_pos (by simpa using hw)]

/-- A flit between agents that its port discards: the whole port is fenced. -/
theorem forwardedCode_fenced (hu : (s.port p).up = true) (hf : s.portFenced p = true) : s.forwardedCode p opc f = s.linkTake p .dati := by
  have hl : (s.linkTake p .dati).portFenced p = true := hf
  unfold State.forwardedCode State.forwardedArrive
  rw [hu]
  cases (datOpOf opc).filter fun x => decide (x ≠ .datWr) with
  | none => exact if_pos hl
  | some op => exact if_pos hl

/-- One that names no opcode of such a flit, or an agent that no port carries, is a protocol fault of its port. -/
theorem forwardedCode_fault (hu : (s.port p).up = true) (hf : s.portFenced p = false)
    (h : datOpOf opc = none ∨ datOpOf opc = some .datWr ∨ portOf f.agt = none) : s.forwardedCode p opc f = (s.linkTake p .dati).protPort p := by
  have hl : ¬ (s.linkTake p .dati).portFenced p = true := by rw [show (s.linkTake p .dati).portFenced p = s.portFenced p from rfl, hf]; exact Bool.false_ne_true
  cases hop : (datOpOf opc).filter fun x => decide (x ≠ .datWr) with
  | none =>
    unfold State.forwardedCode
    rw [hop, hu]
    exact if_neg hl
  | some op =>
    have hp : portOf f.agt = none := by
      obtain h | h | h := h
      · rw [h] at hop
        cases hop
      · rw [h] at hop
        cases hop
      · exact h
    unfold State.forwardedCode State.forwardedArrive
    rw [hop, hu]
    dsimp only
    rw [hp]
    exact if_neg hl

/-- Another goes to the port of its agent at once, over a clear network. -/
theorem forwardedArrive_passes (op : DatOp) {d : Fin 24} (hn : s.netClear = true) (hu : (s.port p).up = true) (hf : s.portFenced p = false) (hd : portOf f.agt = some d)
    (he : ∀ g ∈ (s.port p).egress, g.waitsArea = false) : ∃ det, s.forwardedArrive p op f = (s.modPort p (·.tookFwd f)).forwardedAt op f det := by
  have hm : (s.linkTake p .dati).modEgress p (fwdAnswers f) (fun g => { g with fwdIn := true }) = s.modPort p (·.tookFwd f) := by
    refine (modEgress_of_none (s := s.linkTake p .dati) (p := p) (fwdAnswers f) (fun g => { g with fwdIn := true })
      (by unfold State.linkTake; rw [modPort_port_self]; exact he) fun _ => rfl).trans ?_
    exact modPort_modPort s p _ _
  have hc : ((s.linkTake p .dati).modEgress p (fwdAnswers f) (fun g => { g with fwdIn := true })).netClear = true := by rw [hm]; exact hn
  unfold State.forwardedArrive
  rw [hu]
  dsimp only
  rw [hd]
  refine ⟨_, (if_neg Bool.false_ne_true).trans ((if_neg ?_).trans ((carry_of_clear _ _ _ _ _ hc).trans (congrArg (fun s : State => s.forwardedAt op f _) hm)))⟩
  rw [show (s.linkTake p .dati).portFenced p = s.portFenced p from rfl, hf]
  exact Bool.false_ne_true

/-- At the port of its agent the flit is offered, where neither fence nor generation is against it. -/
theorem forwardedAt_up (op : DatOp) (det : Bool) {d : Fin 24} (hd : portOf f.agt = some d) (hf : s.agFenced f.agt = false)
    (hg : f.gen = (s.part (f.id.extractLsb' 12 6)).gen) (hu : (s.port d).up = true) :
    ∃ acks, s.forwardedAt op f det = s.modPort d fun x => { x with acks := acks, link := x.link.send (.dat op f) } := by
  have he : s.egressCheck f.agt (f.id.extractLsb' 12 6) f.gen = (s, true) := by simp [State.egressCheck, hf, hg]
  unfold State.forwardedAt
  rw [hd]
  dsimp only
  rw [he]
  dsimp only
  split
  · obtain ⟨acks, h⟩ := offer_up (s.modPort d fun x => { x with
      acks := x.acks ++ [⟨f.agt, f.id.extractLsb' 12 6, f.id.extractLsb' 0 12, f.gen, 0, s.detClass d f.agt, true, true, none⟩] }) d (.dat op f)
      (by rw [modPort_port_self]; exact hu)
    exact ⟨acks, h.trans (modPort_modPort _ _ _ _)⟩
  · exact offer_up s d (.dat op f) hu

/-- The egress discards a flit to a fenced agent, and counts one of another generation. -/
theorem forwardedAt_discards (op : DatOp) (det : Bool) {d : Fin 24} (hd : portOf f.agt = some d)
    (h : s.agFenced f.agt = true ∨ f.gen ≠ (s.part (f.id.extractLsb' 12 6)).gen) :
    s.forwardedAt op f det = if s.agFenced f.agt then s else s.staleMsg (f.id.extractLsb' 12 6) := by
  unfold State.forwardedAt State.egressCheck
  rw [hd]
  cases hf : s.agFenced f.agt with
  | true => rfl
  | false =>
    have hg := h.resolve_left (by rw [hf]; exact Bool.false_ne_true)
    dsimp only
    rw [if_neg Bool.false_ne_true, if_pos (by simpa using hg)]
    rfl

end Sys2Proof.Machine

namespace Sys2Proof.Safety

open Sys2Proof.Machine

/-- Settles O24. -/
theorem forwardedDataPasses : Obligations.ForwardedDataPasses := by
  refine fun s p opc f h hu => ⟨fun hf => ?_, fun hf hm hor => ?_, fun op d hf hop hw hd he => ?_⟩
  · exact (h.linkTake p .dati).ends (forwardedCode_fenced hu hf) rfl rfl
  · have hev := EventOnly.corrEv (s.linkTake p .dati) (srcPort p) 0 0
    exact ((h.linkTake p .dati).corrEvOf 0 0 hm).ends (forwardedCode_fault hu hf hor) hev.pending hev.now
  · obtain ⟨det, ht⟩ := forwardedArrive_passes op h.netClear hu hf hd he
    rw [← forwardedCode_of_op hop hw] at ht
    obtain ⟨u, hU⟩ : ∃ u, u = s.modPort p (·.tookFwd f) := ⟨_, rfl⟩
    have hq : Quiet u := hU ▸ h.modPort p _ rfl fun _ => .inl
    have hup : ∀ q, u.port q = if q = p then (s.port q).tookFwd f else s.port q := fun q => by rw [hU, modPort_port]
    rw [← hU] at ht
    refine ⟨fun hor => ?_, fun ha hg hdu => ?_⟩
    · have hor' : u.agFenced f.agt = true ∨ f.gen ≠ (u.part (f.id.extractLsb' 12 6)).gen := hU ▸ hor
      rw [forwardedAt_discards op det hd hor'] at ht
      have hsame : ∀ q, (u.port q).link.dato = (s.port q).link.dato := fun q => by rw [hup]; split <;> rfl
      cases hf : u.agFenced f.agt with
      | true =>
        have hfs : s.agFenced f.agt = true := by rw [← hf, hU]; rfl
        rw [hf] at ht
        exact ⟨_, hq.ends ht (by rw [hU]; rfl) (by rw [hU]; rfl), hsame, by rw [hU]; rfl, by rw [hfs, hU]; rfl⟩
      | false =>
        have hfs : s.agFenced f.agt = false := by rw [← hf, hU]; rfl
        rw [hf] at ht
        exact ⟨_, (hq.staleMsg _).ends ht (by rw [hU]; rfl) (by rw [hU]; rfl), hsame, by rw [hU]; rfl, by rw [hfs, hU]; rfl⟩
    · have hud : (u.port d).up = true := by rw [hup]; split <;> exact hdu
      obtain ⟨acks, ha⟩ := forwardedAt_up op det hd (show u.agFenced f.agt = false by rw [hU]; exact ha)
        (show f.gen = (u.part _).gen by rw [hU]; exact hg) hud
      rw [ha] at ht
      have hport : ∀ q, (u.modPort d fun x => { x with acks := acks, link := x.link.send (.dat op f) }).port q =
          if q = d then { u.port q with acks := acks, link := (u.port q).link.send (.dat op f) } else u.port q := fun q => modPort_port _ _ _ _
      refine ⟨_, (hq.modPort d _ rfl fun _ => .inl).ends ht (by rw [hU]; rfl) (by rw [hU]; rfl), ?_, ?_, fun q hq => ?_, fun q hq hqd => ?_, fun q => ?_, ?_⟩
      · rw [setPins_port, hport, if_pos rfl, hup]
        split <;> rfl
      · rw [setPins_port, hport, hup, if_pos rfl]
        split <;> simp [Port.tookFwd, fwdAnswers, and_assoc]
      · rw [setPins_port, hport, hup, if_neg hq]
        split <;> rfl
      · rw [setPins_port, hport, hup, if_neg hq, if_neg hqd]
      · rw [setPins_port, hport, hup]
        split <;> split <;> exact ⟨rfl, rfl, rfl⟩
      · rw [hU]
        exact ⟨rfl, rfl, rfl, rfl, rfl, rfl, rfl⟩

end Sys2Proof.Safety
end


section
/-! O23: CompAck (R63, R70, R133, R201); the source check of a flit that passes it, and what a wake leaves. -/

namespace Sys2Proof.Machine

variable {s : State}

/-- A flit of an agent that passes the first two checks goes on (R35). -/
theorem sourceCheck_passes {p : Fin 24} {a : Agent} (h : Safety.FlitPasses s p a) (c : PortChan) :
    (s.linkTake p c).sourceCheck p a = (s.linkTake p c, true) := by
  have h1 : (s.linkTake p c).portFenced p = false := h.port
  have h2 : (s.linkTake p c).agFenced a = false := h.agent
  simp [State.sourceCheck, h1, h2, h.own]

/-- A wake changes where a transaction is, and what has happened to it, alone. -/
theorem wake_frame (e : Trk) (tmo : Bool) : ∃ st pc m, e.wake tmo = { e with stat := st, pc := pc, m := m } := by
  unfold Trk.wake
  split
  · dsimp only
    split_ifs <;> exact ⟨_, _, _, rfl⟩
  · exact ⟨_, _, _, rfl⟩

/-- A transaction that waits for one message goes on with it. -/
theorem wake_msg {e : Trk} {me tm sv : Bool} {pc : BitVec 10} (hs : e.stat = .parked true me tm sv false pc) (hl : e.m.latch = true) (tmo : Bool) :
    e.wake tmo = { e with stat := .ready false, pc := e.pc + 1, m := { e.m with latch := false, ev := 0 } } := by
  simp [Trk.wake, hs, hl]

/-- Nothing is recorded while the trace is off. -/
theorem trace_off (h : s.flag 63 0x140 31 = false) (i : Fin 17) (r : TraceRec) : s.trace i r = s := by
  unfold State.trace
  dsimp only
  rw [h, Bool.false_and, Bool.false_and, Bool.false_and, Bool.false_and, Bool.false_and, if_neg Bool.false_ne_true]

theorem traceEnt_off (h : s.flag 63 0x140 31 = false) (i : Fin 17) (t : Nat) (e : Trk) (kind : BitVec 6) (ag : Agent) (opc : BitVec 5) :
    s.traceEnt i t e kind ag opc = s := trace_off h _ _

/-- A transaction to which the `CompAck` that it waits for has come. -/
def Trk.gotAck (e : Trk) : Trk := { e with x := { e.x with ca := true }, m := { e.m with latch := true } }

/-- Port `x` once the `CompAck` `f` has come in: its link takes it, and its allowance runs no more. -/
def Port.tookAck (x : Port) (f : RspArgs) : Port :=
  { x with link := x.link.rx .rspi LinkRx.take, acks := x.acks.filter fun k => !k.isFor f.src f.part f.atag f.gen }

/-- A `CompAck` goes to the slice that serves its line. -/
theorem compAckArrive_passes {p : Fin 24} {f : RspArgs} {i : Fin 17} (hn : s.netClear = true) (h : Safety.FlitPasses s p f.src)
    (hg : f.gen = (s.part f.part).gen) (hi : s.servingSlice (s.homeOf f.loc) f.loc = some i) :
    s.compAckArrive p f = (s.modPort p (·.tookAck f)).ackAt p f := by
  obtain ⟨u, hu⟩ : ∃ u, u = s.modPort p (·.tookAck f) := ⟨_, rfl⟩
  have hu' : ((s.linkTake p .rspi).modPort p fun x => { x with acks := x.acks.filter fun k => !k.isFor f.src f.part f.atag f.gen }) = u :=
    hu ▸ modPort_modPort s p _ _
  have hgu : (f.gen != (u.part f.part).gen) = false := by rw [hu, bne_eq_false_iff_eq]; exact hg
  have hnu : u.netClear = true := by rw [hu]; exact hn
  have hiu : u.servingSlice (u.homeOf f.loc) f.loc = some i := by rw [hu]; exact hi
  unfold State.compAckArrive
  rw [h.up, sourceCheck_passes h]
  dsimp only
  rw [hu', hgu, hiu]
  rw [← hu]
  exact (if_neg Bool.false_ne_true).trans ((if_neg Bool.false_ne_true).trans (carry_of_clear (s := u) _ _ _ _ (fun s => s.ackAt p f) hnu))

end Sys2Proof.Machine

namespace Sys2Proof.Safety

open Sys2Proof.Machine

/-- Settles O23. -/
theorem compAckSetsCa : Obligations.CompAckSetsCa := by
  intro s p f i h hf hg hi ha htr
  have ht := compAckArrive_passes h.netClear hf hg hi
  obtain ⟨u, hu⟩ : ∃ u, u = s.modPort p (·.tookAck f) := ⟨_, rfl⟩
  have hc : u = s.modPort p fun _ => (s.port p).tookAck f := hu
  have hq : Quiet u := hu ▸ h.modPort p _ rfl fun _ => .inl
  rw [← hu] at ht
  have hus : u.slice i = s.slice i := by rw [hu]; rfl
  have hat : ∀ o, u.ackTarget i f = o → u.ackAt p f = match (motive := Option Nat → State) o with
      | some t => u.withTrk i t fun s => s.takeAck i t f.src
      | none => (u.staleMsg f.part).protPort p f.part f.loc := by
    rintro o rfl
    unfold State.ackAt
    rw [show u.servingSlice (u.homeOf f.loc) f.loc = some i by rw [hu]; exact hi]
    dsimp only [Option.bind_some]
    rw [hus, ha, if_neg Bool.false_ne_true]
    cases u.ackTarget i f <;> rfl
  refine ⟨fun n e hinj hop hent hsrc hpart hgen hport hgrp => ?_, fun hop hm => ?_⟩
  · have htgt : u.ackTarget i f = some n := by
      unfold State.ackTarget
      rw [hus, hop]
      dsimp only
      simp [hsrc, hpart, hgen, hgrp, Option.isSome_iff_ne_none.2 hport]
    have hue : u.ent i n = some e := by rw [State.ent, hus]; exact hent
    have htake : u.takeAck i n f.src = u.setEnt i n (some (e.gotAck.wake false)) := by
      unfold State.takeAck
      rw [hue]
      dsimp only
      rw [hgrp, traceEnt_off (by rw [hu]; exact htr)]
      exact stir_of_ent hue _
    rw [hat _ htgt] at ht
    dsimp only at ht
    rw [withTrk_of_nil (by rw [hus]; exact hinj), htake, hc] at ht
    obtain ⟨st, pc, m, hw⟩ := wake_frame e.gotAck false
    refine ⟨(s.port p).tookAck f, _, ((hc ▸ hq).setEnt i n _).ends ht rfl rfl, ?_, ?_, ?_, ?_, ?_, fun me tm sv pc hst => ?_, rfl, rfl, rfl, rfl, fun k hk => ?_⟩
    · rw [hw]; rfl
    · rw [hw]; rfl
    · rw [hw]; rfl
    · rw [hw]; rfl
    · rw [hw]; rfl
    · rw [wake_msg (e := e.gotAck) hst rfl]
      exact ⟨rfl, rfl⟩
    · obtain ⟨hk, hn⟩ := List.mem_filter.1 hk
      refine ⟨hk, fun ⟨h1, h2, h3, h4⟩ => ?_⟩
      simp [AckTimer.isFor, h1, h2, h3, h4] at hn
  · have htgt : u.ackTarget i f = none := by
      unfold State.ackTarget
      rw [hus, hop]
    rw [hat _ htgt, hc] at ht
    have hq' : Quiet (u.staleMsg f.part) := hq.staleMsg _
    have he := EventOnly.corrEv (u.staleMsg f.part) (srcPort p) f.part f.loc
    rw [hc] at hq' he
    exact ⟨(s.port p).tookAck f, (hq'.corrEvOf _ _ hm).ends ht he.pending he.now, rfl, rfl, rfl⟩

end Sys2Proof.Safety
end


section
/-! O21: an `RspEvPend` announces a `DatDirty` (R56), so ACKCNT falls by 1 alone and the agent is awaited on, where none has come. -/

namespace Sys2Proof.Safety

open Sys2Proof.Machine

/-- A read of agent 0 that has sent agent 2 one snoop, and waits for its answer; its line is UK. -/
def evPendEnt : Trk :=
  { r := ⟨.req .rdShd, ⟨0, 0, 0, 5, 5, 0⟩, some 0, 5, false, 0, none, 0, false⟩
    stat := .parked true false false false false 0, opens := true, age := 0, we := .uk, way := 0, wv := false, pc := 0, dlr := 0
    x := ⟨0, 0, 0, 0, 0, 0, 2, 0, false, false, false, false, false⟩
    m := ⟨.i, 0, false, 0, 0, false, false, [], false, false, .ok, none⟩
    h := ⟨0, [], false, [(2, 0)], [⟨2, .snpShd, false, true, true, false, false⟩], [], none, false, false, false, false, false, none, false, false, false, false⟩ }

/-- That snoop, at port 1. -/
def evPendSnp : EgSnp :=
  { f := ⟨.snpShd, 2, 5, 0, 63, 0, 0, 0, 5⟩, det := false, age := 0, gone := false, area := true, dl := none, sent := true, rspIn := false
    datIn := false, fwdNeed := false, fwdIn := false, evNeed := false, reported := false }

/-- The answer of agent 2: `RspEvPend` for the eviction with ATAG 0, which the transaction has absorbed. -/
def evPendRsp : RspArgs := ⟨2, 63, 0, 0, 0, 0, 0, BitVec.ofNat 46 (5 * 8192), 0⟩

def evPendState : State :=
  (State.reset.setEnt 5 0 (some evPendEnt)).modPort 1 fun x => { x with up := true, egress := [evPendSnp] }

theorem evPendState_quiet : Quiet evPendState := (quiet_reset.setEnt 5 0 _).modPort 1 _ rfl fun _ => .inl

theorem evPendState_passes : FlitPasses evPendState 1 evPendRsp.src := ⟨rfl, by decide, rfl, rfl⟩

theorem evPendState_htid : evPendState.htid (evPendRsp.loc.extractLsb' 13 5) (evPendRsp.loc.extractLsb' 0 13) = some (5, 0, evPendEnt) := rfl

/-- The transaction once the answer has come: the `DatDirty` is still awaited. -/
def evPendAfter : Trk :=
  { evPendEnt with
    stat := .ready false, pc := 1
    x := { evPendEnt.x with ack := 1 }
    m := { evPendEnt.m with la := RspOp.rspEvPend.code.extractLsb' 0 3, latch := false, ev := 0 }
    h := { evPendEnt.h with await := [⟨2, .snpShd, false, true, false, true, false⟩] } }

theorem evPend_effect : evPendState.answerArrive 1 .rspEvPend evPendRsp = (evPendState.modPort 1 fun x =>
    { x with link := x.link.rx .rspi LinkRx.take, egress := [{ evPendSnp with rspIn := true, evNeed := true }] }).setEnt 5 0 (some evPendAfter) := rfl

/-- Refutes O21. -/
theorem not_answerReachesItsTransaction : ¬ Obligations.AnswerReachesItsTransaction := by
  intro h
  obtain ⟨t, e', ht, he', hack, -⟩ := ((h evPendState 1 .rspEvPend evPendRsp _ evPendState_quiet rfl evPendState_passes).2 5 0 evPendEnt
    evPendState_htid nofun rfl rfl rfl).2 ⟨2, .snpShd, false, true, true, false, false⟩ evPendSnp rfl rfl rfl rfl rfl rfl rfl rfl rfl nofun nofun rfl rfl
  have hn : exec (.rspevpend 1 evPendRsp) evPendState = _ :=
    ((evPendState_quiet.modPort 1 _ rfl fun _ => .inl).setEnt 5 0 _).ends evPend_effect rfl rfl
  rw [hn] at ht
  cases ht
  have he : some evPendAfter = some e' := he'
  cases he
  exact absurd hack (by decide)

end Sys2Proof.Safety
end


section
/-! O22: a `DatDirty` with the whole line reaches its transaction (R101, R190, R199, R245, R246). -/

namespace Sys2Proof.Machine

/-! ### The transaction that has a line open -/

theorem find_opener {p : Nat × Trk → Bool} {n : Nat} {e : Trk} (hp : p (n, e) = true) (t : Tab (Option Trk)) (h : tabGet none t n = some e)
    (hne : ∀ k ∈ t.filterMap fun e => e.2.map fun t => (e.1, t), k.1 ≠ n → p k = false) :
    (t.filterMap fun e => e.2.map fun t => (e.1, t)).find? p = some (n, e) := by
  induction t with
  | nil => cases h
  | cons a t ih =>
    obtain ⟨j, w⟩ := a
    simp only [tabGet] at h
    split at h
    · next hj =>
      subst hj h
      exact List.find?_cons_of_pos hp
    · next hj =>
      cases w with
      | none => exact ih h hne
      | some k =>
        have hk : p (j, k) = false := hne (j, k) List.mem_cons_self hj
        exact (List.find?_cons_of_neg (by rw [hk]; exact Bool.false_ne_true)).trans (ih h fun q hq => hne q (List.mem_cons_of_mem _ hq))

/-- An entry that opens its line, as no other does, is the opener of the line. -/
theorem opener_of_ent {x : Slice} {n : Nat} {e : Trk} {pa : LineAddr} (h : x.ent n = some e) (ho : e.opens = true) (hpa : e.r.a.pa = pa)
    (hne : ∀ k ∈ x.ents, k.1 ≠ n → k.2.r.a.pa ≠ pa) : x.opener pa = some (n, e) :=
  find_opener (by simp [ho, hpa]) x.trk h fun k hk hn => by simp [hne k hk hn]

/-- The other entries of a slice are those that it had. -/
theorem mem_ents_setEnt {x : Slice} {n : Nat} {e : Trk} {k : Nat × Trk} (h : k ∈ (x.setEnt n (some e)).ents) (hn : k.1 ≠ n) : k ∈ x.ents := by
  obtain ⟨a, ha, hk⟩ := List.mem_filterMap.1 h
  obtain ⟨w, hw, rfl⟩ := Option.map_eq_some_iff.1 hk
  have ht : (x.setEnt n (some e)).trk = tabPut x.trk n (some e) := by
    simp [Slice.setEnt, tabSet]
  rw [ht] at ha
  obtain rfl | ha := mem_tabPut _ _ _ _ ha
  · exact absurd rfl hn
  · exact List.mem_filterMap.2 ⟨a, ha, by rw [hw]; rfl⟩

/-! ### What a write-through leaves -/

/-- A write of a line changes the MSC's arrays alone. -/
theorem mscWrite_frame (x : Slice) (walloc : Bool) (pa : LineAddr) (l : PLine) : ∃ a, x.mscWrite walloc pa l = { x with ar := a } := by
  unfold Slice.mscWrite Slice.mscAlloc
  repeat' split
  all_goals exact ⟨_, rfl⟩

/-- A performance counter is all that counting an event changes. -/
theorem perf_frame (s : State) (i : Fin 17) (ev n : Nat) : ∃ k, s.perf i ev n = { s with tst := { s.tst with pc := k } } := by
  unfold State.perf
  refine List.foldlRecOn (motive := fun t : State => ∃ k, t = { s with tst := { s.tst with pc := k } }) (List.range 8) _ ⟨s.tst.pc, rfl⟩ fun t ht j _ => ?_
  obtain ⟨k, rfl⟩ := ht
  dsimp only
  split
  · exact ⟨_, rfl⟩
  · exact ⟨_, rfl⟩

variable {s : State} {i : Fin 17} {p : Fin 24}

/-- The one snoop at a port, which has been sent, changes, and its answer has not all come. -/
theorem modEgress_single {g : EgSnp} (q : EgSnp → Bool) (f : EgSnp → EgSnp) (he : (s.port p).egress = [g]) (hr : (if q g then f g else g).rspIn = false)
    (hs : (if q g then f g else g).sent = true) :
    s.modEgress p q f = s.modPort p fun x => { x with egress := [if q g then f g else g] } := by
  have ho : (if q g then f g else g).over = false := by rw [EgSnp.over, EgSnp.arrived, hr]; rfl
  have hm : (s.modPort p fun x => { x with egress := (x.egress.map fun g => if q g then f g else g).filter fun g => !g.over }) =
      s.modPort p fun x => { x with egress := [if q g then f g else g] } := by
    rw [modPort_const, modPort_const s p fun x => { x with egress := [if q g then f g else g] }, he]
    rw [List.map_singleton, List.filter_cons_of_pos (by rw [ho]; rfl), List.filter_nil]
  unfold State.modEgress
  rw [hm]
  refine bindArea_of_none _ _ fun k hk => ?_
  rw [modPort_port_self] at hk
  rw [List.mem_singleton.1 hk, EgSnp.waitsArea, hs, Bool.not_true, Bool.and_false, Bool.false_and]

/-- Dirty data that has entered the merging buffer: it is there that the transaction's data handle points, and its answer-area line may be free. -/
theorem wmbEntered_dirty {t : Nat} {e : Trk} {a : Agent} {g : EgSnp} {pa : LineAddr} {home : Fin 16} {l : PLine}
    (ho : (s.slice i).opener pa = some (t, e)) (he : s.ent i t = some e) (hl : e.h.dh.map Handle.loc = some .area) (ha : portOf a = some p)
    (hg : (s.port p).egress = [g]) (hr : g.rspIn = false) (hs : g.sent = true) :
    ∃ k r b, s.wmbEntered i ⟨.line pa, home, l, [], none, some a, true, false⟩ =
      ((((s.modTst fun x => { x with pc := k }).modSlice i fun x => { x with ar := r }).setEnt i t (some (e.toWmb l))).modPort p fun x =>
        { x with egress := [{ g with area := b }] }) := by
  obtain ⟨k, hk⟩ := perf_frame s i 0x0A 1
  obtain ⟨u, hu⟩ : ∃ u, u = s.modTst fun x => { x with pc := k } := ⟨_, rfl⟩
  obtain ⟨v, r, hv, hvm⟩ : ∃ v r, v = (u.modSlice i fun x => { x with ar := r }) ∧
      (if u.mscFor home then u.modSlice i (·.mscWrite (true && u.flag (slcPage i) 0x2A0 3) pa l) else u) = v := by
    split
    · obtain ⟨r, hr⟩ := mscWrite_frame (u.slice i) (true && u.flag (slcPage i) 0x2A0 3) pa l
      exact ⟨_, r, rfl, by rw [modSlice_const, hr]; rfl⟩
    · exact ⟨_, (u.slice i).ar, rfl, (Safety.modSlice_same _ _ _ rfl).symm⟩
  have hvs : (v.slice i).opener pa = some (t, e) := by rw [hv, modSlice_slice_self, hu]; exact ho
  have hve : v.ent i t = some e := by rw [hv, ent_modSlice _ _ _ _ _ rfl, hu]; exact he
  have hvp : (v.modEnt i t (·.toWmb l)).port p = s.port p := by rw [modEnt_of_ent hve, hv, hu]; rfl
  refine ⟨k, r, (if (g.datIn && g.f.op != .qNotify && g.f.dst == a && g.f.pa == pa && g.f.slice.toNat == i.val) = true then false else g.area), ?_⟩
  unfold State.wmbEntered
  rw [hk]
  dsimp only
  rw [if_neg Bool.false_ne_true, ← show u = { s with tst := { s.tst with pc := k } } from hu, hvm, hvs]
  dsimp only
  rw [hl, if_pos (by rfl), ha]
  dsimp only
  rw [modEgress_single _ _ (by rw [hvp]; exact hg) (by split <;> exact hr) (by split <;> exact hs), modEnt_of_ent hve, hv, hu]
  split <;> rfl

/-- A transaction that takes dirty data: its data handle is the line, and what it knows of its fetch and its group may change. -/
theorem takeDirty_frame (e : Trk) (l : PLine) (loc : Loc) (hf : e.m.fwdd = false) : ∃ m h,
    (e.takeDirty l loc).trimGroup = { e with x := { e.x with dd := true }, m := m, h := h } ∧ h.dh = some ⟨loc, l⟩ := by
  unfold Trk.takeDirty
  dsimp only
  rw [hf, if_neg Bool.false_ne_true]
  unfold Trk.trimGroup Trk.replaceFetch
  repeat' split
  all_goals exact ⟨_, _, rfl, rfl⟩

/-- A slice whose empty merging buffer a write-through has entered. -/
def Slice.wmbFirst (x : Slice) (now : Tk) (w : WrReq) : Slice :=
  { x with mem := { x.mem with
      nextWmb := x.mem.nextWmb + 1
      wmb := [⟨x.mem.nextWmb, w.addr, w.home, w.l, now, w.writes, false, false, false, x.wantOf w.addr w.home, 0, 0⟩] } }

@[simp] theorem wmbFirst_ent (x : Slice) (now : Tk) (w : WrReq) (k : Nat) : (x.wmbFirst now w).ent k = x.ent k := rfl

/-- A write-through of a line enters an empty buffer. -/
theorem writeThrough_empty {w : WrReq} (q : PartId) (hc : s.chLost w.home = false) (hw : (s.slice i).mem.wtWait = []) (hb : (s.slice i).mem.wmb = []) :
    s.writeThrough i w q = (s.modSlice i (·.wmbFirst s.now w)).wmbEntered i w := by
  have hp : (s.slice i).wmbPut s.now w = some ((s.slice i).wmbFirst s.now w) := by
    unfold Slice.wmbPut
    rw [hb]
    rfl
  unfold State.writeThrough State.wtEnter
  dsimp only
  rw [hc, hp, hw, hb]
  rfl

/-- A transaction that a `DatDirty` of agent a, whose RSP is outstanding, has reached, before its data is taken. -/
def Trk.dirtyIn (e : Trk) (a : Agent) : Trk :=
  { (e.modAwait a Await.afterDat) with x := { e.x with ack := e.x.ack - 1, dd := true }, m := { e.m with latch := true } }

/-- What follows in the transaction once its dirty line is on its way to memory: its handle may point there, and it goes on. -/
def State.dirtyEnds (s : State) (i : Fin 17) (n : Nat) (e : Trk) (a : Agent) (l : PLine) : State :=
  let s := if ((s.slice i).mem.wtWait.any fun w => w.area == some a && w.addr == .line e.r.a.pa) || s.chLost e.r.home then s
    else s.modEnt i n fun e => if e.h.dh.map Handle.loc == some .area then e.toWmb l else e
  ((s.rewriteIf i n e.we).stir i n id).endAwaiting i n

theorem takeDatDirty_eq {n : Nat} {e : Trk} {f : DatArgs} (he : s.ent i n = some e) (ht : s.flag 63 0x140 31 = false) (hst : f.stat = 0)
    (hgr : f.grant = 0) (hcov : e.we.covers f.agt = true) (habs : e.h.absorbed = []) (hk : e.r.kind ≠ .req .wrFull) :
    s.takeDatDirty i n f = (((s.setEnt i n (some (e.dirtyIn f.agt))).setEnt i n
      (some ((e.dirtyIn f.agt).takeDirty ⟨f.data, false⟩ .area).trimGroup)).writeThrough i
        ⟨.line e.r.a.pa, e.r.home, ⟨f.data, false⟩, [], none, some f.agt, true, false⟩ e.r.a.part).dirtyEnds i n e f.agt ⟨f.data, false⟩ := by
  have hk' : (e.r.kind == .req .wrFull) = false := beq_eq_false_iff_ne.2 hk
  have h0 : ((0 : BitVec 3) != 0) = false := rfl
  have h1 := modEnt_of_ent he fun e => e.dirtyIn f.agt
  have h2 := modEnt_of_ent (ent_setEnt_self s i n (some (e.dirtyIn f.agt))) fun e => (e.takeDirty ⟨f.data, false⟩ .area).trimGroup
  rw [← h2, ← h1]
  unfold State.takeDatDirty
  rw [he]
  simp only [traceEnt_off ht, hst, hgr, habs, hcov, hk', h0, List.any_nil, Bool.false_and, Bool.or_false, Bool.not_true, Bool.false_eq_true, if_false]
  rfl

/-- A wake lets a transaction go on, or leaves it where it is. -/
theorem wake_stat (e : Trk) (tmo : Bool) : (e.wake tmo).stat = e.stat ∨ (e.wake tmo).stat = .ready false := by
  unfold Trk.wake
  split
  · dsimp only
    split_ifs <;> simp
  · exact .inl rfl

/-- A transaction that does not wait for its last answer goes on. -/
theorem endAwaiting_of_ne {n : Nat} {e : Trk} (he : s.ent i n = some e) (hs : e.stat ≠ .awaiting) : s.endAwaiting i n = s := by
  unfold State.endAwaiting
  rw [he]
  exact if_neg (by simp [hs])

/-- A transaction whose working entry stands, and whose line is in the merging buffer, is woken, and no more. -/
theorem dirtyEnds_wmb {n : Nat} {e k : Trk} {a : Agent} {l : PLine} (hk : s.ent i n = some k) (hw : (s.slice i).mem.wtWait = [])
    (hc : s.chLost e.r.home = false) (hl : k.h.dh.map Handle.loc = some .wmb) (hwe : k.we = e.we) (hs : k.stat ≠ .awaiting) :
    s.dirtyEnds i n e a l = (s.setEnt i n (some k)).setEnt i n (some (k.wake false)) := by
  have hku : (s.setEnt i n (some k)).ent i n = some k := ent_setEnt_self _ _ _ _
  have hst : (k.wake false).stat ≠ .awaiting := by
    obtain h | h := wake_stat k false <;> rw [h]
    · exact hs
    · nofun
  unfold State.dirtyEnds State.rewriteIf
  dsimp only
  rw [hw, hc, List.any_nil, Bool.or_false, if_neg Bool.false_ne_true, modEnt_of_ent hk, hl, if_neg (by decide), hku]
  dsimp only
  rw [if_pos hwe, stir_of_ent hku]
  exact endAwaiting_of_ne (ent_setEnt_self _ _ _ _) hst

/-- What taking a `DatDirty` changes: the slice, the one snoop at the port, and the performance counters. -/
def State.tookDirty (s : State) (i : Fin 17) (p : Fin 24) (y : Slice) (g : EgSnp) (b : Bool) (pc : Tab (BitVec 48)) : State :=
  ((s.modTst fun x => { x with pc := pc }).modSlice i fun _ => y).modPort p fun x => { x with egress := [{ g with area := b }] }

theorem tookDirty_setEnt (y : Slice) (g : EgSnp) (b : Bool) (pc : Tab (BitVec 48)) (n : Nat) (e : Option Trk) :
    (s.tookDirty i p y g b pc).setEnt i n e = s.tookDirty i p (y.setEnt n e) g b pc :=
  congrArg (fun t : State => t.modPort p fun x => { x with egress := [{ g with area := b }] }) 
    (modSlice_modSlice (s.modTst fun x => { x with pc := pc }) i (fun _ => y) (·.setEnt n e))

theorem tookDirty_ent (y : Slice) (g : EgSnp) (b : Bool) (pc : Tab (BitVec 48)) (n : Nat) : (s.tookDirty i p y g b pc).ent i n = y.ent n := by
  rw [State.ent, State.tookDirty, modPort_slice, modSlice_slice_self]

/-- A `DatDirty` that no rule is against is taken: its line is the transaction's, in the merging buffer, which was empty. -/
theorem takeDatDirty_plain {n : Nat} {e : Trk} {f : DatArgs} {g : EgSnp} (he : s.ent i n = some e) (ho : e.opens = true)
    (ht : s.flag 63 0x140 31 = false) (hst : f.stat = 0) (hgr : f.grant = 0) (hcov : e.we.covers f.agt = true) (habs : e.h.absorbed = [])
    (hk : e.r.kind ≠ .req .wrFull) (hf : e.m.fwdd = false) (hs : e.stat ≠ .awaiting) (hl : s.chLost e.r.home = false)
    (hwt : (s.slice i).mem.wtWait = []) (hwm : (s.slice i).mem.wmb = []) (hne : ∀ k ∈ (s.slice i).ents, k.1 ≠ n → k.2.r.a.pa ≠ e.r.a.pa)
    (ha : portOf f.agt = some p) (hg : (s.port p).egress = [g]) (hri : g.rspIn = false) (hse : g.sent = true) :
    ∃ y e' b pc, s.takeDatDirty i n f = s.tookDirty i p y g b pc ∧ y.ent n = some e' ∧ (∀ k, k ≠ n → y.ent k = s.ent i k) ∧
      y.ctl = (s.slice i).ctl ∧ y.mem = ((s.slice i).wmbFirst s.now ⟨.line e.r.a.pa, e.r.home, ⟨f.data, false⟩, [], none, some f.agt, true, false⟩).mem ∧
      e'.x.ack = e.x.ack - 1 ∧ e'.x.dd = true ∧ e'.h.dh = some ⟨.wmb, ⟨f.data, false⟩⟩ ∧ e'.we = e.we := by
  obtain ⟨m, h, hd, hdh⟩ := takeDirty_frame (e.dirtyIn f.agt) ⟨f.data, false⟩ .area hf
  obtain ⟨e2, he2⟩ : ∃ e2, e2 = ((e.dirtyIn f.agt).takeDirty ⟨f.data, false⟩ .area).trimGroup := ⟨_, rfl⟩
  rw [← he2] at hd
  obtain ⟨a, hA⟩ : ∃ a, a = (s.setEnt i n (some (e.dirtyIn f.agt))).setEnt i n (some e2) := ⟨_, rfl⟩
  obtain ⟨w, hw⟩ : ∃ w : WrReq, w = ⟨.line e.r.a.pa, e.r.home, ⟨f.data, false⟩, [], none, some f.agt, true, false⟩ := ⟨_, rfl⟩
  have hthr := writeThrough_empty (s := a) (i := i) (w := w) e.r.a.part (by rw [hA, hw]; exact hl)
    (by rw [hA, setEnt_slice_self, setEnt_slice_self]; exact hwt) (by rw [hA, setEnt_slice_self, setEnt_slice_self]; exact hwm)
  obtain ⟨y, hy⟩ : ∃ y, y = (((s.slice i).setEnt n (some (e.dirtyIn f.agt))).setEnt n (some e2)).wmbFirst s.now w := ⟨_, rfl⟩
  obtain ⟨c, hC⟩ : ∃ c, c = a.modSlice i (·.wmbFirst a.now w) := ⟨_, rfl⟩
  have hc : c = s.modSlice i fun _ => y := by
    rw [hC, hA, hy]
    unfold State.setEnt
    rw [modSlice_modSlice, modSlice_modSlice, modSlice_const]
    rfl
  have hcs : c.slice i = y := by rw [hc, modSlice_slice_self]
  have hye : ∀ k, k ≠ n → y.ent k = s.ent i k := fun k hk => by
    rw [hy, wmbFirst_ent, setEnt_ent_ne _ _ hk, setEnt_ent_ne _ _ hk]
    rfl
  have hyn : y.ent n = some e2 := by
    rw [hy, wmbFirst_ent, setEnt_ent_self]
  have hop : (c.slice i).opener e.r.a.pa = some (n, e2) := by
    rw [hcs]
    refine opener_of_ent hyn (by rw [hd]; exact ho) (by rw [hd]; rfl) fun k hk hn => ?_
    rw [hy] at hk
    exact hne k (mem_ents_setEnt (mem_ents_setEnt hk hn) hn) hn
  obtain ⟨pc, r, b, hent⟩ := wmbEntered_dirty (s := c) (i := i) (p := p) (home := e.r.home) (l := ⟨f.data, false⟩) hop (by rw [State.ent, hcs, hyn])
    (by rw [hd, hdh]; rfl) ha (by rw [hc]; exact hg) hri hse
  have hwr : a.writeThrough i w e.r.a.part = s.tookDirty i p (({ y with ar := r } : Slice).setEnt n (some (e2.toWmb ⟨f.data, false⟩))) g b pc := by
    rw [hthr, ← hC, hw, hent, hc]
    refine congrArg (fun t : State => t.modPort p fun x => { x with egress := [{ g with area := b }] }) ?_
    unfold State.setEnt
    rw [show (s.modSlice i fun _ => y).modTst (fun x => { x with pc := pc }) = (s.modTst fun x => { x with pc := pc }).modSlice i fun _ => y from rfl,
      modSlice_modSlice, modSlice_modSlice]
  have hu := tookDirty_setEnt (s := s) (i := i) (p := p) (({ y with ar := r } : Slice).setEnt n (some (e2.toWmb ⟨f.data, false⟩))) g b pc n
  have hend := dirtyEnds_wmb (s := s.tookDirty i p (({ y with ar := r } : Slice).setEnt n (some (e2.toWmb ⟨f.data, false⟩))) g b pc) (i := i) (n := n)
    (e := e) (k := e2.toWmb ⟨f.data, false⟩) (a := f.agt) (l := ⟨f.data, false⟩) (by rw [tookDirty_ent, setEnt_ent_self])
    (by rw [State.tookDirty, modPort_slice, modSlice_slice_self, hy]; exact hwt) hl rfl (by rw [hd]; rfl) (by rw [hd]; exact hs)
  obtain ⟨st, q, m', hwk⟩ := wake_frame (e2.toWmb ⟨f.data, false⟩) false
  rw [hu, tookDirty_setEnt] at hend
  have hr : ∀ k, ({ y with ar := r } : Slice).ent k = y.ent k := fun _ => rfl
  refine ⟨((({ y with ar := r } : Slice).setEnt n (some (e2.toWmb ⟨f.data, false⟩))).setEnt n (some (e2.toWmb ⟨f.data, false⟩))).setEnt n
    (some ((e2.toWmb ⟨f.data, false⟩).wake false)), _, b, pc, (takeDatDirty_eq he ht hst hgr hcov habs hk).trans ?_, setEnt_ent_self _ _ _, fun k hk => ?_, ?_, ?_, ?_⟩
  · rw [← he2, ← hw, ← hA, hwr]
    exact hend
  · rw [setEnt_ent_ne _ _ hk, setEnt_ent_ne _ _ hk, setEnt_ent_ne _ _ hk, hr, hye k hk]
  · rw [hy]; rfl
  · rw [hy, hw]; rfl
  · rw [hwk, hd]
    exact ⟨rfl, rfl, rfl, rfl⟩

/-- What an HTID that names an open transaction says. -/
theorem htid_some {sl : BitVec 5} {tid : BitVec 13} {n : Nat} {e : Trk} (h : s.htid sl tid = some (i, n, e)) :
    sl.toNat = i.val ∧ tid.toNat = n ∧ (s.slice i).asleep = false ∧ s.ent i n = some e ∧ e.opens = true := by
  unfold State.htid at h
  split at h
  · dsimp only at h
    split at h
    · cases h
    · next ha =>
      split at h
      · next e' he =>
        split at h
        · next ho =>
          simp only [Option.some.injEq, Prod.mk.injEq] at h
          obtain ⟨rfl, rfl, rfl⟩ := h
          exact ⟨rfl, rfl, by simpa using ha, he, ho⟩
        · cases h
      · cases h
  · cases h

/-- The open transaction of an entry, by its HTID. -/
theorem htid_congr {u : State} (hs : u.slices = s.slices) (sl : BitVec 5) (tid : BitVec 13) : u.htid sl tid = s.htid sl tid := by
  unfold State.htid State.ent State.slice
  rw [hs]

/-- A snoop that has been sent and whose RSP is still to come is the one that a `DatDirty` with its HTID answers. -/
theorem dirtyRec_single {g : EgSnp} {a : Agent} {sl : BitVec 5} {tid : BitVec 13} {n : Nat} (hg : (s.port p).egress = [g])
    (hfor : g.isFor a i n = true) (hsl : sl.toNat = i.val) (htid : tid.toNat = n) (hri : g.rspIn = false) (hse : g.sent = true) :
    s.dirtyRec p a sl tid = some g := by
  simp only [EgSnp.isFor, EgSnp.sentTo, Bool.and_eq_true, bne_iff_ne, beq_iff_eq, Bool.not_eq_true'] at hfor
  obtain ⟨⟨⟨⟨hop, hdst⟩, hs⟩, ht⟩, hgo⟩ := hfor
  have h1 : g.f.slice = sl := BitVec.eq_of_toNat_eq (hs.trans hsl.symm)
  have h2 : g.f.tid = tid := BitVec.eq_of_toNat_eq (ht.trans htid.symm)
  simp [State.dirtyRec, State.answerRec, hg, hri, hse, hgo, hop, hdst, h1, h2]

/-- Port `x` once its one snoop's `DatDirty` has come in. -/
def Port.tookDat (x : Port) (g : EgSnp) : Port := { x with link := x.link.rx .dati LinkRx.take, egress := [{ g with datIn := true }] }

/-- A `DatDirty` goes to its slice, and its snoop is marked. -/
theorem datDirtyArrive_single {f : DatArgs} {g : EgSnp} {n : Nat} {e : Trk} (hn : s.netClear = true) (hf : Safety.FlitPasses s p f.agt)
    (hid : s.htid (f.id.extractLsb' 13 5) (f.id.extractLsb' 0 13) = some (i, n, e)) (hg : (s.port p).egress = [g]) (hfor : g.isFor f.agt i n = true)
    (hri : g.rspIn = false) (hse : g.sent = true) (hrag : g.f.rag = 63 ∨ g.f.rgen = f.gen) :
    ∃ q, s.datDirtyArrive p f = (s.modPort p (·.tookDat g)).dirtyAt p f q := by
  obtain ⟨hsl, htid, -, -, -⟩ := htid_some hid
  have hrec : (s.linkTake p .dati).dirtyRec p f.agt (f.id.extractLsb' 13 5) (f.id.extractLsb' 0 13) = some g :=
    dirtyRec_single (by unfold State.linkTake; rw [modPort_port_self]; exact hg) hfor hsl htid hri hse
  have hgo : g.gone = false := by simpa using (Bool.and_eq_true_iff.1 hfor).2
  have hpick : (!g.gone && (g.f.rag == 63 || f.gen == g.f.rgen)) = true := by
    rw [hgo, Bool.not_false, Bool.true_and, Bool.or_eq_true, beq_iff_eq, beq_iff_eq]
    exact hrag.imp id Eq.symm
  have hmod : (s.linkTake p .dati).modEgress p (· == g) (fun k => { k with datIn := true }) = s.modPort p (·.tookDat g) := by
    rw [modEgress_single (g := g) _ _ (by unfold State.linkTake; rw [modPort_port_self]; exact hg) (by simpa using hri) (by simpa using hse)]
    unfold State.linkTake
    rw [modPort_modPort]
    simp only [beq_self_eq_true, if_true]
    rfl
  unfold State.datDirtyArrive
  rw [hf.up, sourceCheck_passes hf]
  dsimp only
  rw [hrec, Option.filter_some, if_pos hpick]
  dsimp only
  rw [hmod]
  exact ⟨_, (if_neg Bool.false_ne_true).trans (carry_of_clear _ _ _ _ _ hn)⟩

end Sys2Proof.Machine

namespace Sys2Proof.Safety

open Sys2Proof.Machine

theorem Quiet.tookDirty {s : State} (h : Quiet s) (i : Fin 17) (p : Fin 24) (y : Slice) (g : EgSnp) (b : Bool) (pc : Tab (BitVec 48))
    (hc : y.ctl = (s.slice i).ctl) (hm : y.mem.ctl = (s.slice i).mem.ctl) : Quiet (s.tookDirty i p y g b pc) :=
  ((h.modTst _ rfl).modSlice i _ hc (congrArg MscCtl.mode hm)).modPort p _ rfl fun _ => .inl

/-- Settles O22. -/
theorem dirtyDataIsTaken : Obligations.DirtyDataIsTaken := by
  intro s p f i n e g h hf hid hpo hge hgp haw hg hfor hdi hri har hse hrag hst hgr hcov habs hk hfw hs hl hwt hwm hinj hne htr
  obtain ⟨q, ht⟩ := datDirtyArrive_single h.netClear hf hid hg hfor hri hse hrag
  obtain ⟨u, hu⟩ : ∃ u, u = s.modPort p (·.tookDat g) := ⟨_, rfl⟩
  have hq : Quiet u := hu ▸ h.modPort p _ rfl fun _ => .inl
  have hup : (u.port p).egress = [{ g with datIn := true }] := by rw [hu, modPort_port_self]; rfl
  have hus : u.slice i = s.slice i := by rw [hu]; rfl
  obtain ⟨-, -, -, hent, hop⟩ := htid_some hid
  have hue : u.ent i n = some e := by rw [hu]; exact hent
  obtain ⟨y, e', b, pc, htake, hyn, hyk, hyc, hym, hack, hdd, hdh, hwe⟩ := takeDatDirty_plain (s := u) (i := i) (p := p) (f := f) hue hop
    (by rw [hu]; exact htr) hst hgr hcov habs hk hfw hs (by rw [hu]; exact hl) (by rw [hus]; exact hwt) (by rw [hus]; exact hwm)
    (by rw [hus]; exact hne) (beq_iff_eq.1 hf.own) hup hri hse
  obtain ⟨v, hv⟩ : ∃ v, v = u.tookDirty i p y { g with datIn := true } b pc := ⟨_, rfl⟩
  have hvs : v.slice i = y := by rw [hv, State.tookDirty, modPort_slice, modSlice_slice_self]
  have hleft : v.areaLeft p f.agt i n e.r.a.pa = v.modPort p fun x => { x with egress := [{ g with datIn := true, area := false }] } := by
    unfold State.areaLeft
    rw [hvs, hym, show (Slice.wmbFirst _ _ _).mem.wtWait = (u.slice i).mem.wtWait from rfl, hus, hwt, List.any_nil, if_neg Bool.false_ne_true]
    have hfor' : ({ g with datIn := true, area := b } : EgSnp).isFor f.agt i n = true := hfor
    have hve : (v.port p).egress = [{ g with datIn := true, area := b }] := by rw [hv, State.tookDirty, modPort_port_self]
    rw [modEgress_single (g := { g with datIn := true, area := b }) _ _ hve (by rw [if_pos hfor']; exact hri) (by rw [if_pos hfor']; exact hse),
      if_pos hfor']
  have hat : u.dirtyAt p f q = v.modPort p fun x => { x with egress := [{ g with datIn := true, area := false }] } := by
    have hidu : u.htid (f.id.extractLsb' 13 5) (f.id.extractLsb' 0 13) = some (i, n, e) := by rw [htid_congr (s := s) (by rw [hu]; rfl), hid]
    have hgen : (f.gen != e.r.a.gen || f.gen != (u.part e.r.a.part).gen) = false := by
      rw [Bool.or_eq_false_iff, bne_eq_false_iff_eq, bne_eq_false_iff_eq]
      exact ⟨hge, by rw [hu]; exact hgp⟩
    unfold State.dirtyAt
    dsimp only
    rw [hidu]
    dsimp only
    rw [hgen, Bool.and_false, if_neg Bool.false_ne_true, haw, Bool.not_true, if_neg Bool.false_ne_true,
      withTrk_of_nil (by rw [hus]; exact hinj), htake, ← hv, hleft]
  rw [← hu, hat] at ht
  have hqv : Quiet v := hv ▸ hq.tookDirty i p y _ b pc hyc (by rw [hym]; rfl)
  have hvf : ∃ a b c, v = { s with ports := a, slices := b, tst := c } ∧ ∀ k, k ≠ p → v.port k = s.port k := by
    refine ⟨_, _, _, by rw [hv, hu]; rfl, fun k hk => ?_⟩
    rw [hv, State.tookDirty, modPort_port_ne _ _ hk, modSlice_port, modTst_port, hu, modPort_port_ne _ _ hk]
  obtain ⟨a1, a2, a3, hvf, hports⟩ := hvf
  refine ⟨_, e', (hqv.modPort p _ rfl fun _ => .inl).ends ht ?_ ?_, ?_, hack, hdd, hdh, hwe, ?_, ?_, fun k hk => ?_, fun k hk => ?_, ?_⟩
  · rw [hvf]; rfl
  · rw [hvf]; rfl
  · exact (congrArg (fun x : Slice => x.ent n) hvs).trans hyn
  · refine (congrArg (fun x : Slice => x.mem.wmb) hvs).trans ?_
    rw [hym, ← hus, hu]
    rfl
  · rw [setPins_port, modPort_port_self]
  · exact (congrArg (fun x : Slice => x.ent k) hvs).trans ((hyk k hk).trans (by rw [hu]; rfl))
  · rw [setPins_port, modPort_port_ne _ _ hk, hports k hk]
  · rw [hvf]
    exact ⟨rfl, rfl, rfl, rfl, rfl, rfl⟩

end Sys2Proof.Safety
end


section
/-! O11: DISABLE and its drain (R387). -/

namespace Sys2Proof.Machine

/-- A slice as the acceptance of a DISABLE leaves it: no scrub pass goes on. -/
def Slice.scrubStopped (x : Slice) : Slice := { x with sw := { x.sw with scrubLeft := 0 } }

/-- The block as the acceptance of a DISABLE leaves it. -/
def State.disabling (s : State) (seq : BitVec 8) : State :=
  ((s.gcAccept seq).modGlb fun g => { g with stt := .disabling }).mapSlices fun _ => Slice.scrubStopped

/-- A slice whose MSC is ON begins to drain it. -/
def Slice.mscDrained (x : Slice) : Slice :=
  if x.mem.ctl.mode = .on then
    { x with mem := { x.mem with ctl := { x.mem.ctl with mode := .drain }, wmb := x.mem.wmb.map fun w => { w with drain := true } } }
  else x

theorem mscDrained_mode (x : Slice) : x.mscDrained.mem.ctl.mode = if x.mem.ctl.mode = .on then .drain else x.mem.ctl.mode := by
  unfold Slice.mscDrained
  split
  · rfl
  · rfl

theorem mscDrained_ctl (x : Slice) : x.mscDrained.ctl = x.ctl ∧ x.mscDrained.trk = x.trk := by
  unfold Slice.mscDrained
  split
  · exact ⟨rfl, rfl⟩
  · exact ⟨rfl, rfl⟩

variable {s : State}

theorem disableCmd_accepted {seq : BitVec 8} (ha : s.glb.cmd.accepts seq = true) (hs : s.glb.stt = .enabled) (hr : s.flt.run = none)
    (hf : s.allFrozen = true) : s.disableCmd seq = s.disabling seq := by
  unfold State.disableCmd
  rw [if_neg (by simp [ha]), if_neg (by simp [hs]), if_neg (by simp [hr]), if_neg (by simp [hf])]
  exact eachSlice_eq _ _ (fun _ => Slice.scrubStopped) fun _ _ => rfl

theorem disableStep_drains (h : s.glb.stt = .disabling) : s.disableStep = s.mapSlices fun _ => Slice.mscDrained := by
  unfold State.disableStep
  rw [if_pos h]
  refine eachSlice_eq _ _ _ fun v i => ?_
  split
  · next hm => rw [modSlice_const _ _ Slice.mscDrained, Slice.mscDrained, if_pos (eq_of_beq hm)]; rfl
  · next hm => exact (Safety.modSlice_same _ _ _ (if_neg fun e => hm (beq_iff_eq.2 e))).symm

end Sys2Proof.Machine

namespace Sys2Proof.Safety

open Sys2Proof.Machine

variable {s : State}

/-- A calm state stays so where the slices keep their controls. -/
theorem Calm.withSlices (h : Calm s) (v : Vector Slice 17) (hc : ∀ i : Fin 17, v[i].ctl = (s.slice i).ctl) :
    Calm { s with slices := v } where
  due := h.due
  run := h.run
  adm := h.adm
  load := h.load
  job := h.job
  sweep := h.sweep
  back := h.back
  ports := h.ports
  net := h.net
  reads := h.reads
  slices i := (hc i).symm ▸ h.slices i

theorem Calm.mapSlices (h : Calm s) (g : Fin 17 → Slice → Slice) (hc : ∀ i, (g i (s.slice i)).ctl = (s.slice i).ctl) :
    Calm (s.mapSlices g) := by
  refine h.withSlices (Vector.ofFn fun i => g i (s.slice i)) fun i => ?_
  rw [Fin.getElem_fin, Vector.getElem_ofFn]
  exact hc i

theorem Calm.modGlb (h : Calm s) (f : Glb → Glb) (ha : (f s.glb).admHold = s.glb.admHold) (hl : loadWaits (f s.glb).ld)
    (hb : (f s.glb).bc.sweep = s.glb.bc.sweep) : Calm (s.modGlb f) where
  due := h.due
  run := h.run
  adm k hk := h.adm k (ha ▸ hk)
  load := hl
  job := h.job
  sweep := hb.trans h.sweep
  back := h.back
  ports := h.ports
  net := h.net
  reads := h.reads
  slices := h.slices

/-- A quiet state in which a DISABLE begins settles with its drains begun. -/
theorem disabling_settle (h : Quiet s) (seq : BitVec 8) :
    (s.disabling seq).settle = ((s.disabling seq).mapSlices fun _ => Slice.mscDrained).syncPower.setPins := by
  have ha : Calm (s.modGlb fun g => { g with cmd := { g.cmd.accept seq with cmdref := false } }) := h.calm.modGlb _ rfl h.load rfl
  have hg : Calm ((s.gcAccept seq).modGlb fun g => { g with stt := .disabling }) := ha.modGlb _ rfl h.load rfl
  have hc : Calm (s.disabling seq) := hg.mapSlices _ fun _ => rfl
  have hctl : ∀ i, (((s.disabling seq).mapSlices fun _ => Slice.mscDrained).slice i).ctl = (s.slice i).ctl := fun i => by
    rw [mapSlices_slice, (mscDrained_ctl _).1, State.disabling, mapSlices_slice]
    rfl
  have hsteps : (s.disabling seq).commitStep.startStep.disableStep = (s.disabling seq).mapSlices fun _ => Slice.mscDrained := by
    have hd : (s.disabling seq).glb.stt = .disabling := rfl
    rw [commitStep_of_stt fun _ => by simp [hd], startStep_of_stt (by simp [hd]), disableStep_drains hd]
  refine hc.settle hsteps (detWake_of_awake fun hd i hi => ?_) (hc.mapSlices _ fun _ => (mscDrained_ctl _).1)
  rw [Slice.asleep, hctl]
  exact h.det hd i hi

/-- The block's state changes to one in which nothing goes on by itself. -/
theorem Quiet.withStt (h : Quiet s) (x : Stt) (c : CmdSt) (e : Bool) (l : List (BitVec 32))
    (hst : x ≠ .init ∧ x ≠ .train ∧ x ≠ .load) (hd : x ≠ .disabling) (hc : c.res = .running → x ≠ .ready ∧ x ≠ .committed) :
    Quiet (s.modGlb fun g => { g with stt := x, cmd := c, everEnabled := e, layout := l }) where
  due := h.due
  run := h.run
  adm := h.adm
  load := h.load
  job := h.job
  gc := hc
  stt := hst
  msc e := absurd e hd
  sweep := h.sweep
  back := h.back
  ports := h.ports
  net := h.net
  det := h.det
  reads := h.reads
  slices := h.slices
  supply := h.supply
  links := h.links

theorem complete_res (c : CmdSt) : c.complete.res ≠ .running := by
  unfold CmdSt.complete
  split
  · exact nofun
  · exact nofun

theorem Quiet.gcRefuse (h : Quiet s) (seq cause : BitVec 8) : Quiet (s.gcRefuse seq cause) :=
  (h.modGlb _ rfl h.load (fun (e : Res.completed = .running) => nomatch e) rfl rfl rfl ⟨rfl, rfl⟩).done 0

theorem Quiet.endsRefused (h : Quiet s) {t : State} (seq cause : BitVec 8) (ht : t = s.gcRefuse seq cause) :
    Machine.commandEnd s t = .next (s.gcRefuse seq cause).setPins :=
  (h.gcRefuse seq cause).ends ht ((done_pending _ _).trans rfl) ((done_now _ _).trans rfl)

/-- Settles O11: what a DISABLE starts, why it is refused, and when its drain is complete. -/
theorem disableDrains : Obligations.DisableDrains := by
  intro s seq h
  refine ⟨fun ha => ⟨fun hs hr hf => ?_, fun hs hr => ?_, fun hs hr hf => ?_, fun hs => ?_⟩, fun hs => ?_⟩
  · refine ⟨_, (congrArg (Machine.commandEnd s) (disableCmd_accepted ha hs hr hf)).trans
      (commandEnd_settle (disabling_settle h seq) (syncPower_pending _) (syncPower_now _)), ?_⟩
    have hsl : ∀ i, ((s.disabling seq).mapSlices fun _ => Slice.mscDrained).slice i = (s.slice i).scrubStopped.mscDrained := fun i => by
      rw [mapSlices_slice, State.disabling, mapSlices_slice]
      rfl
    refine ⟨?_, ?_, ?_, fun i => ?_, fun i => ?_, ?_, ?_, ?_, ?_⟩
    · simp; rfl
    · simp; rfl
    · simp; rfl
    · rw [setPins_slice, syncPower_slice, hsl, mscDrained_mode]
      rfl
    · rw [setPins_slice, syncPower_slice, hsl, (mscDrained_ctl _).2]
      rfl
    all_goals simp; rfl
  · exact h.endsRefused seq _ (by simp [State.disableCmd, ha, hs, Option.isSome_iff_ne_none.2 hr])
  · exact h.endsRefused seq _ (by simp [State.disableCmd, ha, hs, hr, hf])
  · exact h.endsRefused seq _ (by simp [State.disableCmd, ha, hs])
  · have hall : (List.finRange 17).all (fun i => (s.slice i).ents.isEmpty && (s.slice i).recs.isEmpty && (s.slice i).mem.wmb.isEmpty &&
        (s.slice i).mem.wtWait.isEmpty && ((s.slice i).mem.ctl.mode == .off)) = true ↔ ∀ i, (s.slice i).ents = [] ∧ (s.slice i).recs = [] ∧
        (s.slice i).mem.wmb = [] ∧ (s.slice i).mem.wtWait = [] ∧ (s.slice i).mem.ctl.mode = .off := by
      simp [and_assoc]
    have hready : Quiet (s.modGlb fun g => { g with stt := .ready, cmd := g.cmd.complete }) :=
      h.withStt .ready _ _ _ ⟨nofun, nofun, nofun⟩ nofun fun e => absurd e (complete_res _)
    have ht : s.disableDrained = if ∀ i, (s.slice i).ents = [] ∧ (s.slice i).recs = [] ∧ (s.slice i).mem.wmb = [] ∧
        (s.slice i).mem.wtWait = [] ∧ (s.slice i).mem.ctl.mode = .off then
        (s.modGlb fun g => { g with stt := .ready, cmd := g.cmd.complete }).done 0 else s := by
      simp only [State.disableDrained, hs, true_and, hall]
    refine (congrArg (Machine.commandEnd s) ht).trans ?_
    split
    · exact (hready.done 0).ends rfl ((done_pending _ _).trans rfl) ((done_now _ _).trans rfl)
    · exact h.ends rfl rfl rfl

end Sys2Proof.Safety
end


section
/-! O12: BROADCAST (R389, R390). -/

namespace Sys2Proof.Machine

/-- State t is s with some slices woken. -/
structure WakesOnly (s t : State) : Prop where
  frame : ∃ v, t = { s with slices := v }
  slice : ∀ i, ∃ w f, t.slice i = { s.slice i with ctl := { (s.slice i).ctl with waking := w, fromOff := f } }

theorem WakesOnly.refl (s : State) : WakesOnly s s := ⟨⟨_, rfl⟩, fun _ => ⟨_, _, rfl⟩⟩

theorem WakesOnly.trans {s t u : State} (h : WakesOnly s t) (h' : WakesOnly t u) : WakesOnly s u := by
  obtain ⟨⟨v, rfl⟩, hs⟩ := h
  obtain ⟨⟨v', rfl⟩, hs'⟩ := h'
  refine ⟨⟨v', rfl⟩, fun i => ?_⟩
  obtain ⟨w, f, h⟩ := hs i
  obtain ⟨w', f', h'⟩ := hs' i
  exact ⟨w', f', by rw [h', h]⟩

theorem WakesOnly.wakeFor (s : State) (i : Fin 17) (dst : Bool) : WakesOnly s (s.wakeFor i dst) := by
  refine ⟨⟨_, rfl⟩, fun j => ?_⟩
  unfold State.wakeFor
  rw [modSlice_slice]
  split
  · next e =>
    subst e
    split
    · exact ⟨_, _, rfl⟩
    · exact ⟨_, _, rfl⟩
  · exact ⟨_, _, rfl⟩

/-- An operation for every member of a list that wakes slices wakes slices. -/
theorem WakesOnly.foldl {ι : Type} {f : State → ι → State} (h : ∀ s k, WakesOnly s (f s k)) (l : List ι) (s : State) :
    WakesOnly s (l.foldl f s) := by
  induction l generalizing s with
  | nil => exact .refl s
  | cons k l ih => exact (h s k).trans (ih _)

end Sys2Proof.Machine

namespace Sys2Proof.Machine

/-- BROADCAST after a CLEAR that needs no sweep (R390). -/
def Bcast.cleared (b : Bcast) (seq : BitVec 8) (all : Bool) (h : Fin 16) : Bcast :=
  { b with
    st := (b.st.accept seq).complete, all := b.all && !all
    homes := if all then b.homes else b.homes &&& ~~~(BitVec.ofNat 16 (2 ^ h.val)), sweep := [], clearAll := false, clearHome := none }

end Sys2Proof.Machine

namespace Sys2Proof.Safety

open Sys2Proof.Machine

variable {s : State}

/-- What runs by itself after the exit sweep's step has nothing to do in a state that slices were woken in. -/
theorem settle_of_bcast {t : State} (h : Quiet (s.modBc fun b => { b with sweep := [] })) (hb : s.bcastStep = t) (hw : WakesOnly s t) :
    s.settle = t.syncPower.setPins := by
  obtain ⟨⟨v, hv⟩, hs⟩ := hw
  have hctl : ∀ i, (t.slice i).ctl.resetWait = false ∧ (t.slice i).ctl.autoRet = false := fun i => by
    obtain ⟨w, f, hf⟩ := hs i
    rw [hf]
    exact h.slices i
  have h₁ : s.movePrep.liftHold.engineSteps = s := by
    rw [movePrep_of_run (s := s) h.run, liftHold_of_adm (s := s) h.adm, engineSteps_of_waits (s := s) h.load h.job]
  have h₂ : s.commitStep.startStep.disableStep = s := by
    rw [commitStep_of_stt (s := s) h.gc, startStep_of_stt (s := s) h.stt, disableStep_of_msc (s := s) h.msc]
  have h₄ : s.bcastStep.ltBackStep.portResetStep.slcResetStep.csrReads = t := by
    rw [hb, ltBackStep_of_run (by rw [hv]; exact h.back), portResetStep_of_none fun p => by rw [hv]; exact (h.ports p).1,
      slcResetStep_of_none fun i => (hctl i).1, csrReads_of_held (by rw [hv]; exact h.reads)]
  have h₅ : (t.eachPort State.recheckPort).pump = t := by
    rw [recheck_of_none (by rw [hv]; exact fun p k hk => ((h.ports p).2 k hk).2),
      pump_of_none (by rw [hv]; exact fun p k hk => ((h.ports p).2 k hk).1)]
  exact settle_of_selfSteps h.due (selfSteps_eq h₁ h₂ (detWake_of_awake h.det) h₄ h₅) (by rw [hv]; exact h.net)
    (by rw [hv]; exact h.due) fun i => (hctl i).2

/-- A change of BROADCAST alone, without an exit sweep. -/
theorem Quiet.modBc (h : Quiet s) (f : Bcast → Bcast) (hf : (f s.glb.bc).sweep = []) : Quiet (s.modBc f) :=
  h.modGlb _ rfl h.load h.gc rfl (hf.trans h.sweep.symm) rfl ⟨rfl, rfl⟩

/-- The bit of a home in the mask of homes. -/
theorem getLsbD_oneHot (h k : Fin 16) : (BitVec.ofNat 16 (2 ^ h.val)).getLsbD k.val = (k == h) := by
  revert h k
  decide

theorem bcastSetCmd_accepted {seq : BitVec 8} {all : Bool} {h : Fin 16} (ha : s.glb.bc.st.accepts seq = true) :
    s.bcastSetCmd seq all h = s.modBc fun b => { b with
      st := b.st.accept seq, all := b.all || all, homes := if all then b.homes else b.homes ||| BitVec.ofNat 16 (2 ^ h.val)
      clearAll := all, clearHome := if all then none else some h, sweep := [] } := by
  rw [State.bcastSetCmd, ha]
  rfl

/-- An exit sweep that has begun wakes the slices it is to visit, and every home of it has sets left. -/
theorem bcastStep_begins {t : State} {hs : List (Fin 16)} (hne : hs ≠ []) (ht : t.glb.bc.sweep = hs.map fun k => (k, 0))
    (hok : ∀ k ∈ hs, t.degraded k = false ∧ (t.serving k).isSome = true) : WakesOnly t t.bcastStep := by
  have hl : t.glb.bc.sweep.filter (fun e => decide (e.2 < 16384) && !t.degraded e.1 && (t.serving e.1).isSome) = t.glb.bc.sweep := by
    refine List.filter_eq_self.2 fun e he => ?_
    rw [ht] at he
    obtain ⟨k, hk, rfl⟩ := List.mem_map.1 he
    simp [hok k hk]
  have he : t.glb.bc.sweep.isEmpty = false := by
    rw [ht]
    simp [hne]
  unfold State.bcastStep
  rw [he, hl]
  dsimp only
  rw [he, if_neg Bool.false_ne_true, if_neg Bool.false_ne_true]
  refine WakesOnly.foldl (fun s i => ?_) _ t
  split
  · exact .wakeFor s i false
  · exact .refl s

/-- Settles O12: SET, CLEAR and abort of BROADCAST. -/
theorem broadcast : Obligations.Broadcast := by
  refine ⟨fun s seq all hm h => ⟨fun ha => ?_, fun hr hh => ?_, fun ha he => ?_, fun ha he => ?_, fun hr hs => ?_⟩, fun s seq h hne hr hs => ?_⟩
  · refine ⟨_, (h.modBc _ rfl).ends (bcastSetCmd_accepted ha) rfl rfl, rfl, fun k => ?_⟩
    cases all
    · simp only [State.inBcast, Bool.false_eq_true, if_false, Bool.or_false, BitVec.getLsbD_or, getLsbD_oneHot, Bool.or_assoc]
    · simp
  · have hall : (List.finRange 17).all (fun i => (s.slice i).ents.all fun e => !s.beforeSet e.2) = true ↔
        ∀ i, ∀ e ∈ (s.slice i).ents, s.beforeSet e.2 = false := by
      simp
    have ht : s.bcastSetDone = if ∀ i, ∀ e ∈ (s.slice i).ents, s.beforeSet e.2 = false then
        (s.modBc fun b => { b with st := { b.st with res := .completed } }).done 0 else s := by
      simp only [State.bcastSetDone, hr, h.sweep, List.isEmpty_nil, true_and, hall, State.doneUnless, hh, Option.isSome_none]
      rw [if_neg Bool.false_ne_true]
      simp only [State.modBc, State.modGlb, complete_of_none hh]
    refine (congrArg (Machine.commandEnd s) ht).trans ?_
    split
    · exact (h.modBc _ h.sweep).endsDone 0 rfl rfl rfl
    · exact h.ends rfl rfl rfl
  · have ht : s.bcastClearCmd seq all hm = (s.modBc fun b => b.cleared seq all hm).done 0 := by
      rw [State.bcastClearCmd, ha, he]
      cases all
      · rfl
      · rfl
    exact ⟨_, (h.modBc _ rfl).endsDone 0 ht rfl rfl, by simp [State.modBc, Bcast.cleared], by simp [State.modBc, Bcast.cleared],
      by simp [State.modBc, Bcast.cleared], by simp [State.modBc], by simp [State.modBc], by simp [State.modBc], by simp [State.modBc]⟩
  · obtain ⟨u, hu⟩ : ∃ u, u = s.modBc fun b => { b with
        st := b.st.accept seq, sweep := (s.sweptBy all hm).map fun k => (k, 0), clearAll := all, clearHome := if all then none else some hm } :=
      ⟨_, rfl⟩
    have ht : s.bcastClearCmd seq all hm = u := by
      rw [State.bcastClearCmd, ha, hu]
      simp [he]
    have hok : ∀ k ∈ s.sweptBy all hm, u.degraded k = false ∧ (u.serving k).isSome = true := fun k hk => by
      have := (List.mem_filter.1 hk).2
      simp only [Bool.and_eq_true, Bool.not_eq_true'] at this
      rw [hu]
      exact ⟨this.1.1.1, this.1.1.2⟩
    obtain ⟨t, hbt⟩ : ∃ t, u.bcastStep = t := ⟨_, rfl⟩
    have hw : WakesOnly u t := hbt ▸ bcastStep_begins he (by rw [hu]; rfl) hok
    have hq : Quiet (u.modBc fun b => { b with sweep := [] }) := by
      rw [hu]
      exact h.modBc (fun b => { b with st := b.st.accept seq, sweep := [], clearAll := all, clearHome := if all then none else some hm }) rfl
    obtain ⟨v, hv⟩ := hw.frame
    refine ⟨_, commandEnd_settle (t := s.bcastClearCmd seq all hm) (by rw [ht, settle_of_bcast hq hbt hw]) (by simp [hv, hu, State.modBc])
      (by simp [hv, hu, State.modBc]), ?_, ?_, ?_, ?_, fun i => ?_, ?_, ?_, ?_, ?_, ?_⟩
    case refine_5 =>
      obtain ⟨w, f, hf⟩ := hw.slice i
      rw [setPins_slice, syncPower_slice, hf, hu]
      exact ⟨rfl, rfl, rfl⟩
    all_goals simp [hv, hu, State.modBc]
  · have ht : s.bcastAbortCmd seq = s.modBc fun b => { b with st := { b.st with res := .nothing, rseq := seq } } := by
      simp only [State.bcastAbortCmd, tryAbort_nothing _ hs hr, CmdSt.nothingAt]
      rfl
    exact (h.modBc _ h.sweep).ends ht rfl rfl
  · have ht : s.bcastAbortCmd seq = (s.modBc fun b =>
        { b with st := { b.st with res := .aborted, held := none }, sweep := [], clearAll := false, clearHome := none }).done 0 := by
      rw [State.bcastAbortCmd, List.isEmpty_eq_false_iff.2 hne, Bool.not_false, tryAbort_running hs hr]
      rfl
    have hq : Quiet (s.modBc fun b =>
        { b with st := { b.st with res := .aborted, held := none }, sweep := [], clearAll := false, clearHome := none }) :=
      h.modBc (fun b => { b with st := { b.st with res := .aborted, held := none }, sweep := [], clearAll := false, clearHome := none }) rfl
    exact hq.endsDone 0 ht rfl rfl

end Sys2Proof.Safety
end


section
/-! O9: COMMIT (R465). -/

namespace Sys2Proof.Machine

/-- What runs of pages take as their reference CRC changes the registers and the CRC records alone, and sets CRCREF of each page. -/
theorem takeCrcRef_list (l : List Nat) (s : State) :
    ∃ r c, l.foldl (fun s n => (s.setReg n 0xFF (s.rcrc n)).setCrcv n true true) s = { s with regs := r, csr := c } ∧
      c.posted = s.csr.posted ∧ c.reads = s.csr.reads ∧ c.rcrc = s.csr.rcrc ∧
      ∀ n, ({ s with regs := r, csr := c } : State).reg n 0xFF = if n ∈ l then s.rcrc n else s.reg n 0xFF := by
  induction l generalizing s with
  | nil => exact ⟨_, _, rfl, rfl, rfl, rfl, fun n => rfl⟩
  | cons k l ih =>
    obtain ⟨u, hu⟩ : ∃ u, u = (s.setReg k 0xFF (s.rcrc k)).setCrcv k true true := ⟨_, rfl⟩
    obtain ⟨r, c, hf, hp, hr, hc, hreg⟩ := ih u
    rw [List.foldl_cons, ← hu, hf]
    have hframe : ({ u with regs := r, csr := c } : State) = { s with regs := r, csr := c } := by rw [hu]; rfl
    refine ⟨r, c, hframe, hp.trans (by rw [hu]; rfl), hr.trans (by rw [hu]; rfl), hc.trans (by rw [hu]; rfl), fun n => ?_⟩
    have hru : u.rcrc n = s.rcrc n := by rw [hu]; rfl
    rw [← hframe, hreg, hru]
    by_cases hn : n ∈ l
    · simp [hn]
    · rw [if_neg hn, hu]
      show (s.setReg k 0xFF (s.rcrc k)).reg n 0xFF = _
      by_cases hk : n = k
      · subst hk
        simp
      · rw [setReg_reg_ne _ _ _ _ _ _ (by omega)]
        simp [hn, hk]

theorem takeCrcRefs_frame (s : State) : ∃ r c, s.takeCrcRefs = { s with regs := r, csr := c } ∧ c.posted = s.csr.posted ∧ c.reads = s.csr.reads ∧
    ∀ n < 64, s.takeCrcRefs.reg n 0xFF = s.rcrc n := by
  obtain ⟨r, c, hf, hp, hr, hc, hreg⟩ := takeCrcRef_list (List.range 64) s
  refine ⟨r, c, hf, hp, hr, fun n hn => ?_⟩
  rw [State.takeCrcRefs, hf, hreg, if_pos (List.mem_range.2 hn)]

/-- One more command that has ended changes GLB_DONE alone. -/
theorem done_reg_ne (s : State) (page m u : Nat) (h : 256 * m + u ≠ 0x0A) : (s.done page).reg m u = s.reg m u := by
  obtain e | ⟨v, e⟩ : s.done page = s ∨ ∃ v, s.done page = s.setReg 0 0x0A v := by
    unfold State.done
    exact (ite_eq_or_eq _ _ _).imp id fun e => ⟨_, e⟩
  · rw [e]
  · rw [e]
    exact setReg_reg_ne _ _ _ _ _ _ (by omega)

theorem WakesOnly.detWake (s : State) : WakesOnly s s.detWake := by
  obtain ⟨v, hv, hs⟩ := detWake_frame s
  exact ⟨⟨v, hv⟩, fun i => by rw [hv]; exact hs i⟩

/-- What a COMMIT whose checks pass leaves of the block (R388). -/
def State.commitGlb (s : State) : Glb := { s.glb with stt := .committed, cmd := s.glb.cmd.complete, det := s.detEn }

/-- The block after a COMMIT whose checks pass. -/
def State.commits (s : State) : State := (({ s with glb := s.commitGlb } : State).takeCrcRefs).done 0

theorem commits_frame (s : State) : ∃ r c, s.commits = { s with glb := s.commitGlb, regs := r, csr := c } ∧ c.posted = s.csr.posted ∧
    c.reads = s.csr.reads ∧ ∀ n < 64, s.commits.reg n 0xFF = s.rcrc n := by
  obtain ⟨r, c, hw, hcp, hcr, hreg⟩ := takeCrcRefs_frame { s with glb := s.commitGlb }
  obtain ⟨r', hr'⟩ := done_frame ({ s with glb := s.commitGlb } : State).takeCrcRefs 0
  refine ⟨r', c, hr'.trans (by rw [hw]), hcp, hcr, fun n hn => ?_⟩
  rw [State.commits, done_reg_ne _ _ _ _ (by omega), hreg n hn]
  rfl

/-- A running COMMIT whose checks pass. -/
theorem commitStep_passes {s : State} (hr : s.glb.cmd.res = .running) (hs : s.glb.stt = .ready ∨ s.glb.stt = .committed)
    (hp : s.csr.posted = []) (hf : s.commitFails = []) (hl : s.glb.layout = [] ∨ s.glb.layout = s.layoutRegs) :
    s.commitStep = s.commits := by
  have hlay : ((s.modGlb fun g => { g with stt := .committed, cmd := g.cmd.complete, det := s.detEn }).layoutMark) =
      s.modGlb fun g => { g with stt := .committed, cmd := g.cmd.complete, det := s.detEn } := by
    unfold State.layoutMark
    refine if_pos ?_
    obtain hl | hl := hl
    · simp [hl]
    · rw [modGlb_glb, hl]
      simp
      exact Or.inr rfl
  unfold State.commitStep
  rw [if_pos ⟨hr, hs, by simp [hp]⟩, hf]
  dsimp only
  rw [hlay]
  rfl

/-- A running COMMIT of which a check fails. -/
theorem commitStep_fails {s : State} {c : BitVec 8} {cs : List (BitVec 8)} (hr : s.glb.cmd.res = .running)
    (hs : s.glb.stt = .ready ∨ s.glb.stt = .committed) (hp : s.csr.posted = []) (hf : s.commitFails = c :: cs) :
    s.commitStep = ((((c :: cs).foldl (fun s _ => s.cfgFault srcNet) s).modGlb fun g =>
      { g with stt := .ready, cmd := { g.cmd.complete with refused := true, cause := c } }).done 0) := by
  unfold State.commitStep
  rw [if_pos ⟨hr, hs, by simp [hp]⟩, hf]

/-- Configuration faults are appended to the log while it has room. -/
theorem cfgFaults_frame (l : List (BitVec 8)) (s : State) (h : s.flt.log.length + l.length ≤ 256) :
    l.foldl (fun s _ => s.cfgFault srcNet) s =
      s.modFlt fun x => { x with log := x.log ++ l.map fun _ => ⟨0x0C, 57, 63, 0, 0, s.now⟩ } := by
  induction l generalizing s with
  | nil => simp [State.modFlt]
  | cons k l ih =>
    simp only [List.length_cons] at h
    have hk : s.cfgFault srcNet = s.modFlt fun x => { x with log := x.log ++ [⟨0x0C, 57, 63, 0, 0, s.now⟩] } :=
      if_pos (by omega)
    rw [List.foldl_cons, hk, ih _ (by simp; omega)]
    simp [State.modFlt]

theorem commitFails_length (s : State) : s.commitFails.length ≤ 5 := by
  unfold State.commitFails
  simp only [List.length_append]
  split_ifs <;> simp

end Sys2Proof.Machine

namespace Sys2Proof.Safety

open Sys2Proof.Machine

variable {s t : State}

/-- A change that leaves alone what the calm of a state looks at. -/
theorem Calm.mono (h : Calm s) (hd : t.flt.due = s.flt.due) (hr : t.flt.run = s.flt.run) (ha : t.glb.admHold = s.glb.admHold)
    (hl : loadWaits t.glb.ld) (hb : t.glb.bc.sweep = s.glb.bc.sweep) (hph : t.tst.phase = s.tst.phase) (hpar : t.par = s.par)
    (hp : t.ports = s.ports) (hn : t.noc = s.noc) (hc : t.csr.reads = s.csr.reads ∧ t.csr.posted = s.csr.posted)
    (hs : ∀ i, (t.slice i).ctl.resetWait = (s.slice i).ctl.resetWait ∧ (t.slice i).ctl.autoRet = (s.slice i).ctl.autoRet) : Calm t where
  due := hd.trans h.due
  run m hm := h.run m (hr ▸ hm)
  adm k hk := hr ▸ h.adm k (ha ▸ hk)
  load := hl
  job := hpar ▸ h.job
  sweep := hb.trans h.sweep
  back e := hr ▸ h.back (hph ▸ e)
  ports p := by
    have hready : ∀ k, t.heldReady k = s.heldReady k := fun k => by simp [State.heldReady, State.part, hpar]
    simpa [State.port, hp, hready] using h.ports p
  net := hn ▸ h.net
  reads w hw := by simpa [State.csrHolds, State.islBusy, hc.2] using h.reads w (hc.1 ▸ hw)
  slices i := by rw [(hs i).1, (hs i).2]; exact h.slices i

theorem Calm.wakes (h : Calm s) (hw : WakesOnly s t) : Calm t := by
  obtain ⟨⟨v, rfl⟩, hs⟩ := hw
  refine h.mono rfl rfl rfl h.load rfl rfl rfl rfl rfl ⟨rfl, rfl⟩ fun i => ?_
  obtain ⟨w, f, hf⟩ := hs i
  rw [hf]
  exact ⟨rfl, rfl⟩

/-- In a calm state the wake of DET slices is the last thing that happens. -/
theorem Calm.settleWake (h : Calm s) (ht : s.commitStep.startStep.disableStep = t) (hc : Calm t) :
    ∃ v, s.settle = v.syncPower.setPins ∧ WakesOnly t v :=
  ⟨_, h.settle ht rfl (hc.wakes (.detWake t)), .detWake t⟩

/-- Settles O9: COMMIT is accepted, refused or ignored, and its checks pass or fail. -/
theorem commitChecksConfiguration : Obligations.CommitChecksConfiguration := by
  intro s seq h
  refine ⟨fun ha hst hh hp => ?_, fun ha h1 h2 => ?_, fun ha => ?_⟩
  · obtain ⟨u, hu⟩ : ∃ u, u = s.gcAccept seq := ⟨_, rfl⟩
    have hcmd : s.commitCmd seq = u := by
      have hst' : ¬ (s.glb.stt ≠ .ready ∧ s.glb.stt ≠ .committed) := by tauto
      rw [State.commitCmd, ha, if_neg hst', hu]
      rfl
    have hcu : Calm u := by
      rw [hu]
      exact h.calm.modGlb (fun g => { g with cmd := { g.cmd.accept seq with cmdref := false } }) rfl h.load rfl
    have hur : u.glb.cmd.res = .running := by rw [hu]; rfl
    have hus : u.glb.stt = .ready ∨ u.glb.stt = .committed := by rw [hu]; exact hst
    have hup : u.csr.posted = [] := by rw [hu]; exact hp
    have huf : u.commitFails = s.commitFails := by rw [hu]; rfl
    refine ⟨fun hf hl => ?_, fun c cs hf hlen => ?_⟩
    · have hstep := commitStep_passes hur hus hup (huf.trans hf) (by rw [hu]; exact hl)
      obtain ⟨r, c, hw, hcp, hcr, hreg⟩ := commits_frame u
      obtain ⟨w, hwe⟩ : ∃ w, w = u.commits := ⟨_, rfl⟩
      rw [← hwe] at hstep hw hreg
      have hst : w.glb.stt = .committed := by rw [hw]; rfl
      have hcw : Calm w := by
        rw [hw]
        exact hcu.mono rfl rfl rfl hcu.load rfl rfl rfl rfl rfl ⟨hcr, hcp⟩ fun _ => ⟨rfl, rfl⟩
      obtain ⟨v, hset, hwake⟩ := hcu.settleWake (t := w)
        (by rw [hstep, startStep_of_stt (by simp [hst]), disableStep_of_msc (by simp [hst])]) hcw
      obtain ⟨x, hx⟩ := hwake.frame
      refine ⟨_, commandEnd_settle (t := s.commitCmd seq) (by rw [hcmd, hset]) ?_ ?_, ?_, ?_, ?_, ?_, ?_, fun n hn => ?_, fun i => ?_, ?_, ?_, ?_, ?_, ?_⟩
      case refine_7 =>
        rw [setPins_glb, syncPower_glb, hx, hw, hu]
        rfl
      case refine_8 =>
        have hk : v.reg n 0xFF = s.rcrc n := by
          rw [hx]
          exact (hreg n hn).trans (by rw [hu]; rfl)
        rw [setPins_reg, syncPower_reg, hk]
      case refine_9 =>
        obtain ⟨a, b, hab⟩ := hwake.slice i
        rw [setPins_slice, syncPower_slice, hab, hw, hu]
        exact ⟨rfl, rfl, rfl, rfl⟩
      all_goals simp [hx, hw, hu, State.commitGlb, State.gcAccept, State.modGc, CmdSt.accept, CmdSt.complete, hh]
    · have hstep := commitStep_fails hur hus hup (huf.trans hf)
      have hn : (c :: cs).length ≤ 5 := hf ▸ commitFails_length s
      rw [cfgFaults_frame _ _ (by rw [hu]; exact (Nat.add_le_add hlen hn).trans (by omega))] at hstep
      obtain ⟨w, hw⟩ : ∃ w, w = (s.modFlt fun x => { x with log := x.log ++ (c :: cs).map fun _ => ⟨0x0C, 57, 63, 0, 0, s.now⟩ }).modGlb fun g =>
          { g with stt := .ready, cmd := { (g.cmd.accept seq).complete with cmdref := false, refused := true, cause := c } } := ⟨_, rfl⟩
      have hwd : u.commitStep = w.done 0 := by
        rw [hstep, hu, hw]
        simp only [State.gcAccept, State.modGc, State.modGlb, State.modFlt, CmdSt.complete, CmdSt.accept, hh]
      have hqw : Quiet (w.done 0) := by
        have hl : Quiet (s.modFlt fun x => { x with log := x.log ++ (c :: cs).map fun _ => ⟨0x0C, 57, 63, 0, 0, s.now⟩ }) := h.modFlt _ rfl rfl
        rw [hw]
        exact (hl.withStt .ready { (s.glb.cmd.accept seq).complete with cmdref := false, refused := true, cause := c } _ _
          ⟨nofun, nofun, nofun⟩ nofun fun e => absurd e (complete_res _)).done 0
      have hst : (w.done 0).glb.stt = .ready := by rw [done_glb, hw]; rfl
      have hset := hcu.settle (t := w.done 0) (by rw [hwd, startStep_of_stt (by rw [hst]; decide), disableStep_of_msc (by rw [hst]; exact nofun)])
        hqw.toStill.detWake hqw.calm
      refine ⟨_, commandEnd_settle (t := s.commitCmd seq) (by rw [hcmd, hset]) ?_ ?_, ?_⟩
      · simp [hw]
      · simp [hw]
      · simp [hw, CmdSt.accept, CmdSt.complete, hh]
  · exact h.endsRefused seq _ (by simp [State.commitCmd, ha, h1, h2])
  · exact (h.modGlb (fun g => { g with cmd := { g.cmd with cmdref := true } }) rfl h.load h.gc rfl rfl rfl ⟨rfl, rfl⟩).ends
      (by rw [State.commitCmd, ha]; rfl) rfl rfl

end Sys2Proof.Safety
end


section
/-! O51: array commands, trace and counter clears, and the wrapper (R452, R455 to R457, R461 to R463). -/

namespace Sys2Proof.Machine

variable {s : State} {i : Fin 17} {a : Fin 10}

theorem slcOf_ofNat (i : Fin 17) : slcOf (BitVec.ofNat 5 i.val) = some i := by
  revert i
  decide

theorem arrCause_on (h : (s.slice i).ctl.dom.a ≠ .off) {n : BitVec 4} (hn : n.toNat < 10) : s.arrCause (BitVec.ofNat 5 i.val) n = 0 := by
  simp [State.arrCause, slcOf_ofNat, h, hn]

theorem arrCause_off (h : (s.slice i).ctl.dom.a = .off) (n : BitVec 4) : s.arrCause (BitVec.ofNat 5 i.val) n = 1 := by
  simp [State.arrCause, slcOf_ofNat, h]

theorem arr_toNat (a : Fin 10) : (BitVec.ofNat 4 a.val).toNat = a.val := by
  revert a
  decide

theorem arr_ofNat (a : Fin 10) : Fin.ofNat 10 (BitVec.ofNat 4 a.val).toNat = a := by
  revert a
  decide

/-- TST_ACMD at the end of a command that nothing refuses. -/
def Tst.cmdEnds (t : Tst) (seq : BitVec 8) : Tst := { t with acmd := (t.acmd.accept seq).complete, aopndL := t.aopnd }

/-- TST_ACMD while the effect of a command takes place. -/
def State.cmdRuns (s : State) (seq : BitVec 8) : State := s.modTst fun t => { t with acmd := t.acmd.accept seq, aopndL := t.aopnd }

theorem acmd_accepted {seq : BitVec 8} (f : State → State) (hl : s.tstClosed = false) (ha : s.tst.acmd.accepts seq = true) :
    s.acmd seq 0 f = ((f (s.cmdRuns seq)).modTst fun t => { t with acmd := t.acmd.complete }).done 63 := by
  simp [State.acmd, hl, ha]
  rfl

theorem acmd_refused {seq cause : BitVec 8} (f : State → State) (hl : s.tstClosed = false) (ha : s.tst.acmd.accepts seq = true)
    (hc : cause ≠ 0) : s.acmd seq cause f = (s.modTst fun t => { t with acmd := t.acmd.refuse seq cause }).done 63 := by
  rw [State.acmd, hl, ha, if_pos hc]
  rfl

theorem remapRd_ends {seq : BitVec 8} (hl : s.tstClosed = false) (ha : s.tst.acmd.accepts seq = true) (hon : (s.slice i).ctl.dom.a ≠ .off) :
    s.remapRd seq (BitVec.ofNat 5 i.val) (BitVec.ofNat 4 a.val) =
      (s.modTst fun t => { t.cmdEnds seq with ares := remapBits ((s.slice i).ar.remapAt a s.opndEntry) }).done 63 := by
  rw [State.remapRd, arrCause_on hon (by rw [arr_toNat]; omega), acmd_accepted _ hl ha, slcOf_ofNat, arr_ofNat]
  rfl

/-- A slice after REMAPWR (R456). -/
def Slice.remapped (x : Slice) (a : Fin 10) (k : Nat) (v : Bool) (w : BitVec 18) : Slice :=
  { x with ar := { (x.ar.setRemap a k ⟨v && !(x.ar.remapAt a k).ret, (x.ar.remapAt a k).ret, w⟩) with
      init := x.ar.init &&& ~~~(BitVec.ofNat 10 (2 ^ a.val)) } }

theorem remapWr_ends {seq : BitVec 8} (hl : s.tstClosed = false) (ha : s.tst.acmd.accepts seq = true) (hon : (s.slice i).ctl.dom.a ≠ .off)
    (hok : s.remapOk i = true) (hw : s.opndWord.toNat < arrayWords a) :
    s.remapWr seq (BitVec.ofNat 5 i.val) (BitVec.ofNat 4 a.val) =
      ((s.modTst fun t => t.cmdEnds seq).modSlice i fun x => x.remapped a s.opndEntry (s.tst.aopnd.getLsbD 19) s.opndWord).done 63 := by
  unfold State.remapWr
  dsimp only
  rw [arrCause_on hon (by rw [arr_toNat]; omega), slcOf_ofNat, arr_ofNat]
  simp only [hok, ne_eq, not_true_eq_false, if_false, Bool.not_true, Bool.false_eq_true, Nat.not_le.2 hw]
  rw [acmd_accepted _ hl ha]
  rfl

theorem trRead_ends {seq : BitVec 8} (hl : s.tstClosed = false) (ha : s.tst.acmd.accepts seq = true) (hon : (s.slice i).ctl.dom.a ≠ .off)
    (hf : (s.slice i).ar.init.getLsbD 9 = true) : s.trRead seq (BitVec.ofNat 5 i.val) =
      (s.modTst fun t => { t.cmdEnds seq with
        ares := (s.slice i).trace.at' (s.tst.aopnd.extractLsb' 0 12), wrapped := (s.slice i).trace.wrapped
        stopped := (s.slice i).trace.stopped, wptr := (s.slice i).trace.wptr }).done 63 := by
  have hf' : ((s.cmdRuns seq).slice i).ar.init.getLsbD 9 = true := hf
  rw [State.trRead, arrCause_on hon (by decide), acmd_accepted _ hl ha, slcOf_ofNat]
  dsimp only
  rw [hf']
  rfl

theorem trClr_ends {seq : BitVec 8} (hl : s.tstClosed = false) (ha : s.tst.acmd.accepts seq = true) (hon : (s.slice i).ctl.dom.a ≠ .off) :
    s.trClr seq (BitVec.ofNat 5 i.val) =
      ((s.modTst fun t => t.cmdEnds seq).modSlice i fun x => { x with trace := ⟨[], 0, false, false, none, 0⟩ }).done 63 := by
  rw [State.trClr, arrCause_on hon (by decide), acmd_accepted _ hl ha, slcOf_ofNat]
  rfl

/-- A grant of requester 24 changes the performance counters and, where the arbiter runs, the slice's count of grants (R303, R463). -/
theorem ownGrant_frame (s : State) (i : Fin 17) : ∃ k b, s.ownGrant i = ({ s with tst := { s.tst with pc := k } } : State).modSlice i (fun x => { x with arb := b }) ∧
    b.sc = (s.slice i).arb.sc + if s.sliceRuns i then 1 else 0 := by
  unfold State.ownGrant
  split
  · obtain ⟨k₁, h₁⟩ := perf_frame s i 0x0E 1
    obtain ⟨k₂, h₂⟩ := perf_frame (s.perf i 0x0E) i 0x0D (s.slice i).ents.length
    obtain ⟨k₃, h₃⟩ := perf_frame ((s.perf i 0x0E).perf i 0x0D (s.slice i).ents.length) i 0x01 1
    refine ⟨k₃, { (s.slice i).arb with sc := (s.slice i).arb.sc + 1, sinceLw := (s.slice i).arb.sinceLw + 1 }, ?_, rfl⟩
    rw [h₃, h₂, h₁]
    rfl
  · exact ⟨_, _, (Safety.modSlice_same s i (fun x => { x with arb := (s.slice i).arb }) rfl).symm, rfl⟩

/-- The injected errors of a slice after INJ (R457). -/
def Arrays.injected (r : Arrays) (a : Fin 10) (w : BitVec 18) (m : BitVec 8) : List (Fin 10 × BitVec 18 × BitVec 8) :=
  (r.wrote a w.toNat).inj ++ [(a, w, m)]

theorem injCmd_ends {seq : BitVec 8} (hl : s.tstClosed = false) (ha : s.tst.acmd.accepts seq = true) (hon : (s.slice i).ctl.dom.a ≠ .off)
    (h9 : a ≠ 9) (hw : s.opndWord.toNat < arrayWords a) (hm : s.tst.aopnd.extractLsb' 24 8 &&& checkMask a.val ≠ 0) :
    ∃ k b, s.injCmd seq (BitVec.ofNat 5 i.val) (BitVec.ofNat 4 a.val) =
        ((s.modTst fun t => { t.cmdEnds seq with pc := k }).modSlice i fun x => { x with
          arb := b, ar := { x.ar with inj := x.ar.injected a s.opndWord (s.tst.aopnd.extractLsb' 24 8 &&& checkMask a.val) } }).done 63 ∧
      b.sc = (s.slice i).arb.sc + if s.sliceRuns i then 1 else 0 := by
  obtain ⟨k, b, hg, hb⟩ := ownGrant_frame (s.cmdRuns seq) i
  refine ⟨k, b, ?_, hb⟩
  have h9' : (BitVec.ofNat 4 a.val).toNat ≠ 9 := by
    rw [arr_toNat]
    exact fun e => h9 (Fin.ext e)
  unfold State.injCmd
  dsimp only
  rw [arrCause_on hon (by rw [arr_toNat]; omega), slcOf_ofNat, arr_ofNat]
  simp only [ne_eq, not_true_eq_false, if_false, h9', Nat.not_le.2 hw]
  rw [acmd_accepted _ hl ha]
  rw [hg, modSlice_modSlice]
  have hm' : ((s.cmdRuns seq).tst.aopndL.extractLsb' 24 8 &&& checkMask a.val = 0) = False := eq_false hm
  simp only [hm', if_false]
  rfl

/-- Clearing the entries of a list that a mask names. -/
theorem foldl_clear_tabGet (mask : BitVec 8) (l : List Nat) (p : Tab (BitVec 48)) (k : Nat) :
    tabGet 0 (l.foldl (fun p k => if mask.getLsbD k then tabSet 0 p k 0 else p) p) k = if k ∈ l ∧ mask.getLsbD k then 0 else tabGet 0 p k := by
  induction l generalizing p with
  | nil => simp
  | cons j l ih =>
    rw [List.foldl_cons, ih]
    by_cases hj : k = j
    · subst hj
      cases hm : mask.getLsbD k <;> simp
    · cases hm : mask.getLsbD j
      · simp [hj]
      · simp [hj, tabGet_tabSet_ne _ _ _ _ _ _ hj]

/-- TST_PCCLR clears the counters that its mask names (R463). -/
theorem pcClr_ends (hl : s.tstClosed = false) (mask : BitVec 8) : ∃ l, s.pcClr mask = (s.modTst fun t => { t with pc := l }) ∧
    ∀ k < 8, tabGet 0 l k = if mask.getLsbD k then 0 else tabGet 0 s.tst.pc k := by
  refine ⟨_, by rw [State.pcClr, hl]; rfl, fun k hk => ?_⟩
  rw [foldl_clear_tabGet]
  simp [hk]

/-- Clearing the bit of an array. -/
theorem getLsbD_and_not_oneHot (v : BitVec 10) (a : Fin 10) (k : Nat) (hk : k < 10) :
    (v &&& ~~~(BitVec.ofNat 10 (2 ^ a.val))).getLsbD k = (v.getLsbD k && k != a.val) := by
  have hb : (BitVec.ofNat 10 (2 ^ a.val)).getLsbD k = (k == a.val) := by
    revert a
    interval_cases k <;> decide
  simp only [BitVec.getLsbD_and, BitVec.getLsbD_not, hk, decide_true, Bool.true_and, hb]
  rfl

theorem setRemap_remapAt_ne (r : Arrays) {b : Fin 10} {k e : Nat} (v : Remap) (hk : k < 16) (he : e < 16) (h : (b, k) ≠ (a, e)) :
    (r.setRemap a e v).remapAt b k = r.remapAt b k := by
  refine tabGet_tabSet_ne _ _ _ _ _ _ fun heq => h ?_
  unfold remapKey at heq
  ext
  · simp; omega
  · simp; omega

end Sys2Proof.Machine

namespace Sys2Proof.Safety

open Sys2Proof.Machine

variable {s : State}

/-- A command of TST_ACMD that changes the TST page alone. -/
theorem Quiet.endsTst {t : State} (h : Quiet s) (f : Tst → Tst) (hf : (f s.tst).phase = s.tst.phase) (ht : t = (s.modTst f).done 63) :
    Machine.commandEnd s t = .next ((s.modTst f).done 63).setPins := (h.modTst f hf).endsDone 63 ht rfl rfl

/-- Settles O51: the array commands by their one effect, the counter clears, and the wrapper's instructions. -/
theorem arrayCommandsAndWrapper : Obligations.ArrayCommandsAndWrapper := by
  intro s seq i a h hl
  refine ⟨fun ha hh => ⟨fun hon => ⟨?_, fun hok hw => ?_, fun h9 hw hm => ?_, fun hf => ?_, ?_⟩, fun hoff c hc => ?_⟩, fun mask => ?_, ?_, fun hc => ⟨?_, ?_, ?_⟩, fun hc c hm => ?_⟩
  · exact h.endsTst _ rfl (remapRd_ends hl ha hon)
  · have he : s.opndEntry < 16 := (s.tst.aopnd.extractLsb' 20 4).isLt
    have hq := (h.modTst (fun t => t.cmdEnds seq) rfl).modSlice i
      (fun x => x.remapped a s.opndEntry (s.tst.aopnd.getLsbD 19) s.opndWord) rfl rfl
    refine ⟨(s.slice i).remapped a s.opndEntry (s.tst.aopnd.getLsbD 19) s.opndWord,
      hq.endsDone 63 (remapWr_ends hl ha hon hok hw) rfl rfl, tabGet_tabSet_self _ _ _ _,
      fun b k hk hb => setRemap_remapAt_ne _ _ hk he hb, fun k hk => ?_, rfl, rfl, rfl, rfl, rfl⟩
    exact getLsbD_and_not_oneHot _ a k hk
  · obtain ⟨k, b, ht, hb⟩ := injCmd_ends hl ha hon h9 hw hm
    have hq := (h.modTst (fun t => { t.cmdEnds seq with pc := k }) rfl).modSlice i (fun x => { x with
      arb := b, ar := { x.ar with inj := x.ar.injected a s.opndWord (s.tst.aopnd.extractLsb' 24 8 &&& checkMask a.val) } }) rfl rfl
    refine ⟨_, (s.slice i).ar.injected a s.opndWord (s.tst.aopnd.extractLsb' 24 8 &&& checkMask a.val), hq.endsDone 63 ht rfl rfl,
      ?_, ?_, ?_, ?_, fun j hj => ?_, ?_, ?_, ?_, ?_, List.mem_append_right _ (List.mem_singleton.2 rfl),
      fun e he hne => List.mem_append_left _ (List.mem_filter.2 ⟨he, ?_⟩)⟩
    case refine_5 => rw [setPins_slice, done_slice, modSlice_slice_ne _ _ hj]; rfl
    case refine_10 =>
      have : ¬ (e.1 = a ∧ e.2.1.toNat = s.opndWord.toNat) := fun ⟨h1, h2⟩ => hne (by rw [h1, BitVec.eq_of_toNat_eq h2])
      simpa [imp_iff_not_or] using this
    all_goals simp [Tst.cmdEnds, hb]
  · exact h.endsTst _ rfl (trRead_ends hl ha hon hf)
  · have hq := (h.modTst (fun t => t.cmdEnds seq) rfl).modSlice i (fun x => { x with trace := ⟨[], 0, false, false, none, 0⟩ }) rfl rfl
    exact hq.endsDone 63 (trClr_ends hl ha hon) rfl rfl
  · simp only [List.mem_cons, List.not_mem_nil, or_false] at hc
    have hend := fun t (ht : t = _) => h.endsTst (t := t) (fun t => { t with acmd := t.acmd.refuse seq 1 }) rfl ht
    obtain rfl | rfl | rfl | rfl | rfl := hc
    · exact hend _ (by rw [State.remapRd, arrCause_off hoff, acmd_refused _ hl ha (by decide)])
    · exact hend _ (by simp only [State.remapWr, arrCause_off hoff]; rw [if_pos (show (1 : BitVec 8) ≠ 0 by decide)]; exact acmd_refused _ hl ha (by decide))
    · exact hend _ (by simp only [State.injCmd, arrCause_off hoff]; rw [if_pos (show (1 : BitVec 8) ≠ 0 by decide)]; exact acmd_refused _ hl ha (by decide))
    · exact hend _ (by rw [State.trRead, arrCause_off hoff, acmd_refused _ hl ha (by decide)])
    · exact hend _ (by rw [State.trClr, arrCause_off hoff, acmd_refused _ hl ha (by decide)])
  · obtain ⟨l, hl, hk⟩ := pcClr_ends hl mask
    exact ⟨l, (h.modTst (fun t => { t with pc := l }) rfl).ends hl rfl rfl, hk⟩
  · exact (h.modTst (fun t => { t with wir := 0 }) rfl).ends rfl rfl rfl
  · exact (h.modTst (fun t => { t with wir := 1 }) rfl).ends (by simp [State.wrapper, hc]) rfl rfl
  · exact (h.modTst (fun t => { t with wir := 3 }) rfl).ends (by simp [State.wrapper, hc]) rfl rfl
  · exact (h.modTst (fun t => { t with wir := if s.glb.fuse.dbgLock then 0 else 2 }) rfl).ends
      (by cases hd : s.glb.fuse.dbgLock <;> simp [State.wrapper, hc, hd]) rfl rfl
  · simp only [List.mem_cons, List.not_mem_nil, or_false] at hm
    obtain rfl | rfl | rfl := hm
    all_goals exact (h.modTst (fun t => { t with wir := 0 }) rfl).ends (by simp [State.wrapper, hc]) rfl rfl

end Sys2Proof.Safety
end


section
/-! O53: the power commands of a slice (R400 to R402). -/

namespace Sys2Proof.Machine

/-- A slice after SLEEPC (R400). -/
def Slice.sleptC (x : Slice) (seq : BitVec 8) : Slice :=
  { x with
    ar := { x.ar with msc := [], tagLost := [], mscPtr := [], init := x.ar.init &&& 0x39F, inj := x.ar.inj.filter fun e => e.1 != 5 && e.1 != 6 }
    ctl := { x.ctl with dom := { x.ctl.dom with c := .off }, fn := (x.ctl.fn.accept seq).complete } }

/-- A slice after OFF, whose command was accepted before (R401). -/
def Slice.poweredOff (x : Slice) : Slice :=
  { x.wiped with ctl := { x.ctl with dom := ⟨.off, .off, .off⟩, waking := false, fromOff := false, wakeC := false, fn := x.ctl.fn.complete } }

end Sys2Proof.Machine

namespace Sys2Proof.Safety

open Sys2Proof.Machine

variable {s t : State}

/-- Nothing goes on by itself where the registers change, but for those that say what the DET homes are. -/
theorem Still.withRegs (h : Still s) (r : Tab (BitVec 32)) (hr : ({ s with regs := r } : State).reg 0 0x5C = s.reg 0 0x5C) :
    Still { s with regs := r } where
  due := h.due
  adm := h.adm
  load := h.load
  job := h.job
  gc := h.gc
  stt := h.stt
  msc := h.msc
  sweep := h.sweep
  back := h.back
  ports := h.ports
  net := h.net
  det e i hi := h.det e i (by
    rw [show (State.detHome { s with regs := r }) = s.detHome from
      funext fun k => detHome_same (s := s) (t := { s with regs := r }) rfl hr k] at hi
    exact hi)
  reads := h.reads
  slices := h.slices

theorem Still.done (h : Still s) (n : Nat) : Still (s.done n) := by
  obtain ⟨r, hr⟩ := done_frame s n
  have h5 : (s.done n).reg 0 0x5C = s.reg 0 0x5C := done_reg_ne _ _ _ _ (by omega)
  rw [hr] at h5 ⊢
  exact h.withRegs r h5

/-- Nothing goes on by itself where one slice changes its power, and is no slice of a DET home that is to be awake. -/
theorem Still.modSlice (h : Still s) (i : Fin 17) (f : Slice → Slice)
    (hc : (f (s.slice i)).ctl.resetWait = false ∧ (f (s.slice i)).ctl.autoRet = false)
    (hm : (f (s.slice i)).mem.ctl.mode = .on → (s.slice i).mem.ctl.mode = .on)
    (hd : (s.homesOf i).any s.detHome = true → (s.slice i).asleep = false → (s.slice i).ctl.dom.c = .on →
      (f (s.slice i)).asleep = false ∧ (f (s.slice i)).ctl.dom.c = .on) : Still (s.modSlice i f) where
  due := h.due
  adm := h.adm
  load := h.load
  job := h.job
  gc := h.gc
  stt := h.stt
  msc e j := by
    rw [modSlice_slice]
    split
    · next ej => subst ej; exact fun e' => h.msc e j (hm e')
    · exact h.msc e j
  sweep := h.sweep
  back := h.back
  ports := h.ports
  net := h.net
  det e j hj := by
    rw [modSlice_slice]
    split
    · next ej =>
      subst ej
      obtain ⟨ha, hb⟩ := h.det e j hj
      exact hd hj ha hb
    · exact h.det e j hj
  reads := h.reads
  slices j := by
    rw [modSlice_slice]
    split
    · next ej => subst ej; exact hc
    · exact h.slices j

/-- The power state that a domain should have looks at the slice's control, but not at its commands' status. -/
theorem Quiet.modFn (h : Quiet s) (i : Fin 17) (f : CmdSt → CmdSt) : Quiet (s.modFn i f) where
  toStill := h.toStill.modSlice i _ (h.slices i) id fun _ h1 h2 => ⟨h1, h2⟩
  run := h.run
  links := h.links
  supply k hk hm := by
    have hs : ∀ j, ∃ c, (s.modFn i f).slice j = { s.slice j with ctl := { (s.slice j).ctl with fn := c } } := fun j => by
      unfold State.modFn
      rw [modSlice_slice]
      split
      · next e => subst e; exact ⟨_, rfl⟩
      · exact ⟨_, rfl⟩
    have hw : (s.modFn i f).pdWant k = s.pdWant k := by
      obtain ⟨c, hc⟩ := hs (pdSlice k)
      unfold State.pdWant State.wantsC
      dsimp only
      rw [hc]
      rfl
    exact (h.supply k hk hm).trans hw.symm

/-- A power command that nothing forbids. -/
theorem fnCmd_accepted {i : Fin 17} {seq : BitVec 8} (f : State → State) (ha : (s.slice i).ctl.fn.accepts seq = true) :
    s.fnCmd i seq 0 f = ((f (s.modFn i (·.accept seq))).modFn i CmdSt.complete).done (slcPage i) := by
  rw [State.fnCmd, ha]
  rfl

theorem fnCmd_refused {i : Fin 17} {seq cause : BitVec 8} (f : State → State) (ha : (s.slice i).ctl.fn.accepts seq = true) (hc : cause ≠ 0) :
    s.fnCmd i seq cause f = (s.modFn i (·.refuse seq cause)).done (slcPage i) := by
  rw [State.fnCmd, ha, if_pos hc]
  rfl

/-- A power command that is refused. -/
theorem Quiet.endsFnRefused (h : Quiet s) {i : Fin 17} {seq cause : BitVec 8} (f : State → State) (ha : (s.slice i).ctl.fn.accepts seq = true)
    (hc : cause ≠ 0) : Machine.commandEnd s (s.fnCmd i seq cause f) =
      .next ((s.modSlice i fun x => { x with ctl := { x.ctl with fn := x.ctl.fn.refuse seq cause } }).done (slcPage i)).setPins :=
  (h.modFn i _).endsDone _ (fnCmd_refused f ha hc) rfl rfl

/-- A power command that changes the power of its slice. -/
theorem Still.endsSlice {t : State} {i : Fin 17} {f : Slice → Slice} (h : Still (s.modSlice i f)) (hs : Quiet s) (page : Nat)
    (ht : t = (s.modSlice i f).done page) : Machine.commandEnd s t = .next ((s.modSlice i f).done page).syncPower.setPins :=
  (h.done page).ends (movePrep_of_run (by simpa using hs.run)) ht (by simp) (by simp)


/-- A slice that SLEEP may put into RET serves no DET home. -/
theorem sleepCause_zero {i : Fin 17} (h : s.sleepCause i = 0) : (s.homesOf i).any s.detHome = false := by
  by_contra hd
  unfold State.sleepCause at h
  dsimp only at h
  rw [if_pos (by simp [eq_true_of_ne_false hd])] at h
  exact absurd h (by decide)

variable {i : Fin 17} {seq : BitVec 8}

/-- A slice after SLEEP (R400). -/
def asleepAfter (i : Fin 17) (seq : BitVec 8) (x : Slice) : Slice :=
  { x with ctl := { x.ctl with
    fn := (x.ctl.fn.accept seq).complete, dom := ⟨.ret, .ret, if i.val = 16 then .ret else x.ctl.dom.c⟩, autoRet := false, idleSince := none } }

theorem sleepCmd_sleeps (ha : (s.slice i).ctl.fn.accepts seq = true) (hc : s.sleepCause i = 0) :
    s.sleepCmd i seq = (s.modSlice i (asleepAfter i seq)).done (slcPage i) := by
  rw [State.sleepCmd, hc, fnCmd_accepted _ ha, State.sleepNow, State.modFn, State.modFn, modSlice_modSlice, modSlice_modSlice]
  rfl

theorem sleepcCmd_sleeps (ha : (s.slice i).ctl.fn.accepts seq = true) (hi : i.val < 16) (hm : (s.slice i).mem.ctl.mode = .off)
    (hd : (s.homesOf i).any s.detHome = false) : s.sleepcCmd i seq = (s.modSlice i fun x => x.sleptC seq).done (slcPage i) := by
  have hcause : (if (s.homesOf i).any s.detHome then (0x01 : BitVec 8) else if i.val = 16 || (s.slice i).mem.ctl.mode != .off then 0x05 else 0) = 0 := by
    rw [hd, hm, if_neg Bool.false_ne_true, if_neg (by simpa using Nat.ne_of_lt hi)]
  unfold State.sleepcCmd
  dsimp only
  rw [hcause, fnCmd_accepted _ ha, State.modFn, State.modFn, modSlice_modSlice, modSlice_modSlice]
  rfl

theorem sleepcCmd_refused (ha : (s.slice i).ctl.fn.accepts seq = true)
    (hor : (s.homesOf i).any s.detHome = true ∨ (s.slice i).mem.ctl.mode ≠ .off) :
    s.sleepcCmd i seq = (s.modFn i (·.refuse seq (if (s.homesOf i).any s.detHome then 0x01 else 0x05))).done (slcPage i) := by
  have hc : (if (s.homesOf i).any s.detHome then (0x01 : BitVec 8) else if i.val = 16 || (s.slice i).mem.ctl.mode != .off then 0x05 else 0) =
      if (s.homesOf i).any s.detHome then 0x01 else 0x05 := by
    obtain hd | hm := hor
    · rw [if_pos hd, if_pos hd]
    · rw [if_pos (show (i.val = 16 || (s.slice i).mem.ctl.mode != .off) = true by simp [hm])]
  unfold State.sleepcCmd
  dsimp only
  rw [hc, fnCmd_refused _ ha (by split <;> decide)]

theorem offCmd_off (h : Quiet s) (ha : (s.slice i).ctl.fn.accepts seq = true) (hs : s.servesSome i = false) (hr : (s.slice i).ctl.retained = none) :
    ∃ u, Quiet u ∧ (∃ r, u = { s.modFn i (·.accept seq) with regs := r }) ∧ s.offCmd i seq = (u.modSlice i Slice.poweredOff).done (slcPage i) := by
  obtain ⟨u, hu⟩ : ∃ u, u = (s.modFn i (·.accept seq)).clearSq (slcPage i) slcOwn := ⟨_, rfl⟩
  refine ⟨u, hu ▸ (h.modFn i _).clearSq (slcPage i) slcOwn (by unfold slcPage; omega), hu ▸ clearSq_frame _ _ _, ?_⟩
  unfold State.offCmd
  dsimp only
  rw [hs, hr, if_neg Bool.false_ne_true, Option.isSome_none, if_neg Bool.false_ne_true, fnCmd_accepted _ ha]
  rw [← hu]
  exact congrArg (fun t => t.done (slcPage i)) (modSlice_modSlice u i _ _)

theorem homesOf_of_servesSome (hs : s.servesSome i = false) : s.homesOf i = [] := by
  simp only [State.servesSome, Bool.or_eq_false_iff, Bool.not_eq_false', List.isEmpty_iff] at hs
  exact hs.1

theorem wakeCmd_idle (ha : (s.slice i).ctl.fn.accepts seq = true)
    (hor : (s.slice i).asleep = false ∧ (i.val = 16 ∨ (s.slice i).ctl.dom.c ≠ .off) ∨ s.usableSlice i = false) :
    s.wakeCmd i seq = (s.modFn i fun c => (c.accept seq).complete).done (slcPage i) := by
  have hc : (!((s.slice i).asleep || (decide (i.val ≠ 16) && (s.slice i).ctl.dom.c == .off)) || !s.usableSlice i) = true := by
    obtain ⟨h1, h2 | h2⟩ | h3 := hor
    · simp [h1, h2]
    · simp [h1, h2]
    · simp [h3]
  unfold State.wakeCmd
  dsimp only
  rw [ha, if_neg (by simp), if_pos hc, fnCmd_accepted _ ha, State.modFn, State.modFn, id, modSlice_modSlice]
  rfl

theorem wakeCmd_wakes (ha : (s.slice i).ctl.fn.accepts seq = true) (hs : (s.slice i).asleep = true) (hu : s.usableSlice i = true) :
    s.wakeCmd i seq = s.modSlice i fun x => { x with ctl := { x.ctl with
      fn := x.ctl.fn.accept seq, waking := true, fromOff := x.ctl.fromOff || x.ctl.dom.a == .off
      wakeC := i.val ≠ 16 && x.ctl.dom.c == .off } } := by
  unfold State.wakeCmd
  dsimp only
  rw [ha, if_neg (by simp), if_neg (by simp [hs, hu]), State.modFn, State.wakeFor, modSlice_modSlice, modSlice_modSlice, modSlice_const,
    if_pos (by rw [Bool.or_eq_true]; exact Or.inl hs)]
  rw [modSlice_const s i fun x => { x with ctl := { x.ctl with
      fn := x.ctl.fn.accept seq, waking := true, fromOff := x.ctl.fromOff || x.ctl.dom.a == .off
      wakeC := i.val ≠ 16 && x.ctl.dom.c == .off } }]

theorem wakeCmd_wakesC (ha : (s.slice i).ctl.fn.accepts seq = true) (hs : (s.slice i).asleep = false) (hi : i.val < 16)
    (hoff : (s.slice i).ctl.dom.c = .off) :
    s.wakeCmd i seq = s.modSlice i fun x => { x with ctl := { x.ctl with fn := x.ctl.fn.accept seq, wakeC := true } } := by
  have hn : i.val ≠ 16 := Nat.ne_of_lt hi
  have hc : (decide (i.val ≠ 16) && (s.slice i).ctl.dom.c == .off) = true := by simp [hn, hoff]
  unfold State.wakeCmd
  dsimp only
  rw [ha, hc, if_neg (by simp), if_neg (by simp [hs, State.usableSlice, hi]), State.modFn, State.wakeFor, modSlice_modSlice, modSlice_modSlice, modSlice_const,
    if_neg fun e => by rw [Bool.false_and, Bool.or_false] at e; exact absurd (hs.symm.trans e) Bool.false_ne_true]
  rw [modSlice_const s i fun x => { x with ctl := { x.ctl with fn := x.ctl.fn.accept seq, wakeC := true } }]

/-- Settles O53: SLEEP, SLEEPC, OFF and WAKE, each by what it makes of its slice. -/
theorem powerCommands : Obligations.PowerCommands := by
  intro s i seq h ha hh
  have hrw := h.slices i
  refine ⟨fun hc => ?_, fun hc => h.endsFnRefused _ ha hc, fun hi hm hd => ?_, fun hor => ?_, fun hs hr => ?_, fun hor => ?_, fun hsl hu => ?_, fun hsl hi hoff => ?_⟩
  · exact (h.toStill.modSlice i (asleepAfter i seq) ⟨hrw.1, rfl⟩ id fun hd => absurd (sleepCause_zero hc) (by simp [hd])).endsSlice h _
      (sleepCmd_sleeps ha hc)
  · refine ⟨_, (h.toStill.modSlice i _ hrw id fun hd' => absurd hd (by simp [hd'])).endsSlice h _ (sleepcCmd_sleeps ha hi hm hd),
      ?_, ?_, ?_, ?_, fun k hk => ?_, ?_, ?_, ?_, fun j hj => ?_, ?_, ?_, ?_⟩
    case refine_5 =>
      rw [setPins_slice, syncPower_slice, done_slice, modSlice_slice_self]
      show ((s.slice i).ar.init &&& 0x39F).getLsbD k = _
      rw [BitVec.getLsbD_and]
      interval_cases k <;> simp
    case refine_9 => rw [setPins_slice, syncPower_slice, done_slice, modSlice_slice_ne _ _ hj]
    all_goals simp [Slice.sleptC, CmdSt.complete, CmdSt.accept, hh]
  · exact (h.modFn i _).endsDone _ (sleepcCmd_refused ha hor) rfl rfl
  · obtain ⟨u, hu, ⟨r, hur⟩, ht⟩ := offCmd_off h ha hs hr
    have hsj : ∀ j, u.slice j = (s.modFn i (·.accept seq)).slice j := fun j => by rw [hur]; rfl
    have hsl : u.slice i = { s.slice i with ctl := { (s.slice i).ctl with fn := (s.slice i).ctl.fn.accept seq } } := by
      rw [hsj, State.modFn, modSlice_slice_self]
    have hn : u.homesOf i = [] := by
      rw [hur]
      exact homesOf_of_servesSome hs
    have hst := hu.toStill.modSlice i Slice.poweredOff (by rw [hsl]; exact hrw) nofun (by rw [hn]; exact nofun)
    refine ⟨_, (hst.done _).ends (movePrep_of_run (by simpa using hu.run)) ht (by simp [hur, State.modFn]) (by simp [hur, State.modFn]),
      ?_, ?_, ?_, ?_, ?_, ?_, fun j hj => ?_, ?_, ?_, ?_⟩
    case refine_7 => rw [setPins_slice, syncPower_slice, done_slice, modSlice_slice_ne _ _ hj, hsj]; exact modSlice_slice_ne s _ hj
    case refine_8 | refine_9 | refine_10 => simp [hur, State.modFn]
    all_goals simp [hsl, Slice.poweredOff, Slice.wiped, Slice.zero, Arrays.zero, CmdSt.complete, CmdSt.accept, hh]
  · exact (h.modFn i _).endsDone _ (wakeCmd_idle ha hor) rfl rfl
  · exact (h.toStill.modSlice i _ hrw id fun _ h1 h2 => ⟨h1, h2⟩).ends (movePrep_of_run (by simpa using h.run)) (wakeCmd_wakes ha hsl hu) rfl rfl
  · exact (h.toStill.modSlice i _ hrw id fun _ h1 h2 => ⟨h1, h2⟩).ends (movePrep_of_run (by simpa using h.run)) (wakeCmd_wakesC ha hsl hi hoff) rfl rfl

end Sys2Proof.Safety
end


section
/-! O54: reports of the power controller, domains that are ready, and the return to RET (R402, R403, R448). -/

namespace Sys2Proof.Machine

theorem done_modSlice (s : State) (i : Fin 17) (f : Slice → Slice) (page : Nat) :
    (s.modSlice i f).done page = (s.done page).modSlice i f := by
  unfold State.done
  dsimp only
  rw [apply_ite fun t : State => t.modSlice i f]
  rfl

/-- The watch over one slice that woke by itself (R403). -/
def idleStep (s : State) (i : Fin 17) : State :=
  if (s.slice i).ctl.autoRet then
    let quiet := s.sleepCause i == 0 && !(s.slice i).sw.busy && (s.bcVisit i).isNone && !(s.slice i).sweeping
    s.modSlice i fun x => { x with ctl := { x.ctl with
      idleSince := if quiet then (match x.ctl.idleSince with | some t => some t | none => some s.edge) else none } }
  else s

theorem idleStep_of_awake {s : State} {i : Fin 17} (h : (s.slice i).ctl.autoRet = false) : idleStep s i = s := by
  rw [idleStep, h, if_neg Bool.false_ne_true]

theorem idleStep_frame (s : State) (i : Fin 17) : ∃ o, idleStep s i = s.modSlice i fun x => { x with ctl := { x.ctl with idleSince := o } } := by
  unfold idleStep
  split
  · exact ⟨_, modSlice_const _ _ _⟩
  · exact ⟨_, (Safety.modSlice_same s i (fun x => { x with ctl := { x.ctl with idleSince := (s.slice i).ctl.idleSince } }) rfl).symm⟩

/-- Where one slice alone may have woken by itself, the watch over such slices notes in that slice since when it is idle. -/
theorem idleWatch_one {s : State} (i : Fin 17) (h : ∀ j, j ≠ i → (s.slice j).ctl.autoRet = false) :
    ∃ o, s.idleWatch = s.modSlice i fun x => { x with ctl := { x.ctl with idleSince := o } } := by
  have hw : s.idleWatch = idleStep s i :=
    foldl_one idleStep s i (List.finRange 17) (List.mem_finRange _) (List.nodup_finRange _) (fun j hj => idleStep_of_awake (h j hj))
      fun j hj => by
        obtain ⟨o, ho⟩ := idleStep_frame s i
        refine idleStep_of_awake ?_
        rw [ho, modSlice_slice_ne _ _ hj]
        exact h j hj
  rw [hw]
  exact idleStep_frame s i

/-- A slice whose domains are ready (R18, R402). -/
def Slice.wakes (c : Bool) (x : Slice) : Slice :=
  { x with
    wakeHold := []
    ctl := { x.ctl with
      dom := ⟨.on, .on, if c then .on else x.ctl.dom.c⟩, waking := false, fromOff := false, wakeC := false
      autoRet := if x.ctl.waking then x.ctl.dom.a == .ret else x.ctl.autoRet, idleSince := none } }

/-- A request joins the queue of its requester. -/
def Slice.pushDirect (p : Nat) (r : Req) (x : Slice) : Slice :=
  x.setIng p { x.ing p with direct := (x.ing p).direct ++ [(r, x.arb.sc)] }

/-- The command of a slice that was to wake completes. -/
def Slice.fnDone (x : Slice) : Slice := { x with ctl := { x.ctl with fn := x.ctl.fn.complete } }

/-- The end of a WAKE, once its slice's domains are ready. -/
def wakeEnds (s : State) (i : Fin 17) : State :=
  if (s.slice i).ctl.fn.res = .running && !(s.slice i).ctl.resetting then (s.modSlice i Slice.fnDone).doneUnless (slcPage i) (s.slice i).ctl.fn
  else s

theorem wakeEnds_completes {s : State} {i : Fin 17} (hr : (s.slice i).ctl.fn.res = .running) (hh : (s.slice i).ctl.fn.held = none)
    (hrs : (s.slice i).ctl.resetting = false) : wakeEnds s i = (s.modSlice i Slice.fnDone).done (slcPage i) := by
  rw [wakeEnds, if_pos (by simp [hr, hrs]), State.doneUnless, hh]
  rfl

/-- What a slice does whose domains report ready. -/
theorem domainReady_eq (s : State) (i : Fin 17) : s.domainReady i =
    if ((s.slice i).ctl.waking || (s.slice i).ctl.wakeC) && (pdOf i).all (fun k => s.pdOn k || (k < 48 && k % 3 == 2 && !(i.val = 16 || s.wantsC i))) &&
      (if (s.slice i).ctl.fromOff then (s.slice i).ar.init == 0x3FF else if (s.slice i).ctl.wakeC then (s.slice i).ar.init.extractLsb' 5 2 == 3 else true) then
      wakeEnds ((s.slice i).wakeHold.foldl (fun s q => s.ingressPush i q.1 q.2) (s.modSlice i (Slice.wakes (i.val = 16 || s.wantsC i)))) i
    else s := rfl

theorem ingressPush_direct {s : State} {i : Fin 17} {p : Nat} {r : Req} (ha : (s.slice i).asleep = false) (hf : r.fwd = false) :
    s.ingressPush i p r = s.modSlice i (Slice.pushDirect p r) := by
  rw [State.ingressPush, modSlice_const, ha, hf, modSlice_const s i (Slice.pushDirect p r)]
  rfl

end Sys2Proof.Machine

namespace Sys2Proof.Safety

open Sys2Proof.Machine

variable {s : State} {i : Fin 17}

/-- What runs by itself where one slice has changed its power, but for the watch over slices that woke by themselves. -/
theorem Quiet.settlePower (h : Quiet s) (f : Slice → Slice) (hr : (f (s.slice i)).ctl.resetWait = false)
    (hm : (f (s.slice i)).mem.ctl.mode = .on → (s.slice i).mem.ctl.mode = .on)
    (hd : (s.homesOf i).any s.detHome = true → (s.slice i).asleep = false → (s.slice i).ctl.dom.c = .on →
      (f (s.slice i)).asleep = false ∧ (f (s.slice i)).ctl.dom.c = .on) :
    ∃ o, (s.modSlice i f).settle = ((s.modSlice i f).syncPower.modSlice i fun x => { x with ctl := { x.ctl with idleSince := o } }).setPins := by
  have hst := h.toStill.modSlice i (fun x => { f x with ctl := { (f x).ctl with autoRet := false } }) ⟨hr, rfl⟩ hm hd
  obtain ⟨u, hu⟩ : ∃ u, u = s.modSlice i f := ⟨_, rfl⟩
  have hsl : ∀ j, j ≠ i → u.slice j = s.slice j := fun j hj => by rw [hu, modSlice_slice_ne _ _ hj]
  have hself : u.slice i = f (s.slice i) := by rw [hu, modSlice_slice_self]
  have h₁ : u.movePrep.liftHold.engineSteps = u := by
    rw [hu, movePrep_of_run (s := s.modSlice i f) h.run, liftHold_of_adm (s := s.modSlice i f) h.adm,
      engineSteps_of_waits (s := s.modSlice i f) h.load h.job]
  have h₂ : u.commitStep.startStep.disableStep = u := by
    rw [commitStep_of_stt (by rw [hu]; exact h.gc), startStep_of_stt (by rw [hu]; exact h.stt), disableStep_of_msc]
    intro e j
    by_cases hj : j = i
    · subst hj
      rw [hself]
      exact fun e' => h.msc (by rw [hu] at e; exact e) j (hm e')
    · rw [hsl j hj]
      exact h.msc (by rw [hu] at e; exact e) j
  have h₃ : u.detWake = u := detWake_of_awake fun e j hj => by
    by_cases hij : j = i
    · subst hij
      rw [hself]
      rw [hu] at e hj
      obtain ⟨ha, hb⟩ := h.det e j hj
      exact hd hj ha hb
    · rw [hsl j hij]
      rw [hu] at e hj
      exact h.det e j hj
  have h₄ : u.bcastStep.ltBackStep.portResetStep.slcResetStep.csrReads = u := by
    rw [bcastStep_of_nil (by rw [hu]; exact h.sweep), ltBackStep_of_run (by rw [hu]; exact h.back),
      portResetStep_of_none (by rw [hu]; exact fun p => (h.ports p).1), slcResetStep_of_none, csrReads_of_held (by rw [hu]; exact h.reads)]
    intro j
    by_cases hj : j = i
    · subst hj
      rw [hself, hr]
    · rw [hsl j hj]
      exact (h.slices j).1
  have h₅ : (u.eachPort State.recheckPort).pump = u := by
    rw [recheck_of_none (by rw [hu]; exact fun p k hk => ((h.ports p).2 k hk).2),
      pump_of_none (by rw [hu]; exact fun p k hk => ((h.ports p).2 k hk).1)]
  have hn : u.noc.bufs = [] ∧ u.noc.wait = [] := by rw [hu]; exact h.net
  have hdue : u.flt.due = [] := by rw [hu]; exact h.due
  obtain ⟨o, ho⟩ := idleWatch_one (s := u.syncPower) i fun j hj => by rw [syncPower_slice, hsl j hj]; exact (h.slices j).2
  refine ⟨o, ?_⟩
  rw [← hu]
  unfold State.settle
  rw [dueStep_nil _ _ hdue, selfSteps_eq h₁ h₂ h₃ h₄ h₅, netRun_clear hn, dueStep_nil _ _ hdue, ho]

theorem Still.withPins (h : Still s) (p : Pins) : Still { s with pins := p } where
  due := h.due
  adm := h.adm
  load := h.load
  job := h.job
  gc := h.gc
  stt := h.stt
  msc := h.msc
  sweep := h.sweep
  back := h.back
  ports := h.ports
  net := h.net
  det := h.det
  reads := h.reads
  slices := h.slices

theorem domainReady_wakes {p : Nat} {r : Req} (hw : (s.slice i).ctl.waking = true) (hp : ∀ d ∈ pdOf i, s.pdOn d = true)
    (hf : (s.slice i).ctl.fromOff = false) (hc : (s.slice i).ctl.wakeC = false) (hr : (s.slice i).ctl.fn.res = .running)
    (hh : (s.slice i).ctl.fn.held = none) (hrs : (s.slice i).ctl.resetting = false) (hwh : (s.slice i).wakeHold = [(p, r)]) (hfw : r.fwd = false) :
    s.domainReady i = (s.done (slcPage i)).modSlice i fun x => ((x.wakes (i.val = 16 || s.wantsC i)).pushDirect p r).fnDone := by
  have hsup : (pdOf i).all (fun k => s.pdOn k || (k < 48 && k % 3 == 2 && !(i.val = 16 || s.wantsC i))) = true :=
    List.all_eq_true.2 fun k hk => by rw [hp k hk, Bool.true_or]
  have hpush : [(p, r)].foldl (fun s q => s.ingressPush i q.1 q.2) (s.modSlice i (Slice.wakes (i.val = 16 || s.wantsC i))) =
      s.modSlice i fun x => (x.wakes (i.val = 16 || s.wantsC i)).pushDirect p r := by
    rw [List.foldl_cons, List.foldl_nil, ingressPush_direct (by rw [modSlice_slice_self]; rfl) hfw, modSlice_modSlice]
  have hfn : ((s.modSlice i fun x => (x.wakes (i.val = 16 || s.wantsC i)).pushDirect p r).slice i).ctl.fn = (s.slice i).ctl.fn := by
    rw [modSlice_slice_self]
    rfl
  have hrs' : ((s.modSlice i fun x => (x.wakes (i.val = 16 || s.wantsC i)).pushDirect p r).slice i).ctl.resetting = false := by
    rw [modSlice_slice_self]
    exact hrs
  rw [domainReady_eq, hsup, hw, hf, hc, hwh, hpush, wakeEnds_completes (by rw [hfn, hr]) (by rw [hfn, hh]) hrs', modSlice_modSlice, done_modSlice]
  rfl

/-- Settles O54: reports of the power controller, a slice that wakes, and one that returns to RET. -/
theorem powerReports : Obligations.PowerReports := by
  intro s i k st
  refine ⟨fun h => ?_, fun t0 h hs hr hsev hact hh => ?_, fun h hw hp hf hc hr hh hrs hin p r hwh hfw => ?_, fun t0 h ha hid hre hfl hc hsl => ?_⟩
  · exact (h.toStill.withPins _).ends (movePrep_of_run h.run) rfl rfl rfl
  · obtain ⟨u, hu⟩ : ∃ u : State, u = { s with pins := { s.pins with pdSince := tabSet none s.pins.pdSince k.val none } } := ⟨_, rfl⟩
    have ht : s.powerMismatch k.val = u.uncorEv (srcSlice (pdSlice k.val)) := by
      rw [State.powerMismatch, hs]
      dsimp only
      rw [if_pos hr, hu]
    have hq : Quiet u := by
      rw [hu]
      exact h.mono rfl rfl rfl h.load h.job h.gc rfl rfl rfl rfl rfl (fun _ => ⟨rfl, fun _ => .inl⟩) (fun _ => ⟨rfl, rfl⟩) ⟨rfl, rfl⟩ rfl
        ⟨rfl, rfl⟩ rfl h.reads
    obtain ⟨n, hn⟩ : ∃ n, n = srcSlice (pdSlice k.val) := ⟨_, rfl⟩
    have hum : (u.src n).severe = false := by rw [hu, hn]; exact hsev
    have hl := uncorLeaves_of_mild hum
    have he := EventOnly.uncorEv u n 0 0
    have hdue : (u.uncorEv n).flt.due = [n] := by
      rw [uncorEv_due 0 0 hl, hum, hq.due]
      rfl
    have hf : (u.uncorEv n).fld 59 0x104 7 6 ≠ 1 := by
      unfold State.fld at hact ⊢
      rw [uncorEv_reg_ne _ _ _ _ _ _ (by omega), hu]
      exact fun e => absurd (hact.symm.trans e) (by decide)
    have hhome : (u.uncorEv n).homesOf (pdSlice k.val) ≠ [] := by
      have hg : (u.uncorEv n).glb = s.glb := he.glb.trans (by rw [hu])
      have e : (u.uncorEv n).homesOf (pdSlice k.val) = s.homesOf (pdSlice k.val) := by
        simp only [State.homesOf, State.serving, hg]
      rw [e]
      exact hh
    rw [← hn] at ht ⊢
    refine ⟨_, (hq.uncorEvent n 0 0).endsDue ((congrArg (fun t : State => t.flt.due) ht).trans hdue)
      (congrArg (·.modFlt fun f => { f with due := [] }) ht) (hn ▸ dueAct_slice (hn ▸ hf) (hn ▸ hhome)) ?_ ?_, ?_, ?_⟩
    · exact he.pending.trans (by rw [hu])
    · exact he.now.trans (by rw [hu])
    · exact congrArg Src.severe ((uncorEv_src 0 0 hl n).trans (if_pos rfl))
    · exact ⟨he.slices.trans (by rw [hu]), he.ports.trans (by rw [hu]), he.chans.trans (by rw [hu]), he.dram.trans (by rw [hu])⟩
  · obtain ⟨c, hcw⟩ : ∃ c, c = (decide (i.val = 16) || s.wantsC i) := ⟨_, rfl⟩
    have ht := domainReady_wakes hw hp hf hc hr hh hrs hwh hfw
    rw [← hcw] at ht
    obtain ⟨o, ho⟩ := (h.done (slcPage i)).settlePower (i := i) (fun x => ((x.wakes c).pushDirect p r).fnDone)
      (by rw [done_slice]; exact (h.slices i).1) (by rw [done_slice]; exact id) (by
        rw [done_slice]
        refine fun _ _ hon => ⟨rfl, ?_⟩
        show (if c then Pwr.on else (s.slice i).ctl.dom.c) = .on
        rw [hon, ite_self])
    have hing : (((s.slice i).wakes c).pushDirect p r).ing p = ⟨[(r, (s.slice i).arb.sc)], []⟩ := by
      have h0 : ((s.slice i).wakes c).ing p = ⟨[], []⟩ := by
        show tabGet _ (s.slice i).ingress p = _
        rw [hin]
        rfl
      rw [Slice.pushDirect, h0, Slice.ing, Slice.setIng, tabGet_tabSet_self]
      rfl
    refine ⟨_, commandEnd_settle ((congrArg State.settle ht).trans ho) (by simp) (by simp), ?_, ?_, ?_, ?_, ?_, ?_, ?_, ?_, fun j hj => ?_, ?_, ?_, ?_⟩
    case refine_6 =>
      rw [setPins_slice, modSlice_slice_self, syncPower_slice, modSlice_slice_self, done_slice]
      exact hing
    case refine_9 => rw [setPins_slice, modSlice_slice_ne _ _ hj, syncPower_slice, modSlice_slice_ne _ _ hj, done_slice]
    all_goals simp [Slice.fnDone, Slice.pushDirect, Slice.setIng, Slice.wakes, CmdSt.complete, hh]
  · have ht : s.autoSleep i = s.sleepNow i := by
      simp only [State.autoSleep, hid, hfl, ha, hre, hc, hsl]
      rfl
    have hd : (s.homesOf i).any s.detHome = false := sleepCause_zero hc
    have hst := h.toStill.modSlice i (fun x => { x with ctl := { x.ctl with
      dom := ⟨.ret, .ret, if i.val = 16 then .ret else x.ctl.dom.c⟩, autoRet := false, idleSince := none } }) ⟨(h.slices i).1, rfl⟩ (fun e => e)
      fun hd' => absurd (hd.symm.trans hd') Bool.false_ne_true
    rw [modSlice_modSlice] at hst
    exact hst.ends (movePrep_of_run h.run) ht rfl rfl

end Sys2Proof.Safety
end


section
/-! O35: SUKCLR, the ledger sweep, scrubbing, and the commands of the MSC (R98, R251 to R255, R316, R373). -/

namespace Sys2Proof.Machine

variable {s : State} {i : Fin 17} {seq : BitVec 8}

theorem dom_on_of_awake (h : (s.slice i).asleep = false) : (s.slice i).ctl.dom.a = .on ∧ (s.slice i).ctl.dom.b = .on := by
  simpa [Slice.asleep] using h

/-- A command word of a slice that is awake takes its effect. -/
theorem sliceCmd_awake (h : (s.slice i).asleep = false) (o op : Nat) (seq : BitVec 8) (f : State → State) : s.sliceCmd i o op seq f = f s := by
  unfold State.sliceCmd
  rw [(dom_on_of_awake h).1]
  rfl

theorem readLedgers_of_nil (h : (s.slice i).ar.inj = []) : s.readLedgers i = s := by
  rw [State.readLedgers, h]
  rfl

/-- The line of data ways that are filled stays, those whose fill is pending go. -/
def Arrays.fillsDropped (a : Arrays) : Arrays := { a with msc := a.msc.filter fun e => e.2.st != .pending }

theorem mscEnableCmd_on (ha : (s.slice i).mem.ctl.st.accepts seq = true) (hm : (s.slice i).mem.ctl.mode = .off) (hc : (s.slice i).ctl.dom.c = .on)
    (hi : (s.slice i).ar.init.extractLsb' 5 2 = 3) (hf : (s.slice i).filledAt ((s.slice i).mem.ctl.epoch + 1) = 0) :
    s.mscEnableCmd i seq = (s.modMsc i fun m => { m.turnOn with st := (m.st.accept seq).complete }).done (slcPage i) := by
  unfold State.mscEnableCmd
  dsimp only
  rw [ha, hm, if_neg (by simp), if_neg (by simp), if_neg (by simp [hc, hi]), if_neg (by simp only [hf, ne_eq, not_true_eq_false, not_false_eq_true])]

theorem mscEnableCmd_init (ha : (s.slice i).mem.ctl.st.accepts seq = true) (hm : (s.slice i).mem.ctl.mode = .off)
    (hor : (s.slice i).ctl.dom.c ≠ .on ∨ (s.slice i).ar.init.extractLsb' 5 2 ≠ 3) :
    s.mscEnableCmd i seq = s.modMsc i fun m => { m with mode := .init, st := m.st.accept seq } := by
  unfold State.mscEnableCmd
  dsimp only
  rw [ha, hm, if_neg (by simp), if_neg (by simp), if_pos (by simpa using hor)]

/-- An MSC that a DISABLE drains. -/
def Slice.mscDisabled (seq : BitVec 8) (x : Slice) : Slice :=
  { x with mem := { x.mem with
    ctl := { x.mem.ctl with mode := .drain, st := { x.mem.ctl.st.accept seq with refused := x.mem.ctl.st.refused } }
    wmb := x.mem.wmb.map fun w => { w with drain := true } } }

theorem mscDisableCmd_on (ha : (s.slice i).mem.ctl.st.accepts seq = true) (hm : (s.slice i).mem.ctl.mode = .on) :
    s.mscDisableCmd i seq = s.modSlice i (Slice.mscDisabled seq) := by
  unfold State.mscDisableCmd
  dsimp only
  rw [ha, hm, if_neg (by simp), if_pos rfl, State.modMsc, State.mscDrainStart, modSlice_modSlice]
  rfl

/-- An MSC whose drain has ended. -/
def Slice.mscOff (x : Slice) : Slice :=
  { x with ar := x.ar.fillsDropped, mem := { x.mem with ctl := { x.mem.ctl with mode := .off, st := x.mem.ctl.st.complete } } }

theorem mscDrainEndEv_off (hr : (s.slice i).mem.ctl.st.res = .running) (hm : (s.slice i).mem.ctl.mode = .drain)
    (hw : ∀ w ∈ (s.slice i).mem.wmb, w.drain = false) : s.mscDrainEndEv i = (s.modSlice i Slice.mscOff).done (slcPage i) := by
  have hany : (s.slice i).mem.wmb.any (·.drain) = false := List.any_eq_false.2 fun w hw' => by simp [hw w hw']
  unfold State.mscDrainEndEv
  dsimp only
  rw [hm, hany, if_pos (by decide), modSlice_slice_self]
  dsimp only
  rw [hr, if_pos rfl, State.modMsc, modSlice_modSlice]
  rfl

/-- An MSC whose arrays are initialised. -/
def Slice.mscFilled (i : Fin 17) (x : Slice) : Slice :=
  { x with
    ar := { x.ar with msc := [], tagLost := [], mscPtr := [], init := x.ar.init ||| 0x060, inj := x.ar.inj.filter fun e => e.1 != 5 && e.1 != 6 }
    ctl := { x.ctl with dom := { x.ctl.dom with c := if i.val = 16 then x.ctl.dom.c else .on } }
    mem := { x.mem with ctl := { x.mem.ctl.turnOn with st := x.mem.ctl.st.complete } } }

theorem mscInitDoneEv_on (hm : (s.slice i).mem.ctl.mode = .init) (hp : i.val = 16 ∨ s.pdOn (3 * i.val + 2) = true) :
    s.mscInitDoneEv i = (s.modSlice i (Slice.mscFilled i)).done (slcPage i) := by
  have hc : (decide ((s.slice i).mem.ctl.mode = .init) && (decide (i.val = 16) || s.pdOn (3 * i.val + 2))) = true := by
    simpa [hm] using hp
  unfold State.mscInitDoneEv
  dsimp only
  rw [if_pos hc, State.modMsc, modSlice_modSlice]
  rfl

/-- An MSC whose DISABLE is aborted. -/
def Slice.mscKept (x : Slice) : Slice :=
  { x with
    ar := x.ar.fillsDropped
    mem := { x.mem with ctl := { x.mem.ctl with mode := .on, st := x.mem.ctl.st.abort }, wmb := x.mem.wmb.map fun w => { w with drain := false } } }

theorem mscAbortCmd_drain (hr : (s.slice i).mem.ctl.st.res = .running) (hm : (s.slice i).mem.ctl.mode = .drain)
    (hs : seq ≠ (s.slice i).mem.ctl.st.rseq) : s.mscAbortCmd i seq = (s.modSlice i Slice.mscKept).done (slcPage i) := by
  unfold State.mscAbortCmd
  dsimp only
  rw [tryAbort_running hs hr, hm, if_pos rfl, State.modMsc, modSlice_modSlice, modSlice_const, modSlice_const s i Slice.mscKept]
  rfl

theorem scrubDue_begins (hst : s.glb.stt = .enabled)
    (hr : s.reached ((s.slice i).sw.scrubAt + BitVec.ofNat 48 (100000 * s.fld 59 0x108 11 0)) = true) (hf : s.slFenced i = false)
    (hrs : (s.slice i).ctl.resetting = false) (ht : (s.slice i).ctl.testing = false) (ha : (s.slice i).asleep = false) :
    s.scrubDue i = s.modSlice i fun x => { x with sw := { x.sw with scrubLeft := 16384, scrubAt := s.edge } } := by
  unfold State.scrubDue
  dsimp only
  rw [hst, hr, hf, hrs, ht, (dom_on_of_awake ha).1, if_pos (by decide), State.wakeFor, modSlice_modSlice, modSlice_const,
    if_neg (by rw [Bool.false_and, Bool.or_false]; exact fun e => absurd (ha.symm.trans e) Bool.false_ne_true)]
  rw [modSlice_const s i fun x => { x with sw := { x.sw with scrubLeft := 16384, scrubAt := s.edge } }]

theorem sukclrAbortCmd_ends (hr : (s.slice i).sw.sfSt.res = .running) (hs : seq ≠ (s.slice i).sw.sfSt.rseq) : s.sukclrAbortCmd i seq =
    (s.modSlice i fun x => { x with sw := { x.sw with sfSt := x.sw.sfSt.abort, suk := none } }).done (slcPage i) := by
  unfold State.sukclrAbortCmd
  rw [tryAbort_running hs hr]
  rfl

end Sys2Proof.Machine

namespace Sys2Proof.Safety

open Sys2Proof.Machine

variable {s : State} {i : Fin 17}

/-- Nothing goes on by itself where one slice's MSC has changed its mode, unless it is ON while a DISABLE runs. -/
theorem Still.modMsc (h : Still s) (f : Slice → Slice) (hc : (f (s.slice i)).ctl.resetWait = (s.slice i).ctl.resetWait ∧
      (f (s.slice i)).ctl.autoRet = (s.slice i).ctl.autoRet)
    (hm : s.glb.stt = .disabling → (f (s.slice i)).mem.ctl.mode ≠ .on)
    (hd : (f (s.slice i)).asleep = (s.slice i).asleep ∧ ((s.slice i).ctl.dom.c = .on → (f (s.slice i)).ctl.dom.c = .on)) :
    Still (s.modSlice i f) where
  due := h.due
  adm := h.adm
  load := h.load
  job := h.job
  gc := h.gc
  stt := h.stt
  msc e j := by
    rw [modSlice_slice]
    split
    · next ej => subst ej; exact hm e
    · exact h.msc e j
  sweep := h.sweep
  back := h.back
  ports := h.ports
  net := h.net
  det e j hj := by
    obtain ⟨ha, hb⟩ := h.det e j hj
    rw [modSlice_slice]
    split
    · next ej =>
      subst ej
      exact ⟨hd.1.trans ha, hd.2 hb⟩
    · exact ⟨ha, hb⟩
  reads := h.reads
  slices j := by
    rw [modSlice_slice]
    split
    · next ej => subst ej; rw [hc.1, hc.2]; exact h.slices j
    · exact h.slices j

/-- A command that changes one slice, its MSC's mode with it, and is counted. -/
theorem Still.endsMsc {t : State} {f : Slice → Slice} (h : Still (s.modSlice i f)) (hq : Quiet s) (page : Nat) (ht : t = (s.modSlice i f).done page) :
    Machine.commandEnd s t = .next ((s.modSlice i f).done page).syncPower.setPins := h.endsSlice hq page ht

/-- An MSC that is OFF may turn ON: no domain is to change for it. -/
theorem Quiet.mscOn (h : Quiet s) (f : MscCtl → MscCtl) (hm : (s.slice i).mem.ctl.mode ≠ .init) (hf : (f (s.slice i).mem.ctl).mode ≠ .init)
    (hd : s.glb.stt ≠ .disabling) : Quiet (s.modMsc i f) where
  toStill := h.toStill.modMsc _ ⟨rfl, rfl⟩ (fun e => absurd e hd) ⟨rfl, id⟩
  run := h.run
  links := h.links
  supply k hk hp := by
    have hs : ∀ j, ∃ c, (s.modMsc i f).slice j = { s.slice j with mem := { (s.slice j).mem with ctl := c } } ∧
        (c.mode == .init) = ((s.slice j).mem.ctl.mode == .init) := fun j => by
      unfold State.modMsc
      rw [modSlice_slice]
      split
      · next e => subst e; exact ⟨_, rfl, by simp [hm, hf]⟩
      · exact ⟨_, rfl, rfl⟩
    have hwc : ∀ j, (s.modMsc i f).wantsC j = s.wantsC j := fun j => by
      obtain ⟨c, hc, hci⟩ := hs j
      unfold State.wantsC
      dsimp only
      rw [hc]
      dsimp only
      rw [hci]
      rfl
    have hw : (s.modMsc i f).pdWant k = s.pdWant k := by
      obtain ⟨c, hc, _⟩ := hs (pdSlice k)
      unfold State.pdWant
      dsimp only
      rw [hwc, hc]
      rfl
    exact (h.supply k hk hp).trans hw.symm

/-- Settles O35: sweeps, scrubbing and the commands of the MSC, each by what it makes of its slice. -/
theorem sweepsAndMsc : Obligations.SweepsAndMsc := by
  intro s i seq h hs
  have hcmd := fun o op f => sliceCmd_awake hs o op seq f
  refine ⟨fun ha => ?_, fun hr hq => ?_, fun hi => ?_, fun hst hr hf hrs ht => ?_, fun ha hh => ⟨fun hm hc hi hf hd => ?_, fun hm hor => ?_, fun hm => ?_⟩,
    fun hr hh => ⟨fun hm hw => ?_, fun hm hp hd => ?_, fun hm hq hd => ?_⟩⟩
  · exact (h.modSlice i _ rfl rfl).ends ((hcmd _ _ _).trans (by rw [State.sukclrCmd, ha]; rfl)) rfl rfl
  · exact (h.modSlice i _ rfl rfl).endsDone _ ((hcmd _ _ _).trans (sukclrAbortCmd_ends hr hq)) rfl rfl
  · refine ⟨_, (h.modSlice i (fun x => { x with ar := { x.ar with ledger := (s.slice i).ar.ledger.map fun e => (e.1, e.2.map fun k =>
        if k.st = .held ∧ k.owner ∈ (s.slice i).sw.ledgerAgents then { k with st := .orphaned, why := 0b01 } else k) }, sw := { x.sw with ledgerAgents := [] } })
      rfl rfl).ends ?_ rfl rfl, rfl⟩
    rw [State.ledgerSweep, readLedgers_of_nil hi, modSlice_const]
    simp only [List.contains_iff_mem]
    rfl
  · exact (h.modSlice i _ rfl rfl).ends (scrubDue_begins hst hr hf hrs ht hs) rfl rfl
  · refine ⟨_, (h.mscOn (fun _ => { (s.slice i).mem.ctl.turnOn with st := ((s.slice i).mem.ctl.st.accept seq).complete }) (by simp [hm])
      (by simp [MscCtl.turnOn]) hd).endsDone _
      ((hcmd _ _ _).trans (mscEnableCmd_on ha hm hc hi hf)) rfl rfl, rfl, rfl, ?_, ?_, ?_⟩
    all_goals simp [CmdSt.complete, CmdSt.accept, hh]
  · exact (h.toStill.modMsc _ ⟨rfl, rfl⟩ (fun _ (e : MscMode.init = .on) => nomatch e) ⟨rfl, id⟩).ends (movePrep_of_run (by simpa using h.run))
      ((hcmd _ _ _).trans (mscEnableCmd_init ha hm hor)) rfl rfl
  · refine ⟨_, (h.toStill.modMsc (Slice.mscDisabled seq) ⟨rfl, rfl⟩ (fun _ => nofun) ⟨rfl, id⟩).ends (movePrep_of_run (by simpa using h.run))
      ((hcmd _ _ _).trans (mscDisableCmd_on ha hm)) rfl rfl, ?_, ?_, ?_, ?_, ?_, ?_, fun j hj => ?_, ?_, ?_, ?_, ?_⟩
    case refine_7 => rw [setPins_slice, syncPower_slice, modSlice_slice_ne _ _ hj]
    all_goals simp [Slice.mscDisabled]
  · refine ⟨_, (h.toStill.modMsc Slice.mscOff ⟨rfl, rfl⟩ (fun _ => nofun) ⟨rfl, id⟩).endsMsc h _ (mscDrainEndEv_off hr hm hw),
      ?_, ?_, ?_, ?_, ?_, fun j hj => ?_, ?_, ?_, ?_, ?_, ?_⟩
    case refine_6 => rw [setPins_slice, syncPower_slice, done_slice, modSlice_slice_ne _ _ hj]
    all_goals simp [Slice.mscOff, Arrays.fillsDropped, CmdSt.complete, hh]
  · have hdom : (s.slice i).ctl.dom.c = .on → (Slice.mscFilled i (s.slice i)).ctl.dom.c = .on := fun e => by
      show (if i.val = 16 then (s.slice i).ctl.dom.c else .on) = .on
      rw [e, ite_self]
    refine ⟨_, (h.toStill.modMsc (Slice.mscFilled i) ⟨rfl, rfl⟩ (fun e => absurd e hd) ⟨rfl, hdom⟩).endsMsc h _ (mscInitDoneEv_on hm hp),
      ?_, ?_, ?_, ?_, ?_, fun j hj => ?_, ?_, ?_, ?_⟩
    case refine_6 => rw [setPins_slice, syncPower_slice, done_slice, modSlice_slice_ne _ _ hj]
    all_goals simp [Slice.mscFilled, MscCtl.turnOn, CmdSt.complete, hh]
  · refine ⟨_, (h.toStill.modMsc Slice.mscKept ⟨rfl, rfl⟩ (fun e => absurd e hd) ⟨rfl, id⟩).endsMsc h _
      ((hcmd _ _ _).trans (mscAbortCmd_drain hr hm hq)),
      ?_, ?_, ?_, ?_, fun j hj => ?_, ?_, ?_, ?_⟩
    case refine_5 => rw [setPins_slice, syncPower_slice, done_slice, modSlice_slice_ne _ _ hj]
    all_goals simp [Slice.mscKept, Arrays.fillsDropped, CmdSt.abort]

end Sys2Proof.Safety
end


section
/-! O56: a word of the network island may hold ST and RO fields together (the one at 0x154 of the GLB page does). While ST is closed (R411) its
ST fields keep their value, though it is no word of ST fields alone. -/

namespace Sys2Proof.Safety

open Sys2Proof.Machine

/-- Before READY, a write of zero to the word leaves the registers as they are, but for WIGN of the page. -/
theorem closedWord_effect : State.reset.csrWriteTo .maint (pageOff 0 0x55) 0 =
    (((State.reset.setRcrc 0 (State.reset.pageCrc 0)).pageEv 0 14 0x55).answerCsr 0 false) := rfl

theorem Quiet.setRcrc {s : State} (h : Quiet s) (n : Nat) (v : BitVec 32) : Quiet (s.setRcrc n v) := h.modCsr _ h.reads

theorem Quiet.answerCsr {s : State} (h : Quiet s) (v : BitVec 32) (failed : Bool) : Quiet (s.answerCsr v failed) := h.modCsr _ h.reads

/-- Refutes O56. -/
theorem not_registerWrites : ¬ Obligations.RegisterWrites := by
  intro h
  obtain ⟨-, -, hnet, -⟩ := h State.reset .maint 0 0x55 0 quiet_reset rfl (by decide) (by decide) (by decide) rfl rfl rfl nofun nofun
  obtain ⟨t, ht, hreg, -⟩ := hnet rfl (by decide) (.inr (by decide)) (by decide)
  have hn : exec (.csrWrite .maint 0 0x55 0) State.reset = _ := (((quiet_reset.setRcrc 0 _).pageEv 0 14 0x55).answerCsr 0 false).ends closedWord_effect rfl rfl
  rw [hn] at ht
  cases ht
  have hold : State.reset.reg 0 0x55 = (State.reset.newFields 0 0x55 0 0xFFFFFFFF).1 := hreg
  exact absurd hold (by decide)

end Sys2Proof.Safety
end


section
/-! O58: the words of slice 16's page that the network island holds are not reached while slice 16 has no spare enable (R418), by their bits' own words
neither. -/

namespace Sys2Proof.Safety

open Sys2Proof.Machine

/-- READY, with a fuse bundle that passes its check and gives no spare enable: the domains of slice 16 are OFF. -/
def noSpare : State :=
  { State.reset with
    glb := { State.reset.glb with stt := .ready, fuse := { State.reset.glb.fuse with done := true, ok := true } }
    pins := { State.reset.pins with pdStat := [(48, .off), (49, .off)], pdMode := [(48, .off), (49, .off)] } }

theorem noSpare_want : ∀ k < 50, noSpare.pdMode k = noSpare.pdWant k := by
  decide

theorem noSpare_quiet : Quiet noSpare where
  toStill := { quiet_reset.toStill with gc := nofun, stt := ⟨nofun, nofun, nofun⟩, msc := nofun }
  run := nofun
  links := rfl
  supply _ hk _ := noSpare_want _ hk

/-- A write of a bit's own word leaves the registers as they are, but for UNP of the page. -/
theorem noSpare_effect : noSpare.aliasTo .maint 17 0x43 0 (some true) = ((noSpare.pageEv 17 13 0x43).answerCsr 0 false) := rfl

/-- Refutes O58. -/
theorem not_otherRegisterAccesses : ¬ Obligations.OtherRegisterAccesses := by
  intro h
  obtain ⟨-, hw⟩ := h noSpare .maint 17 0x43 0 noSpare_quiet rfl
  obtain ⟨hw, -⟩ := hw nofun
  obtain ⟨-, hf⟩ := hw rfl
  obtain ⟨-, -, hx, -⟩ := hf (by decide)
  obtain ⟨t, ht, -, hreg, -⟩ := hx true (by decide) rfl (by decide) rfl rfl rfl
  have hn : exec (.aliasAccess .maint 17 0x43 0 (some true)) noSpare = _ := ((noSpare_quiet.pageEv 17 13 0x43).answerCsr 0 false).ends noSpare_effect rfl rfl
  rw [hn] at ht
  cases ht
  have hold : noSpare.reg 17 0x43 = (noSpare.newFields 17 0x43 0xFFFFFFFF 1).1 := hreg
  exact absurd hold (by decide)

end Sys2Proof.Safety
end

section
/-! O57: what a posted write does to its island, a pass over a page, and a write of CRCREF. -/

namespace Sys2Proof.Safety

open Sys2Proof.Machine

variable {s t u : State}

/-- What a write of a word of an island may do beside its register: it leaves what waits at the registers, the channels, the DRAM, the partitions
and every transaction, and starts nothing that goes on by itself. -/
structure Lands (s t : State) : Prop where
  quiet : Quiet s → Quiet t
  csr : t.csr = s.csr
  chans : t.chans = s.chans
  dram : t.dram = s.dram
  par : t.par = s.par
  trk : ∀ j, (t.slice j).trk = (s.slice j).trk
  pending : t.pending = s.pending
  now : t.now = s.now

theorem Lands.refl (s : State) : Lands s s := ⟨id, rfl, rfl, rfl, rfl, fun _ => rfl, rfl, rfl⟩

theorem Lands.trans (h : Lands s t) (k : Lands t u) : Lands s u :=
  ⟨fun q => k.quiet (h.quiet q), k.csr.trans h.csr, k.chans.trans h.chans, k.dram.trans h.dram, k.par.trans h.par, fun j => (k.trk j).trans (h.trk j),
    k.pending.trans h.pending, k.now.trans h.now⟩

theorem Lands.setReg (s : State) (n w : Nat) (v : BitVec 32) (hw : ¬ watched n w) : Lands s (s.setReg n w v) :=
  ⟨fun q => q.setReg n w v hw, rfl, rfl, rfl, rfl, fun _ => rfl, rfl, rfl⟩

theorem Lands.modPort (s : State) (p : Fin 24) (f : Port → Port) (hr : (f (s.port p)).resetting = (s.port p).resetting)
    (hh : (f (s.port p)).held = (s.port p).held) : Lands s (s.modPort p f) :=
  ⟨fun q => q.modPort p f hr fun _ hk => .inl (hh ▸ hk), rfl, rfl, rfl, rfl, fun _ => rfl, rfl, rfl⟩

theorem Lands.event (h : EventOnly s t) (hr : t.reg 0 0x5C = s.reg 0 0x5C) (hd : t.flt.due = s.flt.due) : Lands s t := by
  obtain ⟨r, l, x, d, rfl⟩ := h
  exact ⟨fun q => q.mono hd rfl rfl q.load q.job q.gc rfl rfl rfl rfl rfl (fun _ => ⟨rfl, fun _ => .inl⟩) (fun _ => ⟨rfl, rfl⟩) ⟨rfl, rfl⟩ rfl
    ⟨rfl, rfl⟩ hr q.reads, rfl, rfl, rfl, rfl, fun _ => rfl, rfl, rfl⟩

theorem Lands.logEnt (s : State) (e : LogEnt) : Lands s (s.logEnt e) :=
  .event (.logEnt s e) (logEnt_reg_ne _ _ _ _ (by decide)) (logEnt_due s e)

theorem modPort_congr {p : Fin 24} {f g : Port → Port} (h : f (s.port p) = g (s.port p)) : s.modPort p f = s.modPort p g := by
  unfold State.modPort
  exact congrArg (fun y => { s with ports := s.ports.set p.val y p.isLt }) h

/-- Of a port the issue of credits changes its credits alone. -/
theorem issue_cred (s : State) (p : Fin 24) (q : PartId) : ∃ c, s.issue p q = s.modPort p fun x => { x with cred := c } := by
  have hr (x : Port) (n : Nat) : ∃ c, x.dueR q n = { x with cred := c } := by
    unfold Port.dueR
    split <;> exact ⟨_, rfl⟩
  have hd (x : Port) (n : Nat) : ∃ c, x.dueD q n = { x with cred := c } := by
    unfold Port.dueD
    split <;> exact ⟨_, rfl⟩
  unfold State.issue
  dsimp only
  split
  · obtain ⟨c, hc⟩ := hr ((s.port p).setR q ((s.port p).rIss q + BitVec.ofNat 15 (s.rLimit p q - ((s.port p).rIss q).toNat)))
      (s.rLimit p q - ((s.port p).rIss q).toNat)
    obtain ⟨y, hy⟩ : ∃ y : Port, y = if s.rLimit p q - ((s.port p).rIss q).toNat = 0 then s.port p else { s.port p with cred := c } := ⟨_, rfl⟩
    obtain ⟨b, hb⟩ : ∃ b, y = { s.port p with cred := b } := by
      rw [hy]
      split <;> exact ⟨_, rfl⟩
    obtain ⟨e, he⟩ := hd (y.setD q (y.dIss q + BitVec.ofNat 9 (s.dLimit p q - ((s.port p).dIss q).toNat))) (s.dLimit p q - ((s.port p).dIss q).toNat)
    refine ⟨if s.dLimit p q - ((s.port p).dIss q).toNat = 0 then b else e, modPort_congr ?_⟩
    rw [hc]
    dsimp only [Port.setR]
    rw [← hy, he, hb]
    split <;> rfl
  · exact ⟨(s.port p).cred, (modPort_same _ _ _ rfl).symm⟩

theorem Lands.issue (s : State) (p : Fin 24) (q : PartId) : Lands s (s.issue p q) := by
  obtain ⟨c, hc⟩ := issue_cred s p q
  rw [hc]
  exact .modPort s p _ rfl rfl

theorem Lands.panicLevel (s : State) (p : Fin 24) (l : BitVec 4) : Lands s (s.panicLevel p l) := by
  have hs (s : State) : Lands s (s.panicSample p) := by
    unfold State.panicSample
    dsimp only
    split
    · exact .modPort s p _ rfl rfl
    · exact .refl s
  unfold State.panicLevel
  split
  · exact (Lands.modPort s p _ rfl rfl).trans (hs _)
  · exact .refl s

theorem issue_reg (s : State) (p : Fin 24) (q : PartId) (n w : Nat) : (s.issue p q).reg n w = s.reg n w := by
  unfold State.issue
  dsimp only
  split <;> rfl

theorem panicLevel_reg (s : State) (p : Fin 24) (l : BitVec 4) (n w : Nat) : (s.panicLevel p l).reg n w = s.reg n w := by
  unfold State.panicLevel State.panicSample
  dsimp only
  split
  · split <;> rfl
  · rfl

/-- What follows from a changed word of an island. -/
theorem wordHook_lands (s : State) {n w k : Nat} (old : BitVec 32) (hk : islandOf n w = some k) :
    Lands s (s.wordHook n w old) ∧ ∀ m v, (s.wordHook n w old).reg m v = s.reg m v := by
  unfold islandOf at hk
  dsimp only at hk
  split at hk
  · nomatch hk
  · unfold State.wordHook
    dsimp only
    cases hp : pageOf n with
    | prt p =>
      dsimp only
      split
      · exact ⟨.issue _ _ _, issue_reg _ _ _⟩
      · split
        · exact ⟨.panicLevel _ _ _, panicLevel_reg _ _ _⟩
        · exact ⟨.refl s, fun _ _ => rfl⟩
    | slc i =>
      dsimp only
      split
      · refine ⟨⟨fun q => q.modSlice _ _ rfl rfl, rfl, rfl, rfl, rfl, fun j => ?_, rfl, rfl⟩, fun _ _ => rfl⟩
        rw [modSlice_slice]
        split <;> rfl
      · split
        · split
          · exact ⟨⟨fun q => q.modGlb _ rfl q.load q.gc rfl rfl rfl ⟨rfl, rfl⟩, rfl, rfl, rfl, rfl, fun _ => rfl, rfl, rfl⟩, fun _ _ => rfl⟩
          · exact ⟨.refl s, fun _ _ => rfl⟩
        · exact ⟨.refl s, fun _ _ => rfl⟩
    | dch c => exact ⟨.refl s, fun _ _ => rfl⟩
    | glb | noc | flt | par | svc | idf | tst => rw [hp] at hk; nomatch hk

theorem badWrite_lands (s : State) (n w : Nat) : Lands s (s.badWrite n w) :=
  (Lands.setReg s n 0xFD _ (by unfold watched; omega)).trans (.logEnt _ _)

/-- The page of an island's word is no page of the network island. -/
theorem page_of_island {n w k : Nat} (hk : islandOf n w = some k) : n ≠ 0 ∧ n ≠ 59 := by
  unfold islandOf at hk
  constructor
  all_goals
    rintro rfl
    dsimp only at hk
    split at hk
    · nomatch hk
    · exact absurd hk nofun

/-- A write that changes a word of fields takes effect there and nowhere else. -/
theorem applyWord_lands (s : State) {n w k : Nat} (v m : BitVec 32) (hk : islandOf n w = some k) (hw : w < 0xF0)
    (hf : ∀ f ∈ regFields n w, f.kind ≠ .sq ∧ f.kind ≠ .wo) :
    Lands s (s.applyWord n w v m) ∧ (s.applyWord n w v m).reg n w = (s.newFields n w v m).1 := by
  obtain ⟨h0, h59⟩ := page_of_island hk
  have hsq : (regFields n w).any (·.kind == .sq) = false := List.any_eq_false.2 fun f h => by simpa using (hf f h).1
  have hwo : (regFields n w).any (·.kind == .wo) = false := List.any_eq_false.2 fun f h => by simpa using (hf f h).2
  unfold State.applyWord
  dsimp only
  rw [hsq, hwo, if_neg Bool.false_ne_true, if_neg Bool.false_ne_true, if_neg (by omega)]
  obtain ⟨x, bad⟩ := s.newFields n w v m
  dsimp only
  obtain ⟨t, ht⟩ : ∃ t, t = if x = s.reg n w then s else (s.setReg n w x).wordHook n w (s.reg n w) := ⟨_, rfl⟩
  have hst : Lands s t ∧ t.reg n w = x := by
    rw [ht]
    split
    · next e => exact ⟨.refl s, e.symm⟩
    · obtain ⟨hl, hr⟩ := wordHook_lands (s.setReg n w x) (s.reg n w) hk
      exact ⟨(Lands.setReg s n w x (by unfold watched; omega)).trans hl, (hr n w).trans (setReg_reg_self ..)⟩
  rw [← ht]
  split
  · refine ⟨hst.1.trans (badWrite_lands t n w), Eq.trans ?_ hst.2⟩
    exact (logEnt_reg_ne _ _ _ _ (by omega)).trans (setReg_reg_ne _ _ _ _ _ _ (by omega))
  · exact hst

theorem csrHolds_congr (h : ∀ k, t.islBusy k = s.islBusy k) {off : Nat} : t.csrHolds off = s.csrHolds off := by
  unfold State.csrHolds
  simp only [h]

/-- The first posted write of an island whose domain is ON. -/
theorem postedApply_first {x : Posted} {l : List Posted} {k : Nat} (hp : s.csr.posted = x :: l) (hi : x.isl = k) (ha : x.applied = false)
    (hb : x.bit = none) (hon : ∀ i, islSlice k = some i → (s.slice i).ctl.dom.a = .on) :
    s.postedApply k = (s.modCsr fun c => { c with posted := c.posted.map fun y => if y = x then { y with applied := true } else y }).applyWord
      x.page x.word x.v 0xFFFFFFFF := by
  have hf : s.csr.posted.find? (fun y => y.isl == k && !y.applied) = some x := by simp [hp, hi, ha]
  have hret : (match islSlice k with | some i => (s.slice i).ctl.dom.a == .ret | none => false) = false := by
    split
    · next i e => simp [hon i e]
    · rfl
  have hoff : s.islOff x.isl = false := by
    unfold State.islOff
    rw [hi]
    split
    · next i e => simp [hon i e]
    · rfl
  unfold State.postedApply
  dsimp only
  rw [hf]
  dsimp only
  refine (if_neg (by rw [Bool.not_eq_true]; exact hret)).trans ?_
  unfold State.landWrite
  rw [hb]
  exact if_neg (by rw [Bool.not_eq_true]; exact hoff)

/-- The first posted write of an island takes effect there (R415). -/
theorem postedWriteApply_lands (h : Quiet s) {x : Posted} {l : List Posted} (k : Fin 57) (hp : s.csr.posted = x :: l) (hi : x.isl = k.val)
    (ha : x.applied = false) (hb : x.bit = none) (hk : islandOf x.page x.word = some k.val) (hw : x.word < 0xF0)
    (hon : ∀ i, islSlice k.val = some i → (s.slice i).ctl.dom.a = .on) (hf : ∀ f ∈ regFields x.page x.word, f.kind ≠ .sq ∧ f.kind ≠ .wo) :
    ∃ t, exec (.postedWriteApply k) s = .next t ∧ t.reg x.page x.word = (s.newFields x.page x.word x.v 0xFFFFFFFF).1 ∧
      t.csr.posted.head? = some { x with applied := true } ∧ t.csr.posted.length = s.csr.posted.length ∧ t.chans = s.chans ∧
      t.dram = s.dram ∧ t.par = s.par ∧ ∀ j, (t.slice j).trk = (s.slice j).trk := by
  obtain ⟨c, hc⟩ : ∃ c, c = { s.csr with posted := s.csr.posted.map fun y => if y = x then { y with applied := true } else y } := ⟨_, rfl⟩
  have hq : Quiet (s.modCsr fun _ => c) := h.modCsr _ fun w hw => by
    have := h.reads w (by rw [hc] at hw; exact hw)
    rw [← this]
    subst hc
    refine csrHolds_congr fun j => ?_
    unfold State.islBusy
    rw [modCsr_csr]
    dsimp only
    rw [List.any_map]
    congr 1
    funext y
    simp only [Function.comp]
    split <;> rfl
  obtain ⟨hl, hr⟩ := applyWord_lands (s.modCsr fun _ => c) x.v 0xFFFFFFFF hk hw hf
  refine ⟨_, (hl.quiet hq).ends ((postedApply_first hp hi ha hb hon).trans (by rw [hc]; rfl)) hl.pending hl.now, hr.trans rfl, ?_, ?_, hl.chans, hl.dram,
    hl.par, hl.trk⟩
  · rw [setPins_csr, hl.csr, modCsr_csr, hc]
    simp [hp]
  · rw [setPins_csr, hl.csr, modCsr_csr, hc]
    simp

/-! ### A pass over a page -/

end Sys2Proof.Safety

namespace Sys2Proof.Machine

/-- What a pass over page n that gave CRC v notes: the CRC, and of the posted writes those that it saw (R415, R422). -/
def Csr.passNoted (c : Csr) (n : Nat) (v : BitVec 32) : Csr :=
  { c with
    rcrc := tabSet 0 c.rcrc n v
    posted := (c.posted.filter fun x => !(x.page == n && x.passSeen)).map fun x => if x.page = n ∧ x.applied then { x with passSeen := true } else x }

/-- The same, and that the next pass is to be compared. -/
def Csr.passEnded (c : Csr) (n : Nat) (v : BitVec 32) : Csr :=
  { c.passNoted n v with crcWait := if tabGet false c.crcWait n then tabSet false c.crcWait n false else c.crcWait }

end Sys2Proof.Machine

namespace Sys2Proof.Safety

open Sys2Proof.Machine

variable {s t : State} {n : Nat}

theorem modCsr_modCsr (f g : Csr → Csr) : (s.modCsr f).modCsr g = s.modCsr fun c => g (f c) := rfl

theorem setRcrc_noted (v : BitVec 32) : (s.setRcrc n v).modCsr (fun c => { c with
    posted := (c.posted.filter fun x => !(x.page == n && x.passSeen)).map fun x => if x.page = n ∧ x.applied then { x with passSeen := true } else x }) =
    s.modCsr fun c => c.passNoted n v := by
  rw [State.setRcrc, modCsr_modCsr]
  rfl

/-- A pass over an awake page, by whether it is compared and what it finds. -/
theorem crcPass_awake {t : State} (ha : s.pageAwake n = true) (ht : t = s.modCsr fun c => c.passNoted n (s.pageCrc n)) : s.crcPass n =
    if tabGet false t.csr.crcWait n then t.modCsr fun c => { c with crcWait := tabSet false c.crcWait n false }
    else if t.crcv n && s.pageCrc n != t.reg n 0xFF then (t.pageEv n 16 (t.fld n 0x3F4 7 0)).uncorEv (crcSource n)
    else t := by
  unfold State.crcPass
  generalize s.pageCrc n = v at *
  rw [ha, Bool.not_true, if_neg Bool.false_ne_true]
  dsimp only
  rw [setRcrc_noted, ← ht]

theorem passEnded_of_wait {c : Csr} {v : BitVec 32} (h : tabGet false c.crcWait n = false) : c.passEnded n v = c.passNoted n v := by
  rw [Csr.passEnded, h]
  rfl

/-- A pass that finds what CRCREF names, or that is not to be compared. -/
theorem crcPass_matches (ha : s.pageAwake n = true) (hc : tabGet false s.csr.crcWait n = true ∨ s.crcv n = false ∨ s.pageCrc n = s.reg n 0xFF) :
    s.crcPass n = s.modCsr fun _ => s.csr.passEnded n (s.pageCrc n) := by
  rw [crcPass_awake ha rfl]
  generalize s.pageCrc n = v at *
  have hwait : (s.csr.passNoted n v).crcWait = s.csr.crcWait := rfl
  rw [modCsr_csr, hwait]
  cases hw : tabGet false s.csr.crcWait n with
  | true =>
    rw [if_pos rfl, modCsr_modCsr, Csr.passEnded, hw]
    rfl
  | false =>
    have hcrcv : (s.csr.passNoted n v).crcv = s.csr.crcv := rfl
    have hno : ¬ (tabGet false s.csr.crcv n && v != s.reg n 0xFF) = true := by
      rw [← State.crcv, Bool.and_eq_true, bne_iff_ne]
      rintro ⟨hv, hne⟩
      obtain h | h | h := hc
      · rw [hw] at h; nomatch h
      · rw [hv] at h; nomatch h
      · exact hne h
    rw [if_neg Bool.false_ne_true, State.crcv, modCsr_csr, hcrcv, modCsr_reg, if_neg hno, passEnded_of_wait hw]
    rfl

/-- A pass that finds another CRC. -/
theorem crcPass_differs (ha : s.pageAwake n = true) (hw : tabGet false s.csr.crcWait n = false) (hv : s.crcv n = true)
    (hne : s.pageCrc n ≠ s.reg n 0xFF) :
    s.crcPass n = ((s.modCsr fun c => c.passNoted n (s.pageCrc n)).pageEv n 16 (s.fld n 0x3F4 7 0)).uncorEv (crcSource n) := by
  rw [crcPass_awake ha rfl]
  generalize s.pageCrc n = v at *
  have hwait : (s.csr.passNoted n v).crcWait = s.csr.crcWait := rfl
  have hcrcv : (s.csr.passNoted n v).crcv = s.csr.crcv := rfl
  have hyes : (tabGet false s.csr.crcv n && v != s.reg n 0xFF) = true := by
    rw [← State.crcv, Bool.and_eq_true, bne_iff_ne]
    exact ⟨hv, hne⟩
  rw [modCsr_csr, hwait, hw, if_neg Bool.false_ne_true, State.crcv, modCsr_csr, hcrcv, modCsr_reg, if_pos hyes, modCsr_fld]

/-- A source that is no slice, for which FLT_ACTCFG sets no action. -/
theorem dueAct_unset {k : Nat} (h17 : 17 ≤ k) (h57 : k ≤ 57) (hp : s.fld 59 0x104 5 4 = 0) (hc : s.fld 59 0x104 3 2 = 0) : s.dueAct k = s := by
  obtain h | h | rfl : k < 41 ∨ (41 ≤ k ∧ k < 57) ∨ k = 57 := by omega
  · have hk : k = srcPort (Fin.ofNat 24 (k - 17)) := by simp [srcPort, Fin.ofNat]; omega
    rw [hk]
    exact dueAct_port (by omega)
  · have hk : k = srcChan (Fin.ofNat 16 (k - 41)) := by simp [srcChan, Fin.ofNat]; omega
    rw [hk]
    exact dueAct_chan hc
  · exact dueAct_net

theorem crcSource_le (n : Fin 64) : crcSource n.val ≤ 57 := by revert n; decide

/-! ### Reads that a pass lets go on -/

/-- A read of a register changes what the mailboxes keep, or the count of barred accesses, at most. -/
theorem csrReadAt_frame (h : Quiet s) (path : CsrPath) (off : Nat) :
    ∃ r c, (s.csrReadAt path off).1 = { s with regs := r, csr := c } ∧ c.reads = s.csr.reads ∧ c.posted = s.csr.posted ∧
      Quiet (s.csrReadAt path off).1 := by
  have hword (n w : Nat) : ∃ r c, (s.csrReadWord path n w).1 = { s with regs := r, csr := c } ∧ c.reads = s.csr.reads ∧ c.posted = s.csr.posted ∧
      Quiet (s.csrReadWord path n w).1 := by
    unfold State.csrReadWord
    split
    · exact ⟨_, _, rfl, rfl, rfl, h⟩
    · split
      · exact ⟨_, _, rfl, rfl, rfl, h⟩
      · dsimp only
        split
        · exact ⟨_, _, rfl, rfl, rfl, h.modCsr (fun c => { c with snaps := _ }) h.reads⟩
        · split <;> exact ⟨_, _, rfl, rfl, rfl, h⟩
  unfold State.csrReadAt
  split
  · exact hword _ _
  · exact ⟨_, _, rfl, rfl, rfl, h⟩
  · split
    · exact ⟨_, _, rfl, rfl, rfl, h⟩
    · split
      · have hb : Quiet s.aliasCount := h.bump _ _ _ _ (by unfold watched; decide)
        refine ⟨s.aliasCount.regs, s.csr, ?_, rfl, rfl, hb⟩
        dsimp only
        unfold State.aliasCount State.bump
        dsimp only
        split <;> rfl
      · exact ⟨_, _, rfl, rfl, rfl, h⟩

/-- Where reads wait, they are all that goes on by itself in a state that is quiet without them. -/
theorem settle_of_reads (h : Quiet (s.modCsr fun c => { c with reads := [] })) (hr : s.csrReads = t) (ht : Quiet t) : s.settle = t.setPins := by
  have h₁ : s.movePrep.liftHold.engineSteps = s := by
    rw [movePrep_of_run (s := s) h.run, liftHold_of_adm (s := s) h.adm, engineSteps_of_waits (s := s) h.load h.job]
  have h₂ : s.commitStep.startStep.disableStep = s := by
    rw [commitStep_of_stt (s := s) h.gc, startStep_of_stt (s := s) h.stt, disableStep_of_msc (s := s) h.msc]
  have h₄ : s.bcastStep.ltBackStep.portResetStep.slcResetStep.csrReads = t := by
    rw [bcastStep_of_nil (s := s) h.sweep, ltBackStep_of_run (s := s) h.back, portResetStep_of_none (s := s) fun p => (h.ports p).1,
      slcResetStep_of_none (s := s) fun i => (h.slices i).1, hr]
  refine (settle_of_selfSteps (s := s) h.due (selfSteps_eq h₁ h₂ (detWake_of_awake (s := s) h.det) h₄ ht.calm.held) ht.net ht.due fun i => (ht.slices i).2).trans ?_
  rw [ht.syncPower]

/-- With no write posted, a direct read that waits is served. -/
theorem csrReads_direct {path : CsrPath} {off : Nat} (hp : s.csr.posted = []) (hr : s.csr.reads = [⟨.direct path, off⟩]) :
    s.csrReads = (((s.modCsr fun c => { c with reads := [] }).csrReadAt path off).1).answerCsr
      ((s.modCsr fun c => { c with reads := [] }).csrReadAt path off).2 false := by
  have hh : s.csrHolds off = false := by
    unfold State.csrHolds
    split
    · simp [State.islBusy, hp]
    · rfl
  unfold State.csrReads
  dsimp only
  rw [hr]
  simp only [List.filter_cons, List.filter_nil, hh, Bool.not_false, if_true, List.foldl_cons, List.foldl_nil]
  rw [show (s.modCsr fun c => { c with reads := c.reads.filter fun w => s.csrHolds w.off }) = s.modCsr fun c => { c with reads := [] } by
    unfold State.modCsr; dsimp only; rw [hr, List.filter_cons, hh, if_neg Bool.false_ne_true, List.filter_nil]]
  rfl

/-- The last posted write goes with the pass, and the read that waited for it is served (R415). -/
theorem crcPassEnd_serves (h : Quiet s) (n : Fin 64) {x : Posted} {path : CsrPath} {off : Nat} (ha : s.pageAwake n.val = true)
    (hc : tabGet false s.csr.crcWait n.val = true ∨ s.crcv n.val = false ∨ s.pageCrc n.val = s.reg n.val 0xFF)
    (hp : s.csr.posted = [x]) (hx : x.page = n.val) (hs : x.passSeen = true) (hr : s.csr.reads = [⟨.direct path, off⟩]) :
    ∃ t v, exec (.crcPassEnd n) s = .next t ∧ t.csr.posted = [] ∧ t.csr.reads = [] ∧ t.csr.resp = some (v, false) ∧ t.slices = s.slices ∧
      t.ports = s.ports ∧ t.chans = s.chans ∧ t.dram = s.dram := by
  have hm := crcPass_matches ha hc
  generalize s.pageCrc n.val = crc at hm
  obtain ⟨c, hcc⟩ : ∃ c, c = s.csr.passEnded n.val crc := ⟨_, rfl⟩
  rw [← hcc] at hm
  have hcp : c.posted = [] := by
    rw [hcc, Csr.passEnded, Csr.passNoted]
    simp [hp, hx, hs]
  have hcr : c.reads = [⟨.direct path, off⟩] := by rw [hcc]; exact hr
  have hu : Quiet ((s.modCsr fun _ => c).modCsr fun c => { c with reads := [] }) := h.modCsr (fun _ => { c with reads := [] }) fun w hw => absurd (show w ∈ ([] : List CsrWait) from hw) List.not_mem_nil
  obtain ⟨r, k, hf, hk, hkp, hq⟩ := csrReadAt_frame hu path off
  have hread := csrReads_direct (s := s.modCsr fun _ => c) hcp hcr
  have hend := settle_of_reads hu hread (hq.answerCsr _ false)
  refine ⟨_, ((s.modCsr fun _ => c).modCsr fun c => { c with reads := [] }).csrReadAt path off |>.2,
    commandEnd_settle ((congrArg State.settle hm).trans hend) ?_ ?_, ?_⟩
  · rw [hf]; rfl
  · rw [hf]; rfl
  · rw [hf]
    exact ⟨hkp.trans hcp, hk, rfl, rfl, rfl, rfl, rfl⟩

theorem passEnded_posted_one {c : Csr} {x : Posted} {v : BitVec 32} (hp : c.posted = [x]) :
    (c.passEnded n v).posted = if x.page = n then (if x.passSeen then [] else [{ x with passSeen := x.applied }]) else [x] := by
  obtain ⟨isl, page, word, v, bit, applied, passSeen⟩ := x
  rw [Csr.passEnded, Csr.passNoted]
  simp only [hp, List.filter_cons, List.filter_nil]
  by_cases hx : page = n <;> cases passSeen <;> cases applied <;> simp [hx]

theorem passEnded_posted_none {c : Csr} {v : BitVec 32} (hp : c.posted = []) : (c.passEnded n v).posted = [] := by
  rw [Csr.passEnded, Csr.passNoted, hp]
  rfl

theorem passEnded_crcWait (c : Csr) (v : BitVec 32) : tabGet false (c.passEnded n v).crcWait n = false := by
  rw [Csr.passEnded]
  cases hw : tabGet false c.crcWait n
  · exact hw
  · exact tabGet_tabSet_self false c.crcWait n false

/-- A pass that compares nothing amiss changes the registers' bookkeeping alone. -/
theorem crcPassEnd_matches (h : Quiet s) (n : Fin 64) (ha : s.pageAwake n.val = true) (hr : s.csr.reads = [])
    (hc : tabGet false s.csr.crcWait n.val = true ∨ s.crcv n.val = false ∨ s.pageCrc n.val = s.reg n.val 0xFF) :
    ∃ c, exec (.crcPassEnd n) s = .next (s.modCsr fun _ => c).setPins ∧ tabGet 0 c.rcrc n.val = s.pageCrc n.val ∧
      (∀ m, m ≠ n.val → tabGet 0 c.rcrc m = tabGet 0 s.csr.rcrc m) ∧ c.crcv = s.csr.crcv ∧ tabGet false c.crcWait n.val = false ∧
      (s.csr.posted = [] → c.posted = []) ∧
      ∀ x, s.csr.posted = [x] → c.posted = if x.page = n.val then (if x.passSeen then [] else [{ x with passSeen := x.applied }]) else [x] := by
  have hm := crcPass_matches ha hc
  generalize s.pageCrc n.val = crc at hm
  have hq : Quiet (s.modCsr fun _ => s.csr.passEnded n.val crc) :=
    h.modCsr _ fun w hw => absurd hw (by rw [show (s.csr.passEnded n.val crc).reads = [] from hr]; nofun)
  exact ⟨_, hq.ends hm rfl rfl, tabGet_tabSet_self 0 s.csr.rcrc n.val crc, fun m hm => tabGet_tabSet_ne _ _ s.csr.rcrc _ _ _ hm, rfl, passEnded_crcWait _ _,
    passEnded_posted_none, fun x => passEnded_posted_one⟩

theorem pageEv_reg_set (s : State) (n b w : Nat) (hb : b < 24) : ((s.pageEv n b w).reg n 0xFD).getLsbD b = true := by
  unfold State.pageEv
  dsimp only
  rw [setReg_reg_self]
  have hbit : ∀ v : BitVec 32, ((v &&& 0xFFFFFF00) ||| BitVec.ofNat 32 (2 ^ b) ||| BitVec.ofNat 32 w).getLsbD b = true := fun v => by
    simp only [BitVec.getLsbD_or, BitVec.getLsbD_ofNat, Nat.testBit_two_pow_self]
    simp; omega
  split
  · next e => rw [← e]; exact hbit _
  · rw [BitVec.getLsbD_or, BitVec.getLsbD_and, hbit]
    refine (congrArg (fun c => true && c || _) (?_ : _ = true)).trans rfl
    interval_cases b <;> rfl

/-- A page that no longer has its CRC makes its source severe. -/
theorem crcPassEnd_differs (h : Quiet s) (n : Fin 64) (ha : s.pageAwake n.val = true) (hr : s.csr.reads = [])
    (hw : tabGet false s.csr.crcWait n.val = false) (hv : s.crcv n.val = true) (hne : s.pageCrc n.val ≠ s.reg n.val 0xFF)
    (h17 : 17 ≤ crcSource n.val) (hp : s.fld 59 0x104 5 4 = 0) (hc : s.fld 59 0x104 3 2 = 0) (hs : (s.src (crcSource n.val)).severe = false) :
    ∃ t, exec (.crcPassEnd n) s = .next t ∧ (t.src (crcSource n.val)).severe = true ∧ tabGet 0 t.csr.rcrc n.val = s.pageCrc n.val ∧
      (t.reg n.val 0xFD).getLsbD 16 = true ∧ t.slices = s.slices ∧ t.ports = s.ports ∧ t.chans = s.chans ∧ t.dram = s.dram := by
  have hm := crcPass_differs ha hw hv hne
  clear hne
  generalize s.pageCrc n.val = crc at hm
  obtain ⟨c, hcc⟩ : ∃ c, c = s.csr.passNoted n.val crc := ⟨_, rfl⟩
  have hcr : c.reads = [] := by rw [hcc]; exact hr
  obtain ⟨u, hu⟩ : ∃ u, u = (s.modCsr fun _ => c).pageEv n.val 16 (s.fld n.val 0x3F4 7 0) := ⟨_, rfl⟩
  have ht : s.crcPass n.val = u.uncorEv (crcSource n.val) := hm.trans (by rw [hu, hcc]; rfl)
  have hqu : Quiet u := hu ▸ (h.modCsr _ fun w hw => absurd hw (by rw [hcr]; nofun) : Quiet (s.modCsr fun _ => c)).pageEv _ _ _
  have hus : u.src (crcSource n.val) = s.src (crcSource n.val) := by rw [hu]; rfl
  have hl : u.uncorLeaves (crcSource n.val) = false := uncorLeaves_of_mild (by rw [hus]; exact hs)
  have hdue : (u.uncorEv (crcSource n.val)).flt.due = [crcSource n.val] := by rw [uncorEv_due _ _ hl, hus, hs, hqu.due]; rfl
  have hreg (m w : Nat) (hm : 256 * m + w ≠ 256 * 59 + 0x58) (hn : 256 * m + w ≠ 256 * n.val + 0xFD) :
      (u.uncorEv (crcSource n.val)).reg m w = s.reg m w := by
    rw [uncorEv_reg_ne _ _ _ _ _ _ hm, hu]
    exact setReg_reg_ne _ _ _ _ _ _ hn
  have hact : ((u.uncorEv (crcSource n.val)).modFlt fun f => { f with due := [] }).dueAct (crcSource n.val) =
      (u.uncorEv (crcSource n.val)).modFlt fun f => { f with due := [] } := by
    refine dueAct_unset h17 (crcSource_le n) ?_ ?_
    · rw [State.fld, modFlt_reg, hreg _ _ (by decide) (by omega)]
      exact hp
    · rw [State.fld, modFlt_reg, hreg _ _ (by decide) (by omega)]
      exact hc
  have hsrc := uncorEv_src 0 0 hl (crcSource n.val)
  have hfd : (u.uncorEv (crcSource n.val)).reg n.val 0xFD = u.reg n.val 0xFD := uncorEv_reg_ne _ _ _ _ _ _ (by omega)
  have hbit : (u.reg n.val 0xFD).getLsbD 16 = true := by
    rw [hu]
    exact pageEv_reg_set _ _ _ _ (by decide)
  obtain ⟨r, l, x, d, hf⟩ := EventOnly.uncorEv u (crcSource n.val) 0 0
  refine ⟨_, (hqu.uncorEvent (crcSource n.val) 0 0).endsDue (by rw [ht]; exact hdue) (by rw [ht]) hact ?_ ?_, ?_, ?_, ?_, ?_⟩
  · rw [hf, hu]; rfl
  · rw [hf, hu]; rfl
  · refine (congrArg Src.severe hsrc).trans ?_
    rw [if_pos rfl]
    rfl
  · rw [setPins_csr, modFlt_csr, hf]
    rw [hu]
    refine Eq.trans ?_ (tabGet_tabSet_self 0 s.csr.rcrc n.val crc)
    rw [hcc]
    rfl
  · rw [setPins_reg, modFlt_reg, hfd]
    exact hbit
  · rw [hf, hu]
    exact ⟨rfl, rfl, rfl, rfl⟩

/-! ### CRCREF -/

/-- A page whose CRCV has been 0 for a second is a contract event. -/
theorem crcvStaleSecond_logs (h : Quiet s) (n : Fin 64) (he : s.glb.stt = .enabled) (hv : s.crcv n.val = false)
    (hr : s.reached (tabGet 0 s.csr.staleAt n.val + 100000000) = true) : ∃ l,
    exec (.crcvStaleSecond n) s = .next ((s.modCsr fun c => { c with staleAt := l }).log 0x0B (crcSource n.val)).setPins ∧
      tabGet 0 l n.val = s.edge ∧ ∀ m, m ≠ n.val → tabGet 0 l m = tabGet 0 s.csr.staleAt m := by
  obtain ⟨l, hl⟩ : ∃ l, l = tabSet 0 s.csr.staleAt n.val s.edge := ⟨_, rfl⟩
  have hc : s.crcStale n.val = (s.modCsr fun c => { c with staleAt := l }).log 0x0B (crcSource n.val) := by
    unfold State.crcStale
    dsimp only
    rw [he, hv, hr, hl]
    rfl
  refine ⟨l, ((h.modCsr (fun c => { c with staleAt := l }) h.reads).log _ _).ends hc ?_ ?_, ?_, fun m hm => ?_⟩
  · exact (Lands.logEnt _ _).pending
  · exact (Lands.logEnt _ _).now
  · rw [hl]; exact tabGet_tabSet_self ..
  · rw [hl]; exact tabGet_tabSet_ne _ _ _ _ _ _ hm

theorem regFields_crcref (n : Nat) : regFields n 0xFF = wordField .lv 0 := rfl

/-- A write of every bit of a word writes the word. -/
theorem written_all (a v : BitVec 32) : (a &&& ~~~(0xFFFFFFFF : BitVec 32)) ||| (v &&& 0xFFFFFFFF) = v := by
  rw [show (0xFFFFFFFF : BitVec 32) = BitVec.allOnes 32 from rfl, BitVec.not_allOnes, BitVec.and_zero, BitVec.and_allOnes, BitVec.zero_or]

/-- A write of CRCREF sets it and CRCV, and the pass under way is not compared. -/
theorem crcrefWrite_sets (h : Quiet s) (n : Fin 64) (v : BitVec 32) :
    ∃ c, exec (.crcrefWrite n v) s = .next ((s.setReg n.val 0xFF v).modCsr fun _ => c).setPins ∧ tabGet false c.crcv n.val = true ∧
      tabGet false c.crcWait n.val = true ∧ (∀ m, m ≠ n.val → tabGet false c.crcv m = tabGet false s.csr.crcv m) ∧
      c.posted = s.csr.posted ∧ c.rcrc = s.csr.rcrc := by
  obtain ⟨c, hc⟩ : ∃ c, c = { s.csr with
      crcv := tabSet false s.csr.crcv n.val true, crcWait := tabSet false s.csr.crcWait n.val true, staleAt := tabErase s.csr.staleAt n.val } := ⟨_, rfl⟩
  have ha : s.applyWord n.val 0xFF v 0xFFFFFFFF = (s.setReg n.val 0xFF v).modCsr fun _ => c := by
    unfold State.applyWord
    dsimp only
    rw [regFields_crcref, if_neg (by decide), if_neg (by decide), if_pos rfl,
      written_all]
    rw [hc]
    rfl
  have hq : Quiet ((s.setReg n.val 0xFF v).modCsr fun _ => c) := (h.setReg _ _ _ (by unfold watched; omega)).modCsr _ (by rw [hc]; exact h.reads)
  refine ⟨c, hq.ends ha rfl rfl, ?_⟩
  rw [hc]
  exact ⟨tabGet_tabSet_self false s.csr.crcv n.val true, tabGet_tabSet_self false s.csr.crcWait n.val true,
    fun m hm => tabGet_tabSet_ne false false s.csr.crcv n.val m true hm, rfl, rfl⟩

/-- Settles O57. -/
theorem postedWritesAndConfigurationCrc : Obligations.PostedWritesAndConfigurationCrc := by
  intro s k n v h
  exact ⟨fun x l hp hi ha hb hk hw hon hf => postedWriteApply_lands h k hp hi ha hb hk hw hon hf,
    fun x path off ha hc hp hx hs hr => crcPassEnd_serves h n ha hc hp hx hs hr,
    fun ha hr => ⟨crcPassEnd_matches h n ha hr, crcPassEnd_differs h n ha hr⟩, crcvStaleSecond_logs h n, crcrefWrite_sets h n v⟩

end Sys2Proof.Safety
end

section
/-! O36: the unit holds an operation that came as an `Atom` of a transaction whose line is fetched again (R256). A descriptor command that
stands there with that opcode does not commit, and its transaction stays. -/

namespace Sys2Proof.Safety

open Sys2Proof.Machine

/-- What runs by itself takes no notice of the descriptor command. -/
theorem Quiet.withSvc {s : State} (h : Quiet s) (c : CmdSt) : Quiet { s with svc := c } :=
  h.mono rfl rfl rfl h.load h.job h.gc rfl rfl rfl rfl rfl (fun _ => ⟨rfl, fun _ => .inl⟩) (fun _ => ⟨rfl, rfl⟩) ⟨rfl, rfl⟩ rfl
    ⟨rfl, rfl⟩ rfl h.reads

/-- A READ of a descriptor at the service unit, whose line is marked as fetched. -/
def fetchedDescEnt : Trk :=
  { r := ⟨.qdesc 2 0 0 0, ⟨63, 0, 0, 0, 5, 0⟩, none, 5, false, 0, none, 0, false⟩
    stat := .atSvc, opens := true, age := 0, we := .uk, way := 0, wv := false, pc := 0, dlr := 0
    x := ⟨0, 0, 0, 0, 0, 0, 0, 0, false, false, false, false, false⟩
    m := ⟨.i, 0, false, 0, 0, false, false, [], false, false, .ok, none⟩
    h := ⟨0, [], false, [], [], [], none, false, false, true, false, false, none, false, false, false, false⟩ }

def fetchedDescState : State :=
  { (((State.reset.setEnt 5 0 (some fetchedDescEnt)).modSlice 5 fun x => { x with svcq := [⟨0, 5, reqCode .atom, 0⟩] }).modGlb fun g =>
      { g with stt := .enabled, cmd := .zero, everEnabled := true, layout := [] }) with svc := ⟨.running, 0, false, false, 0, none⟩ }

theorem fetchedDescState_quiet : Quiet fetchedDescState :=
  (((quiet_reset.setEnt 5 0 _).modSlice 5 _ rfl rfl).withStt .enabled .zero true [] ⟨nofun, nofun, nofun⟩ nofun fun e => nomatch e).withSvc _

/-- The unit finds nothing to commit. -/
theorem fetchedDesc_effect : fetchedDescState.serviceStep 5 = fetchedDescState := by
  have hn : fetchedDescState.svcNext 5 = none := by
    unfold State.svcNext
    dsimp only
    rw [show (fetchedDescState.slice 5).svcq = [⟨0, 5, reqCode .atom, 0⟩] from rfl, List.filterMap_cons_none (by rfl), List.filterMap_nil,
      List.mergeSort_nil]
    rfl
  unfold State.serviceStep
  rw [hn]
  exact if_neg (by decide)

/-- Refutes O36. -/
theorem not_descriptorCommands : ¬ Obligations.DescriptorCommands := by
  intro h
  obtain ⟨t, ht, -, hq, -⟩ := (h fetchedDescState 0 5 0 fetchedDescState_quiet).2 5 0 fetchedDescEnt 2 0 0 (reqCode .atom) 0 rfl rfl rfl rfl rfl rfl rfl
    rfl rfl rfl rfl rfl rfl (by decide) rfl rfl rfl
  have hn : exec (.serviceCommit 5) fetchedDescState = _ := fetchedDescState_quiet.ends fetchedDesc_effect rfl rfl
  rw [hn] at ht
  cases ht
  have he : [(⟨0, 5, reqCode .atom, 0⟩ : SvcOp)] = [] := hq
  exact absurd he nofun

end Sys2Proof.Safety
end

section
/-! O14: a counted write that a RESET meets in an ingress queue ends there. A drain of another partition that waited for it alone goes on in
the same step (R119, R120), so the tracker of the slice does not stand. -/

namespace Sys2Proof.Safety

open Sys2Proof.Machine

/-- Where no request is held at a port, what runs by itself takes no notice of the partitions. -/
theorem Quiet.withPar {s : State} (h : Quiet s) (f : Par → Par) (hj : jobWaits (f s.par).job) (hh : ∀ p, (s.port p).held = []) :
    Quiet (s.modPar f) where
  due := h.due
  run := h.run
  adm := h.adm
  load := h.load
  job := hj
  gc := h.gc
  stt := h.stt
  msc := h.msc
  sweep := h.sweep
  back := h.back
  ports p := ⟨(h.ports p).1, fun k hk => absurd ((hh p) ▸ hk : k ∈ []) List.not_mem_nil⟩
  net := h.net
  det := h.det
  reads := h.reads
  slices := h.slices
  supply := h.supply
  links := h.links

/-- A DrainO of partition 1 that waits for the counted write with number 1 of port 0. -/
def waitingDrain : Trk :=
  { r := ⟨.req .drainO, ⟨0, 1, 0, 0, 0, 0⟩, some 0, 5, false, 0, none, 0, false⟩
    stat := .parked false false false true false 0, opens := false, age := 0, we := .un, way := 0, wv := false, pc := 0, dlr := 0
    x := ⟨0, 0, 0, 0, 0, 0, 0, 0, false, false, false, false, false⟩
    m := ⟨.i, 0, false, 0, 0, false, false, [], false, false, .ok, none⟩
    h := ⟨0, [], false, [], [], [], none, false, false, false, false, false, none, false, false, false, false⟩ }

/-- That write, of partition 0. -/
def endedWrite : Req := ⟨.req .wrFull, ⟨0, 0, 0, 0, 5, 0⟩, some 0, 5, false, 0, none, 1, false⟩

def drainedState : State :=
  (State.reset.modSlice 5 fun x => { x with trk := [(0, some waitingDrain)], ingress := [(0, ⟨[(endedWrite, 0)], []⟩)] }).modPort 0 fun x =>
    { x with writes := [⟨1, 0, false, false, false⟩], drains := [⟨0, 1, some (5, 0), false, [1], false⟩] }

theorem drainedState_quiet : Quiet drainedState :=
  (quiet_reset.modSlice 5 _ rfl rfl).modPort 0 _ rfl fun _ => .inl

/-- The drain once the write has ended. -/
def drainWoken : Trk := { waitingDrain with stat := .ready false, pc := 1, m := { waitingDrain.m with ev := 2 } }

/-- The state after the RESET of partition 0. -/
def drainedAfter : State :=
  ((drainedState.modPar fun x => { x with parts := [(0, ⟨.resetting, 1, false, 1, 0, 1⟩)], cmd := ⟨.running, 1, false, false, 0, none⟩,
                                          running := some 0 }).modSlice 5 fun x =>
    { x with trk := [(0, some drainWoken)], ingress := [] }).modPort 0 fun x =>
      { x with writes := [], drains := [], cred := { x.cred with reqDue := [(0, 1)] } }

/-- The state of the partition and of its command, once the RESET has been accepted. -/
def drainedBegun : State :=
  drainedState.modPar fun x => { x with parts := [(0, ⟨.resetting, 1, false, 0, 0, 0⟩)], cmd := ⟨.running, 1, false, false, 0, none⟩, running := some 0 }

/-- A slice in which no request waits has none that ends with its generation. -/
theorem leaveIngress_of_empty {s : State} {i : Fin 17} {rq : Nat} (h : (s.slice i).ing rq = ⟨[], []⟩) (q : Req → Bool) (f : State → Req → State) :
    s.leaveIngress i rq q f = s := by
  unfold State.leaveIngress
  dsimp only
  rw [h]
  rfl

theorem leaveHold_of_nil {s : State} {i : Fin 17} (h : (s.slice i).wakeHold = []) (q : Req → Bool) (f : State → Req → State) :
    s.leaveHold i q f = s := by
  unfold State.leaveHold
  dsimp only
  rw [h]
  rfl

theorem drained_clearResv : drainedBegun.clearResv 0 = drainedBegun :=
  foldl_fixed _ _ _ fun i _ => modSlice_same _ _ _ (by revert i; decide)

theorem drained_holdPart : drainedBegun.holdPart 0 = drainedBegun :=
  foldl_fixed _ _ _ fun p _ => modPort_same _ _ _ (by revert p; decide)

theorem drained_leaves : drainedBegun.leaveIngress 5 0 (fun r => drainedBegun.oldGen r) State.endUnbound = drainedAfter := rfl

/-- What a RESET ends in slice i. -/
def dropAt (s : State) (i : Fin 17) : State :=
  let s := s.leaveHold i (fun r => s.oldGen r) State.endUnbound
  if (s.slice i).ingress.isEmpty then s
  else (List.range 26).foldl (fun s rq => s.leaveIngress i rq (fun r => s.oldGen r) State.endUnbound) s

theorem dropOldGen_eq (s : State) : s.dropOldGen = (List.finRange 17).foldl dropAt s := rfl

theorem dropAt_of_empty {s : State} {i : Fin 17} (hw : (s.slice i).wakeHold = []) (hi : (s.slice i).ingress = []) : dropAt s i = s := by
  unfold dropAt
  dsimp only
  rw [leaveHold_of_nil hw, hi]
  rfl

theorem tabGet_one_ne {α : Type} {d v : α} {t : Tab α} {k m : Nat} (ht : t = [(k, v)]) (hm : m ≠ k) : tabGet d t m = d := by
  rw [ht]
  simp [tabGet, Ne.symm hm]

theorem tabGet_nil {α : Type} {d : α} {t : Tab α} (ht : t = []) (m : Nat) : tabGet d t m = d := by
  rw [ht]
  rfl

theorem drainedBegun_ingress : (drainedBegun.slice 5).ingress = [(0, ⟨[(endedWrite, 0)], []⟩)] := rfl

theorem drainedAfter_ingress : (drainedAfter.slice 5).ingress = [] := rfl

/-- What a RESET ends of requester rq at slice 5. -/
def dropFrom (s : State) (rq : Nat) : State := s.leaveIngress 5 rq (fun r => s.oldGen r) State.endUnbound

theorem drained_from : dropFrom drainedBegun 0 = drainedAfter := drained_leaves

theorem drained_from_others (m : Nat) (hm : m ≠ 0) : dropFrom drainedBegun m = drainedBegun :=
  leaveIngress_of_empty (tabGet_one_ne drainedBegun_ingress hm) _ _

theorem drained_from_after (m : Nat) : dropFrom drainedAfter m = drainedAfter :=
  leaveIngress_of_empty (tabGet_nil drainedAfter_ingress m) _ _

theorem drained_fold : (List.range 26).foldl dropFrom drainedBegun = drainedAfter := by
  refine (foldl_one dropFrom drainedBegun 0 _ (List.mem_range.2 (by omega)) List.nodup_range drained_from_others fun m _ => ?_).trans drained_from
  rw [drained_from]
  exact drained_from_after m

theorem drained_dropAt : dropAt drainedBegun 5 = drainedAfter := by
  unfold dropAt
  dsimp only
  rw [leaveHold_of_nil (by decide), if_neg (by rw [drainedBegun_ingress]; exact Bool.false_ne_true)]
  exact drained_fold

theorem drained_dropOldGen : drainedBegun.dropOldGen = drainedAfter := by
  have hne : ∀ m : Fin 17, m ≠ 5 → ((drainedBegun.slice m).wakeHold = [] ∧ (drainedBegun.slice m).ingress = []) ∧
      (drainedAfter.slice m).wakeHold = [] ∧ (drainedAfter.slice m).ingress = [] := by decide
  rw [dropOldGen_eq]
  refine (foldl_one dropAt drainedBegun 5 _ (List.mem_finRange _) (List.nodup_finRange 17) (fun m hm => ?_) fun m hm => ?_).trans drained_dropAt
  · exact dropAt_of_empty (hne m hm).1.1 (hne m hm).1.2
  · rw [drained_dropAt]
    exact dropAt_of_empty (hne m hm).2.1 (hne m hm).2.2

theorem drained_effect : drainedState.partResetCmd 1 0 = drainedAfter := by
  have hb : (drainedState.parAccept 1 0).modPart 0 (fun x => { x with st := .resetting, gen := x.gen + 1, wasFrozen := decide ((drainedState.part 0).st = .frozen) }) = drainedBegun := rfl
  unfold State.partResetCmd
  rw [if_neg (by decide)]
  dsimp only
  rw [if_neg (by decide), hb, drained_clearResv, drained_holdPart, drained_dropOldGen]

theorem drainedAfter_quiet : Quiet drainedAfter :=
  ((drainedState_quiet.withPar _ (show jobWaits .none from trivial) (by decide)).modSlice 5 _ rfl rfl).modPort 0 _ rfl fun _ => .inl

/-- Refutes O14. -/
theorem not_partitionStates : ¬ Obligations.PartitionStates := by
  intro h
  obtain ⟨-, -, -, -, hreset, -⟩ := h drainedState 1 0 drainedState_quiet (by decide)
  obtain ⟨t, ht, -, htrk, -⟩ := hreset 5 0 endedWrite 0 (by decide) (.inl rfl) (by decide) (by decide) (by decide) rfl rfl rfl rfl (by decide) rfl rfl
  have hn : exec (.partitionReset 1 0) drainedState = _ := drainedAfter_quiet.ends drained_effect rfl rfl
  rw [hn] at ht
  cases ht
  have he : [(0, some drainWoken)] = [(0, some waitingDrain)] := htrk
  exact absurd he (by decide)

end Sys2Proof.Safety
end

section
/-! O8: a check that ends while a LOAD waits for it is the LOAD's, in the state LOAD of the block too. Where it is the last, the LOAD makes the
bank VALID in every other slice that it loads and whose check has passed (R225): these slices do not stand. -/

namespace Sys2Proof.Safety

open Sys2Proof.Machine

/-- A bank of zeroes, which holds no verb and passes its check (R210 to R219). -/
theorem check_zeroes {w : Nat → BitVec 128} (h : ∀ k < 1024, w k = 0) : grammarCheck w = none := by
  have hok : ∀ k ∈ List.range 1024, ¬ (!bankWordOk k (w k)) = true := fun k hk => by
    rw [h k (List.mem_range.1 hk), bankWordOk]
    split
    · decide
    · rw [show clauseOk 0 = true from by decide]
      decide
  unfold grammarCheck
  rw [List.find?_eq_none.2 hok]
  refine List.findSome?_eq_none_iff.2 fun i hi => ?_
  have hi := List.mem_range.1 hi
  rw [h (i / 4) (by omega)]
  have hw : vtWord i 0 = 0 := by simp [vtWord]
  rw [hw]
  rfl

/-- The words of bank 1, all zero. -/
def zeroBank : Tab (BitVec 128) := (List.range 1024).map fun k => (1024 + k, 0)

theorem zeroBank_word (d : BitVec 128) {k : Nat} (h : k < 1024) : tabGet d zeroBank (1024 + k) = 0 := by
  have hl (l : List Nat) (hk : k ∈ l) : tabGet d (l.map fun k => (1024 + k, (0 : BitVec 128))) (1024 + k) = 0 := by
    induction l with
    | nil => exact absurd hk List.not_mem_nil
    | cons j l ih =>
      rw [List.map_cons, tabGet]
      split
      · rfl
      · next hne => exact ih ((List.mem_cons.1 hk).resolve_left fun e => hne (by rw [e]))
  exact hl _ (List.mem_range.2 h)

/-- A LOAD of slices 3 and 4, whose inactive bank of slice 3 holds the words ws: the check of slice 4 has passed, that of slice 3 is to end, which
is the last. -/
def lastCheckLoad (ws : Tab (BitVec 128)) : State :=
  (((State.reset.modSlice 3 fun x => { x with uc := { x.uc with words := ws, valid := 1, due := 2 } }).modSlice 4 fun x =>
    { x with uc := { x.uc with valid := 1 } }).modSlice 5 fun x => { x with uc := { x.uc with due := 1 } }).modGlb fun g => { g with
      ld := ⟨⟨.running, 1, false, false, 0, none⟩, .checking, 0x18, 0x18, 0, 0, 0x08, [], ⟨0, 0, []⟩⟩ }

theorem lastCheckLoad_quiet (ws : Tab (BitVec 128)) : Quiet (lastCheckLoad ws) :=
  (((quiet_reset.modSlice 3 _ rfl rfl).modSlice 4 _ rfl rfl).modSlice 5 _ rfl rfl).modGlb _ rfl
    (fun _ => ⟨(by decide : (0x18 : BitVec 17) ≠ 0), nofun, fun _ => (by decide : (0x08 : BitVec 17) ≠ 0)⟩) (fun (e : Res.nothing = .running) => nomatch e) rfl rfl rfl ⟨rfl, rfl⟩

/-- The same in the state x of the block. -/
def lastCheckState (ws : Tab (BitVec 128)) (x : Stt) : State :=
  (lastCheckLoad ws).modGlb fun g => { g with stt := x, cmd := .zero, everEnabled := false, layout := [] }

theorem lastCheckState_ready (ws : Tab (BitVec 128)) : Quiet (lastCheckState ws .ready) :=
  (lastCheckLoad_quiet ws).withStt .ready .zero false [] ⟨nofun, nofun, nofun⟩ nofun fun e => nomatch e

theorem modSlice_congr {s : State} {i : Fin 17} {f g : Slice → Slice} (h : f (s.slice i) = g (s.slice i)) : s.modSlice i f = s.modSlice i g := by
  rw [modSlice_const s i f, h, ← modSlice_const]

/-- The LOAD's commit in the slices whose check has passed. -/
def passed (l : Load) (i : Fin 17) (x : Slice) : Slice :=
  if l.sel.getLsbD i.val && tabGet 0 l.codes i.val == 0 then { x with uc := { x.uc with valid := x.uc.valid ||| bankBit (!x.uc.active) } } else x

theorem passed_ctl (l : Load) (i : Fin 17) (x : Slice) : (passed l i x).ctl = x.ctl ∧ (passed l i x).mem = x.mem ∧ (passed l i x).uc.due = x.uc.due := by
  unfold passed
  split <;> exact ⟨rfl, rfl, rfl⟩

theorem loadCommit_commits {s : State} (hr : s.glb.ld.st.res = .running) (hp : s.glb.ld.phase = .checking) (hl : s.glb.ld.left = 0)
    (hs : s.glb.ld.sel ≠ 0) : ∃ f c, s.loadCommit = ((s.mapSlices (passed s.glb.ld)).modLd fun l => { l with fail := f, ver := l.rollback }).loadEnds c := by
  have hc : (s.glb.ld.st.res == .running && s.glb.ld.phase == .checking && s.glb.ld.left == 0 && s.glb.ld.sel != 0) = true := by
    simp only [hr, hp, hl, Bool.and_eq_true, beq_self_eq_true, bne_iff_ne]
    exact ⟨⟨⟨trivial, trivial⟩, trivial⟩, hs⟩
  unfold State.loadCommit
  dsimp only
  rw [if_pos hc]
  refine ⟨_, _, congrArg (fun t : State => (t.modLd _).loadEnds _) (eachSlice_eq s _ (passed s.glb.ld) fun v i => ?_)⟩
  split
  · next h => exact modSlice_congr (by rw [passed, if_pos h])
  · next h => exact (modSlice_same _ _ _ (by rw [passed, if_neg h])).symm

/-- A check without a fault that a LOAD waits for is noted in it, which goes on to its commit where it was the last. -/
theorem checkDone_loading {s : State} {i : Fin 17} {b : Bool} (hd : (s.slice i).uc.due &&& bankBit b ≠ 0) (hc : (s.slice i).uc.check b = none)
    (hl : (s.glb.ld.st.res == .running && s.glb.ld.phase == .checking && s.glb.ld.left.getLsbD i.val && b == !(s.slice i).uc.active) = true) :
    s.checkDone i b = ((s.modUc i fun u => { u with gcRule := 0, gcVte := 0, gcClause := 0, gcStep := 0, due := u.due &&& ~~~bankBit b }).modLd fun l =>
      { l with left := l.left &&& ~~~(BitVec.ofNat 17 (2 ^ i.val)), codes := tabSet 0 l.codes i.val 0 }).loadCommit := by
  unfold State.checkDone
  dsimp only
  rw [if_neg hd, hc, if_pos hl, hl]
  rfl

/-- The last check, noted for the LOAD. -/
def lastCheckNoted (ws : Tab (BitVec 128)) : State :=
  ((lastCheckState ws .load).modUc 3 fun u => { u with gcRule := 0, gcVte := 0, gcClause := 0, gcStep := 0, due := u.due &&& ~~~bankBit true }).modLd fun l =>
    { l with left := l.left &&& ~~~(BitVec.ofNat 17 (2 ^ 3)), codes := tabSet 0 l.codes 3 0 }

/-- The LOAD waits for the check that ends. -/
theorem lastCheck_notes {ws : Tab (BitVec 128)} (hc : ((lastCheckState ws .load).slice 3).uc.check true = none) :
    (lastCheckState ws .load).checkDone 3 true = (lastCheckNoted ws).loadCommit :=
  checkDone_loading (by decide : (2 : BitVec 2) &&& bankBit true ≠ 0) hc
    (by decide : (Res.running == Res.running && LdPhase.checking == LdPhase.checking && (0x08 : BitVec 17).getLsbD 3 && true == !false) = true)

/-- What follows from the LOAD's commit. -/
theorem lastCheck_settles (ws : Tab (BitVec 128)) : ∃ t, (lastCheckNoted ws).loadCommit.settle = t ∧ (t.slice 4).uc.valid = 3 ∧
    t.pending = (lastCheckState ws .load).pending ∧ t.now = (lastCheckState ws .load).now := by
  obtain ⟨f, c, hf⟩ := loadCommit_commits (s := lastCheckNoted ws) rfl rfl
    (by decide : (0x08 : BitVec 17) &&& ~~~(BitVec.ofNat 17 (2 ^ 3)) = 0) (by decide : (0x18 : BitVec 17) ≠ 0)
  obtain ⟨l, hl⟩ : ∃ l, l = (lastCheckNoted ws).glb.ld := ⟨_, rfl⟩
  obtain ⟨u, hu⟩ : ∃ u, u = ((lastCheckNoted ws).mapSlices (passed l)).modGlb fun g => { g with
      ld := { { g.ld with fail := f, ver := g.ld.rollback } with st := { g.ld.st.complete with cause := c }, phase := .idle, left := 0 } } := ⟨_, rfl⟩
  have ht : (lastCheckNoted ws).loadCommit = u.done 0 := by
    rw [hf, hu, hl]
    rfl
  have hready := lastCheckState_ready ws
  have hc : Calm u := by
    have h₁ : Calm ((lastCheckState ws .ready).modUc 3 fun u => { u with gcRule := 0, gcVte := 0, gcClause := 0, gcStep := 0, due := u.due &&& ~~~bankBit true }) :=
      (hready.modSlice 3 _ rfl rfl).calm
    have h₂ := h₁.mapSlices (passed l) fun i => (passed_ctl l i _).1
    rw [hu]
    exact h₂.modGlb (fun g => { g with
      stt := .load
      ld := { (lastCheckNoted ws).glb.ld with
        fail := f, ver := (lastCheckNoted ws).glb.ld.rollback, st := { (lastCheckNoted ws).glb.ld.st.complete with cause := c }, phase := .idle, left := 0 } })
      rfl (fun (e : Res.completed = .running) => nomatch e) rfl
  have hcd : Calm (u.done 0) := by
    obtain ⟨r, hr⟩ := done_frame u 0
    rw [hr]
    exact hc.mono rfl rfl rfl hc.load rfl rfl rfl rfl rfl ⟨rfl, rfl⟩ fun i => ⟨rfl, rfl⟩
  have hslice (i : Fin 17) : (u.done 0).slice i = passed l i ((lastCheckNoted ws).slice i) := by
    refine (congrArg (fun v : Vector Slice 17 => v[i.val]) (done_slices u 0)).trans ?_
    rw [hu]
    exact mapSlices_slice _ _ i
  have hg : (u.done 0).glb = u.glb := done_glb u 0
  have hstt : (u.done 0).glb.stt = .load := by rw [hg, hu]; rfl
  have hstart : (u.done 0).startStep = u.done 0 := by
    have hdue : ((u.done 0).slice 5).uc.due = 1 := by rw [hslice, (passed_ctl l 5 _).2.2]; rfl
    have hfuse : (u.done 0).usableSlice 5 = true := rfl
    have hall : ((u.done 0).slicesAll fun x => x.uc.due == 0) = false := by
      rw [State.slicesAll, List.all_eq_false]
      exact ⟨5, List.mem_finRange 5, by rw [hfuse, hdue]; decide⟩
    unfold State.startStep
    rw [hstt]
    exact if_neg (by rw [hall]; exact Bool.false_ne_true)
  have hsteps : (u.done 0).commitStep.startStep.disableStep = u.done 0 := by
    rw [commitStep_of_stt fun _ => by rw [hstt]; exact ⟨nofun, nofun⟩, hstart, disableStep_of_msc fun e => by rw [hstt] at e; nomatch e]
  have hwake : (u.done 0).detWake = u.done 0 := detWake_of_awake fun e => by rw [hg, hu] at e; nomatch e
  refine ⟨_, (congrArg State.settle ht).trans (hcd.settle hsteps hwake hcd), ?_, ?_, ?_⟩
  · have h4 : ((0x18 : BitVec 17).getLsbD 4 && tabGet 0 (tabSet 0 [] 3 (0 : BitVec 8)) 4 == (0 : BitVec 8)) = true := by decide
    rw [setPins_slice, syncPower_slice, hslice, hl, passed]
    exact (congrArg (fun x : Slice => x.uc.valid) (if_pos h4)).trans (by decide : (1 : BitVec 2) ||| bankBit true = 3)
  · rw [setPins_pending, syncPower_pending, done_pending, hu]
    rfl
  · rw [setPins_now, syncPower_now, done_now, hu]
    rfl

/-- What O8 says of the other slices is not so, whatever the words of the bank are, where they pass their check. -/
theorem lastCheck_changes_others {ws : Tab (BitVec 128)} (hc : ((lastCheckState ws .load).slice 3).uc.check true = none) :
    ¬ Obligations.InitAndCheckEnd := by
  intro h
  obtain ⟨t, ht, -, hne, -⟩ := (h.2 (lastCheckState ws .load) 3 0 true 0 (lastCheckState_ready ws) rfl rfl rfl rfl).2.2 rfl rfl hc
  obtain ⟨u, hu, hv, hp, hw⟩ := lastCheck_settles ws
  have hn : exec (.grammarCheckDone 3 true) (lastCheckState ws .load) = .next u :=
    commandEnd_settle ((congrArg State.settle (lastCheck_notes hc)).trans hu) hp hw
  rw [hn] at ht
  cases ht
  have he : (t.slice 4).uc.valid = 1 := congrArg (fun x : Slice => x.uc.valid) (hne 4 (by decide))
  rw [hv] at he
  exact absurd he (by decide)

theorem lastCheck_check {ws : Tab (BitVec 128)} (h : ∀ (d : BitVec 128) (k : Nat), k < 1024 → tabGet d ws (1024 + k) = 0) :
    ((lastCheckState ws .load).slice 3).uc.check true = none := check_zeroes fun k hk => h (baseWord k) k hk

/-- Refutes O8. -/
theorem not_initAndCheckEnd : ¬ Obligations.InitAndCheckEnd := lastCheck_changes_others (lastCheck_check fun d _ => zeroBank_word d)

end Sys2Proof.Safety
end


section
/-! What a fence of an agent does to slices that hold nothing of it, and to one where a request of the agent still waits (R301, R355). -/

namespace Sys2Proof.Safety

open Sys2Proof.Machine

/-- What runs by itself, and what it looks at, is in t as in s. -/
structure Keeps (s t : State) : Prop where
  due : t.flt.due = s.flt.due
  run : t.flt.run = s.flt.run
  glb : t.glb = s.glb
  phase : t.tst.phase = s.tst.phase
  job : t.par.job = s.par.job
  parts : t.par.parts = s.par.parts
  pins : t.pins = s.pins
  noc : t.noc = s.noc
  csr : t.csr = s.csr
  reg : t.reg 0 0x5C = s.reg 0 0x5C
  ports : ∀ p, (t.port p).held = (s.port p).held ∧ (t.port p).resetting = (s.port p).resetting
  slices : ∀ i, (t.slice i).ctl = (s.slice i).ctl ∧ (t.slice i).mem.ctl = (s.slice i).mem.ctl
  pending : t.pending = s.pending
  now : t.now = s.now

variable {s t u : State}

theorem Keeps.refl (s : State) : Keeps s s :=
  ⟨rfl, rfl, rfl, rfl, rfl, rfl, rfl, rfl, rfl, rfl, fun _ => ⟨rfl, rfl⟩, fun _ => ⟨rfl, rfl⟩, rfl, rfl⟩

theorem Keeps.trans (h : Keeps s t) (k : Keeps t u) : Keeps s u where
  due := k.due.trans h.due
  run := k.run.trans h.run
  glb := k.glb.trans h.glb
  phase := k.phase.trans h.phase
  job := k.job.trans h.job
  parts := k.parts.trans h.parts
  pins := k.pins.trans h.pins
  noc := k.noc.trans h.noc
  csr := k.csr.trans h.csr
  reg := k.reg.trans h.reg
  ports p := ⟨(k.ports p).1.trans (h.ports p).1, (k.ports p).2.trans (h.ports p).2⟩
  slices i := ⟨(k.slices i).1.trans (h.slices i).1, (k.slices i).2.trans (h.slices i).2⟩
  pending := k.pending.trans h.pending
  now := k.now.trans h.now

theorem Keeps.setReg (s : State) (n w : Nat) (v : BitVec 32) (hw : ¬ watched n w) : Keeps s (s.setReg n w v) :=
  { Keeps.refl s with reg := setReg_reg_ne _ _ _ _ _ _ (by unfold watched at hw; omega) }

theorem Keeps.bump (s : State) (n o hi lo : Nat) (hw : ¬ watched n (o / 4)) : Keeps s (s.bump n o hi lo) := by
  unfold State.bump
  dsimp only
  split
  · exact .refl s
  · exact .setReg _ _ _ _ hw

theorem Keeps.event (h : EventOnly s t) (hr : t.reg 0 0x5C = s.reg 0 0x5C) (hd : t.flt.due = s.flt.due) : Keeps s t := by
  obtain ⟨r, l, x, d, rfl⟩ := h
  exact { Keeps.refl s with due := hd, reg := hr }

theorem Keeps.modFlt (s : State) (f : Flt → Flt) (hd : (f s.flt).due = s.flt.due) (hr : (f s.flt).run = s.flt.run) : Keeps s (s.modFlt f) :=
  { Keeps.refl s with due := hd, run := hr }

theorem Keeps.modPar (s : State) (f : Par → Par) (hj : (f s.par).job = s.par.job) (hp : (f s.par).parts = s.par.parts) : Keeps s (s.modPar f) :=
  { Keeps.refl s with job := hj, parts := hp }

theorem Keeps.modPort (s : State) (p : Fin 24) (f : Port → Port) (hh : (f (s.port p)).held = (s.port p).held)
    (hr : (f (s.port p)).resetting = (s.port p).resetting) : Keeps s (s.modPort p f) :=
  { Keeps.refl s with
    ports := fun q => by
      by_cases e : q = p
      · rw [e, modPort_port_self]
        exact ⟨hh, hr⟩
      · rw [modPort_port_ne _ _ e]
        exact ⟨rfl, rfl⟩ }

theorem Keeps.modSlice (s : State) (i : Fin 17) (f : Slice → Slice) (hc : (f (s.slice i)).ctl = (s.slice i).ctl)
    (hm : (f (s.slice i)).mem.ctl = (s.slice i).mem.ctl) : Keeps s (s.modSlice i f) :=
  { Keeps.refl s with
    slices := fun j => by
      by_cases e : j = i
      · rw [e, modSlice_slice_self]
        exact ⟨hc, hm⟩
      · rw [modSlice_slice_ne _ _ e]
        exact ⟨rfl, rfl⟩ }

theorem Keeps.markFenced (s : State) (n : Nat) (a : Agent) (m : Bool) : Keeps s (s.markFenced n a m) :=
  (Keeps.modFlt s _ rfl rfl).trans (.event (.logEnt _ _) (logEnt_reg_ne _ _ _ _ (by decide)) (logEnt_due _ _))

/-- A state in which what runs by itself stands as in a quiet one is quiet. -/
theorem Keeps.quiet (k : Keeps s t) (h : Quiet s) : Quiet t :=
  h.mono k.due k.run (by rw [k.glb]) (k.glb ▸ h.load) (k.job ▸ h.job) (k.glb ▸ h.gc) (by rw [k.glb]) (by rw [k.glb]) k.phase k.parts
    (by rw [k.glb]) (fun p => ⟨(k.ports p).2, fun _ hk => .inl ((k.ports p).1 ▸ hk)⟩) (fun i => ⟨(k.slices i).1, by rw [(k.slices i).2]⟩)
    (by rw [k.pins]; exact ⟨rfl, rfl⟩) k.noc (by rw [k.glb]; exact ⟨rfl, rfl⟩) k.reg
    fun w hw => (csrHolds_congr fun n => by unfold State.islBusy; rw [k.csr]).trans (h.reads w (k.csr ▸ hw))

/-! ### The fence of an agent in a slice -/

/-- A slice that holds no request and no queue descriptor, and is awake. -/
structure Bare (x : Slice) : Prop where
  trk : x.trk = []
  recs : x.recs = []
  ingress : x.ingress = []
  desc : x.ar.desc = []
  hold : x.wakeHold = []
  awake : x.asleep = false

/-- The sweeps of a slice that begin for a fenced agent. -/
def Slice.sweepFor (x : Slice) (a : Agent) : Slice :=
  { x with
    resv := x.resv.filter fun r => r.ag != a
    sw := { x.sw with ledgerAgents := x.sw.ledgerAgents ++ [a], presAgents := x.sw.presAgents ++ [a], presLeft := 16384 } }

theorem Bare.sweepFor {x : Slice} (h : Bare x) (a : Agent) : Bare (Slice.sweepFor x a) := ⟨h.trk, h.recs, h.ingress, h.desc, h.hold, h.awake⟩

/-- Where a request of the agent waits for the slice to wake, it is withdrawn; the sweeps begin. -/
theorem fenceInSlice_hold {a : Agent} {i : Fin 17} (ht : (s.slice i).trk = []) (hr : (s.slice i).recs = [])
    (hw : s.leaveHold i (fun r => r.a.src == a && r.port.isSome) (fun s r => s.withdraw i r false) = t)
    (hb : Bare (t.slice i)) (hf : t.slFenced i = false) : s.fenceInSlice a i = t.modSlice i (Slice.sweepFor · a) := by
  have h1 : s.endWaits i a = s := by unfold State.endWaits Slice.ents; rw [ht]; rfl
  have h2 : s.clearRecs i (fun r => r.ag == a) = s := by
    unfold State.clearRecs
    dsimp only
    rw [hr]
    exact modSlice_same _ _ _ (by rw [hr]; exact congrArg (fun l => { s.slice i with recs := l }) hr.symm)
  have h3 : s.fenceIngress i a = t := by
    unfold State.fenceIngress
    dsimp only
    rw [hw]
    exact foldl_fixed _ _ _ fun rq _ => leaveIngress_of_empty (tabGet_nil hb.ingress rq) _ _
  have h4 : t.dropWatch i a = t := by unfold State.dropWatch; rw [hb.desc]; rfl
  have hd := dom_on_of_awake hb.awake
  unfold State.fenceInSlice
  dsimp only
  rw [h1, h2, h3, h4, hf, hd.1]
  have hl : (t.slice i).ctl = { (t.slice i).ctl with waking := (t.slice i).ctl.waking || (!false && (Pwr.on != Pwr.off) && (t.slice i).asleep) } := by
    rw [hb.awake]
    simp
  refine modSlice_congr ?_
  rw [← hl]
  rfl

theorem fenceInSlice_bare {a : Agent} {i : Fin 17} (hb : Bare (s.slice i)) (hf : s.slFenced i = false) :
    s.fenceInSlice a i = s.modSlice i (Slice.sweepFor · a) :=
  fenceInSlice_hold hb.trk hb.recs (leaveHold_of_nil hb.hold _ _) hb hf

/-- What bare slices keep while an agent is fenced in them. -/
structure Swept (s t : State) : Prop where
  keeps : Keeps s t
  par : t.par = s.par
  src : t.flt.src = s.flt.src
  ports : t.ports = s.ports
  bare : ∀ i, Bare (s.slice i) → Bare (t.slice i)
  ledger : ∀ i, ∀ a ∈ (s.slice i).sw.ledgerAgents, a ∈ (t.slice i).sw.ledgerAgents

theorem Swept.refl (s : State) : Swept s s := ⟨.refl s, rfl, rfl, rfl, fun _ => id, fun _ _ => id⟩

theorem Swept.trans (h : Swept s t) (k : Swept t u) : Swept s u :=
  ⟨h.keeps.trans k.keeps, k.par.trans h.par, k.src.trans h.src, k.ports.trans h.ports, fun i hi => k.bare i (h.bare i hi), fun i a ha => k.ledger i a (h.ledger i a ha)⟩

theorem Swept.sweepFor (s : State) (i : Fin 17) (a : Agent) : Swept s (s.modSlice i (Slice.sweepFor · a)) := by
  refine ⟨.modSlice s i _ rfl rfl, rfl, rfl, rfl, fun j hj => ?_, fun j b hb => ?_⟩
  · by_cases e : j = i
    · subst e
      rw [modSlice_slice_self]
      exact hj.sweepFor a
    · rwa [modSlice_slice_ne _ _ e]
  · by_cases e : j = i
    · subst e
      rw [modSlice_slice_self]
      exact List.mem_append_left _ hb
    · rwa [modSlice_slice_ne _ _ e]

theorem foldl_fenceInSlice (a : Agent) (l : List (Fin 17)) (hb : ∀ i ∈ l, Bare (s.slice i)) (hf : ∀ i ∈ l, s.slFenced i = false) :
    Swept s (l.foldl (fun s i => s.fenceInSlice a i) s) := by
  induction l generalizing s with
  | nil => exact .refl s
  | cons i l ih =>
    rw [List.foldl_cons, fenceInSlice_bare (hb i List.mem_cons_self) (hf i List.mem_cons_self)]
    have h := Swept.sweepFor s i a
    exact h.trans (ih (fun j hj => h.bare j (hb j (List.mem_cons_of_mem _ hj))) fun j hj => hf j (List.mem_cons_of_mem _ hj))

end Sys2Proof.Safety
end


section
/-! O46: a request of the fenced agent that still waits for the slice to wake leaves it too, and its home credit goes back (R301, R306, R355):
the credits in use do not stand. -/

namespace Sys2Proof.Safety

open Sys2Proof.Machine

variable {s : State} {seq : BitVec 8} {n : Nat}

/-- A FENCE of an agent is the fence of that agent. -/
theorem fenceCmd_agent {a : Agent} (ha : s.flt.cmd.accepts seq = true) (h : unitOf n = .agent a) : s.fenceCmd seq n =
    (((s.modFlt fun x => { x with cmd := x.cmd.accept seq }).fenceAgent a).modFlt fun x => { x with cmd := x.cmd.complete }).done 59 := by
  simp [State.fenceCmd, State.fltCmd, ha, h]

/-- The fence of an agent marks it, discards what its port holds of it, and goes through the slices. -/
theorem fenceAgent_eq {a : Agent} {p : Fin 24} (hp : portOf a = some p) (hf : (s.src (srcAgent a)).fenced = false) :
    s.fenceAgent a = ((s.markFenced (srcAgent a) a true).fenceHeld p a).eachSlice fun s i => s.fenceInSlice a i := by
  unfold State.fenceAgent
  rw [hp]
  exact if_neg (by rw [hf]; exact Bool.false_ne_true)

/-- A port that holds nothing of the agent keeps what it holds. -/
theorem Keeps.fenceHeld {p : Fin 24} (a : Agent) (hh : (s.port p).held = []) (ho : (s.port p).orphans = []) : Keeps s (s.fenceHeld p a) := by
  unfold State.fenceHeld
  dsimp only
  rw [hh, ho, List.filter_nil, List.filter_nil, List.foldl_nil, List.foldl_nil]
  exact .modPort s p _ (by rw [hh]; rfl) rfl

/-- A request of agent 0 that a slice holds for its wake. -/
def waitingReq : Req := ⟨.req .upgr, ⟨0, 0, 0, 0, 5, 0⟩, some 0, 5, false, 0, none, 0, false⟩

/-- Slice 0, which is awake, holds it still. -/
def heldState : State :=
  (State.reset.modSlice 0 fun x => { x with wakeHold := [(0, waitingReq)] }).modPar fun x => { x with used := [(credKey 5 0 false, 1)] }

theorem heldState_quiet : Quiet heldState := (quiet_reset.modSlice 0 _ rfl rfl).modPar _ trivial rfl

/-- The slice without the request, which has been withdrawn. -/
def withdrawn (s : State) : State :=
  (((s.modSlice 0 fun x => { x with wakeHold := [] }).modPort 0 fun x => { x with cred := { x.cred with reqDue := [(0, 1)] } }).modPar
    fun x => { x with used := [] }).bump (slcPage 0) 0x354 23 16

theorem keeps_withdrawn (s : State) : Keeps s (withdrawn s) :=
  (((Keeps.modSlice s 0 _ rfl rfl).trans (.modPort _ 0 _ rfl rfl)).trans (.modPar _ _ rfl rfl)).trans (.bump _ _ _ _ _ (by unfold watched; decide))

theorem withdrawn_used (s : State) : (withdrawn s).par.used = [] := by
  obtain ⟨r, h⟩ := bump_frame (((s.modSlice 0 fun x => { x with wakeHold := [] }).modPort 0 fun x =>
    { x with cred := { x.cred with reqDue := [(0, 1)] } }).modPar fun x => { x with used := [] }) (slcPage 0) 0x354 23 16
  unfold withdrawn
  rw [h]
  rfl

theorem withdrawn_src (s : State) (n : Nat) : (withdrawn s).src n = s.src n := bump_src _ _ _ _ _ n

/-- Every slice but slice 0 holds nothing. -/
theorem bare_of_heldState : ∀ i : Fin 17, i ≠ 0 → Bare (heldState.slice i) := by
  have h : ∀ i : Fin 17, i ≠ 0 → ((heldState.slice i).trk = [] ∧ (heldState.slice i).recs = [] ∧ (heldState.slice i).ingress = []) ∧
    (heldState.slice i).ar.desc = [] ∧ (heldState.slice i).wakeHold = [] ∧ (heldState.slice i).asleep = false := by decide
  intro i hi
  obtain ⟨⟨h1, h2, h3⟩, h4, h5, h6⟩ := h i hi
  exact ⟨h1, h2, h3, h4, h5, h6⟩

/-- The sweeps in every slice, after the request in slice 0 has been withdrawn. -/
theorem eachSlice_withdrawn {s : State} (a : Agent)
    (hl : s.leaveHold 0 (fun r => r.a.src == a && r.port.isSome) (fun s r => s.withdraw 0 r false) = withdrawn s)
    (h0 : (s.slice 0).trk = [] ∧ (s.slice 0).recs = []) (hb : ∀ i, Bare ((withdrawn s).slice i)) (hf : ∀ i, s.slFenced i = false) :
    Swept (withdrawn s) (s.eachSlice fun s i => s.fenceInSlice a i) ∧
      a ∈ ((s.eachSlice fun s i => s.fenceInSlice a i).slice 0).sw.ledgerAgents := by
  have hf' : ∀ i, (withdrawn s).slFenced i = false := fun i => by
    unfold State.slFenced
    rw [withdrawn_src]
    exact hf i
  have h := Swept.sweepFor (withdrawn s) 0 a
  have hstep : s.fenceInSlice a 0 = (withdrawn s).modSlice 0 (Slice.sweepFor · a) := fenceInSlice_hold h0.1 h0.2 hl (hb 0) (hf' 0)
  have hall := foldl_fenceInSlice (s := (withdrawn s).modSlice 0 (Slice.sweepFor · a)) a ((List.finRange 16).map Fin.succ)
    (fun i _ => h.bare i (hb i)) fun i _ => hf' i
  rw [← hstep] at h hall
  have hfold : s.eachSlice (fun s i => s.fenceInSlice a i) = ((List.finRange 16).map Fin.succ).foldl (fun s i => s.fenceInSlice a i) (s.fenceInSlice a 0) := by
    unfold State.eachSlice
    rw [List.finRange_succ, List.foldl_cons]
  have hmem : a ∈ ((s.fenceInSlice a 0).slice 0).sw.ledgerAgents := by
    rw [hstep, modSlice_slice_self]
    exact List.mem_append_right _ (List.mem_singleton_self a)
  rw [hfold]
  generalize ((List.finRange 16).map Fin.succ).foldl (fun s i => s.fenceInSlice a i) (s.fenceInSlice a 0) = t at hall ⊢
  exact ⟨h.trans hall, hall.ledger 0 a hmem⟩

/-- The state at the sweeps of a FENCE of agent 0. -/
def heldFenced : State := ((heldState.modFlt fun x => { x with cmd := x.cmd.accept 1 }).markFenced (srcAgent 0) 0 true).fenceHeld 0 0

theorem heldFenced_keeps : Keeps heldState heldFenced :=
  ((Keeps.modFlt heldState _ rfl rfl).trans (.markFenced _ _ _ _)).trans (.fenceHeld 0 (by decide) (by decide))

theorem heldFenced_leaves :
    heldFenced.leaveHold 0 (fun r => r.a.src == 0 && r.port.isSome) (fun s r => s.withdraw 0 r false) = withdrawn heldFenced := rfl

theorem withdrawn_bare {s : State} (h : ∀ i, i ≠ 0 → Bare (s.slice i)) (h0 : Bare ({ s.slice 0 with wakeHold := [] } : Slice)) (i : Fin 17) :
    Bare ((withdrawn s).slice i) := by
  have hs : (withdrawn s).slice i = (s.modSlice 0 fun x => { x with wakeHold := [] }).slice i := by
    unfold withdrawn
    obtain ⟨r, hr⟩ := bump_frame (((s.modSlice 0 fun x => { x with wakeHold := [] }).modPort 0 fun x =>
      { x with cred := { x.cred with reqDue := [(0, 1)] } }).modPar fun x => { x with used := [] }) (slcPage 0) 0x354 23 16
    rw [hr]
    rfl
  rw [hs]
  by_cases e : i = 0
  · subst e
    rw [modSlice_slice_self]
    exact h0
  · rw [modSlice_slice_ne _ _ e]
    exact h i e

/-- Refutes O46: slice 0, which is awake, still holds a request of the agent; the fence withdraws it and returns its home credit. -/
theorem not_fenceOfAgentSweeps : ¬ Obligations.FenceOfAgentSweeps := by
  intro h
  obtain ⟨t, ht, -, -, -, -, -, -, hpar, -⟩ := h heldState 1 0 0 heldState_quiet (by decide) (by decide) rfl (by decide) (by decide) (by decide)
    (by decide) (by decide) (by decide)
  obtain ⟨hsw, -⟩ := eachSlice_withdrawn (s := heldFenced) 0 heldFenced_leaves ⟨rfl, rfl⟩
    (withdrawn_bare bare_of_heldState ⟨rfl, rfl, rfl, rfl, rfl, rfl⟩) (by decide)
  obtain ⟨u, hu⟩ : ∃ u, u = heldFenced.eachSlice fun s i => s.fenceInSlice 0 i := ⟨_, rfl⟩
  rw [← hu] at hsw
  have hk : Keeps heldState u := (heldFenced_keeps.trans (keeps_withdrawn _)).trans hsw.keeps
  have hq : Quiet u := hk.quiet heldState_quiet
  have heff : heldState.fenceCmd 1 (BitVec.ofNat 7 (srcAgent 0)).toNat = (u.modFlt fun x => { x with cmd := x.cmd.complete }).done 59 := by
    rw [fenceCmd_agent (a := 0) (by decide) (by decide), fenceAgent_eq (p := 0) (by decide) (by decide), hu]
    rfl
  have hend : exec (.fence 1 (BitVec.ofNat 7 (srcAgent 0))) heldState = _ := ((hq.modFlt _ rfl rfl).done 59).ends heff
    ((done_pending _ _).trans (hk.pending)) ((done_now _ _).trans hk.now)
  rw [hend] at ht
  cases ht
  have hp : u.par = heldState.par := (done_par (u.modFlt fun x => { x with cmd := x.cmd.complete }) 59).symm.trans hpar
  rw [hsw.par] at hp
  have he : ([] : Tab Nat) = [(credKey 5 0 false, 1)] := (withdrawn_used heldFenced).symm.trans (congrArg Par.used hp)
  exact absurd he (by decide)

end Sys2Proof.Safety
end


section
/-! O55: a request of one of the port's agents that still waits for a slice to wake leaves it with the fence that the port's reset brings, and
its home credit goes back (R301, R306, R398): the credits in use do not stand. -/

namespace Sys2Proof.Safety

open Sys2Proof.Machine

variable {s t u : State}

/-- While the sweeps of a port's reset run, nothing else follows. -/
theorem settle_of_sweeping {p : Fin 24} {x : Port} (h : Quiet s) (hx : x.held = (s.port p).held) (ht : t = s.modPort p fun _ => x)
    (hs : t.portSweeping p = true) : t.settle = t.syncPower.setPins := by
  have hport : ∀ q, q ≠ p → t.port q = s.port q := fun q hq => by rw [ht, modPort_port_ne _ _ hq]
  have hheld : ∀ q, ∀ k ∈ (t.port q).held, k.why ≠ .admission ∧ t.heldReady k = false := fun q k hk => by
    rw [show t.heldReady k = s.heldReady k by rw [ht]; rfl]
    refine (h.ports q).2 k ?_
    by_cases e : q = p
    · rw [e, ht, modPort_port_self, hx] at hk
      rwa [e]
    · rwa [← hport q e]
  have hreset : t.portResetStep = t := foldl_fixed _ _ _ fun q _ => if_neg fun hc => by
    obtain ⟨h1, h2⟩ := Bool.and_eq_true_iff.1 hc
    by_cases e : q = p
    · rw [e, hs] at h2
      nomatch h2
    · rw [hport q e, (h.ports q).1] at h1
      nomatch h1
  have hrun : t.movePrep = t := movePrep_of_run (by rw [ht]; exact h.run)
  have hadm : t.liftHold = t := liftHold_of_adm (by rw [ht]; exact h.adm)
  have heng : t.engineSteps = t := engineSteps_of_waits (by rw [ht]; exact h.load) (by rw [ht]; exact h.job)
  have hgc : t.commitStep = t := commitStep_of_stt (by rw [ht]; exact h.gc)
  have hstt : t.startStep = t := startStep_of_stt (by rw [ht]; exact h.stt)
  have hmsc : t.disableStep = t := disableStep_of_msc (by rw [ht]; exact h.msc)
  have hdet : t.detWake = t := detWake_of_awake (by rw [ht]; exact h.det)
  have hbc : t.bcastStep = t := bcastStep_of_nil (by rw [ht]; exact h.sweep)
  have hlt : t.ltBackStep = t := ltBackStep_of_run (by rw [ht]; exact h.back)
  have hslc : t.slcResetStep = t := slcResetStep_of_none fun i => by rw [ht]; exact (h.slices i).1
  have hrd : t.csrReads = t := csrReads_of_held (by rw [ht]; exact h.reads)
  have hself : t.selfSteps = t := selfSteps_eq (s₁ := t) (s₂ := t) (s₄ := t) (by rw [hrun, hadm, heng]) (by rw [hgc, hstt, hmsc]) hdet
    (by rw [hbc, hlt, hreset, hslc, hrd])
    (by rw [recheck_of_none fun q k hk => (hheld q k hk).2, pump_of_none fun q k hk => (hheld q k hk).1])
  have hdue : t.flt.due = [] := by rw [ht]; exact h.due
  exact settle_of_selfSteps hdue hself (by rw [ht]; exact h.net) hdue fun i => by rw [ht]; exact (h.slices i).2

/-- A port that has changed is put back. -/
theorem Keeps.putBack {p : Fin 24} {y z : Port} (k : Keeps (s.modPort p fun _ => y) t) (hh : z.held = (s.port p).held)
    (hr : z.resetting = (s.port p).resetting) : Keeps s (t.modPort p fun _ => z) := by
  refine ⟨k.due, k.run, k.glb, k.phase, k.job, k.parts, k.pins, k.noc, k.csr, k.reg, fun q => ?_, k.slices, k.pending, k.now⟩
  have hq := k.ports q
  by_cases e : q = p
  · rw [e, modPort_port_self]
    exact ⟨hh, hr⟩
  · rw [modPort_port_ne _ _ e] at hq ⊢
    exact hq

theorem Keeps.withSlices (s : State) (v : Vector Slice 17) (h : ∀ i : Fin 17, v[i.val].ctl = (s.slice i).ctl ∧ v[i.val].mem.ctl = (s.slice i).mem.ctl) :
    Keeps s { s with slices := v } :=
  { Keeps.refl s with slices := h }

theorem mapSlices_ports (s : State) (g : Fin 17 → Slice → Slice) : (s.mapSlices g).ports = s.ports := by
  unfold State.mapSlices
  dsimp only

/-- The sweeps of a port's reset, where every ledger is to be swept for its agents. -/
theorem Swept.sweepPort (s : State) (p : Fin 24) : Swept s (s.sweepPort p) := by
  rw [show s.sweepPort p = s.mapSlices fun _ x => { x with sw := { x.sw with
    ledgerAgents := x.sw.ledgerAgents ++ (agentsOf p).filter fun a => !x.sw.ledgerAgents.contains a } } from eachSlice_eq s _ _ fun _ _ => rfl]
  refine ⟨.withSlices s _ fun i => by rw [Vector.getElem_ofFn]; exact ⟨rfl, rfl⟩, rfl, rfl, mapSlices_ports _ _, fun i hi => ?_, fun i a ha => ?_⟩
  · rw [mapSlices_slice]
    exact ⟨hi.trk, hi.recs, hi.ingress, hi.desc, hi.hold, hi.awake⟩
  · rw [mapSlices_slice]
    exact List.mem_append_left _ ha

/-- A port that is reset with the request of agent 0 in slice 0. -/
def heldReset : State := heldState.modPort 0 fun x => { x.linkDown with rst := x.rst.accept 1, resetting := true }

/-- The state at the sweeps of its agent 0. -/
def resetFenced : State := ((heldReset.markFenced (srcPort 0) 63 true).markFenced (srcAgent 0) 0 true).fenceHeld 0 0

theorem resetFenced_keeps : Keeps heldReset resetFenced :=
  ((Keeps.markFenced heldReset _ _ _).trans (.markFenced _ _ _ _)).trans (.fenceHeld 0 (by decide) (by decide))

theorem resetFenced_leaves :
    resetFenced.leaveHold 0 (fun r => r.a.src == 0 && r.port.isSome) (fun s r => s.withdraw 0 r false) = withdrawn resetFenced := rfl

theorem resetFenced_fencePort (h : resetFenced.eachSlice (fun s i => s.fenceInSlice 0 i) = u) : heldReset.fencePort 0 = u.fenceAgent 1 := by
  have h1 : (heldReset.markFenced (srcPort 0) 63 true).fenceAgent 0 = u := by
    rw [fenceAgent_eq (p := 0) (by decide) (by decide)]
    exact h
  unfold State.fencePort
  rw [if_neg (by decide), show agentsOf 0 = [0, 1] by decide, List.foldl_cons, List.foldl_cons, List.foldl_nil, h1]

/-- The fence of an agent of whom the slices and its port hold nothing. -/
theorem fenceAgent_bare {a : Agent} {p : Fin 24} (hp : portOf a = some p) (hf : (s.src (srcAgent a)).fenced = false)
    (hh : (s.port p).held = []) (ho : (s.port p).orphans = []) (hb : ∀ i, Bare (s.slice i)) (hs : ∀ i, s.slFenced i = false) :
    Keeps s (s.fenceAgent a) ∧ (s.fenceAgent a).par = s.par ∧ ∀ i, ∀ b ∈ (s.slice i).sw.ledgerAgents, b ∈ ((s.fenceAgent a).slice i).sw.ledgerAgents := by
  rw [fenceAgent_eq hp hf]
  obtain ⟨r, l, x, d, hm⟩ := EventOnly.markFenced s (srcAgent a) a true
  have hk := Keeps.markFenced s (srcAgent a) a true
  have hsrc (i : Fin 17) : (s.markFenced (srcAgent a) a true).slFenced i = false := by
    unfold State.slFenced
    rw [markFenced_src, if_neg (by unfold srcSlice srcAgent; omega)]
    exact hs i
  obtain ⟨v, hv⟩ : ∃ v, v = s.markFenced (srcAgent a) a true := ⟨_, rfl⟩
  rw [← hv] at hm hk hsrc ⊢
  have hslice : ∀ i, v.slice i = s.slice i := fun i => by rw [hm]; rfl
  have hpar : v.par = s.par := by rw [hm]
  have hport : ∀ q, v.port q = s.port q := fun q => by rw [hm]; rfl
  have hkh := Keeps.fenceHeld (s := v) (p := p) a (by rw [hport, hh]) (by rw [hport, ho])
  have hw : v.fenceHeld p a = v.modPort p fun _ => (v.fenceHeld p a).port p := by
    unfold State.fenceHeld
    dsimp only
    rw [hport, hh, ho, List.filter_nil, List.filter_nil, List.foldl_nil, List.foldl_nil, modPort_port_self]
    exact modPort_const _ _ _
  generalize (v.fenceHeld p a).port p = y at hw
  rw [hw] at hkh ⊢
  have hsw : Swept _ ((v.modPort p fun _ => y).eachSlice fun s i => s.fenceInSlice a i) :=
    foldl_fenceInSlice a (List.finRange 17) (fun i _ => by rw [modPort_slice, hslice]; exact hb i) fun i _ => hsrc i
  obtain ⟨w, hw'⟩ : ∃ w, w = (v.modPort p fun _ => y).eachSlice fun s i => s.fenceInSlice a i := ⟨_, rfl⟩
  rw [← hw'] at hsw ⊢
  refine ⟨(hk.trans hkh).trans hsw.keeps, hsw.par.trans ((modPort_par _ _ _).trans hpar), fun i b hbi => hsw.ledger i b ?_⟩
  rw [modPort_slice, hslice]
  exact hbi

theorem withdrawn_orphans (s : State) (h : (s.port 0).orphans = []) : ((withdrawn s).port 0).orphans = [] := by
  unfold withdrawn
  rw [show ∀ (s : State) n o hi lo q, (s.bump n o hi lo).port q = s.port q from fun s n o hi lo q => by
    obtain ⟨r, h⟩ := bump_frame s n o hi lo; rw [h]; rfl, modPar_port, modPort_port_self]
  exact h

/-- The state after the fence of the port. -/
theorem resetFenced_ends : ∃ u, heldReset.fencePort 0 = u ∧ Keeps heldReset u ∧ u.par.used = [] ∧ (0 : Agent) ∈ (u.slice 0).sw.ledgerAgents := by
  have hb := withdrawn_bare (s := resetFenced) bare_of_heldState ⟨rfl, rfl, rfl, rfl, rfl, rfl⟩
  obtain ⟨hsw, hag⟩ := eachSlice_withdrawn (s := resetFenced) 0 resetFenced_leaves ⟨rfl, rfl⟩ hb (by decide)
  obtain ⟨u, hu⟩ : ∃ u, resetFenced.eachSlice (fun s i => s.fenceInSlice 0 i) = u := ⟨_, rfl⟩
  rw [hu] at hsw hag
  have hku : Keeps heldReset u := (resetFenced_keeps.trans (keeps_withdrawn _)).trans hsw.keeps
  have hsrc (n : Nat) : u.src n = resetFenced.src n := by
    unfold State.src
    rw [hsw.src]
    exact withdrawn_src _ n
  have hport : (u.port 0).orphans = [] := by
    unfold State.port
    rw [hsw.ports]
    exact withdrawn_orphans _ (by decide)
  obtain ⟨hk, hp, hl⟩ := fenceAgent_bare (s := u) (a := 1) (p := 0) (by decide) (by rw [hsrc]; decide) ((hku.ports 0).1.trans (by decide)) hport
    (fun i => hsw.bare i (hb i)) (fun i => by unfold State.slFenced; rw [hsrc]; revert i; decide)
  exact ⟨_, resetFenced_fencePort hu, hku.trans hk, by rw [hp, hsw.par, withdrawn_used], hl 0 0 hag⟩

/-- Refutes O55: slice 0, which is awake, still holds a request of the port's agent 0; the fence withdraws it and returns its home credit. -/
theorem not_resetOfSliceAndPort : ¬ Obligations.ResetOfSliceAndPort := by
  intro h
  obtain ⟨-, hport⟩ := h.2 heldState 0 0 1 heldState_quiet
  obtain ⟨t, ht, -, -, -, -, -, -, -, -, -, hpar, -⟩ := hport (by decide) (by decide) (by decide) (by decide)
  obtain ⟨u, hu, hk, hused, hsweep⟩ := resetFenced_ends
  have hsw := Swept.sweepPort u 0
  have hkw : Keeps heldState ((u.sweepPort 0).modPort 0 fun _ => { (u.sweepPort 0).port 0 with resetting := false }) :=
    Keeps.putBack (hk.trans hsw.keeps) (((hk.trans hsw.keeps).ports 0).1.trans (by decide)) (show false = _ by decide)
  have hset : (u.sweepPort 0).settle = (u.sweepPort 0).syncPower.setPins := by
    refine settle_of_sweeping (x := (u.sweepPort 0).port 0) (p := 0) (hkw.quiet heldState_quiet) ?_ ?_ ?_
    · rw [modPort_port_self]
    · rw [modPort_modPort]
      exact (modPort_same _ _ _ rfl).symm
    · refine List.any_eq_true.2 ⟨0, List.mem_finRange _, List.any_eq_true.2 ⟨0, by decide, ?_⟩⟩
      rw [List.contains_iff_mem.2 (hsw.ledger 0 0 hsweep)]
      rfl
  have heff : heldState.portResetCmd 0 1 = u.sweepPort 0 := by
    unfold State.portResetCmd
    rw [if_neg (by decide), ← hu]
    rfl
  have hend : exec (.portReset 0 1) heldState = .next _ := commandEnd_settle ((congrArg State.settle heff).trans hset)
    ((syncPower_pending _).trans (hsw.keeps.pending.trans hk.pending)) ((syncPower_now _).trans (hsw.keeps.now.trans hk.now))
  rw [hend] at ht
  cases ht
  have hp : (u.sweepPort 0).par = heldState.par := (syncPower_par _).symm.trans hpar
  rw [hsw.par] at hp
  have he : ([] : Tab Nat) = [(credKey 5 0 false, 1)] := hused.symm.trans (congrArg Par.used hp)
  exact absurd he (by decide)

end Sys2Proof.Safety
end


section
/-! O48: an evacuation goes on set by set (R364, R365). -/

namespace Sys2Proof.Safety

open Sys2Proof.Machine

variable {s : State} {m m' : Move}

/-- A move that goes on, with its home, its kind and its destination, and that has prepared its destination. -/
theorem Quiet.withMove (h : Quiet s) (hm : s.flt.run = some m) (hk : m'.kind = m.kind) (hh : m'.home = m.home) (hd : m'.dst = m.dst)
    (hc : m'.checked = true) : Quiet (s.modFlt fun f => { f with run := some m' }) where
  due := h.due
  run n hn := by
    cases hn
    exact .inl hc
  adm k hk' := by
    obtain ⟨n, hn, h1, h2⟩ := h.adm k hk'
    rw [hm] at hn
    cases hn
    exact ⟨m', rfl, hh.trans h1, by rw [hk]; exact h2⟩
  load := h.load
  job := h.job
  gc := h.gc
  stt := h.stt
  msc := h.msc
  sweep := h.sweep
  back _ := nofun
  ports := h.ports
  net := h.net
  det := h.det
  reads := h.reads
  slices := h.slices
  supply k hk' hp := by
    refine (h.supply k hk' hp).trans ?_
    have hw : ∀ i, (s.modFlt fun f => { f with run := some m' }).wantsC i = s.wantsC i := fun i => by
      unfold State.wantsC
      rw [hm, modFlt_flt]
      dsimp only
      rw [hd]
      rfl
    unfold State.pdWant
    dsimp only
    rw [hw]
    rfl
  links := h.links

/-- A route of the table that changes. -/
theorem Quiet.withRoute (h : Quiet s) (r : Route) : Quiet (s.modGlb fun g => { g with route := r }) :=
  h.modGlb _ rfl h.load h.gc rfl rfl rfl ⟨rfl, rfl⟩

variable {k : Nat} {p : Fin 24}

/-- An evacuation whose destination is prepared begins with set 0. -/
theorem evacStep_begins (hm : s.flt.run = some m) (he : evacLike m.kind = true) (hp : m.phase = .prepare) (hc : m.checked = true)
    (hd : s.destReady m.dst = true) (ha : (s.slice m.src).asleep = false) :
    s.evacStep = ((s.modSlice m.src fun x => { x with resv := [] }).modGlb fun g =>
      { g with route := ⟨true, m.home, BitVec.ofNat 5 m.dst.val, 0⟩ }).modFlt fun f => { f with run := some { m with phase := .hold 0 } } := by
  unfold State.evacStep
  rw [hm]
  dsimp only
  rw [he, hp, hc, hd, ha]
  rfl

/-- A set that is quiet moves. -/
theorem evacStep_moves (hm : s.flt.run = some m) (he : evacLike m.kind = true) (hp : m.phase = .hold k) (hq : s.setQuiet m.src m.home k = true) :
    s.evacStep = s.setMoved m k := by
  unfold State.evacStep
  rw [hm]
  dsimp only
  rw [he, hp]
  dsimp only
  rw [hq]
  exact (if_neg (by decide)).trans (if_pos rfl)

/-- With its release the next set is held. -/
theorem evacStep_nextSet (hm : s.flt.run = some m) (he : evacLike m.kind = true) (hp : m.phase = .spread k) (hr : m.released = true)
    (ht : m.tell = []) (hs : m.sent ≤ m.passed) :
    s.evacStep = s.modFlt fun f => { f with run := some { m with phase := if k + 1 < 16384 then .hold (k + 1) else .final } } := by
  unfold State.evacStep
  rw [hm]
  dsimp only
  rw [he, hp]
  dsimp only
  rw [hr, ht, decide_eq_true hs]
  rfl

theorem tablePort_told (hm : s.flt.run = some m) (hp : p ∈ m.tell) :
    s.tablePort p = (s.modPort p fun x => { x with route := s.glb.route, marker := true }).modFlt fun f =>
      { f with run := some { m with tell := m.tell.filter (· ≠ p) } } := by
  unfold State.tablePort
  rw [hm]
  exact if_pos (List.contains_iff_mem.2 hp)

/-- No flit is on networks that are empty. -/
theorem netFlits_clear (h : s.noc.bufs = [] ∧ s.noc.wait = []) (q : NetFlit → Bool) : s.netFlits.any q = false := by
  unfold State.netFlits
  rw [h.1, h.2]
  rfl

theorem releaseArrive_releases (h : s.noc.bufs = [] ∧ s.noc.wait = []) (hm : s.flt.run = some m) (hp : m.phase = .spread k) (hk : m.mark = []) :
    s.releaseArrive = s.modFlt fun f => { f with run := some { m with released := true } } := by
  unfold State.releaseArrive
  rw [hm]
  dsimp only
  rw [hp]
  dsimp only
  rw [netFlits_clear h, hk]
  exact if_pos rfl

/-! ### The step of a set -/

theorem sfGet_sfSet_self (x : Slice) (k w : Nat) (v : SfWay) : (x.sfSet k w v).sfGet k w = if v.dir = .un then ⟨0, .un⟩ else v :=
  tabGet_tabSet_self _ _ _ _

theorem sfGet_sfSet_ne (x : Slice) {k w j l : Nat} (v : SfWay) (h : 16 * j + l ≠ 16 * k + w) : (x.sfSet k w v).sfGet j l = x.sfGet j l :=
  tabGet_tabSet_ne _ _ _ _ _ _ h

/-- Ways that are written one after another, each once. -/
theorem sfGet_foldl_sfSet (f : Nat → SfWay) (k : Nat) (l : List Nat) (x : Slice) (w : Nat) :
    (l.foldl (fun x w => x.sfSet k w (f w)) x).sfGet k w = if w ∈ l then (if (f w).dir = .un then ⟨0, .un⟩ else f w) else x.sfGet k w := by
  induction l generalizing x with
  | nil => rfl
  | cons v l ih =>
    rw [List.foldl_cons, ih]
    by_cases hw : w ∈ l
    · rw [if_pos hw, if_pos (List.mem_cons_of_mem _ hw)]
    · rw [if_neg hw]
      by_cases e : w = v
      · subst e
        rw [sfGet_sfSet_self, if_pos List.mem_cons_self]
      · rw [sfGet_sfSet_ne _ _ (by omega), if_neg (by simp [e, hw])]

/-- A slice that changes in its arrays alone. -/
def arOnly (x y : Slice) : Prop := y = { x with ar := y.ar }

theorem arOnly_foldl_sfSet (f : Nat → SfWay) (k : Nat) (l : List Nat) (x y : Slice) (h : arOnly x y) :
    arOnly x (l.foldl (fun x w => x.sfSet k w (f w)) y) := by
  induction l generalizing y with
  | nil => exact h
  | cons v l ih =>
    refine ih (y.sfSet k v (f v)) ?_
    unfold arOnly at h ⊢
    rw [h]
    rfl

/-- A way that holds no error is read as it stands. -/
theorem readSf_of_nil {i : Fin 17} {w : Nat} (h : (s.slice i).ar.inj = []) (hok : ((s.slice i).sfGet k w).dir.ok = true) : s.readSf i k w = s := by
  unfold State.readSf
  rw [readWord_of_nil h]
  dsimp only
  rw [hok]
  rfl

/-- The ways of the source, as they come to the destination. -/
def takenSet (y x : Slice) (k : Nat) : Slice := (List.range 16).foldl (fun y w => y.sfSet k w (x.sfGet k w)) (y.replSet k (x.replGet k))

/-- The ways of the source become UN. -/
def droppedSet (x : Slice) (k : Nat) : Slice := (List.range 16).foldl (fun x w => x.sfSet k w ⟨0, .un⟩) (x.replSet k 0)

theorem takenSet_arOnly (y x : Slice) (k : Nat) : arOnly y (takenSet y x k) := arOnly_foldl_sfSet _ _ _ _ _ (by rfl)

theorem droppedSet_arOnly (x : Slice) (k : Nat) : arOnly x (droppedSet x k) := arOnly_foldl_sfSet _ _ _ _ _ (by rfl)

theorem takenSet_sfGet (y x : Slice) (k : Nat) {w : Nat} (hw : w < 16) :
    (takenSet y x k).sfGet k w = if (x.sfGet k w).dir = .un then ⟨0, .un⟩ else x.sfGet k w := by
  unfold takenSet
  rw [sfGet_foldl_sfSet, if_pos (List.mem_range.2 hw)]

theorem droppedSet_sfGet (x : Slice) (k : Nat) {w : Nat} (hw : w < 16) : (droppedSet x k).sfGet k w = ⟨0, .un⟩ := by
  unfold droppedSet
  rw [sfGet_foldl_sfSet (fun _ => ⟨0, .un⟩), if_pos (List.mem_range.2 hw), if_pos rfl]

theorem moveSet_eq {i d : Fin 17} (h : (s.slice i).ar.inj = []) (hok : ∀ w < 16, ((s.slice i).sfGet k w).dir.ok = true) (hd : i ≠ d) :
    s.moveSet i d k = (s.modSlice d fun _ => takenSet (s.slice d) (s.slice i) k).modSlice i fun _ => droppedSet (s.slice i) k := by
  have h1 : (List.range 16).foldl (fun s w => s.readSf i k w) s = s := foldl_fixed _ _ _ fun w hw => readSf_of_nil h (hok w (List.mem_range.1 hw))
  unfold State.moveSet
  dsimp only
  rw [h1, readRepl_of_nil h]
  refine (modSlice_const _ i _).trans ?_
  rw [modSlice_slice_ne _ _ hd, modSlice_const s d]
  rfl

theorem takeRecs_of_nil {i : Fin 17} (h : (s.slice i).recs = []) (hm : Fin 16) (set : Option Nat) : s.takeRecs i hm set = (s, []) := by
  unfold State.takeRecs State.clearRecs
  dsimp only
  rw [h]
  exact congrArg (·, []) (modSlice_same _ _ _ (by rw [h]; exact congrArg (fun l => { s.slice i with recs := l }) h.symm))

theorem moveRecs_of_nil {i : Fin 17} (h : (s.slice i).recs = []) (d : Fin 17) (hm : Fin 16) (set : Option Nat) : s.moveRecs i d hm set = s := by
  unfold State.moveRecs
  rw [takeRecs_of_nil h]
  rfl

/-- Nothing of a set is forwarded from a slice in which no request waits. -/
theorem forwardSet_of_empty {i : Fin 17} (ht : (s.slice i).trk = []) (hi : (s.slice i).ingress = []) (hw : (s.slice i).wakeHold = []) (h : Fin 16) :
    s.forwardSet i h k = s := by
  have he : ((s.slice i).ents.filter fun e => !hasVerb e.2.stat && e.2.stat != .record && e.2.r.ofSet h k).mergeSort
      (fun a b => a.2.age ≤ b.2.age) = [] := by
    unfold Slice.ents
    rw [ht, List.filterMap_nil, List.filter_nil, List.mergeSort_nil]
  have hl : (List.range 26).foldl (fun s rq => s.leaveIngress i rq (·.ofSet h k) fun s r => s.forward i rq r) s = s :=
    foldl_fixed _ _ _ fun rq _ => leaveIngress_of_empty (tabGet_nil hi rq) _ _
  unfold State.forwardSet
  dsimp only
  rw [he, List.foldl_nil, List.foldl_nil, hl, leaveHold_of_nil hw]

/-- Where nothing of it is held at the source, a set moves with its entries alone. -/
theorem setMoved_eq (hinj : (s.slice m.src).ar.inj = []) (hok : ∀ w < 16, ((s.slice m.src).sfGet k w).dir.ok = true)
    (ht : (s.slice m.src).trk = []) (hi : (s.slice m.src).ingress = []) (hw : (s.slice m.src).wakeHold = []) (hr : (s.slice m.src).recs = [])
    (hsd : m.src ≠ m.dst) :
    s.setMoved m k = (((s.modSlice m.dst fun _ => takenSet (s.slice m.dst) (s.slice m.src) k).modSlice m.src fun _ =>
      droppedSet (s.slice m.src) k).modGlb fun g =>
      { g with route := ⟨true, m.home, BitVec.ofNat 5 m.dst.val, BitVec.ofNat 15 (k + 1)⟩ }).modFlt fun f => { f with run := some { m with
        phase := .spread k, tell := allPorts, mark := allPorts, sent := 0, passed := 0, released := false } } := by
  obtain ⟨t, ht'⟩ : ∃ t, t = (s.modSlice m.dst fun _ => takenSet (s.slice m.dst) (s.slice m.src) k).modSlice m.src fun _ =>
    droppedSet (s.slice m.src) k := ⟨_, rfl⟩
  have hx : arOnly (s.slice m.src) (t.slice m.src) := by
    rw [ht', modSlice_slice_self]
    exact droppedSet_arOnly _ _
  unfold arOnly at hx
  unfold State.setMoved
  dsimp only
  rw [moveSet_eq hinj hok hsd, ← ht', moveRecs_of_nil (by rw [hx]; exact hr)]
  refine forwardSet_of_empty ?_ ?_ ?_ _
  all_goals rw [modFlt_slice, modGlb_slice, hx]
  · exact ht
  · exact hi
  · exact hw

/-- The marker of a port reaches the source, which holds nothing for it to forward. -/
theorem markerPort_eq (hn : s.noc.bufs = [] ∧ s.noc.wait = []) (hm : s.flt.run = some m) (hp : m.phase = .spread k) (hmk : (s.port p).marker = true)
    (hin : p ∈ m.mark) (ht : (s.slice m.src).trk = []) (hi : (s.slice m.src).ingress = []) (hw : (s.slice m.src).wakeHold = []) :
    s.markerPort p = (s.modPort p fun x => { x with marker := false }).modFlt fun f =>
      { f with run := some { m with mark := m.mark.filter (· ≠ p) } } := by
  unfold State.markerPort State.portOnWay
  rw [hm]
  dsimp only
  rw [hp]
  dsimp only
  rw [hmk, List.contains_iff_mem.2 hin, netFlits_clear hn]
  refine (if_pos rfl).trans (forwardSet_of_empty ?_ ?_ ?_ _)
  all_goals rw [modFlt_slice, modPort_slice]
  · exact ht
  · exact hi
  · exact hw

/-- A quiet set moves: its entries are the destination's, the watermark passes it, and every port is to be told. -/
theorem evacSetStep_moves (hq : Quiet s) (hm : s.flt.run = some m) (he : evacLike m.kind = true) (hc : m.checked = true) (hp : m.phase = .hold k)
    (hsq : s.setQuiet m.src m.home k = true) (ht : (s.slice m.src).trk = []) (hi : (s.slice m.src).ingress = [])
    (hw : (s.slice m.src).wakeHold = []) (hr : (s.slice m.src).recs = []) (hinj : (s.slice m.src).ar.inj = [])
    (hok : ∀ w < 16, ((s.slice m.src).sfGet k w).dir.ok = true) (hsd : m.src ≠ m.dst) :
    ∃ t m', exec .evacSetStep s = .next t ∧ t.flt.run = some m' ∧ m'.phase = .spread k ∧ (∀ q, q ∈ m'.tell ∧ q ∈ m'.mark) ∧
      t.glb.route = ⟨true, m.home, BitVec.ofNat 5 m.dst.val, BitVec.ofNat 15 (k + 1)⟩ ∧
      (∀ w < 16, ((t.slice m.dst).sfGet k w).dir = ((s.slice m.src).sfGet k w).dir ∧
        (((s.slice m.src).sfGet k w).dir ≠ .un → ((t.slice m.dst).sfGet k w).tag = ((s.slice m.src).sfGet k w).tag) ∧
        (t.slice m.src).sfGet k w = ⟨0, .un⟩) ∧
      t.dram = s.dram ∧ t.chans = s.chans ∧ t.ports = s.ports := by
  have hmv := setMoved_eq (k := k) hinj hok ht hi hw hr hsd
  have hya := takenSet_arOnly (s.slice m.dst) (s.slice m.src) k
  have hxa := droppedSet_arOnly (s.slice m.src) k
  have hyg : ∀ w < 16, (takenSet (s.slice m.dst) (s.slice m.src) k).sfGet k w = _ := fun w hw => takenSet_sfGet _ _ _ hw
  have hxg : ∀ w < 16, (droppedSet (s.slice m.src) k).sfGet k w = _ := fun w hw => droppedSet_sfGet _ _ hw
  generalize takenSet (s.slice m.dst) (s.slice m.src) k = y at *
  generalize droppedSet (s.slice m.src) k = x at *
  unfold arOnly at hya hxa
  have hq1 : Quiet ((s.modSlice m.dst fun _ => y).modSlice m.src fun _ => x) :=
    (hq.modSlice m.dst (fun _ => y) (by rw [hya]) (by rw [hya])).modSlice m.src (fun _ => x)
      (by rw [modSlice_slice_ne _ _ hsd, hxa]) (by rw [modSlice_slice_ne _ _ hsd, hxa])
  have hd : ((s.modSlice m.dst fun _ => y).modSlice m.src fun _ => x).slice m.dst = y := by
    rw [modSlice_slice_ne _ _ hsd.symm, modSlice_slice_self]
  have hs : ((s.modSlice m.dst fun _ => y).modSlice m.src fun _ => x).slice m.src = x := modSlice_slice_self _ _ _
  obtain ⟨v, hv⟩ : ∃ v, v = (s.modSlice m.dst fun _ => y).modSlice m.src fun _ => x := ⟨_, rfl⟩
  have hvm : v.flt.run = some m ∧ v.dram = s.dram ∧ v.chans = s.chans ∧ v.ports = s.ports ∧ v.pending = s.pending ∧ v.now = s.now := by
    rw [hv]
    exact ⟨hm, rfl, rfl, rfl, rfl, rfl⟩
  rw [← hv] at hq1 hd hs hmv
  obtain ⟨hvr, hvd, hvc, hvp, hve, hvn⟩ := hvm
  have hend := ((hq1.withRoute ⟨true, m.home, BitVec.ofNat 5 m.dst.val, BitVec.ofNat 15 (k + 1)⟩).withMove
    (m' := { m with phase := .spread k, tell := allPorts, mark := allPorts, sent := 0, passed := 0, released := false })
    hvr rfl rfl rfl hc).ends ((evacStep_moves hm he hp hsq).trans hmv) hve hvn
  refine ⟨_, _, hend, rfl, rfl, fun q => ⟨List.mem_finRange q, List.mem_finRange q⟩, rfl, fun w hw => ?_, hvd, hvc, hvp⟩
  have hdw : (v.slice m.dst).sfGet k w = _ := (congrArg (·.sfGet k w) hd).trans (hyg w hw)
  have hsw : (v.slice m.src).sfGet k w = _ := (congrArg (·.sfGet k w) hs).trans (hxg w hw)
  refine ⟨(congrArg SfWay.dir hdw).trans ?_, fun hne => (congrArg SfWay.tag hdw).trans (by rw [if_neg hne]), hsw⟩
  split
  · next h => exact h.symm
  · rfl

/-- The marker of a port arrives: it is awaited no more. -/
theorem evacMarkerArrival_marks (hq : Quiet s) (hm : s.flt.run = some m) (hc : m.checked = true) (hp : m.phase = .spread k)
    (hmk : (s.port p).marker = true) (hin : p ∈ m.mark) (ht : (s.slice m.src).trk = []) (hi : (s.slice m.src).ingress = [])
    (hw : (s.slice m.src).wakeHold = []) :
    ∃ t m', exec (.evacMarkerArrival p) s = .next t ∧ t.flt.run = some m' ∧ p ∉ m'.mark ∧ m'.tell = m.tell ∧ m'.phase = .spread k ∧
      (t.port p).marker = false ∧ (∀ q, q ≠ p → t.port q = s.port q) ∧ t.glb = s.glb ∧ t.chans = s.chans ∧ t.dram = s.dram := by
  have hmp := markerPort_eq hq.net hm hp hmk hin ht hi hw
  have hq1 := hq.modPort p (fun x => { x with marker := false }) rfl fun _ => .inl
  obtain ⟨v, hv⟩ : ∃ v, v = s.modPort p fun x => { x with marker := false } := ⟨_, rfl⟩
  have hvp : (v.port p).marker = false ∧ ∀ q, q ≠ p → v.port q = s.port q := by
    rw [hv, modPort_port_self]
    exact ⟨rfl, fun q hq' => modPort_port_ne _ _ hq'⟩
  have hvf : v.flt.run = some m ∧ v.glb = s.glb ∧ v.chans = s.chans ∧ v.dram = s.dram ∧ v.pending = s.pending ∧ v.now = s.now := by
    rw [hv]
    exact ⟨hm, rfl, rfl, rfl, rfl, rfl⟩
  rw [← hv] at hmp hq1
  obtain ⟨hvr, hvg, hvc, hvd, hve, hvn⟩ := hvf
  have hend := (hq1.withMove (m' := { m with mark := m.mark.filter (· ≠ p) }) hvr rfl rfl rfl hc).ends hmp hve hvn
  exact ⟨_, _, hend, rfl, fun h => absurd (List.mem_filter.1 h).2 (by simp), rfl, hp, hvp.1, hvp.2, hvg, hvc, hvd⟩

/-- Settles O48: each thing that a running evacuation does is one of the steps above. -/
theorem evacuationGoesSetBySet : Obligations.EvacuationGoesSetBySet := by
  intro s m p k hq hm hk hc
  have he : evacLike m.kind = true := by rw [hk]; rfl
  refine ⟨fun hp hd ha => ?_, fun hp hsq ht hi hw hr hinj hok hsd => evacSetStep_moves hq hm he hc hp hsq ht hi hw hr hinj hok hsd, fun hp => ?_,
    fun hp hmk hin ht hi hw => evacMarkerArrival_marks hq hm hc hp hmk hin ht hi hw, fun hp hmk => ?_, fun hp hr ht hs => ?_⟩
  · have hq1 := (hq.modSlice m.src (fun x => { x with resv := [] }) rfl rfl).withRoute ⟨true, m.home, BitVec.ofNat 5 m.dst.val, 0⟩
    exact (hq1.withMove (m' := { m with phase := .hold 0 }) hm rfl rfl rfl hc).ends (evacStep_begins hm he hp hc hd ha) rfl rfl
  · exact ((hq.modPort p (fun x => { x with route := s.glb.route, marker := true }) rfl fun _ => .inl).withMove
      (m' := { m with tell := m.tell.filter (· ≠ p) }) hm rfl rfl rfl hc).ends (tablePort_told hm hp) rfl rfl
  · exact (hq.withMove (m' := { m with released := true }) hm rfl rfl rfl hc).ends (releaseArrive_releases hq.net hm hp hmk) rfl rfl
  · exact (hq.withMove (m' := { m with phase := if k + 1 < 16384 then .hold (k + 1) else .final }) hm rfl rfl rfl hc).ends
      (evacStep_nextSet hm he hp hr ht hs) rfl rfl

end Sys2Proof.Safety
end


section
/-! What the beginning of a move changes (R363, R368, R370, R402). -/

namespace Sys2Proof.Safety

open Sys2Proof.Machine

variable {s : State} {i d : Fin 17} {h : Fin 16} {k : MoveKind} {cmd : Bool}

/-- A slice that has been woken, and whose reservations may have ended, but that is as it was otherwise. -/
structure Woken (x y : Slice) : Prop where
  ctl : ∃ w f, y.ctl = { x.ctl with waking := w, fromOff := f }
  mem : y.mem = x.mem
  ar : y.ar = x.ar
  uc : y.uc = x.uc

theorem Woken.refl (x : Slice) : Woken x x := ⟨⟨_, _, rfl⟩, rfl, rfl, rfl⟩

theorem Woken.trans {x y z : Slice} (a : Woken x y) (b : Woken y z) : Woken x z := by
  obtain ⟨w, f, hb⟩ := b.ctl
  obtain ⟨w', f', ha⟩ := a.ctl
  exact ⟨⟨w, f, by rw [hb, ha]⟩, b.mem.trans a.mem, b.ar.trans a.ar, b.uc.trans a.uc⟩

theorem Woken.asleep {x y : Slice} (a : Woken x y) : y.asleep = x.asleep := by
  obtain ⟨w, f, ha⟩ := a.ctl
  unfold Slice.asleep
  rw [ha]

/-- State t is s with slices that have been woken. -/
def Wakes (s t : State) : Prop := ∃ v, t = { s with slices := v } ∧ ∀ j, Woken (s.slice j) (t.slice j)

theorem Wakes.refl (s : State) : Wakes s s := ⟨_, rfl, fun _ => .refl _⟩

theorem Wakes.trans {s t u : State} (a : Wakes s t) (b : Wakes t u) : Wakes s u := by
  obtain ⟨v, hv, hw⟩ := b
  obtain ⟨v', rfl, hw'⟩ := a
  exact ⟨v, hv, fun j => (hw' j).trans (hw j)⟩

theorem Wakes.modSlice (s : State) (i : Fin 17) (f : Slice → Slice) (hf : Woken (s.slice i) (f (s.slice i))) : Wakes s (s.modSlice i f) := by
  refine ⟨_, rfl, fun j => ?_⟩
  by_cases e : j = i
  · rw [e, modSlice_slice_self]
    exact hf
  · rw [modSlice_slice_ne _ _ e]
    exact .refl _

theorem Wakes.wakeFor (s : State) (i : Fin 17) (dst : Bool) : Wakes s (s.wakeFor i dst) := by
  refine .modSlice s i _ ?_
  dsimp only
  split
  · exact ⟨⟨_, _, rfl⟩, rfl, rfl, rfl⟩
  · exact .refl _

/-- A slice that is asleep wakes. -/
theorem wakeFor_waking (h : (s.slice i).asleep = true) (dst : Bool) : ((s.wakeFor i dst).slice i).ctl.waking = true := by
  unfold State.wakeFor
  rw [modSlice_slice_self, h]
  rfl

/-- A slice that no LOAD runs in leaves none. -/
theorem dropLoad_of_idle (h : s.glb.ld.st.res ≠ .running) (i : Fin 17) : s.dropLoad i = s := by
  unfold State.dropLoad
  exact if_neg fun hc => h (beq_iff_eq.1 (Bool.and_eq_true_iff.1 hc).1)

theorem logEnt_room (h : s.flt.log.length < 256) (e : LogEnt) : s.logEnt e = s.modFlt fun f => { f with log := f.log ++ [e] } := by
  unfold State.logEnt
  exact if_pos h

/-- A move that prepares waits for its destination to wake. -/
theorem movePrep_of_asleep {m : Move} (hm : s.flt.run = some m) (ha : (s.slice m.dst).asleep = true) : s.movePrep = s := by
  have hr : s.destReady m.dst = false := by unfold State.destReady; rw [ha]; rfl
  unfold State.movePrep
  rw [hm]
  dsimp only
  rw [hr, Bool.and_false]
  rfl

/-- The move that begins. -/
def newMove (k : MoveKind) (h : Fin 16) (src dst : Fin 17) (cmd : Bool) : Move :=
  { kind := k, home := h, src := src, dst := dst, phase := if evacLike k then .prepare else .copy, checked := false
    cmd := cmd, tell := [], mark := [], sent := 0, passed := 0, released := false }

/-- What begins a move that has been named: the slices wake, and what the kind of the move asks for. -/
def named (s : State) (k : MoveKind) (h : Fin 16) (src dst : Fin 17) : State :=
  let s := (s.wakeFor src false).wakeFor dst true
  let s := if evacLike k then s.dropLoad src else s
  let s := if k == .ret then s else s.dropLoad dst
  let s := if k == .ret then s.modSlice src fun x => { x with resv := [] } else s
  let s := if evacLike k then s else s.holdAdm h
  let s := if (s.src (srcSlice src)).severe || k == .takeover then s.mask src true else s
  (s.log 0x05 (srcSlice src)).movePrep

theorem beginMove_named (s : State) (k : MoveKind) (h : Fin 16) (src dst : Fin 17) (cmd : Bool) :
    s.beginMove k h src dst cmd = named (s.modFlt fun f => { f.name k h src dst with run := some (newMove k h src dst cmd) }) k h src dst := rfl

/-- A move to a slice that is asleep, from one that is not severe, while no LOAD runs: the slices are woken, the move is named and logged,
and admission of the home of a return is held. -/
theorem beginMove_eq (hk : k = .evac ∨ k = .ltMove ∨ k = .ret) (hs : (s.src (srcSlice i)).severe = false) (hl : s.glb.ld.st.res ≠ .running)
    (hd : (s.slice d).asleep = true) (hlog : s.flt.log.length < 256) : ∃ u, Wakes s u ∧ (u.slice d).ctl.waking = true ∧
      s.beginMove k h i d cmd = { u with
        flt := { s.flt.name k h i d with run := some (newMove k h i d cmd), log := s.flt.log ++ [⟨0x05, BitVec.ofNat 7 (srcSlice i), srcAg (srcSlice i), 0, 0, s.now⟩] }
        glb := if evacLike k then s.glb else { s.glb with admHold := s.glb.admHold ||| BitVec.ofNat 16 (2 ^ h.val) } } := by
  obtain ⟨s₁, h₁⟩ : ∃ s₁, s₁ = s.modFlt fun f => { f.name k h i d with run := some (newMove k h i d cmd) } := ⟨_, rfl⟩
  have hw : Wakes s₁ ((s₁.wakeFor i false).wakeFor d true) := (Wakes.wakeFor _ _ _).trans (.wakeFor _ _ _)
  have ha : (((s₁.wakeFor i false).wakeFor d true).slice d).ctl.waking = true := by
    refine wakeFor_waking ?_ true
    obtain ⟨v, -, hv⟩ := Wakes.wakeFor s₁ i false
    rw [(hv d).asleep, h₁]
    exact hd
  obtain ⟨u₁, hu₁⟩ : ∃ u₁, u₁ = if k == .ret then ((s₁.wakeFor i false).wakeFor d true).modSlice i (fun x => { x with resv := [] })
      else (s₁.wakeFor i false).wakeFor d true := ⟨_, rfl⟩
  have hw₁ : Wakes s₁ u₁ ∧ (u₁.slice d).ctl.waking = true := by
    rw [hu₁]
    split
    · refine ⟨hw.trans (.modSlice _ _ _ ⟨⟨_, _, rfl⟩, rfl, rfl, rfl⟩), ?_⟩
      by_cases e : d = i
      · subst e
        rw [modSlice_slice_self]
        exact ha
      · rw [modSlice_slice_ne _ _ e]
        exact ha
    · exact ⟨hw, ha⟩
  have hld : ((s₁.wakeFor i false).wakeFor d true).glb.ld.st.res ≠ .running := by
    rw [h₁]
    exact hl
  obtain ⟨⟨v, hv, hwv⟩, hav⟩ := hw₁
  refine ⟨{ s with slices := v }, ⟨v, rfl, fun j => ?_⟩, ?_, ?_⟩
  · have := hwv j
    rw [hv, h₁] at this
    exact this
  · rw [hv] at hav
    exact hav
  obtain ⟨u₂, hu₂⟩ : ∃ u₂, u₂ = if evacLike k then u₁ else u₁.holdAdm h := ⟨_, rfl⟩
  have hsev : (u₂.src (srcSlice i)).severe = false := by
    rw [hu₂]
    split <;> rw [hv, h₁] <;> exact hs
  have hroom : u₂.flt.log.length < 256 := by
    rw [hu₂]
    split <;> rw [hv, h₁] <;> exact hlog
  have hbeg : s.beginMove k h i d cmd = (u₂.log 0x05 (srcSlice i)).movePrep := by
    have hkt : (k == .takeover) = false := by obtain rfl | rfl | rfl := hk <;> rfl
    rw [beginMove_named, ← h₁]
    unfold named
    dsimp only
    rw [dropLoad_of_idle hld, ite_self, dropLoad_of_idle hld, ite_self, ← hu₁, ← hu₂, hsev, hkt]
    rfl
  have hu : u₂.log 0x05 (srcSlice i) = { ({ s with slices := v } : State) with
      flt := { s.flt.name k h i d with run := some (newMove k h i d cmd), log := s.flt.log ++ [⟨0x05, BitVec.ofNat 7 (srcSlice i), srcAg (srcSlice i), 0, 0, s.now⟩] }
      glb := if evacLike k then s.glb else { s.glb with admHold := s.glb.admHold ||| BitVec.ofNat 16 (2 ^ h.val) } } := by
    unfold State.log
    rw [logEnt_room hroom, hu₂, hv, h₁]
    cases evacLike k <;> rfl
  rw [hbeg, hu]
  refine movePrep_of_asleep (m := newMove k h i d cmd) rfl ?_
  have hj := hwv d
  rw [hv, h₁] at hj
  exact hj.asleep.trans hd

/-- Where no move runs, admission is held for no home. -/
theorem Still.admHold_of_none (hs : Still s) (hr : s.flt.run = none) (j : Fin 16) : s.glb.admHold.getLsbD j.val = false := by
  by_contra hc
  obtain ⟨m, hm, -⟩ := hs.adm j (by simpa using hc)
  rw [hr] at hm
  nomatch hm

/-- A move that begins goes on only with its destination. -/
theorem Still.begun (hs : Still s) (hr : s.flt.run = none) {u : State} (hw : Wakes s u) {m : Move} {f : Flt} {g : Glb} (hf : f.run = some m)
    (hd : f.due = []) (hg : g = if evacLike m.kind then s.glb else { s.glb with admHold := s.glb.admHold ||| BitVec.ofNat 16 (2 ^ m.home.val) }) :
    Still { u with flt := f, glb := g } := by
  obtain ⟨v, rfl, hv⟩ := hw
  have hslice : g.slice = s.glb.slice ∧ g.det = s.glb.det ∧ g.ld = s.glb.ld ∧ g.cmd = s.glb.cmd ∧ g.stt = s.glb.stt ∧ g.bc = s.glb.bc := by
    rw [hg]
    split <;> exact ⟨rfl, rfl, rfl, rfl, rfl, rfl⟩
  obtain ⟨hsl, hdt, hld, hcm, hst, hbc⟩ := hslice
  have hctl : ∀ j : Fin 17, ∃ w f, v[j.val].ctl = { (s.slice j).ctl with waking := w, fromOff := f } := fun j => (hv j).ctl
  constructor
  case due => exact hd
  case adm =>
    intro j hj
    refine ⟨m, hf, ?_⟩
    rw [hg] at hj
    split at hj
    · rw [hs.admHold_of_none hr j] at hj
      nomatch hj
    · next he =>
      rw [BitVec.getLsbD_or, hs.admHold_of_none hr j, getLsbD_oneHot, Bool.false_or, beq_iff_eq] at hj
      exact ⟨hj.symm, by simpa using he⟩
  case load => exact hld ▸ hs.load
  case job => exact hs.job
  case gc => exact hcm ▸ hst ▸ hs.gc
  case stt => exact hst ▸ hs.stt
  case msc =>
    intro e j
    have hm : v[j.val].mem = (s.slice j).mem := (hv j).mem
    exact fun hc => hs.msc (hst ▸ e) j ((congrArg (fun x : MemSide => x.ctl.mode) hm).symm.trans hc)
  case sweep => exact (congrArg Bcast.sweep hbc).trans hs.sweep
  case back =>
    intro _ hc
    rw [hf] at hc
    nomatch hc
  case ports => exact hs.ports
  case net => exact hs.net
  case det =>
    intro e j hj
    obtain ⟨w, f', hc⟩ := hctl j
    have hh : ({ s with slices := v, flt := f, glb := g } : State).homesOf j = s.homesOf j := by
      unfold State.homesOf State.serving
      rw [hsl]
    have hdh : ∀ h, ({ s with slices := v, flt := f, glb := g } : State).detHome h = s.detHome h := fun h => by
      unfold State.detHome
      rw [hdt]
      rfl
    rw [hh, funext hdh] at hj
    obtain ⟨h1, h2⟩ := hs.det (hdt ▸ e) j hj
    refine ⟨((hv j).asleep).trans h1, ?_⟩
    exact (congrArg (fun c : SlcCtl => c.dom.c) hc).trans h2
  case reads => exact hs.reads
  case slices =>
    intro j
    obtain ⟨w, f', hc⟩ := hctl j
    exact ⟨(congrArg SlcCtl.resetWait hc).trans (hs.slices j).1, (congrArg SlcCtl.autoRet hc).trans (hs.slices j).2⟩

/-- A move that has begun waits for its destination; what follows from its command is power requests alone. -/
theorem settle_begun (hs : Still s) (hr : s.flt.run = none) {u : State} (hw : Wakes s u) {m : Move} {f : Flt} {g : Glb} (hf : f.run = some m)
    (hd : f.due = []) (hg : g = if evacLike m.kind then s.glb else { s.glb with admHold := s.glb.admHold ||| BitVec.ofNat 16 (2 ^ m.home.val) })
    (ha : (s.slice m.dst).asleep = true) :
    State.settle { u with flt := f, glb := g } = (State.syncPower { u with flt := f, glb := g }).setPins := by
  refine (hs.begun hr hw hf hd hg).settle (movePrep_of_asleep (m := m) hf ?_)
  obtain ⟨v, rfl, hv⟩ := hw
  exact (hv m.dst).asleep.trans ha

theorem homesOf_withRun (s : State) (f : Flt → Flt) (i : Fin 17) : (s.modFlt f).homesOf i = s.homesOf i := rfl

theorem slcOf_val (d : Fin 17) : slcOf (BitVec.ofNat 5 d.val) = some d := by
  revert d
  decide

/-- A free slice serves no home. -/
theorem isFree_homes (h : s.isFree d = true) : s.homesOf d = [] := by
  unfold State.isFree at h
  simp only [Bool.and_eq_true] at h
  exact List.isEmpty_iff.1 h.1.1.1.1.1.1.1.1.1

variable {seq : BitVec 8}

theorem evacCmd_begins (ha : s.flt.cmd.accepts seq = true) (hr : s.flt.run = none) (hp : s.tst.phase = .none) (hs : s.serving h = some i)
    (hf : s.isFree d = true) (hd : s.degraded h = false) (hh : s.homesOf i = [h]) :
    s.evacCmd seq h (BitVec.ofNat 5 d.val) = (s.modFlt fun x => { x with cmd := x.cmd.accept seq }).beginMove .evac h i d true := by
  have hdf : s.destFree (BitVec.ofNat 5 d.val) = some d := by unfold State.destFree; rw [slcOf_val]; exact if_pos hf
  have hdf' : (s.modFlt fun x => { x with cmd := x.cmd.accept seq }).destFree (BitVec.ofNat 5 d.val) = some d := hdf
  have hmv : s.moving = false := by unfold State.moving; rw [hr, hp]; rfl
  simp [State.evacCmd, State.moveCmd, hmv, hd, hs, hh, hdf, hdf', ha]

theorem returnCmd_begins (ha : s.flt.cmd.accepts seq = true) (hr : s.flt.run = none) (hp : s.tst.phase = .none) (hs : s.serving h = some i)
    (hf : s.isFree d = true) (hd : s.degraded h = true) :
    s.returnCmd seq h (BitVec.ofNat 5 d.val) = (s.modFlt fun x => { x with cmd := x.cmd.accept seq }).beginMove .ret h i d true := by
  have hdf : s.destFree (BitVec.ofNat 5 d.val) = some d := by unfold State.destFree; rw [slcOf_val]; exact if_pos hf
  have hdf' : (s.modFlt fun x => { x with cmd := x.cmd.accept seq }).destFree (BitVec.ofNat 5 d.val) = some d := hdf
  have hmv : s.moving = false := by unfold State.moving; rw [hr, hp]; rfl
  unfold State.returnCmd State.moveCmd
  dsimp only
  rw [hmv, hd, hs, hdf, ha, modFlt_serving, hs, hdf']
  rfl

/-- The state in which a move by command, or by a LIVETEST, has begun. -/
structure Began (s t : State) (m : Move) (cmd : CmdSt) : Prop where
  run : t.flt.run = some m
  cmd : t.flt.cmd = cmd
  kind : t.flt.lastKind = m.kind
  waking : (t.slice m.dst).ctl.waking = true
  regs : t.regs = s.regs
  chans : t.chans = s.chans
  ports : t.ports = s.ports
  dram : t.dram = s.dram
  tst : t.tst = s.tst
  glb : t.glb = if evacLike m.kind then s.glb else { s.glb with admHold := s.glb.admHold ||| BitVec.ofNat 16 (2 ^ m.home.val) }
  pending : t.pending = s.pending
  now : t.now = s.now

/-- What a command does that begins a move to a slice that is asleep. -/
theorem beginMove_settles (hq : Still s) (hr : s.flt.run = none) (hk : k = .evac ∨ k = .ltMove ∨ k = .ret)
    (hs : (s.src (srcSlice i)).severe = false) (hl : s.glb.ld.st.res ≠ .running) (hd : (s.slice d).asleep = true) (hlog : s.flt.log.length < 256) :
    ∃ t, (s.beginMove k h i d cmd).settle = t ∧ Began s t (newMove k h i d cmd) s.flt.cmd := by
  obtain ⟨u, hw, hwk, hb⟩ := beginMove_eq (h := h) (cmd := cmd) hk hs hl hd hlog
  obtain ⟨w, hwd⟩ : ∃ w : State, w = s.beginMove k h i d cmd := ⟨_, rfl⟩
  rw [hb] at hwd
  have hset : w.settle = w.syncPower.setPins := by
    rw [hwd]
    exact settle_begun (m := newMove k h i d cmd) hq hr hw rfl hq.due rfl hd
  obtain ⟨v, hv, -⟩ := hw
  have hbg : Began s w (newMove k h i d cmd) s.flt.cmd := by
    rw [hwd]
    refine ⟨rfl, rfl, rfl, hwk, ?_, ?_, ?_, ?_, ?_, rfl, ?_, ?_⟩
    all_goals rw [hv]
  rw [hb, ← hwd, hset]
  refine ⟨_, rfl, ?_⟩
  obtain ⟨p, hp⟩ := syncPower_frame w
  rw [hp]
  exact ⟨hbg.run, hbg.cmd, hbg.kind, hbg.waking, hbg.regs, hbg.chans, hbg.ports, hbg.dram, hbg.tst, hbg.glb, hbg.pending, hbg.now⟩

/-- A command that has been accepted leaves a quiet state so. -/
theorem Quiet.acceptFlt (hq : Quiet s) (seq : BitVec 8) : Quiet (s.modFlt fun x => { x with cmd := x.cmd.accept seq }) := hq.modFlt _ rfl rfl

end Sys2Proof.Safety
end


section
/-! O47: EVAC, RETURN, and the move abort with its rollback (R363, R370, R372). -/

namespace Sys2Proof.Safety

open Sys2Proof.Machine

variable {s t : State} {i : Fin 17} {m : Move}

/-- A slice that holds no request, no record and no write. -/
structure Vacant (x : Slice) : Prop where
  trk : x.trk = []
  recs : x.recs = []
  ingress : x.ingress = []
  hold : x.wakeHold = []
  wmb : x.mem.wmb = []
  wt : x.mem.wtWait = []

theorem Vacant.ents {x : Slice} (h : Vacant x) : x.ents = [] := by
  unfold Slice.ents
  rw [h.trk]
  rfl

theorem Vacant.ing {x : Slice} (h : Vacant x) (rq : Nat) : x.ing rq = ⟨[], []⟩ := tabGet_nil h.ingress rq

theorem flushWmb_of_nil (hw : (s.slice i).mem.wmb = []) (ht : (s.slice i).mem.wtWait = []) : s.flushWmb i = s := by
  have h1 : s.modSlice i (fun x => { x with mem := { x.mem with wtWait := [] } }) = s :=
    modSlice_same _ _ _ (by rw [show ({ (s.slice i).mem with wtWait := [] } : MemSide) = (s.slice i).mem by rw [← ht]])
  unfold State.flushWmb
  dsimp only
  rw [h1, hw, ht]
  rfl

/-- A slice whose sweeps have ended. -/
def swept (x : Slice) : Slice := { x with ingress := [], wakeHold := [], sw := { x.sw with presLeft := 0, presAgents := [], scrubLeft := 0 } }

/-- A vacant slice stops with its sweeps alone. -/
theorem stopSlice_vacant (h : Vacant (s.slice i)) : s.stopSlice i = (s.modSlice i swept, []) := by
  have hing : ((List.range 26).flatMap fun rq => (((s.slice i).ing rq).fwd ++ ((s.slice i).ing rq).direct).map fun e => (rq, e.1)) = [] :=
    List.flatMap_eq_nil_iff.2 fun rq _ => by rw [h.ing]; rfl
  unfold State.stopSlice
  dsimp only
  rw [h.ents, List.filter_nil, List.map_nil, List.foldl_nil, List.foldl_nil, h.ents, List.filter_nil, List.mergeSort_nil, List.map_nil,
    List.foldl_nil, hing, h.hold, flushWmb_of_nil]
  · rfl
  all_goals rw [modSlice_slice_self]
  · exact h.wmb
  · exact h.wt

/-- The request that a set step held is none where no entry is bound. -/
theorem dropHold_of_nil (h : Vacant (s.slice i)) : s.modSlice i Slice.dropHold = s := modSlice_same _ _ _ (by
  unfold Slice.dropHold
  rw [h.ents]
  rfl)

/-- No route is moved any more at a port. -/
def unrouted (x : Port) : Port := { x with route := { x.route with active := false }, marker := false }

theorem routeOff_eq (s : State) : s.routeOff = (s.modGlb fun g => { g with route := { g.route with active := false } }).mapPorts fun _ => unrouted :=
  eachPort_eq _ _ _ fun _ _ => rfl

/-- A table that loses other addresses reads as before. -/
theorem tabGet_filter {α : Type} (d : α) (t : Tab α) (q : Nat → Bool) {k : Nat} (hk : q k = true) :
    tabGet d (t.filter fun e => q e.1) k = tabGet d t k := by
  induction t with
  | nil => rfl
  | cons e t ih =>
    obtain ⟨j, v⟩ := e
    by_cases hj : q j = true
    · rw [List.filter_cons_of_pos (p := fun e : Nat × α => q e.1) hj]
      simp only [tabGet, ih]
    · rw [List.filter_cons_of_neg (p := fun e : Nat × α => q e.1) hj, ih]
      have : j ≠ k := fun e => hj (e ▸ hk)
      simp [tabGet, this]

/-- A table that begins with the addresses below n. -/
theorem tabGet_range_append {α : Type} (d : α) (f : Nat → α) (n : Nat) (t : Tab α) (k : Nat) :
    tabGet d ((List.range n).map (fun j => (j, f j)) ++ t) k = if k < n then f k else tabGet d t k := by
  induction n generalizing t with
  | zero => rfl
  | succ n ih =>
    rw [List.range_succ, List.map_append, List.append_assoc, ih]
    by_cases h : k < n
    · rw [if_pos h, if_pos (by omega)]
    · rw [if_neg h, List.map_cons, List.map_nil, List.singleton_append]
      by_cases e : n = k
      · subst e
        rw [if_pos (by omega)]
        simp [tabGet]
      · rw [if_neg (by omega)]
        simp [tabGet, e]

/-- The sets below the watermark are marked, and every other mark stands. -/
theorem suk_markAll (x : Slice) (n k : Nat) : (x.markAll 0 n).suk k = (decide (k < n) || x.suk k) := by
  have hr : (x.markAll 0 n).ar.repl = (List.range n).map (fun j => (j, x.replGet j ||| 0x8000)) ++ x.ar.repl.filter fun e => decide (n ≤ e.1) := by
    have h0 : x.ar.repl.filter (fun e => decide (e.1 < 0)) = [] := List.filter_eq_nil_iff.2 fun e _ => by simp
    unfold Slice.markAll
    dsimp only
    rw [h0, List.nil_append]
    simp only [Nat.zero_add]
  have hg : (x.markAll 0 n).replGet k = if k < n then x.replGet k ||| 0x8000 else x.replGet k := by
    unfold Slice.replGet
    rw [hr, tabGet_range_append 0 (fun j => x.replGet j ||| 0x8000)]
    split
    · rfl
    · next h => exact tabGet_filter 0 _ (fun j => decide (n ≤ j)) (decide_eq_true (by omega))
  unfold Slice.suk
  rw [hg]
  split
  · next h => simp [h]
  · next h => simp [h]

/-- The sets that a rollback marks. -/
def movedSets (s : State) : Nat := if s.glb.route.active then s.glb.route.wm.toNat else 0

/-- What a slice keeps of a move that is rolled back. -/
structure RolledBack (s : State) (m : Move) (j : Fin 17) (x : Slice) : Prop where
  ctl : x.ctl = (s.slice j).ctl
  mem : x.mem = (s.slice j).mem
  suk : j = m.src → ∀ k, x.suk k = (decide (k < movedSets s) || (s.slice j).suk k)

/-- The slices of a move that is rolled back. -/
def rolledSlices (s : State) (m : Move) : State :=
  (((s.modSlice m.dst swept).forgetMoved m.src m.home (movedSets s)).modSlice m.src fun x => x.markAll 0 (movedSets s)).modSlice m.dst Slice.clearSf

theorem rolledSlices_rolledBack (s : State) (hsd : m.src ≠ m.dst) (j : Fin 17) : RolledBack s m j ((rolledSlices s m).slice j) := by
  unfold rolledSlices State.forgetMoved
  by_cases hd : j = m.dst
  · subst hd
    rw [modSlice_slice_self, modSlice_slice_ne _ _ hsd.symm, modSlice_slice_ne _ _ hsd.symm, modSlice_slice_self]
    exact ⟨rfl, rfl, fun e => absurd e.symm hsd⟩
  · rw [modSlice_slice_ne _ _ hd]
    by_cases he : j = m.src
    · subst he
      rw [modSlice_slice_self, modSlice_slice_self, modSlice_slice_ne _ _ hsd]
      exact ⟨rfl, rfl, fun _ k => suk_markAll _ _ k⟩
    · rw [modSlice_slice_ne _ _ he, modSlice_slice_ne _ _ he, modSlice_slice_ne _ _ hd]
      exact ⟨rfl, rfl, fun e => absurd e he⟩

/-- The state of a move that is rolled back, before its log entry. -/
def rolledBack (s : State) (m : Move) : State :=
  (((rolledSlices s m).modGlb fun g => { g with route := { g.route with active := false, wm := 0 } }).mapPorts fun _ => unrouted).modFlt fun f =>
    { f with lastRb := true, run := none }

/-- A rollback between vacant slices: the sets that had moved are marked at the source, the destination is empty, and no route is moved. -/
theorem rollback_eq (hv : ∀ j, Vacant (s.slice j)) (hsd : m.src ≠ m.dst) (f : CmdSt → CmdSt) :
    s.rollback m f = ((((rolledBack s m).mask m.src false).log 0x07 (srcSlice m.src)).cmdEnds m f).ltStops m f := by
  have hrecs : ((((s.modSlice m.dst swept).forgetMoved m.src m.home (movedSets s)).modSlice m.src fun x =>
      x.markAll 0 (movedSets s)).slice m.dst).recs = [] := by
    unfold State.forgetMoved
    rw [modSlice_slice_ne _ _ hsd.symm, modSlice_slice_ne _ _ hsd.symm, modSlice_slice_self]
    exact (hv m.dst).recs
  unfold State.rollback
  dsimp only
  rw [dropHold_of_nil (hv m.src), stopSlice_vacant (hv m.dst)]
  dsimp only
  rw [modSlice_glb, show (if s.glb.route.active then s.glb.route.wm.toNat else 0) = movedSets s from rfl, moveRecs_of_nil hrecs,
    show ((((s.modSlice m.dst swept).forgetMoved m.src m.home (movedSets s)).modSlice m.src fun x => x.markAll 0 (movedSets s)).modSlice m.dst
      Slice.clearSf) = rolledSlices s m from rfl, routeOff_eq]
  rfl

theorem rolledSlices_frame (s : State) (m : Move) : rolledSlices s m = { s with slices := (rolledSlices s m).slices } := rfl

/-- What a rollback changes. -/
theorem rolledBack_frame (s : State) (hsd : m.src ≠ m.dst) : ∃ v w, rolledBack s m = { s with
      slices := v, ports := w, glb := { s.glb with route := { s.glb.route with active := false, wm := 0 } }
      flt := { s.flt with lastRb := true, run := none } } ∧
    (∀ j : Fin 17, RolledBack s m j v[j.val]) ∧ ∀ p : Fin 24, w[p.val] = unrouted (s.port p) := by
  have hs := rolledSlices_rolledBack s hsd
  have hf := rolledSlices_frame s m
  unfold rolledBack State.mapPorts
  generalize rolledSlices s m = u at hs hf
  obtain ⟨v, hv⟩ : ∃ v, v = u.slices := ⟨_, rfl⟩
  rw [← hv] at hf
  subst hf
  exact ⟨v, _, rfl, hs, fun p => Vector.getElem_ofFn _⟩

/-- A state without the move, and with the route that a rollback leaves. -/
def moveless (s : State) : State := (withoutMove s).modGlb fun g => { g with route := { s.glb.route with active := false, wm := 0 } }

theorem moveless_quiet (hq : Quiet (withoutMove s)) : Quiet (moveless s) := hq.modGlb _ rfl hq.load hq.gc rfl rfl rfl ⟨rfl, rfl⟩

/-- A rollback leaves what runs by itself as it is without the move. -/
theorem rolledBack_keeps (hsd : m.src ≠ m.dst) (ha : s.glb.admHold = 0) : Keeps (moveless s) (rolledBack s m) := by
  obtain ⟨v, w, h, hs, hp⟩ := rolledBack_frame s hsd
  rw [h]
  refine ⟨rfl, rfl, ?_, rfl, rfl, rfl, rfl, rfl, rfl, rfl, fun p => ?_, fun j => ?_, rfl, rfl⟩
  · exact congrArg (fun a => { s.glb with route := { s.glb.route with active := false, wm := 0 }, admHold := a }) ha
  · have hw : w[p.val].held = (s.port p).held ∧ w[p.val].resetting = (s.port p).resetting := by
      rw [hp]
      exact ⟨rfl, rfl⟩
    exact hw
  · have hj := hs j
    exact ⟨hj.ctl, congrArg MemSide.ctl hj.mem⟩

/-- What an end of a move's command changes: its status, and the completion that is reported. -/
theorem Keeps.done (s : State) (page : Nat) : Keeps s (s.done page) := by
  have of_ite (c : Prop) [Decidable c] (v : BitVec 32) : Keeps s (if c then s else s.setReg 0 0x0A v) := by
    split
    · exact .refl s
    · exact .setReg _ _ _ _ (by unfold watched; omega)
  exact of_ite _ _

theorem Keeps.doneUnless (s : State) (page : Nat) (c : CmdSt) : Keeps s (s.doneUnless page c) := by
  unfold State.doneUnless
  split
  · exact .refl s
  · exact .done s page

theorem Keeps.logEnt (s : State) (e : LogEnt) : Keeps s (s.logEnt e) :=
  .event (.logEnt _ _) (logEnt_reg_ne _ _ _ _ (by decide)) (logEnt_due _ _)

/-- The rollback of an evacuation that a command has begun. -/
theorem rollback_evac (hv : ∀ j, Vacant (s.slice j)) (hsd : m.src ≠ m.dst) (hk : m.kind = .evac) (hc : m.cmd = true) (f : CmdSt → CmdSt) :
    ∃ u, Keeps (rolledBack s m) u ∧ EventOnly (rolledBack s m) u ∧
      s.rollback m f = (u.modFlt fun x => { x with cmd := f x.cmd }).doneUnless 59 u.flt.cmd := by
  rw [rollback_eq hv hsd]
  have h1 : Keeps (rolledBack s m) (((rolledBack s m).mask m.src false).log 0x07 (srcSlice m.src)) := (Keeps.modFlt _ _ rfl rfl).trans (.logEnt _ _)
  have h2 : EventOnly (rolledBack s m) (((rolledBack s m).mask m.src false).log 0x07 (srcSlice m.src)) := (EventOnly.modSrc _ _ _).trans (.logEnt _ _)
  generalize ((rolledBack s m).mask m.src false).log 0x07 (srcSlice m.src) = u at h1 h2
  refine ⟨u, h1, h2, ?_⟩
  unfold State.cmdEnds State.ltStops
  rw [if_pos hc, if_neg (by rw [hk]; decide)]

/-- The abort of an evacuation rolls it back. -/
theorem moveAbort_rollsBack (seq : BitVec 8) (hq : Quiet (withoutMove s)) (ha : s.glb.admHold = 0) (hm : s.flt.run = some m) (hk : m.kind = .evac)
    (hc : m.cmd = true) (hsd : m.src ≠ m.dst) (hr : s.flt.cmd.res = .running) (hs : seq ≠ s.flt.cmd.rseq) (hv : ∀ j, Vacant (s.slice j)) :
    ∃ t, exec (.moveAbort seq) s = .next t ∧ t.flt.run = none ∧ t.flt.cmd = s.flt.cmd.abort ∧ t.flt.lastRb = true ∧
      t.glb.route.active = false ∧ (∀ p, (t.port p).route.active = false) ∧ (∀ h, t.serving h = s.serving h) ∧
      (∀ k < 16384, (t.slice m.src).suk k = (decide (k < movedSets s) || (s.slice m.src).suk k)) ∧ t.chans = s.chans ∧ t.dram = s.dram := by
  obtain ⟨u, hku, heu, hu⟩ := rollback_evac hv hsd hk hc CmdSt.abort
  have hcmd : s.moveAbortCmd seq = s.rollback m CmdSt.abort := by
    unfold State.moveAbortCmd
    rw [hm]
    dsimp only
    rw [hk, hc, show (true && MoveKind.evac == MoveKind.evac) = true from rfl, tryAbort_running hs hr]
  have hkeep : Keeps (moveless s) ((u.modFlt fun x => { x with cmd := x.cmd.abort }).doneUnless 59 u.flt.cmd) :=
    (((rolledBack_keeps hsd ha).trans hku).trans (.modFlt u _ rfl rfl)).trans (.doneUnless _ _ _)
  have hend : exec (.moveAbort seq) s = .next _ := (hkeep.quiet (moveless_quiet hq)).ends (hcmd.trans hu) hkeep.pending hkeep.now
  refine ⟨_, hend, ?_⟩
  obtain ⟨v, w, hrb, hsl, hpt⟩ := rolledBack_frame s hsd
  rw [hrb] at heu
  obtain ⟨r, l, x, d, rfl⟩ := heu
  have hdu : ∀ (a : State) (c : CmdSt), ∃ r, a.doneUnless 59 c = { a with regs := r } := fun a c => by
    unfold State.doneUnless
    split
    · exact ⟨_, rfl⟩
    · exact done_frame a 59
  obtain ⟨r', hr'⟩ := hdu (State.modFlt { s with
      slices := v, ports := w, glb := { s.glb with route := { s.glb.route with active := false, wm := 0 } }
      regs := r, flt := { s.flt with lastRb := true, run := none, log := l, src := x, due := d } } fun x => { x with cmd := x.cmd.abort }) s.flt.cmd
  rw [hr']
  refine ⟨rfl, rfl, rfl, rfl, fun p => ?_, fun _ => rfl, fun k _ => ?_, rfl, rfl⟩
  · exact congrArg (fun x : Port => x.route.active) (hpt p)
  · exact (hsl m.src).suk rfl k

/-- Settles O47: an EVAC and a RETURN begin as every move to a slice that is asleep; an abort finds no move, or rolls it back. -/
theorem moveBegins : Obligations.MoveBegins := by
  refine ⟨fun s seq h i d hq hr hp ha hlog hs hf hd hsev hld => ⟨fun hdeg hh => ?_, fun hdeg => ?_, fun hseq => ?_⟩, ?_⟩
  · obtain ⟨t, ht, hb⟩ := beginMove_settles (h := h) (cmd := true) (hq.acceptFlt seq).toStill hr (.inl rfl) hsev (by rw [modFlt_glb, hld]; decide) hd hlog
    refine ⟨t, _, commandEnd_settle ((congrArg State.settle (evacCmd_begins ha hr hp hs hf hdeg hh)).trans ht) hb.pending hb.now, hb.run, rfl, rfl,
      rfl, rfl, rfl, rfl, rfl, hb.cmd, hb.kind, hb.waking, hb.regs, hb.chans, hb.ports, hb.dram, hb.glb⟩
  · obtain ⟨t, ht, hb⟩ := beginMove_settles (h := h) (cmd := true) (hq.acceptFlt seq).toStill hr (.inr (.inr rfl)) hsev (by rw [modFlt_glb, hld]; decide) hd hlog
    refine ⟨t, _, commandEnd_settle ((congrArg State.settle (returnCmd_begins ha hr hp hs hf hdeg)).trans ht) hb.pending hb.now, hb.run, rfl, rfl,
      rfl, rfl, rfl, rfl, hb.cmd, ?_, hb.waking, hb.chans, hb.dram⟩
    rw [hb.glb]
    refine (BitVec.getLsbD_or ..).trans ?_
    rw [show (newMove .ret h i d true).home = h from rfl, getLsbD_oneHot]
    simp
  · have hres : s.flt.cmd.res ≠ .running := by
      have := ha
      unfold CmdSt.accepts at this
      intro hc
      rw [hc] at this
      nomatch this
    have hcmd : s.moveAbortCmd seq = s.modFlt fun x => { x with cmd := { x.cmd with res := .nothing, rseq := seq } } := by
      unfold State.moveAbortCmd
      rw [hr]
      dsimp only
      rw [tryAbort_nothing false (Ne.symm hseq) hres]
      rfl
    exact (hq.modFlt _ rfl rfl).ends hcmd rfl rfl
  · intro s seq m hq ha hm hk hc hsd hr hs _ hmem hv
    exact moveAbort_rollsBack seq hq ha hm hk hc hsd hr hs fun j => by
      obtain ⟨h1, h2, h3, h4⟩ := hv j
      obtain ⟨m1, m2, -, -⟩ := hmem j
      exact ⟨h1, h2, h3, h4, m1, m2⟩

end Sys2Proof.Safety
end


section
/-! O59: LIVETEST starts, goes on and is aborted (R454, R455, R458 to R460). -/

namespace Sys2Proof.Safety

open Sys2Proof.Machine

variable {s t : State} {i d : Fin 17} {m : Move} {seq : BitVec 8} {back : Bool}

theorem Still.modTst (h : Still s) (f : Tst → Tst) (hf : (f s.tst).phase ≠ .back) : Still (s.modTst f) where
  due := h.due
  adm := h.adm
  load := h.load
  job := h.job
  gc := h.gc
  stt := h.stt
  msc := h.msc
  sweep := h.sweep
  back e := absurd e hf
  ports := h.ports
  net := h.net
  det := h.det
  reads := h.reads
  slices := h.slices

/-! ### START -/

/-- The state of a LIVETEST that has been accepted. -/
def ltNamed (s : State) (seq : BitVec 8) (i : Fin 17) (ld : BitVec 5) (back : Bool) (h : Option (Fin 16)) : State :=
  s.modTst fun t => { t with
    lt := t.lt.accept seq, phase := .move, ltSlice := BitVec.ofNat 5 i.val, ltDest := ld
    ltBack := back, ltHome := h, ltAborted := false, ltRan := false, pass := false, repaired := 0, failArr := 0 }

/-- What keeps a slice out of a LIVETEST, but for its homes. -/
structure Testable (s : State) (i : Fin 17) : Prop where
  run : s.flt.run = none
  phase : s.tst.phase = .none
  fenced : s.slFenced i = false
  severe : (s.src (srcSlice i)).severe = false
  retained : (s.slice i).ctl.retained = none
  resetting : (s.slice i).ctl.resetting = false
  usable : s.usableSlice i = true

theorem ltCause_none (h : Testable s i) (hh : s.homesOf i = []) (d : Option (Fin 17)) : s.ltCause (some i) d = 0 := by
  simp [State.ltCause, hh, h.run, h.phase, h.fenced, h.severe, h.retained, h.resetting, h.usable]

theorem ltCause_home {h : Fin 16} (ht : Testable s i) (hh : s.homesOf i = [h]) (hd : s.degraded h = false) (hf : s.isFree d = true)
    (hne : i ≠ d) : s.ltCause (some i) (some d) = 0 := by
  simp [State.ltCause, hh, hd, hf, hne.symm, ht.run, ht.phase, ht.fenced, ht.severe, ht.retained, ht.resetting, ht.usable]

/-- Without a home the slice enters its TEST phase at once. -/
theorem ltStart_test (hc : s.tstClosed = false) (ha : s.tst.lt.accepts seq = true) (ht : Testable s i) (hh : s.homesOf i = [])
    (hl : s.glb.ld.st.res = .running → s.glb.ld.sel.getLsbD i.val = false) (dn : BitVec 5) :
    s.ltStart seq (BitVec.ofNat 5 i.val) dn back = (ltNamed s seq i (BitVec.ofNat 5 i.val) false none).ltTest i := by
  have hdrop : (ltNamed s seq i (BitVec.ofNat 5 i.val) false none).dropLoad i = ltNamed s seq i (BitVec.ofNat 5 i.val) false none :=
    if_neg fun hb => by
      obtain ⟨h1, h2⟩ := Bool.and_eq_true_iff.1 hb
      rw [show (ltNamed s seq i (BitVec.ofNat 5 i.val) false none).glb.ld.sel = s.glb.ld.sel from rfl, hl (beq_iff_eq.1 h1)] at h2
      nomatch h2
  unfold State.ltStart
  rw [hc, ha]
  dsimp only
  rw [slcOf_val, ltCause_none ht hh, show ((0 : BitVec 8) == 0) = true from rfl]
  refine (if_neg (by decide)).trans ?_
  dsimp only
  rw [hh]
  refine Eq.trans (b := ((ltNamed s seq i (BitVec.ofNat 5 i.val) (back && false) none).dropLoad i).ltTest i) rfl ?_
  rw [Bool.and_false]
  exact congrArg (fun s => State.ltTest s i) hdrop

theorem ltStart_move {h : Fin 16} (hc : s.tstClosed = false) (ha : s.tst.lt.accepts seq = true) (ht : Testable s i) (hh : s.homesOf i = [h])
    (hd : s.degraded h = false) (hf : s.isFree d = true) (hne : i ≠ d) (hl : s.glb.ld.st.res ≠ .running) :
    s.ltStart seq (BitVec.ofNat 5 i.val) (BitVec.ofNat 5 d.val) back =
      (ltNamed s seq i (BitVec.ofNat 5 d.val) back (some h)).beginMove .ltMove h i d false := by
  have hdrop : ∀ b, (ltNamed s seq i (BitVec.ofNat 5 d.val) b (some h)).dropLoad i = ltNamed s seq i (BitVec.ofNat 5 d.val) b (some h) :=
    fun b => dropLoad_of_idle (s := ltNamed s seq i (BitVec.ofNat 5 d.val) b (some h)) hl i
  unfold State.ltStart
  rw [hc, ha]
  dsimp only
  rw [slcOf_val, slcOf_val, ltCause_home ht hh hd hf hne, show ((0 : BitVec 8) == 0) = true from rfl]
  refine (if_neg (by decide)).trans ?_
  dsimp only
  rw [hh]
  refine (congrArg (fun s => State.beginMove s .ltMove h i d false) (hdrop (back && true))).trans ?_
  rw [Bool.and_true]

/-- A slice in its TEST phase, woken with every domain. -/
def inTest (x : Slice) : Slice :=
  if x.asleep || x.ctl.dom.c != .on then
    { x with ctl := { x.ctl with testing := true, sound := false, waking := true, fromOff := x.ctl.fromOff || x.ctl.dom.a == .off } }
  else { x with ctl := { x.ctl with testing := true, sound := false } }

theorem ltTest_eq (s : State) (i : Fin 17) : s.ltTest i = (s.modTst fun t => { t with phase := .test }).modSlice i inTest := by
  unfold State.ltTest State.wakeFor
  rw [modSlice_modSlice]
  refine congrArg _ (funext fun x => ?_)
  unfold inTest
  rfl

theorem inTest_keeps (x : Slice) : (inTest x).ctl.testing = true ∧ (inTest x).trk = x.trk ∧ (inTest x).mem = x.mem ∧
    (inTest x).ctl.dom = x.ctl.dom ∧ (inTest x).ctl.resetWait = x.ctl.resetWait ∧ (inTest x).ctl.autoRet = x.ctl.autoRet := by
  unfold inTest
  split <;> exact ⟨rfl, rfl, rfl, rfl, rfl, rfl⟩

theorem asleep_of_dom {x y : Slice} (h : x.ctl.dom = y.ctl.dom) : x.asleep = y.asleep := by
  unfold Slice.asleep
  rw [h]

/-- A slice without a home enters its TEST phase, and power requests follow. -/
theorem livetestStart_tests (hq : Quiet s) (hc : s.tstClosed = false) (ha : s.tst.lt.accepts seq = true) (ht : Testable s i)
    (hh : s.homesOf i = []) (hl : s.glb.ld.st.res = .running → s.glb.ld.sel.getLsbD i.val = false) (dn : BitVec 5) :
    ∃ t, exec (.livetestStart seq (BitVec.ofNat 5 i.val) dn back) s = .next t ∧
      t.tst.phase = .test ∧ t.tst.lt = s.tst.lt.accept seq ∧ (t.slice i).ctl.testing = true ∧ (t.slice i).trk = (s.slice i).trk ∧
      (∀ j, j ≠ i → t.slice j = s.slice j) ∧ t.flt = s.flt ∧ t.ports = s.ports ∧ t.chans = s.chans ∧ t.dram = s.dram := by
  obtain ⟨u, hu⟩ : ∃ u, u = (ltNamed s seq i (BitVec.ofNat 5 i.val) false none).modTst fun t => { t with phase := .test } := ⟨_, rfl⟩
  have hus : u.tst.phase = .test ∧ u.tst.lt = s.tst.lt.accept seq ∧ (∀ j, u.slice j = s.slice j) ∧ u.flt = s.flt ∧ u.ports = s.ports ∧
      u.chans = s.chans ∧ u.dram = s.dram ∧ u.pending = s.pending ∧ u.now = s.now := by
    rw [hu]
    exact ⟨rfl, rfl, fun _ => rfl, rfl, rfl, rfl, rfl, rfl, rfl⟩
  have hstill : Still u := by
    rw [hu]
    exact (hq.toStill.modTst _ (show LtPhase.move ≠ .back by decide)).modTst _ (show LtPhase.test ≠ .back by decide)
  have heff := (ltStart_test (back := back) hc ha ht hh hl dn).trans (ltTest_eq _ i)
  rw [← hu] at heff
  obtain ⟨h1, h2, hsl, hf, hp, hch, hdr, hpe, hn⟩ := hus
  obtain ⟨k1, k2, k3, k4, k5, k6⟩ := inTest_keeps (s.slice i)
  have hst : Still (u.modSlice i inTest) := by
    refine hstill.modSlice i _ ?_ ?_ ?_
    · rw [hsl, k5, k6]
      exact hq.slices i
    · rw [hsl, k3]
      exact id
    · rw [hsl, k4, asleep_of_dom k4]
      exact fun _ h1 h2 => ⟨h1, h2⟩
  have hend : exec (.livetestStart seq (BitVec.ofNat 5 i.val) dn back) s = .next _ :=
    hst.ends (movePrep_of_run (by rw [modSlice_flt, hf]; exact hq.run)) heff hpe hn
  refine ⟨_, hend, ?_⟩
  obtain ⟨p, hp'⟩ := syncPower_frame (u.modSlice i inTest)
  rw [hp']
  refine ⟨h1, h2, ?_, ?_, fun j hj => ?_, hf, hp, hch, hdr⟩
  · have : ((u.modSlice i inTest).slice i).ctl.testing = true := by rw [modSlice_slice_self, hsl]; exact k1
    exact this
  · have : ((u.modSlice i inTest).slice i).trk = (s.slice i).trk := by rw [modSlice_slice_self, hsl]; exact k2
    exact this
  · exact (modSlice_slice_ne u inTest hj).trans (hsl j)

/-! ### The end of BIST -/

/-- The end of BIST: what it has found, and the arrays that are filled again. -/
theorem bistEnd_eq (hr : (List.finRange 17).find? s.bistRuns = some i) (fails : List (Fin 10 × Nat)) : s.bistEnd fails =
    (s.modTst fun t => { t with
      ltRan := true, pass := ((s.slice i).ar.bist fails).failArr == 0, failArr := ((s.slice i).ar.bist fails).failArr
      repaired := BitVec.ofNat 4 (min ((s.slice i).ar.bist fails).used 15) }).modSlice i fun x =>
        { x with ar := { x.ar with remap := ((s.slice i).ar.bist fails).ar.remap } }.emptied := by
  unfold State.bistEnd
  rw [hr]

/-- A word that fails where no spare is in use takes the first. -/
theorem bist_one {a : Arrays} {arr : Fin 10} {n : Nat} (hn : n < arrayWords arr) (hf : ∀ k < 16, a.remapAt arr k = ⟨false, false, 0⟩) :
    a.bist [(arr, n)] = ⟨a.setRemap arr 0 ⟨true, false, BitVec.ofNat 18 n⟩, 0, 1⟩ := by
  have hany : ((List.range 16).any fun k => (a.remapAt arr k).v && (a.remapAt arr k).word == BitVec.ofNat 18 n) = false :=
    List.any_eq_false.2 fun k hk => by rw [hf k (List.mem_range.1 hk)]; exact Bool.false_ne_true
  have hfind : ((List.range 16).find? fun k => !(a.remapAt arr k).v && !(a.remapAt arr k).ret) = some 0 := by
    rw [show List.range 16 = 0 :: (List.range 15).map Nat.succ from List.range_succ_eq_map, List.find?_cons_of_pos]
    rw [hf 0 (by decide)]
    rfl
  unfold Arrays.bist
  simp only [List.foldl_cons, List.foldl_nil]
  rw [if_pos hn, if_neg (Nat.not_le.2 hn)]
  unfold Bist.word
  dsimp only
  rw [hany, if_neg Bool.false_ne_true, hfind]

theorem bistDone_ends (hq : Quiet s) (hr : (List.finRange 17).find? s.bistRuns = some i) (fails : List (Fin 10 × Nat)) :
    ∃ t, exec (.bistDone fails) s = .next t ∧
      t.tst.failArr = ((s.slice i).ar.bist fails).failArr ∧ t.tst.pass = (t.tst.failArr == 0) ∧ (t.slice i).ar.init = 0 ∧
      (t.slice i).ar.remap = ((s.slice i).ar.bist fails).ar.remap ∧ (t.slice i).ctl.testing = true ∧
      (fails = [] → t.tst.failArr = 0 ∧ (t.slice i).ar.remap = (s.slice i).ar.remap ∧ t.tst.repaired = 0) ∧
      (∀ a n, fails = [(a, n)] → n < arrayWords a → (∀ k < 16, (s.slice i).ar.remapAt a k = ⟨false, false, 0⟩) →
        (t.slice i).ar.remapAt a 0 = ⟨true, false, BitVec.ofNat 18 n⟩ ∧ t.tst.repaired = 1 ∧ t.tst.failArr = 0) ∧
      (∀ j, j ≠ i → t.slice j = s.slice j) ∧ t.ports = s.ports ∧ t.chans = s.chans ∧ t.dram = s.dram ∧ t.glb = s.glb := by
  have htest : (s.slice i).ctl.testing = true := by
    have := List.find?_some hr
    unfold State.bistRuns at this
    simp only [Bool.and_eq_true] at this
    exact this.1.1.1.1.1.2
  obtain ⟨u, hu⟩ : ∃ u, u = s.modTst fun t => { t with
      ltRan := true, pass := ((s.slice i).ar.bist fails).failArr == 0, failArr := ((s.slice i).ar.bist fails).failArr
      repaired := BitVec.ofNat 4 (min ((s.slice i).ar.bist fails).used 15) } := ⟨_, rfl⟩
  have hqu : Quiet u := by
    rw [hu]
    exact hq.modTst _ rfl
  have husl : ∀ j, u.slice j = s.slice j := fun j => by rw [hu]; rfl
  obtain ⟨y, hy⟩ : ∃ y, y = { s.slice i with ar := { (s.slice i).ar with remap := ((s.slice i).ar.bist fails).ar.remap } }.emptied := ⟨_, rfl⟩
  have heff : s.bistEnd fails = u.modSlice i fun _ => y := by
    rw [bistEnd_eq hr fails, ← hu, modSlice_const, husl, ← hy]
  have hyc : y.ctl = (s.slice i).ctl ∧ y.mem = (s.slice i).mem ∧ y.ar.init = 0 ∧ y.ar.remap = ((s.slice i).ar.bist fails).ar.remap := by
    rw [hy]
    exact ⟨rfl, rfl, rfl, rfl⟩
  obtain ⟨y1, y2, y3, y4⟩ := hyc
  have hend : exec (.bistDone fails) s = .next _ := (hqu.modSlice i (fun _ => y) (by rw [husl, y1]) (by rw [husl, y2])).ends heff
    (by rw [hu]; rfl) (by rw [hu]; rfl)
  have hsi : (u.modSlice i fun _ => y).slice i = y := modSlice_slice_self _ _ _
  have htst : u.tst.failArr = ((s.slice i).ar.bist fails).failArr ∧ u.tst.pass = (u.tst.failArr == 0) ∧
      u.tst.repaired = BitVec.ofNat 4 (min ((s.slice i).ar.bist fails).used 15) := by
    rw [hu]
    exact ⟨rfl, rfl, rfl⟩
  have hfr : u.ports = s.ports ∧ u.chans = s.chans ∧ u.dram = s.dram ∧ u.glb = s.glb := by
    rw [hu]
    exact ⟨rfl, rfl, rfl, rfl⟩
  obtain ⟨t1, t2, t3⟩ := htst
  refine ⟨_, hend, t1, t2, (congrArg (fun x : Slice => x.ar.init) hsi).trans y3, (congrArg (fun x : Slice => x.ar.remap) hsi).trans y4,
    (congrArg (fun x : Slice => x.ctl.testing) hsi).trans (by rw [y1]; exact htest), fun hf => ?_, fun a n hf hn ha => ?_,
    fun j hj => (modSlice_slice_ne u (fun _ => y) hj).trans (husl j), hfr⟩
  · subst hf
    exact ⟨t1, (congrArg (fun x : Slice => x.ar.remap) hsi).trans y4, t3⟩
  · subst hf
    rw [bist_one hn ha] at t1 t3 y4
    refine ⟨?_, t3, t1⟩
    have hr : ((u.modSlice i fun _ => y).slice i).ar.remap = _ := (congrArg (fun x : Slice => x.ar.remap) hsi).trans y4
    exact (congrArg (fun r => tabGet ⟨false, false, 0⟩ r (remapKey a 0)) hr).trans
      (tabGet_tabSet_self ⟨false, false, 0⟩ (s.slice i).ar.remap (remapKey a 0) ⟨true, false, BitVec.ofNat 18 n⟩)

/-! ### The abort -/

/-- The slices under test leave their test. -/
def outOfTest (s : State) : State := (List.finRange 17).foldl (fun s i =>
  if s.underLt i then s.modSlice i fun x => { x with ctl := { x.ctl with testing := false } } else s) s

/-- A slice that leaves its test changes in nothing that runs by itself but the wish for its domain C. -/
theorem outOfTest_still (h : Still s) : Still (outOfTest s) ∧ ∃ v, outOfTest s = { s with slices := v } := by
  unfold outOfTest
  generalize List.finRange 17 = l
  induction l generalizing s with
  | nil => exact ⟨h, s.slices, rfl⟩
  | cons i l ih =>
    rw [List.foldl_cons]
    split
    · obtain ⟨h1, v, hv⟩ := ih (h.modSlice i (fun x => { x with ctl := { x.ctl with testing := false } }) (h.slices i) id fun _ h1 h2 => ⟨h1, h2⟩)
      exact ⟨h1, v, hv⟩
    · exact ih h

theorem Still.doneUnless (h : Still s) (page : Nat) (c : CmdSt) : Still (s.doneUnless page c) := by
  unfold State.doneUnless
  split
  · exact h
  · exact h.done page

/-- The rollback of a LIVETEST's move ends the LIVETEST. -/
theorem rollback_lt (hv : ∀ j, Vacant (s.slice j)) (hsd : m.src ≠ m.dst) (hk : m.kind = .ltMove) (hc : m.cmd = false) (f : CmdSt → CmdSt) :
    ∃ u, Keeps (rolledBack s m) u ∧ EventOnly (rolledBack s m) u ∧ s.rollback m f = u.ltEnd f := by
  rw [rollback_eq hv hsd]
  have h1 : Keeps (rolledBack s m) (((rolledBack s m).mask m.src false).log 0x07 (srcSlice m.src)) := (Keeps.modFlt _ _ rfl rfl).trans (.logEnt _ _)
  have h2 : EventOnly (rolledBack s m) (((rolledBack s m).mask m.src false).log 0x07 (srcSlice m.src)) := (EventOnly.modSrc _ _ _).trans (.logEnt _ _)
  generalize ((rolledBack s m).mask m.src false).log 0x07 (srcSlice m.src) = u at h1 h2
  refine ⟨u, h1, h2, ?_⟩
  have hce : u.cmdEnds m f = u := if_neg (by rw [hc]; exact Bool.false_ne_true)
  rw [hce]
  exact if_pos (by simp [hk])

/-- What the end of a LIVETEST leaves alone, and its status. -/
structure LtEnded (s t : State) (lt : CmdSt) : Prop where
  still : Still t
  phase : t.tst.phase = .none
  lt : t.tst.lt = lt
  flt : t.flt = s.flt
  glb : t.glb = s.glb
  chans : t.chans = s.chans
  dram : t.dram = s.dram
  pending : t.pending = s.pending
  now : t.now = s.now

theorem ltEnd_eq (s : State) (f : CmdSt → CmdSt) : s.ltEnd f = ((outOfTest s).modTst fun t =>
    { t with lt := f t.lt, phase := .none, ltAborted := false, ltHome := none }).doneUnless 63 (outOfTest s).tst.lt := by
  unfold State.ltEnd outOfTest
  dsimp only

theorem ltEnd_ends (h : Still s) (f : CmdSt → CmdSt) : LtEnded s (s.ltEnd f) (f s.tst.lt) := by
  obtain ⟨hso, w, hw⟩ := outOfTest_still h
  rw [ltEnd_eq]
  have hst := (hso.modTst (fun t => { t with lt := f t.lt, phase := .none, ltAborted := false, ltHome := none })
    (show LtPhase.none ≠ .back by decide)).doneUnless 63 (outOfTest s).tst.lt
  generalize outOfTest s = u at *
  subst hw
  have hdu : ∀ (a : State) (c : CmdSt), ∃ r, a.doneUnless 63 c = { a with regs := r } := fun a c => by
    unfold State.doneUnless
    split
    · exact ⟨_, rfl⟩
    · exact done_frame a 63
  obtain ⟨r, hr⟩ := hdu (State.modTst { s with slices := w } fun t => { t with lt := f t.lt, phase := .none, ltAborted := false, ltHome := none }) s.tst.lt
  rw [hr] at hst ⊢
  exact ⟨hst, rfl, rfl, rfl, rfl, rfl, rfl, rfl, rfl⟩

/-- The abort of a LIVETEST in its MOVE phase rolls the move back. -/
theorem livetestAbort_rollsBack (hq : Quiet (withoutMove s)) (hcl : s.tstClosed = false) (ha : s.glb.admHold = 0) (hm : s.flt.run = some m)
    (hk : m.kind = .ltMove) (hc : m.cmd = false) (hsd : m.src ≠ m.dst) (hp : s.tst.phase = .move) (hr : s.tst.lt.res = .running)
    (hs : seq ≠ s.tst.lt.rseq) (hh : s.tst.lt.held = none) (hab : s.tst.ltAborted = false) (hv : ∀ j, Vacant (s.slice j)) :
    ∃ t, exec (.livetestAbort seq) s = .next t ∧ t.flt.run = none ∧ t.tst.phase = .none ∧ t.tst.lt.res = .aborted ∧
      t.tst.lt.rseq = s.tst.lt.rseq ∧ t.glb.route.active = false ∧ (∀ h, t.serving h = s.serving h) ∧ t.chans = s.chans ∧ t.dram = s.dram := by
  obtain ⟨u, hku, heu, hu⟩ := rollback_lt hv hsd hk hc CmdSt.abort
  have hcmd : s.ltAbort seq = s.rollback m CmdSt.abort := by
    unfold State.ltAbort
    dsimp only
    rw [hcl, hr, hab, hh, hp, hm]
    simp [hs, hk]
  have hkeep := (rolledBack_keeps hsd ha).trans hku
  have hqu := hkeep.quiet (moveless_quiet hq)
  have hlt := ltEnd_ends hqu.toStill CmdSt.abort
  obtain ⟨v, pw, hrb, -, -⟩ := rolledBack_frame s hsd
  have hfr : u.flt.run = none ∧ u.glb = { s.glb with route := { s.glb.route with active := false, wm := 0 } } ∧ u.chans = s.chans ∧
      u.dram = s.dram ∧ u.pending = s.pending ∧ u.now = s.now ∧ u.tst = s.tst := by
    rw [hrb] at heu
    obtain ⟨r, l, x, d, rfl⟩ := heu
    exact ⟨rfl, rfl, rfl, rfl, rfl, rfl, rfl⟩
  obtain ⟨f1, f2, f3, f4, f5, f6, f7⟩ := hfr
  have heff := hcmd.trans hu
  generalize u.ltEnd CmdSt.abort = z at hlt heff
  have hend : exec (.livetestAbort seq) s = .next _ := hlt.still.ends (movePrep_of_run fun _ h => by rw [hlt.flt, f1] at h; nomatch h) heff
    (hlt.pending.trans f5) (hlt.now.trans f6)
  refine ⟨_, hend, ?_⟩
  obtain ⟨p, hp'⟩ := syncPower_frame z
  rw [hp']
  refine ⟨(congrArg Flt.run hlt.flt).trans f1, hlt.phase, (congrArg CmdSt.res hlt.lt), (congrArg CmdSt.rseq hlt.lt).trans (congrArg (fun t : Tst => t.lt.rseq) f7),
    ?_, fun h => ?_, hlt.chans.trans f3, hlt.dram.trans f4⟩
  · exact congrArg (fun g : Glb => g.route.active) (hlt.glb.trans f2)
  · have : z.serving h = s.serving h := by
      unfold State.serving
      rw [hlt.glb, f2]
    exact this

/-- Settles O59: a LIVETEST starts with its TEST or with a move; its BIST ends; an abort finds none, or rolls the move back. -/
theorem liveTest : Obligations.LiveTest := by
  intro s seq i d back hc
  refine ⟨fun hq ha hr hp hf hsev hret hrs hu => ?_, fun hq hr fails => bistDone_ends hq hr fails, fun hq hres hs => ?_,
    fun m hq ha hm hk _ hcm hsrc hdst hne hp hr hs hh hab _ hv hmem => ?_⟩
  · have ht : Testable s i := ⟨hr, hp, hf, hsev, hret, hrs, hu⟩
    refine ⟨fun hh hl => livetestStart_tests hq hc ha ht hh hl _, fun h hh hd hfr hne hdas hld hlog => ?_⟩
    have hld' : s.glb.ld.st.res ≠ .running := by rw [hld]; decide
    obtain ⟨t, hset, hb⟩ := beginMove_settles (s := ltNamed s seq i (BitVec.ofNat 5 d.val) back (some h)) (h := h) (cmd := false)
      (hq.toStill.modTst _ (show LtPhase.move ≠ .back by decide)) hr (.inr (.inl rfl)) hsev hld' hdas hlog
    refine ⟨t, _, commandEnd_settle ((congrArg State.settle (ltStart_move hc ha ht hh hd hfr hne hld')).trans hset) hb.pending hb.now,
      congrArg Tst.phase hb.tst, congrArg Tst.lt hb.tst, congrArg Tst.ltHome hb.tst, congrArg Tst.ltBack hb.tst, hb.run, rfl, rfl, rfl, rfl, rfl,
      hb.waking, hb.chans, hb.dram, hb.glb⟩
  · have hcmd : s.ltAbort seq = s.modTst fun t => { t with lt := { t.lt with res := .nothing, rseq := seq } } := by
      unfold State.ltAbort
      dsimp only
      rw [hc, if_neg (by simp [hs]), if_pos (by simp [hres])]
      rfl
    exact (hq.modTst _ rfl).ends hcmd rfl rfl
  · refine livetestAbort_rollsBack hq hc ha hm hk hcm (by rw [hsrc, hdst]; exact hne) hp hr hs hh hab fun j => ?_
    obtain ⟨h1, h2, h3, h4⟩ := hv j
    obtain ⟨m1, m2, -, -⟩ := hmem j
    exact ⟨h1, h2, h3, h4, m1, m2⟩

end Sys2Proof.Safety
end


section
/-! O49: how an evacuation, a takeover and a return end (R367, R368, R370). -/

namespace Sys2Proof.Safety

open Sys2Proof.Machine

variable {s t u : State} {m : Move}

/-- What runs by itself in a slice. -/
structure SameRun (x y : Slice) : Prop where
  reset : y.ctl.resetWait = x.ctl.resetWait
  auto : y.ctl.autoRet = x.ctl.autoRet
  mode : y.mem.ctl.mode = x.mem.ctl.mode
  hold : y.wakeHold = x.wakeHold
  ingress : y.ingress = x.ingress

theorem SameRun.refl (x : Slice) : SameRun x x := ⟨rfl, rfl, rfl, rfl, rfl⟩

theorem SameRun.trans {x y z : Slice} (a : SameRun x y) (b : SameRun y z) : SameRun x z :=
  ⟨b.reset.trans a.reset, b.auto.trans a.auto, b.mode.trans a.mode, b.hold.trans a.hold, b.ingress.trans a.ingress⟩

/-- The network island's state, but for what says where a home is. -/
def Glb.placed (g : Glb) (sl : Tab (Option (Fin 17))) (rt : Route) (dg ah : BitVec 16) : Glb :=
  { g with slice := sl, route := rt, deg := dg, admHold := ah }

/-- State t is s but for what a home's change of slice changes. -/
structure Hands (s t : State) : Prop where
  due : t.flt.due = s.flt.due
  glb : ∃ sl rt dg ah, t.glb = Glb.placed s.glb sl rt dg ah
  par : t.par = s.par
  tst : t.tst = s.tst
  csr : t.csr = s.csr
  dram : t.dram = s.dram
  noc : (s.noc.bufs = [] ∧ s.noc.wait = []) → t.noc.bufs = [] ∧ t.noc.wait = []
  ports : ∀ p, (t.port p).held = (s.port p).held ∧ (t.port p).resetting = (s.port p).resetting
  slices : ∀ i, SameRun (s.slice i) (t.slice i)
  pending : t.pending = s.pending
  now : t.now = s.now

theorem Hands.refl (s : State) : Hands s s :=
  ⟨rfl, ⟨_, _, _, _, rfl⟩, rfl, rfl, rfl, rfl, id, fun _ => ⟨rfl, rfl⟩, fun _ => .refl _, rfl, rfl⟩

theorem Hands.trans (a : Hands s t) (b : Hands t u) : Hands s u where
  due := b.due.trans a.due
  glb := by
    obtain ⟨_, _, _, _, h⟩ := a.glb
    obtain ⟨sl, rt, dg, ah, h'⟩ := b.glb
    exact ⟨sl, rt, dg, ah, by rw [h', h]; rfl⟩
  par := b.par.trans a.par
  tst := b.tst.trans a.tst
  csr := b.csr.trans a.csr
  dram := b.dram.trans a.dram
  noc h := b.noc (a.noc h)
  ports p := ⟨(b.ports p).1.trans (a.ports p).1, (b.ports p).2.trans (a.ports p).2⟩
  slices i := (a.slices i).trans (b.slices i)
  pending := b.pending.trans a.pending
  now := b.now.trans a.now

theorem Hands.modSlice (s : State) (i : Fin 17) (f : Slice → Slice) (h : SameRun (s.slice i) (f (s.slice i))) : Hands s (s.modSlice i f) :=
  { Hands.refl s with
    slices := fun j => by
      by_cases e : j = i
      · rw [e, modSlice_slice_self]
        exact h
      · rw [modSlice_slice_ne _ _ e]
        exact .refl _ }

theorem Hands.modGlb (s : State) (f : Glb → Glb) (h : ∃ sl rt dg ah, f s.glb = Glb.placed s.glb sl rt dg ah) : Hands s (s.modGlb f) :=
  { Hands.refl s with glb := h }

theorem Hands.withChans (s : State) (v : Vector Chan 16) : Hands s { s with chans := v } := { Hands.refl s with }

theorem Hands.event (h : EventOnly s t) (hd : t.flt.due = s.flt.due) : Hands s t := by
  obtain ⟨r, l, x, d, rfl⟩ := h
  exact { Hands.refl s with due := hd }

theorem Hands.modFlt (s : State) (f : Flt → Flt) (h : (f s.flt).due = s.flt.due) : Hands s (s.modFlt f) := { Hands.refl s with due := h }

theorem Hands.withRegs (s : State) (r : Tab (BitVec 32)) : Hands s { s with regs := r } := { Hands.refl s with }

theorem Hands.withPorts (s : State) (v : Vector Port 24) (h : ∀ p : Fin 24, v[p.val].held = (s.port p).held ∧ v[p.val].resetting = (s.port p).resetting) :
    Hands s { s with ports := v } := { Hands.refl s with ports := h }

theorem Hands.withNoc (s : State) (n : Noc) (h : (s.noc.bufs = [] ∧ s.noc.wait = []) → n.bufs = [] ∧ n.wait = []) : Hands s { s with noc := n } :=
  { Hands.refl s with noc := h }

theorem Hands.routeOff (s : State) : Hands s s.routeOff := by
  rw [routeOff_eq]
  refine (Hands.modGlb s _ ⟨_, _, _, _, rfl⟩).trans (.withPorts _ _ fun p => ?_)
  rw [Vector.getElem_ofFn]
  exact ⟨rfl, rfl⟩

theorem Hands.netMap (s : State) (f : NetMsg → NetMsg) : Hands s (s.netMap f) := by
  refine .withNoc s _ fun h => ?_
  dsimp only
  rw [h.1, h.2]
  exact ⟨rfl, rfl⟩

/-- A slice that changes in its queues alone. -/
structure QueuesOnly (x y : Slice) : Prop where
  ar : y.ar = x.ar
  ctl : y.ctl = x.ctl
  mem : y.mem.ctl = x.mem.ctl
  hold : y.wakeHold = x.wakeHold
  ingress : y.ingress = x.ingress

theorem QueuesOnly.trans {x y z : Slice} (a : QueuesOnly x y) (b : QueuesOnly y z) : QueuesOnly x z :=
  ⟨b.ar.trans a.ar, b.ctl.trans a.ctl, b.mem.trans a.mem, b.hold.trans a.hold, b.ingress.trans a.ingress⟩

theorem modSlice_queuesOnly (s : State) (i : Fin 17) (f : Slice → Slice) (h : ∀ x, QueuesOnly x (f x)) (j : Fin 17) :
    QueuesOnly (s.slice j) ((s.modSlice i f).slice j) := by
  by_cases e : j = i
  · rw [e, modSlice_slice_self]
    exact h _
  · rw [modSlice_slice_ne _ _ e]
    exact ⟨rfl, rfl, rfl, rfl, rfl⟩

/-- Whether a fetch is one of a slice's service unit that goes to another's. -/
def ofUnit (i d : Fin 17) (f : FetchReq) : Bool := f.toUnit i d != f

/-- Fetches of one unit, as they become another's. -/
def unitFetches (i d : Fin 17) (l : List FetchReq) : List FetchReq := (l.filter (ofUnit i d)).map (·.toUnit i d)

/-- A slice that its service operations have left. -/
def unitLeft (i d : Fin 17) (x : Slice) : Slice :=
  { x with
    svcq := []
    mem := { x.mem with
      fetchHold := x.mem.fetchHold.filter fun f => !ofUnit i d f
      fetchWait := x.mem.fetchWait.filter fun f => !ofUnit i d f
      memq := x.mem.memq.filter fun m => decide (m.tid < 32768) } }

/-- A slice that the service operations of another have joined. -/
def unitJoined (i d : Fin 17) (x y : Slice) : Slice :=
  { y with
    svcq := y.svcq ++ x.svcq
    mem := { y.mem with
      fetchHold := y.mem.fetchHold ++ unitFetches i d x.mem.fetchHold
      fetchWait := y.mem.fetchWait ++ unitFetches i d x.mem.fetchWait
      memq := y.mem.memq ++ x.mem.memq.filter fun m => decide (32768 ≤ m.tid) } }

theorem moveSvcq_eq (s : State) (i d : Fin 17) : s.moveSvcq i d =
    (((s.modSlice i (unitLeft i d)).modSlice d (unitJoined i d (s.slice i))).netMap (NetMsg.toUnit i d)).mapChans fun _ c => { c with
      rq := c.rq.map fun r => { r with f := r.f.toUnit i d }
      inflight := c.inflight.map fun r => { r with f := r.f.toUnit i d } } := by
  unfold State.moveSvcq
  exact eachChan_eq _ _ _ fun _ _ => rfl

/-- What the service operations that go to another slice leave alone. -/
theorem moveSvcq_frame (s : State) (i d : Fin 17) : ∃ v n c, s.moveSvcq i d = { s with slices := v, noc := n, chans := c } ∧
    (∀ j : Fin 17, QueuesOnly (s.slice j) v[j.val]) ∧ ((s.noc.bufs = [] ∧ s.noc.wait = []) → n.bufs = [] ∧ n.wait = []) := by
  obtain ⟨w, hw⟩ : ∃ w, w = (s.modSlice i (unitLeft i d)).modSlice d (unitJoined i d (s.slice i)) := ⟨_, rfl⟩
  have hsl : ∀ j, QueuesOnly (s.slice j) (w.slice j) := fun j => by
    rw [hw]
    exact (modSlice_queuesOnly s i (unitLeft i d) (fun _ => ⟨rfl, rfl, rfl, rfl, rfl⟩) j).trans
      (modSlice_queuesOnly _ d (unitJoined i d (s.slice i)) (fun _ => ⟨rfl, rfl, rfl, rfl, rfl⟩) j)
  have hwf : w = { s with slices := w.slices } := by rw [hw]; rfl
  have hn := (Hands.netMap s (NetMsg.toUnit i d)).noc
  rw [moveSvcq_eq, ← hw]
  obtain ⟨v, hv⟩ : ∃ v, v = w.slices := ⟨_, rfl⟩
  rw [← hv] at hwf
  subst hwf
  exact ⟨v, (s.netMap (NetMsg.toUnit i d)).noc, _, rfl, hsl, hn⟩

theorem Hands.moveSvcq (s : State) (i d : Fin 17) : Hands s (s.moveSvcq i d) := by
  obtain ⟨v, n, c, h, hs, hn⟩ := moveSvcq_frame s i d
  rw [h]
  exact { Hands.refl s with
    noc := hn
    slices := fun j => ⟨congrArg SlcCtl.resetWait (hs j).ctl, congrArg SlcCtl.autoRet (hs j).ctl, congrArg MscCtl.mode (hs j).mem, (hs j).hold, (hs j).ingress⟩ }

/-! ### The service state -/

theorem readServices_of_nil {i : Fin 17} (h : (s.slice i).ar.inj = []) : s.readServices i = s := by
  unfold State.readServices
  rw [readLedgers_of_nil h, h]
  rfl

/-- The service state of a slice, as another takes it. -/
def serviceTaken (x y : Slice) : Slice :=
  { y with
    ar := { y.ar with
      ledger := x.ar.ledger, desc := x.ar.desc
      ledgerBad := y.ar.ledgerBad.filter (fun k => !x.ar.ledgerBad.contains k) ++ x.ar.ledgerBad
      inj := y.ar.inj.filter fun e => e.1 != 3 && e.1 != 4 }
    sw := { y.sw with ledgerAgents := y.sw.ledgerAgents ++ x.sw.ledgerAgents } }

/-- A slice that its service state has left. -/
def serviceLeft (x : Slice) : Slice := { x with ar := { x.ar with ledger := [], desc := [] }, sw := { x.sw with ledgerAgents := [] } }

theorem moveService_eq {i d : Fin 17} (h : (s.slice i).ar.inj = []) :
    s.moveService i d = (s.modSlice d (serviceTaken (s.slice i))).modSlice i serviceLeft := by
  unfold State.moveService
  dsimp only
  rw [readServices_of_nil h]
  rfl

theorem Hands.moveService {i : Fin 17} (h : (s.slice i).ar.inj = []) (d : Fin 17) : Hands s (s.moveService i d) := by
  rw [moveService_eq h]
  exact (Hands.modSlice _ _ _ ⟨rfl, rfl, rfl, rfl, rfl⟩).trans (.modSlice _ _ _ ⟨rfl, rfl, rfl, rfl, rfl⟩)

/-- What the destination of a home has of another slice's service state. -/
structure Serves (x y z : Slice) : Prop where
  ledger : z.ar.ledger = x.ar.ledger
  desc : z.ar.desc = x.ar.desc
  repl : z.ar.repl = y.ar.repl

theorem moveService_serves {i d : Fin 17} (h : (s.slice i).ar.inj = []) (hd : i ≠ d) : Serves (s.slice i) (s.slice d) ((s.moveService i d).slice d) := by
  rw [moveService_eq h, modSlice_slice_ne _ _ hd.symm, modSlice_slice_self]
  exact ⟨rfl, rfl, rfl⟩

theorem moveService_glb {i : Fin 17} (h : (s.slice i).ar.inj = []) (d : Fin 17) : (s.moveService i d).glb = s.glb ∧ (s.moveService i d).flt = s.flt := by
  rw [moveService_eq h]
  exact ⟨rfl, rfl⟩

/-! ### What follows from the end of a move -/

/-- After the end of a move the steps that look at the ports and at the controls of slices have nothing to do. -/
theorem Hands.calm (h : Hands s t) (hq : Quiet (withoutMove s)) (hr : t.flt.run = none) (ha : t.glb.admHold = 0) : Calm t := by
  obtain ⟨sl, rt, dg, ah, hg⟩ := h.glb
  have hready : ∀ k, t.heldReady k = (withoutMove s).heldReady k := fun k => by
    unfold State.heldReady State.part
    rw [h.par]
    rfl
  constructor
  case due => exact h.due.trans hq.due
  case run => exact fun m hm => by rw [hr] at hm; nomatch hm
  case adm => exact fun k hk => by rw [ha] at hk; simp at hk
  case load => rw [hg]; exact hq.load
  case job => rw [h.par]; exact hq.job
  case sweep => rw [hg]; exact hq.sweep
  case back => rw [h.tst]; exact fun e => absurd rfl (hq.back e)
  case ports =>
    intro p
    rw [(h.ports p).1, (h.ports p).2]
    exact ⟨(hq.ports p).1, fun k hk => by rw [hready]; exact (hq.ports p).2 k hk⟩
  case net => exact h.noc hq.net
  case reads =>
    intro w hw
    refine (csrHolds_congr fun k => ?_).trans (hq.reads w (h.csr ▸ hw))
    unfold State.islBusy
    rw [h.csr]
    rfl
  case slices => exact fun i => by rw [(h.slices i).reset, (h.slices i).auto]; exact hq.slices i

theorem Hands.startSteps (h : Hands s t) (hq : Quiet (withoutMove s)) : t.commitStep.startStep.disableStep = t := by
  obtain ⟨sl, rt, dg, ah, hg⟩ := h.glb
  have hgc : t.glb.cmd.res = .running → t.glb.stt ≠ .ready ∧ t.glb.stt ≠ .committed := by rw [hg]; exact hq.gc
  have hst : t.glb.stt ≠ .init ∧ t.glb.stt ≠ .train ∧ t.glb.stt ≠ .load := by rw [hg]; exact hq.stt
  have hms : t.glb.stt = .disabling → ∀ i, (t.slice i).mem.ctl.mode ≠ .on := fun e i => by
    rw [(h.slices i).mode]
    exact hq.msc (by rw [hg] at e; exact e) i
  rw [commitStep_of_stt hgc, startStep_of_stt hst, disableStep_of_msc hms]

/-- Where admission is held for no home, a move's end is followed by the wake of DET slices and by power requests. -/
theorem Hands.settle (h : Hands s t) (hq : Quiet (withoutMove s)) (hr : t.flt.run = none) (ha : t.glb.admHold = 0) :
    ∃ v, t.settle = v.syncPower.setPins ∧ WakesOnly t v :=
  (h.calm hq hr ha).settleWake (h.startSteps hq) (h.calm hq hr ha)

/-- Nothing that was forwarded is on its way to the slice that serves a home. -/
structure Arrived (s : State) (h : Fin 16) (d : Fin 17) : Prop where
  serving : s.serving h = some d
  hold : (s.slice d).wakeHold = []
  ingress : (s.slice d).ingress = []
  net : s.noc.bufs = [] ∧ s.noc.wait = []

/-- A takeover or a return of home h runs. -/
def takesHome (s : State) (h : Fin 16) : Bool :=
  match s.flt.run with
  | some m => m.home == h && !evacLike m.kind
  | none => false

/-- A request of home h that was forwarded is left. -/
def fwdLeft (s : State) (h : Fin 16) : Bool :=
  match s.serving h with
  | some i =>
    let x := s.slice i
    (x.wakeHold.any fun e => e.2.home == h && e.2.fwd) ||
      s.reqOnWay i (fun r => r.home == h && r.fwd) ||
      (List.range 26).any fun rq => (x.ing rq).fwd.any fun e => e.1.home == h
  | none => false

/-- Admission of home h resumes where nothing that was forwarded is left. -/
def liftOne (s : State) (h : Fin 16) : State :=
  if s.glb.admHold.getLsbD h.val && !takesHome s h && !fwdLeft s h then
    s.modGlb fun g => { g with admHold := g.admHold &&& ~~~(BitVec.ofNat 16 (2 ^ h.val)) }
  else s

theorem liftOne_of_clear {h : Fin 16} (hb : s.glb.admHold.getLsbD h.val = false) : liftOne s h = s := by
  unfold liftOne
  rw [hb]
  rfl

/-- Admission of the home of a move that has ended resumes. -/
theorem liftHold_arrived {h : Fin 16} {d : Fin 17} (ha : s.glb.admHold = BitVec.ofNat 16 (2 ^ h.val)) (hr : s.flt.run = none) (hv : Arrived s h d) :
    s.liftHold = s.modGlb fun g => { g with admHold := 0 } := by
  have hnet : ∀ p, s.reqOnWay d p = false := fun p => by
    unfold State.reqOnWay State.netReqs State.netFlits
    rw [hv.net.1, hv.net.2]
    rfl
  have hing : ((List.range 26).any fun rq => ((s.slice d).ing rq).fwd.any fun e => e.1.home == h) = false :=
    List.any_eq_false.2 fun rq _ => by
      rw [show (s.slice d).ing rq = ⟨[], []⟩ from tabGet_nil hv.ingress rq]
      exact Bool.false_ne_true
  have hbit : ∀ k, s.glb.admHold.getLsbD k.val = (k == h) := fun k => by rw [ha, getLsbD_oneHot]
  have hzero : s.glb.admHold &&& ~~~(BitVec.ofNat 16 (2 ^ h.val)) = 0 := by rw [ha]; simp
  have hat : liftOne s h = s.modGlb fun g => { g with admHold := 0 } := by
    have ht : takesHome s h = false := by unfold takesHome; rw [hr]
    have hf : fwdLeft s h = false := by
      unfold fwdLeft
      rw [hv.serving]
      dsimp only
      rw [hv.hold, hnet, hing]
      rfl
    unfold liftOne
    rw [ht, hf, hbit, beq_self_eq_true]
    refine (if_pos rfl).trans (congrArg (fun a => s.modGlb fun g => { g with admHold := a }) hzero)
  have hne : s.glb.admHold ≠ 0 := fun e => by
    have := hbit h
    rw [e] at this
    simp at this
  refine (if_neg hne).trans (.trans (foldl_one liftOne s h _ (List.mem_finRange h) (List.nodup_finRange 16) (fun k hk => ?_) fun k hk => ?_) hat)
  · refine liftOne_of_clear ?_
    rw [hbit]
    simpa using hk
  · rw [hat]
    exact liftOne_of_clear (by simp)

/-- Admission of the home of a takeover or a return that has ended resumes, DET slices wake, and power requests follow. -/
theorem Hands.settleLift {h : Fin 16} {d : Fin 17} (hh : Hands s t) (hq : Quiet (withoutMove s)) (hr : t.flt.run = none)
    (ha : t.glb.admHold = BitVec.ofNat 16 (2 ^ h.val)) (hv : Arrived t h d) :
    ∃ v, t.settle = v.syncPower.setPins ∧ WakesOnly (t.modGlb fun g => { g with admHold := 0 }) v := by
  have hu : Hands s (t.modGlb fun g => { g with admHold := 0 }) := hh.trans (.modGlb _ _ ⟨_, _, _, _, rfl⟩)
  have hl := liftHold_arrived ha hr hv
  have hm : t.movePrep = t := movePrep_of_run fun m hm => by rw [hr] at hm; nomatch hm
  have hru : (t.modGlb fun g => { g with admHold := 0 }).flt.run = none := hr
  have hau : (t.modGlb fun g => { g with admHold := 0 }).glb.admHold = 0 := rfl
  obtain ⟨u, hud⟩ : ∃ u, u = t.modGlb fun g => { g with admHold := 0 } := ⟨_, rfl⟩
  rw [← hud] at hu hl hru hau ⊢
  have hc := hu.calm hq hru hau
  have hw : WakesOnly u u.detWake := .detWake u
  have hcw := hc.wakes hw
  refine ⟨u.detWake, ?_, hw⟩
  have h₁ : t.movePrep.liftHold.engineSteps = u := by rw [hm, hl, engineSteps_of_waits hc.load hc.job]
  exact settle_of_selfSteps (hh.due.trans hq.due) (selfSteps_eq h₁ (hu.startSteps hq) rfl hcw.resets hcw.held) hcw.net hcw.due fun i => (hcw.slices i).2

/-! ### The home's change of slice -/

theorem routeOff_frame (s : State) : ∃ w, s.routeOff = { s with ports := w, glb := { s.glb with route := { s.glb.route with active := false } } } := by
  rw [routeOff_eq]
  exact ⟨_, rfl⟩

/-- What the change of a home's slice leaves. -/
structure HandedOver (s : State) (h : Fin 16) (svc d : Fin 17) (t : State) : Prop where
  hands : Hands s t
  flt : t.flt = s.flt
  slice : t.glb.slice = tabSet (some (Fin.ofNat 17 h.val)) s.glb.slice h.val (some d)
  adm : t.glb.admHold = s.glb.admHold
  deg : t.glb.deg = s.glb.deg
  serves : Serves (s.slice svc) (s.slice d) (t.slice d)

theorem handOver_ends {svc : Fin 17} (hinj : (s.slice svc).ar.inj = []) (hd : svc ≠ m.dst) :
    HandedOver s m.home svc m.dst (s.handOver m svc) ∧ (s.handOver m svc).glb.route.active = false := by
  have h1 : Hands s (s.modSlice svc fun x => { x with resv := x.resv.filter fun r => r.home != m.home }) := .modSlice _ _ _ ⟨rfl, rfl, rfl, rfl, rfl⟩
  have hsl (j : Fin 17) : ((s.modSlice svc fun x => { x with resv := x.resv.filter fun r => r.home != m.home }).slice j).ar = (s.slice j).ar := by
    by_cases e : j = svc
    · rw [e, modSlice_slice_self]
    · rw [modSlice_slice_ne _ _ e]
  unfold State.handOver
  dsimp only
  have hg1 : (s.modSlice svc fun x => { x with resv := x.resv.filter fun r => r.home != m.home }).glb = s.glb ∧
    (s.modSlice svc fun x => { x with resv := x.resv.filter fun r => r.home != m.home }).flt = s.flt := ⟨rfl, rfl⟩
  generalize (s.modSlice svc fun x => { x with resv := x.resv.filter fun r => r.home != m.home }) = a at h1 hsl hg1
  have hia : (a.slice svc).ar.inj = [] := by rw [hsl]; exact hinj
  have h2 := h1.trans (.moveService hia m.dst)
  have hg2 := moveService_glb hia m.dst
  have hs2 := moveService_serves hia hd
  generalize a.moveService svc m.dst = b at h2 hg2 hs2
  have h3 := h2.trans (.moveSvcq b m.src m.dst)
  obtain ⟨v, n, c, hb, hv, -⟩ := moveSvcq_frame b m.src m.dst
  rw [hb] at h3 ⊢
  have h4 := (h3.trans (.modGlb _ (fun g => { g with slice := tabSet (some (Fin.ofNat 17 m.home.val)) g.slice m.home.val (some m.dst) })
    ⟨_, _, _, _, rfl⟩)).trans (.routeOff _)
  have har : v[m.dst.val].ar = (b.slice m.dst).ar := (hv m.dst).ar
  obtain ⟨w, hw⟩ := routeOff_frame (State.setServing { b with slices := v, noc := n, chans := c } m.home (some m.dst))
  refine ⟨⟨h4, ?_, ?_, ?_, ?_, ?_⟩, ?_⟩
  all_goals rw [hw]
  · exact hg2.2.trans hg1.2
  · exact (congrArg (fun g : Glb => tabSet (some (Fin.ofNat 17 m.home.val)) g.slice m.home.val (some m.dst)) (hg2.1.trans hg1.1) :
      tabSet (some (Fin.ofNat 17 m.home.val)) b.glb.slice m.home.val (some m.dst) = _)
  · exact (congrArg Glb.admHold (hg2.1.trans hg1.1) : b.glb.admHold = _)
  · exact (congrArg Glb.deg (hg2.1.trans hg1.1) : b.glb.deg = _)
  · refine ⟨?_, ?_, ?_⟩
    · exact ((congrArg Arrays.ledger har).trans hs2.ledger).trans (congrArg Arrays.ledger (hsl svc))
    · exact ((congrArg Arrays.desc har).trans hs2.desc).trans (congrArg Arrays.desc (hsl svc))
    · exact ((congrArg Arrays.repl har).trans hs2.repl).trans (congrArg Arrays.repl (hsl m.dst))

theorem serving_placed {h : Fin 16} {d : Fin 17} (hs : t.glb.slice = tabSet (some (Fin.ofNat 17 h.val)) s.glb.slice h.val (some d)) :
    t.serving h = some d ∧ ∀ k, k ≠ h → t.serving k = s.serving k := by
  unfold State.serving
  rw [hs]
  exact ⟨tabGet_tabSet_self _ _ _ _, fun k hk => tabGet_tabSet_ne _ _ _ _ _ _ fun e => hk (Fin.ext e)⟩

theorem wakesOnly_ar {s t : State} (h : WakesOnly s t) (i : Fin 17) : (t.slice i).ar = (s.slice i).ar := by
  obtain ⟨w, f, hf⟩ := h.slice i
  rw [hf]

/-- The fields of a state in which slices have been woken, and the outputs have followed. -/
theorem wakesOnly_outputs {s t : State} (h : WakesOnly s t) : ∃ v p, t.syncPower.setPins = { s with slices := v, pins := p } ∧
    ∀ i : Fin 17, ∃ w f, v[i.val] = { s.slice i with ctl := { (s.slice i).ctl with waking := w, fromOff := f } } := by
  obtain ⟨⟨v, rfl⟩, hs⟩ := h
  obtain ⟨p, hp⟩ := syncPower_frame { s with slices := v }
  rw [hp]
  exact ⟨v, _, rfl, hs⟩

theorem srcEmpty_of_vacant {i : Fin 17} (hv : Vacant (s.slice i)) (hn : s.noc.bufs = [] ∧ s.noc.wait = []) (h : Fin 16) : s.srcEmpty i h = true := by
  have hing : ((List.range 26).all fun rq => ((s.slice i).ing rq).fwd.isEmpty && ((s.slice i).ing rq).direct.isEmpty) = true :=
    List.all_eq_true.2 fun rq _ => by rw [hv.ing]; rfl
  unfold State.srcEmpty State.reqOnWay State.netReqs State.netFlits
  dsimp only
  rw [hv.ents, hv.hold, hing, hv.wmb, hv.wt, hn.1, hn.2]
  rfl

/-- The end of a move's command changes its status and the completion that is reported. -/
theorem cmdEnds_hands (s : State) (m : Move) (f : CmdSt → CmdSt) : ∃ t, s.cmdEnds m f = t ∧ Hands s t ∧ t.flt.run = s.flt.run ∧ t.glb = s.glb ∧
    t.slices = s.slices := by
  refine ⟨_, rfl, ?_⟩
  unfold State.cmdEnds State.doneUnless
  split
  · have h := Hands.modFlt s (fun x => { x with cmd := f x.cmd }) rfl
    split
    · exact ⟨h, rfl, rfl, rfl⟩
    · obtain ⟨r, hr⟩ := done_frame (s.modFlt fun x => { x with cmd := f x.cmd }) 59
      rw [hr]
      exact ⟨h.trans (.withRegs _ r), rfl, rfl, rfl⟩
  · exact ⟨.refl s, rfl, rfl, rfl⟩

/-- The end of an evacuation: the destination serves the home with what the source had. -/
theorem evacFinalStep_ends (hq : Quiet (withoutMove s)) (hm : s.flt.run = some m) (hk : m.kind = .evac) (hp : m.phase = .final) (hsd : m.src ≠ m.dst)
    (hv : Vacant (s.slice m.src)) (hinj : (s.slice m.src).ar.inj = []) (hj : s.par.job = .none) (ha : s.glb.admHold = 0)
    (hsev : (s.src (srcSlice m.src)).severe = false) : ∃ t, exec .evacFinalStep s = .next t ∧ t.serving m.home = some m.dst ∧
      t.flt.run = none ∧ t.glb.route.active = false ∧ (t.slice m.dst).ar.ledger = (s.slice m.src).ar.ledger ∧
      (t.slice m.dst).ar.desc = (s.slice m.src).ar.desc ∧ (∀ h, h ≠ m.home → t.serving h = s.serving h) ∧ t.dram = s.dram := by
  obtain ⟨hh, hroute⟩ := handOver_ends (s := s) (m := m) hinj hsd
  generalize hho : s.handOver m m.src = a at hh hroute
  have hlog : EventOnly a (a.log 0x06 (srcSlice m.src)) := .logEnt _ _
  have hsrc : (a.log 0x06 (srcSlice m.src)).src = s.src := funext fun n => (logEnt_src _ _ n).trans (by unfold State.src; rw [hh.flt])
  have hd : (a.log 0x06 (srcSlice m.src)).flt.due = a.flt.due := logEnt_due _ _
  obtain ⟨b, hb⟩ : ∃ b, b = (a.log 0x06 (srcSlice m.src)).endMove := ⟨_, rfl⟩
  have heff : s.evacFinal = b.cmdEnds m CmdSt.complete := by
    have hbs : (b.src (srcSlice m.src)).severe = false := by
      rw [hb]
      exact (congrFun hsrc _ ▸ hsev : ((a.log 0x06 (srcSlice m.src)).src (srcSlice m.src)).severe = false)
    unfold State.evacFinal
    rw [hm]
    dsimp only
    rw [hk, hp, srcEmpty_of_vacant hv hq.net, hj, hho, ← hb, hbs]
    rfl
  have hhb : Hands s b := by
    rw [hb]
    exact (hh.hands.trans (.event hlog hd)).trans (.modFlt _ _ rfl)
  have hbf : b.flt.run = none ∧ b.glb = a.glb ∧ b.slices = a.slices := by
    rw [hb]
    obtain ⟨r, l, x, d, hl⟩ := hlog
    rw [hl]
    exact ⟨rfl, rfl, rfl⟩
  obtain ⟨b1, b2, b3⟩ := hbf
  obtain ⟨c, hc, hhc, c1, c2, c3⟩ := cmdEnds_hands b m CmdSt.complete
  rw [hc] at heff
  have hs := hhb.trans hhc
  obtain ⟨v, hset, hw⟩ := hs.settle hq (c1.trans b1) (by rw [c2, b2, hh.adm, ha])
  obtain ⟨y, p, hy, hyv⟩ := wakesOnly_outputs hw
  rw [hy] at hset
  refine ⟨_, commandEnd_settle ((congrArg State.settle heff).trans hset) hs.pending hs.now, ?_⟩
  have hgl : c.glb = a.glb := c2.trans b2
  have hsv := serving_placed (s := s) (t := c) (by rw [hgl]; exact hh.slice)
  have hard : (y[m.dst.val]).ar = (a.slice m.dst).ar := by
    obtain ⟨w, f, hwf⟩ := hyv m.dst
    rw [hwf]
    show (c.slice m.dst).ar = (a.slice m.dst).ar
    unfold State.slice
    rw [c3, b3]
  refine ⟨hsv.1, c1.trans b1, (congrArg (fun g : Glb => g.route.active) hgl).trans hroute, (congrArg Arrays.ledger hard).trans hh.serves.ledger,
    (congrArg Arrays.desc hard).trans hh.serves.desc, hsv.2, hs.dram⟩

/-! ### The end of a takeover and of a return -/

theorem setRetained_eq (s : State) (h : Fin 16) : s.setRetained h none = s.mapSlices fun _ x => { x with ctl := { x.ctl with
    retained := if x.ctl.retained = some h then none else x.ctl.retained } } :=
  eachSlice_eq s _ _ fun _ _ => rfl

/-- What ends a takeover and a return, once the destination serves the home: no slice retains its service state, and it is not DEGRADED. -/
def settled (s : State) (h : Fin 16) (n : Nat) : State := (((s.setDeg h false).setRetained h none).endMove).log 0x06 n

structure Settled (s : State) (h : Fin 16) (t : State) : Prop where
  hands : Hands s t
  run : t.flt.run = none
  cmd : t.flt.cmd = s.flt.cmd
  slice : t.glb.slice = s.glb.slice
  adm : t.glb.admHold = s.glb.admHold
  deg : t.degraded h = false
  ar : ∀ j, (t.slice j).ar = (s.slice j).ar
  retained : ∀ j, (t.slice j).ctl.retained ≠ some h

theorem settled_ends (s : State) (h : Fin 16) (n : Nat) : Settled s h (settled s h n) := by
  obtain ⟨v, hv, hret⟩ : ∃ v, (s.setDeg h false).setRetained h none = { s.setDeg h false with slices := v } ∧ ∀ j : Fin 17, v[j.val] =
      { s.slice j with ctl := { (s.slice j).ctl with retained := if (s.slice j).ctl.retained = some h then none else (s.slice j).ctl.retained } } := by
    rw [setRetained_eq]
    exact ⟨_, rfl, fun j => Vector.getElem_ofFn _⟩
  obtain ⟨r, l, x, d, hl⟩ := EventOnly.logEnt (({ s.setDeg h false with slices := v } : State).endMove)
    ⟨0x06, BitVec.ofNat 7 n, srcAg n, 0, 0, (({ s.setDeg h false with slices := v } : State).endMove).now⟩
  have hd : ((({ s.setDeg h false with slices := v } : State).endMove).log 0x06 n).flt.due = s.flt.due := logEnt_due _ _
  have hs1 : Hands s ({ s.setDeg h false with slices := v } : State) :=
    (Hands.modGlb s _ ⟨_, _, _, _, rfl⟩).trans { Hands.refl (s.setDeg h false) with
      slices := fun j => by
        show SameRun (s.slice j) v[j.val]
        rw [hret]
        exact ⟨rfl, rfl, rfl, rfl, rfl⟩ }
  have hs2 : Hands s ((({ s.setDeg h false with slices := v } : State).endMove).log 0x06 n) :=
    (hs1.trans (.modFlt _ _ rfl)).trans (.event (.logEnt _ _) (logEnt_due _ _))
  unfold settled
  rw [hv]
  refine ⟨hs2, ?_, ?_, ?_, ?_, ?_, fun j => ?_, fun j => ?_⟩
  all_goals
    unfold State.log
    rw [hl]
  · rfl
  · rfl
  · rfl
  · rfl
  · show (s.glb.deg &&& ~~~(BitVec.ofNat 16 (2 ^ h.val))).getLsbD h.val = false
    rw [BitVec.getLsbD_and, BitVec.getLsbD_not, getLsbD_oneHot, beq_self_eq_true]
    simp
  · show v[j.val].ar = _
    rw [hret]
  · show v[j.val].ctl.retained ≠ _
    rw [hret]
    dsimp only
    split
    · exact nofun
    · assumption

/-- The state from which a takeover or a return hands the home over: every set of the destination is unknown. -/
def allMarked (s : State) (d : Fin 17) : State := s.modSlice d fun x => x.markAll 0 16384

theorem allMarked_hands (s : State) (d : Fin 17) : Hands s (allMarked s d) := .modSlice _ _ _ ⟨rfl, rfl, rfl, rfl, rfl⟩

theorem suk_of_repl {x y : Slice} (h : x.ar.repl = y.ar.repl) (k : Nat) : x.suk k = y.suk k := by
  unfold Slice.suk Slice.replGet
  rw [h]

/-- What the end of a takeover, or of a return, leaves. -/
structure TakenOver (s : State) (h : Fin 16) (r d : Fin 17) (t : State) : Prop where
  serving : t.serving h = some d
  run : t.flt.run = none
  deg : t.degraded h = false
  adm : t.glb.admHold = 0
  ledger : (t.slice d).ar.ledger = (s.slice r).ar.ledger
  desc : (t.slice d).ar.desc = (s.slice r).ar.desc
  retained : t.retainedOf h = none
  suk : ∀ k < 16384, (t.slice d).suk k = true
  dram : t.dram = s.dram

/-- A home that has been handed over settles at its destination. -/
theorem handedOver_settles {h : Fin 16} {r d : Fin 17} {a b : State} (hq : Quiet (withoutMove s)) (ho : HandedOver (allMarked s d) h r d a)
    (hb : Settled a h b) (hrd : r ≠ d) (hadm : s.glb.admHold = BitVec.ofNat 16 (2 ^ h.val)) (hw : (s.slice d).wakeHold = [])
    (hi : (s.slice d).ingress = []) {c : State} (hc : Hands b c) (hcr : c.flt.run = b.flt.run) (hcg : c.glb = b.glb) (hcs : c.slices = b.slices) :
    ∃ t, c.settle = t ∧ TakenOver s h r d t ∧ t.flt.cmd = c.flt.cmd ∧ t.pending = s.pending ∧ t.now = s.now := by
  have hands : Hands s c := (((allMarked_hands s d).trans ho.hands).trans hb.hands).trans hc
  have hsv : c.serving h = some d := (serving_placed (s := allMarked s d) (t := c) (by rw [hcg, hb.slice]; exact ho.slice)).1
  have hca : c.glb.admHold = BitVec.ofNat 16 (2 ^ h.val) := by rw [hcg, hb.adm, ho.adm]; exact hadm
  have harr : Arrived c h d := ⟨hsv, (hands.slices d).hold.trans hw, (hands.slices d).ingress.trans hi, hands.noc hq.net⟩
  obtain ⟨v, hset, hwk⟩ := hands.settleLift hq (hcr.trans hb.run) hca harr
  obtain ⟨y, p, hy, hyv⟩ := wakesOnly_outputs hwk
  rw [hset, hy]
  have hcsl : ∀ j, (c.modGlb fun g => { g with admHold := 0 }).slice j = b.slice j := fun j => by
    show c.slices[j.val] = b.slices[j.val]
    rw [hcs]
  have hyar : ∀ j : Fin 17, y[j.val].ar = (a.slice j).ar ∧ y[j.val].ctl.retained = (b.slice j).ctl.retained := fun j => by
    obtain ⟨w, f, hf⟩ := hyv j
    rw [hf, hcsl]
    exact ⟨hb.ar j, rfl⟩
  have hsame : ((allMarked s d).slice r).ar = (s.slice r).ar := by
    unfold allMarked
    rw [modSlice_slice_ne _ _ hrd]
  refine ⟨_, rfl, ⟨hsv, hcr.trans hb.run, ?_, rfl, ?_, ?_, ?_, fun k hk => ?_, hands.dram⟩, rfl, hands.pending, hands.now⟩
  · exact (congrArg (fun g : Glb => g.deg.getLsbD h.val) hcg).trans hb.deg
  · exact ((congrArg Arrays.ledger (hyar d).1).trans ho.serves.ledger).trans (congrArg Arrays.ledger hsame)
  · exact ((congrArg Arrays.desc (hyar d).1).trans ho.serves.desc).trans (congrArg Arrays.desc hsame)
  · refine List.find?_eq_none.2 fun j _ => ?_
    have : y[j.val].ctl.retained ≠ some h := (hyar j).2 ▸ hb.retained j
    exact fun hc => this (beq_iff_eq.1 hc)
  · refine (suk_of_repl ((congrArg Arrays.repl (hyar d).1).trans ho.serves.repl) k).trans ?_
    unfold allMarked
    rw [modSlice_slice_self, suk_markAll]
    simp [hk]

theorem allMarked_recs (hr : ∀ i, (s.slice i).recs = []) (i d : Fin 17) : ((allMarked s d).slice i).recs = [] := by
  unfold allMarked
  by_cases e : i = d
  · rw [e, modSlice_slice_self]
    exact hr d
  · rw [modSlice_slice_ne _ _ e]
    exact hr i

theorem allMarked_inj {r d : Fin 17} (hrd : r ≠ d) (hi : (s.slice r).ar.inj = []) : ((allMarked s d).slice r).ar.inj = [] := by
  unfold allMarked
  rw [modSlice_slice_ne _ _ hrd]
  exact hi

theorem takeoverDone_eq {r : Fin 17} (hm : s.flt.run = some m) (hk : m.kind = .takeover) (hc : m.checked = true) (hd : s.destReady m.dst = true)
    (hj : s.par.job = .none) (hr : (s.retainedOf m.home).getD m.src = r) (hrecs : ∀ i, (s.slice i).recs = []) :
    s.takeoverDone = settled ((allMarked s m.dst).handOver m r) m.home (srcSlice m.src) := by
  unfold State.takeoverDone
  rw [hm]
  dsimp only
  rw [hk, hc, hd, hj, hr]
  refine (if_pos rfl).trans ?_
  have h := moveRecs_of_nil (s := allMarked s m.dst) (i := m.src) (allMarked_recs hrecs m.src m.dst) m.dst m.home none
  exact congrArg (fun u => settled (State.handOver u m r) m.home (srcSlice m.src)) h

/-- A return hands over the service state alone: no route leads anywhere. -/
theorem returned_ends {r d : Fin 17} (h : Fin 16) (hinj : (s.slice r).ar.inj = []) (hrd : r ≠ d) :
    HandedOver s h r d ((s.moveService r d).setServing h (some d)) := by
  obtain ⟨hg, hf⟩ := moveService_glb hinj d
  have hh := Hands.moveService hinj d
  have hs := moveService_serves hinj hrd
  generalize s.moveService r d = b at *
  exact ⟨hh.trans (.modGlb _ _ ⟨_, _, _, _, rfl⟩), hf,
    (congrArg (fun g : Glb => tabSet (some (Fin.ofNat 17 h.val)) g.slice h.val (some d)) hg : tabSet _ b.glb.slice h.val (some d) = _),
    (congrArg Glb.admHold hg : b.glb.admHold = _), (congrArg Glb.deg hg : b.glb.deg = _), hs⟩

theorem homeQuiet_of_vacant {i : Fin 17} (hv : Vacant (s.slice i)) (hn : s.noc.bufs = [] ∧ s.noc.wait = []) (h : Fin 16) : s.homeQuiet i h = true := by
  have hing : ((List.range 26).all fun rq => (((s.slice i).ing rq).fwd ++ ((s.slice i).ing rq).direct).all fun e => e.1.home != h) = true :=
    List.all_eq_true.2 fun rq _ => by rw [hv.ing]; rfl
  unfold State.homeQuiet State.reqOnWay State.netReqs State.netFlits
  dsimp only
  rw [hv.ents, hv.hold, hing, hn.1, hn.2]
  rfl

theorem returnDone_eq {r : Fin 17} (hm : s.flt.run = some m) (hk : m.kind = .ret) (hc : m.checked = true) (hd : s.destReady m.dst = true)
    (hj : s.par.job = .none) (hr : s.retainedOf m.home = some r) (hrecs : ∀ i, (s.slice i).recs = []) (hv : Vacant (s.slice m.src))
    (hn : s.noc.bufs = [] ∧ s.noc.wait = []) : s.returnDone =
      (settled (((allMarked s m.dst).moveService r m.dst).setServing m.home (some m.dst)) m.home (srcSlice m.src)).cmdEnds m CmdSt.complete := by
  unfold State.returnDone
  rw [hm]
  dsimp only
  rw [hk, hc, hd, homeQuiet_of_vacant hv hn, hj, hr, flushWmb_of_nil hv.wmb hv.wt]
  refine (if_pos rfl).trans ?_
  have h := moveRecs_of_nil (s := allMarked s m.dst) (i := m.src) (allMarked_recs hrecs m.src m.dst) m.dst m.home none
  exact congrArg (fun u => (settled ((State.moveService u r m.dst).setServing m.home (some m.dst)) m.home (srcSlice m.src)).cmdEnds m CmdSt.complete) h

theorem cmdEnds_cmd (hc : m.cmd = true) (f : CmdSt → CmdSt) : (s.cmdEnds m f).flt.cmd = f s.flt.cmd := by
  unfold State.cmdEnds State.doneUnless
  rw [if_pos hc]
  split
  · rfl
  · rw [done_flt]
    rfl

/-- Settles O49: at its end a move leaves its home at the destination, with the service state. -/
theorem moveEndsAtDestination : Obligations.MoveEndsAtDestination := by
  intro s m hq hm hsd hrecs htrk hing hingd hhold hholdd hinj hmem hj _
  have hv : Vacant (s.slice m.src) := ⟨htrk, hrecs _, hing, hhold, (hmem m.src).1, (hmem m.src).2.1⟩
  refine ⟨fun hk hp ha hsev => evacFinalStep_ends hq hm hk hp hsd hv (hinj _) hj ha hsev, fun r hadm hc hd hrd => ⟨fun hk hr => ?_, fun hk _ hr hcmd hheld => ?_⟩⟩
  · obtain ⟨ho, -⟩ := handOver_ends (s := allMarked s m.dst) (m := m) (allMarked_inj hrd (hinj r)) hrd
    obtain ⟨t, hset, ht, -, hpe, hn⟩ := handedOver_settles hq ho (settled_ends _ _ (srcSlice m.src)) hrd hadm hholdd hingd (.refl _) rfl rfl rfl
    exact ⟨t, commandEnd_settle ((congrArg State.settle (takeoverDone_eq hm hk hc hd hj hr hrecs)).trans hset) hpe hn, ht.serving, ht.run, ht.deg, ht.adm,
      ht.ledger, ht.desc, ht.retained, ht.suk, ht.dram⟩
  · have ho := returned_ends (s := allMarked s m.dst) m.home (allMarked_inj hrd (hinj r)) hrd
    have hb := settled_ends (((allMarked s m.dst).moveService r m.dst).setServing m.home (some m.dst)) m.home (srcSlice m.src)
    obtain ⟨c, hce, hhc, c1, c2, c3⟩ := cmdEnds_hands
      (settled (((allMarked s m.dst).moveService r m.dst).setServing m.home (some m.dst)) m.home (srcSlice m.src)) m CmdSt.complete
    obtain ⟨t, hset, ht, hcm, hpe, hn⟩ := handedOver_settles hq ho hb hrd hadm hholdd hingd hhc c1 c2 c3
    have hres : t.flt.cmd.res = .completed := by
      rw [hcm, ← hce, cmdEnds_cmd hcmd, hb.cmd, ho.flt]
      show (CmdSt.complete s.flt.cmd).res = _
      unfold CmdSt.complete
      rw [hheld]
    exact ⟨t, commandEnd_settle ((congrArg State.settle ((returnDone_eq hm hk hc hd hj hr hrecs hv hq.net).trans hce)).trans hset) hpe hn, ht.serving,
      ht.run, ht.deg, ht.adm, hres, ht.ledger, ht.desc, ht.retained, ht.suk, ht.dram⟩

end Sys2Proof.Safety
end

section
/-! What an ENABLE does: each port comes up with full buckets and the credits of its partitions, and the slots of every slice count anew
(R59, R300, R303, R385, R435). -/

namespace Sys2Proof.Machine

/-- A port whose buckets are full. -/
def State.bucketsFull (s : State) (x : Port) : Port :=
  { x with buckets := (List.range 128).foldl (fun t k => tabSet 0 t k (s.bucketTop (BitVec.ofNat 6 (k / 2)) (k % 2 == 1))) [] }

/-- A port that has been issued r more REQ credits of partition q. -/
def Port.giveR (x : Port) (q : PartId) (r : Nat) : Port := if r = 0 then x else (x.setR q (x.rIss q + BitVec.ofNat 15 r)).dueR q r

/-- A port that has been issued d more data credits of partition q. -/
def Port.giveD (x : Port) (q : PartId) (d : Nat) : Port := if d = 0 then x else (x.setD q (x.dIss q + BitVec.ofNat 9 d)).dueD q d

/-- A port that has been issued the credits of partition q that it may have and has not. -/
def State.issued (s : State) (p : Fin 24) (x : Port) (q : PartId) : Port :=
  if x.up && s.partEn q then (x.giveR q (s.rLimit p q - (x.rIss q).toNat)).giveD q (s.dLimit p q - (x.dIss q).toNat) else x

/-- A port whose link has just come up. -/
def State.linked (s : State) (p : Fin 24) (x : Port) : Port :=
  { x with
    up := true, link := .zero, cred := .zero, snpCred := 0
    panic := if decide (16 ≤ p.val) && decide (p.val ≤ 19) then
        if decide (s.fld (prtPage p) 0x300 11 8 ≤ x.panicLvl.toNat) then true
        else if decide (x.panicLvl.toNat ≤ s.fld (prtPage p) 0x300 3 0) then false else x.panic
      else x.panic }

/-- A port whose link comes up where it can, and whose credits are issued. -/
def State.opened (s : State) (p : Fin 24) (x : Port) : Port :=
  (List.range 64).foldl (fun x q => s.issued p x (BitVec.ofNat 6 q)) (if x.up || x.resetting then x else s.linked p x)

end Sys2Proof.Machine

namespace Sys2Proof.Safety

open Sys2Proof.Machine

variable {s : State}

/-! ### The ports -/

theorem issue_eq (s : State) (p : Fin 24) (q : PartId) : s.issue p q = s.modPort p (s.issued p · q) := by
  unfold State.issue State.issuing
  by_cases h : ((s.port p).up && s.partEn q) = true
  · rw [if_pos h]
    refine modPort_congr ?_
    unfold State.issued
    rw [if_pos h]
    rfl
  · rw [if_neg h]
    refine (modPort_same _ _ _ ?_).symm
    unfold State.issued
    rw [if_neg h]

theorem issues_eq (s : State) (p : Fin 24) (l : List Nat) (v : Vector Port 24) (f : Port → Port) :
    l.foldl (fun t q => t.issue p (BitVec.ofNat 6 q)) (({ s with ports := v } : State).modPort p f) =
      ({ s with ports := v } : State).modPort p fun x => l.foldl (fun x q => s.issued p x (BitVec.ofNat 6 q)) (f x) := by
  induction l generalizing f with
  | nil => rfl
  | cons q l ih =>
    rw [List.foldl_cons, issue_eq, modPort_modPort]
    exact ih _

/-- The link of one port comes up. -/
theorem portUp_eq (s : State) (v : Vector Port 24) (p : Fin 24) :
    ({ s with ports := v } : State).portUp p = ({ s with ports := v } : State).modPort p (s.opened p) := by
  generalize hu : ({ s with ports := v } : State) = u
  have hl : (if (u.port p).up || (u.port p).resetting then u
      else (u.modPort p fun x => { x with up := true, link := .zero, cred := .zero, snpCred := 0 }).panicSample p) =
      u.modPort p fun x => if x.up || x.resetting then x else s.linked p x := by
    by_cases h : ((u.port p).up || (u.port p).resetting) = true
    · rw [if_pos h]
      exact (modPort_same u p (fun x => if x.up || x.resetting then x else s.linked p x) (if_pos h)).symm
    · rw [if_neg h]
      refine Eq.trans ?_ (modPort_congr (if_neg h : _ = s.linked p (u.port p))).symm
      unfold State.panicSample
      rw [modPort_port_self]
      by_cases hp : (decide (16 ≤ p.val) && decide (p.val ≤ 19)) = true
      · rw [if_pos (by rw [hp]; rfl), modPort_modPort]
        refine modPort_congr ?_
        unfold State.linked
        rw [if_pos hp, ← hu]
        rfl
      · rw [if_neg (by simpa using hp)]
        refine modPort_congr ?_
        unfold State.linked
        rw [if_neg hp]
  unfold State.portUp State.issueAll
  dsimp only
  rw [hl, ← hu]
  exact issues_eq s p (List.range 64) v _

/-! ### The credits of a port -/

section
variable (x : Port) (q : PartId) (n : Nat)

theorem giveR_eq : x.giveR q n = if n = 0 then x else
    { x with cred := { x.cred with rissued := tabSet 0 x.cred.rissued q.toNat (x.rIss q + BitVec.ofNat 15 n), reqDue := x.cred.reqDue ++ [(q, n)] } } := by
  unfold Port.giveR Port.dueR
  split
  · rfl
  · rfl

theorem giveD_eq : x.giveD q n = if n = 0 then x else
    { x with cred := { x.cred with dissued := tabSet 0 x.cred.dissued q.toNat (x.dIss q + BitVec.ofNat 9 n), datDue := x.cred.datDue ++ [(q, n)] } } := by
  unfold Port.giveD Port.dueD
  split
  · rfl
  · rfl

theorem giveR_cred : ∃ c, x.giveR q n = { x with cred := c } := by
  rw [giveR_eq]
  split
  · exact ⟨x.cred, rfl⟩
  · exact ⟨_, rfl⟩

theorem giveD_cred : ∃ c, x.giveD q n = { x with cred := c } := by
  rw [giveD_eq]
  split
  · exact ⟨x.cred, rfl⟩
  · exact ⟨_, rfl⟩

theorem giveR_rIss : (x.giveR q n).rIss q = x.rIss q + BitVec.ofNat 15 n := by
  rw [giveR_eq]
  split
  · next h => subst h; simp
  · exact tabGet_tabSet_self _ _ _ _

theorem giveD_dIss : (x.giveD q n).dIss q = x.dIss q + BitVec.ofNat 9 n := by
  rw [giveD_eq]
  split
  · next h => subst h; simp
  · exact tabGet_tabSet_self _ _ _ _

theorem giveR_rIss_ne {r : PartId} (h : r ≠ q) : (x.giveR q n).rIss r = x.rIss r := by
  rw [giveR_eq]
  split
  · rfl
  · exact tabGet_tabSet_ne _ _ _ _ _ _ fun e => h (BitVec.eq_of_toNat_eq e)

theorem giveD_dIss_ne {r : PartId} (h : r ≠ q) : (x.giveD q n).dIss r = x.dIss r := by
  rw [giveD_eq]
  split
  · rfl
  · exact tabGet_tabSet_ne _ _ _ _ _ _ fun e => h (BitVec.eq_of_toNat_eq e)

theorem giveR_dIss (r : PartId) : (x.giveR q n).dIss r = x.dIss r := by
  rw [giveR_eq]
  split <;> rfl

theorem giveD_rIss (r : PartId) : (x.giveD q n).rIss r = x.rIss r := by
  rw [giveD_eq]
  split <;> rfl

end

/-- Of a port the issue of credits changes its credits alone. -/
theorem issued_frame (s : State) (p : Fin 24) (x : Port) (q : PartId) : ∃ c, s.issued p x q = { x with cred := c } := by
  unfold State.issued
  split
  · obtain ⟨c, hc⟩ := giveR_cred x q (s.rLimit p q - (x.rIss q).toNat)
    obtain ⟨d, hd⟩ := giveD_cred { x with cred := c } q (s.dLimit p q - (x.dIss q).toNat)
    rw [hc, hd]
    exact ⟨d, rfl⟩
  · exact ⟨x.cred, rfl⟩

theorem foldl_keeps {σ ι : Type} {P : σ → Prop} {f : σ → ι → σ} (hk : ∀ x a, P x → P (f x a)) (l : List ι) {x : σ} (hx : P x) : P (l.foldl f x) :=
  List.foldlRecOn l f hx fun y hy a _ => hk y a hy

/-- What one element of a list brings about and the others keep holds after all of them. -/
theorem foldl_reaches {σ ι : Type} {P Q : σ → Prop} {f : σ → ι → σ} {b : ι} {l : List ι} (hb : b ∈ l) (hk : ∀ x a, P x → P (f x a))
    (hr : ∀ x, P x → Q (f x b)) (hq : ∀ x a, Q x → Q (f x a)) {x : σ} (hx : P x) : Q (l.foldl f x) := by
  induction l generalizing x with
  | nil => nomatch hb
  | cons a l ih =>
    obtain rfl | hb := List.mem_cons.1 hb
    · exact foldl_keeps hq l (hr x hx)
    · exact ih hb (hk x a hx)

/-- A port that is up and has of partition q at most the credits that it may have. -/
structure Within (s : State) (p : Fin 24) (q : PartId) (x : Port) : Prop where
  up : x.up = true
  r : (x.rIss q).toNat ≤ s.rLimit p q
  d : (x.dIss q).toNat ≤ s.dLimit p q

/-- A port that is up and has of partition q the credits that it may have. -/
structure Filled (s : State) (p : Fin 24) (q : PartId) (x : Port) : Prop where
  up : x.up = true
  r : (x.rIss q).toNat = s.rLimit p q
  d : (x.dIss q).toNat = s.dLimit p q

theorem issued_up (s : State) (p : Fin 24) (x : Port) (q : PartId) : (s.issued p x q).up = x.up := by
  obtain ⟨c, hc⟩ := issued_frame s p x q
  rw [hc]

theorem issued_ne {p : Fin 24} {x : Port} {q r : PartId} (h : r ≠ q) : (s.issued p x q).rIss r = x.rIss r ∧ (s.issued p x q).dIss r = x.dIss r := by
  unfold State.issued
  split
  · rw [giveD_rIss, giveR_rIss_ne _ _ _ h, giveD_dIss_ne _ _ _ h, giveR_dIss]
    exact ⟨rfl, rfl⟩
  · exact ⟨rfl, rfl⟩

theorem rLimit_lt (s : State) (p : Fin 24) (q : PartId) : s.rLimit p q < 2 ^ 15 := Nat.mod_lt _ (by decide)
theorem dLimit_lt (s : State) (p : Fin 24) (q : PartId) : s.dLimit p q < 2 ^ 9 := Nat.mod_lt _ (by decide)

theorem issued_fills {p : Fin 24} {x : Port} {q : PartId} (he : s.partEn q = true) (h : Within s p q x) : Filled s p q (s.issued p x q) := by
  obtain ⟨hu, hr, hd⟩ := h
  have hl := rLimit_lt s p q
  have hm := dLimit_lt s p q
  refine ⟨(issued_up s p x q).trans hu, ?_, ?_⟩
  · rw [State.issued, if_pos (by rw [hu, he]; rfl), giveD_rIss, giveR_rIss, BitVec.toNat_add, BitVec.toNat_ofNat]
    omega
  · rw [State.issued, if_pos (by rw [hu, he]; rfl), giveD_dIss, giveR_dIss, BitVec.toNat_add, BitVec.toNat_ofNat]
    omega

theorem Filled.issued {p : Fin 24} {x : Port} {q : PartId} (h : Filled s p q x) (r : PartId) : Filled s p q (s.issued p x r) := by
  obtain ⟨hu, hr, hd⟩ := h
  by_cases e : q = r
  · subst e
    by_cases he : s.partEn q = true
    · exact issued_fills he ⟨hu, hr.le, hd.le⟩
    · rw [State.issued, if_neg (by simp [he])]
      exact ⟨hu, hr, hd⟩
  · obtain ⟨h1, h2⟩ := issued_ne (s := s) (p := p) (x := x) e
    exact ⟨(issued_up s p x r).trans hu, by rw [h1]; exact hr, by rw [h2]; exact hd⟩

theorem Within.issued {p : Fin 24} {x : Port} {q : PartId} (h : Within s p q x) (he : s.partEn q = true) (r : PartId) : Within s p q (s.issued p x r) := by
  obtain ⟨hu, hr, hd⟩ := h
  by_cases e : q = r
  · subst e
    obtain ⟨hu, hr, hd⟩ := issued_fills he ⟨hu, hr, hd⟩
    exact ⟨hu, hr.le, hd.le⟩
  · obtain ⟨h1, h2⟩ := issued_ne (s := s) (p := p) (x := x) e
    exact ⟨(issued_up s p x r).trans hu, by rw [h1]; exact hr, by rw [h2]; exact hd⟩

theorem opened_of_down {p : Fin 24} {x : Port} (hu : x.up = false) (hr : x.resetting = false) :
    s.opened p x = (List.range 64).foldl (fun x q => s.issued p x (BitVec.ofNat 6 q)) (s.linked p x) := by
  unfold State.opened
  rw [hu, hr]
  rfl

/-- A port that was down comes up, and has the credits of every enabled partition. -/
theorem opened_filled {p : Fin 24} {x : Port} (hu : x.up = false) (hr : x.resetting = false) {q : PartId} (he : s.partEn q = true) :
    Filled s p q (s.opened p x) := by
  rw [opened_of_down hu hr]
  refine foldl_reaches (P := Within s p q) (b := q.toNat) (List.mem_range.2 q.isLt) (fun _ _ h => h.issued he _) (fun y hy => ?_)
    (fun _ _ h => h.issued _) ⟨rfl, Nat.zero_le _, Nat.zero_le _⟩
  rw [BitVec.ofNat_toNat, BitVec.setWidth_eq]
  exact issued_fills he hy

/-- It has no credit of a partition that is not enabled. -/
theorem opened_none {p : Fin 24} {x : Port} (hu : x.up = false) (hr : x.resetting = false) {q : PartId} (he : s.partEn q = false) :
    (s.opened p x).rIss q = 0 := by
  rw [opened_of_down hu hr]
  refine foldl_keeps (P := fun y : Port => y.rIss q = 0) (fun y r hy => ?_) _ rfl
  by_cases e : q = BitVec.ofNat 6 r
  · rw [← e, State.issued, if_neg (by simp [he])]
    exact hy
  · exact (issued_ne e).1.trans hy

/-- Of a port its link and its credits change alone, and its panic level is compared anew. -/
theorem opened_frame (s : State) (p : Fin 24) {x : Port} (hu : x.up = false) (hr : x.resetting = false) :
    ∃ c n, s.opened p x = { x with up := true, link := .zero, cred := c, snpCred := 0, panic := n } := by
  rw [opened_of_down hu hr]
  refine foldl_keeps (P := fun y : Port => ∃ c n, y = { x with up := true, link := .zero, cred := c, snpCred := 0, panic := n })
    (fun y r ⟨c, n, hy⟩ => ?_) _ ⟨.zero, _, rfl⟩
  obtain ⟨d, hd⟩ := issued_frame s p y (BitVec.ofNat 6 r)
  rw [hd, hy]
  exact ⟨d, n, rfl⟩

end Sys2Proof.Safety
end

section
/-! ENABLE (R59, R385): the state it leaves, and that nothing follows from it by itself. -/

namespace Sys2Proof.Machine

/-- A slice whose time slots begin. -/
def State.slotted (s : State) (x : Slice) : Slice := { x.slotsStart with sw := { x.slotsStart.sw with scrubAt := s.edge } }

/-- The network island as an ENABLE leaves it while it runs. -/
def State.enabling (s : State) (seq : BitVec 8) : State :=
  (s.gcAccept seq).modGlb fun g => { g with stt := .enabled, everEnabled := true, layout := (s.gcAccept seq).layoutRegs }

/-- The block as an ENABLE leaves it, but for the phases of refresh. -/
def State.started (s : State) : State := ((s.mapPorts fun _ => s.bucketsFull).mapPorts s.opened).mapSlices fun _ => s.slotted

end Sys2Proof.Machine

namespace Sys2Proof.Safety

open Sys2Proof.Machine

variable {s : State} {seq : BitVec 8}

theorem refreshPhases_chans (s : State) : ∃ v, s.eachChan State.refreshPhase = { s with chans := v } :=
  foldl_keeps (P := fun t : State => ∃ v, t = { s with chans := v }) (fun t n ⟨v, hv⟩ => by rw [hv]; exact ⟨_, rfl⟩) (List.finRange 16) ⟨s.chans, rfl⟩

theorem fenceAtEnable_of_sound (h : ∀ i, (s.src (srcSlice i)).severe = false ∧ (s.slice i).ctl.sound = true) : s.fenceAtEnable = s := by
  have hb : ((List.finRange 17).filter fun i =>
      !s.slFenced i && (!(s.slice i).ctl.sound || (s.src (srcSlice i)).severe && s.fld 59 0x104 7 6 == 1)) = [] :=
    List.filter_eq_nil_iff.2 fun i _ => by simp [h i]
  have hh : ((List.finRange 16).filterMap fun j => (s.serving j).bind fun i => if ([] : List (Fin 17)).contains i then some (i, j) else none) = [] :=
    List.filterMap_eq_nil_iff.2 fun j _ => by simp
  unfold State.fenceAtEnable
  dsimp only
  rw [hb]
  exact (congrArg (List.foldl _ _) hh : _ = List.foldl _ _ []).trans rfl

theorem bucketTop_withPorts (s : State) (v : Vector Port 24) (q : PartId) (c : Bool) : ({ s with ports := v } : State).bucketTop q c = s.bucketTop q c := by
  unfold State.bucketTop
  exact congrArg (100 * ·) rfl

theorem fillBuckets_all (s : State) : s.eachPort State.fillBuckets = s.mapPorts fun _ => s.bucketsFull :=
  eachPort_eq _ _ _ fun v p => by
    unfold State.fillBuckets
    simp only [bucketTop_withPorts]
    exact congrArg _ rfl

theorem portUp_all (s : State) (w : Vector Port 24) :
    ({ s with ports := w } : State).eachPort State.portUp = ({ s with ports := w } : State).mapPorts s.opened :=
  eachPort_eq { s with ports := w } State.portUp s.opened fun v p => portUp_eq s v p

theorem slotsStart_all (s : State) : s.eachSlice (fun s i => s.modSlice i fun x => { x.slotsStart with sw := { x.slotsStart.sw with scrubAt := s.edge } }) =
    s.mapSlices fun _ => s.slotted :=
  eachSlice_eq _ _ _ fun v i => by
    unfold State.slotted
    exact congrArg _ rfl

theorem slotted_ports (s : State) (w : Vector Port 24) : ({ s with ports := w } : State).slotted = s.slotted := by
  unfold State.slotted State.edge
  rfl

theorem mapPorts_slotted (s : State) (g : Fin 24 → Port → Port) : (s.mapPorts g).slotted = s.slotted := by
  unfold State.mapPorts
  exact slotted_ports s _

theorem opened_all (s : State) : (s.eachPort State.fillBuckets).eachPort State.portUp = (s.mapPorts fun _ => s.bucketsFull).mapPorts s.opened := by
  rw [fillBuckets_all]
  unfold State.mapPorts
  exact portUp_all s _

theorem started_eq (s : State) : ((s.eachPort State.fillBuckets).eachPort State.portUp).eachSlice
    (fun s i => s.modSlice i fun x => { x.slotsStart with sw := { x.slotsStart.sw with scrubAt := s.edge } }) = s.started := by
  rw [opened_all, slotsStart_all]
  unfold State.started
  rw [mapPorts_slotted, mapPorts_slotted]

/-- What the ENABLE commit does after it has set the state of the block, where nothing has failed. -/
theorem phases_of_sound (hf : ∀ n, (s.chan n).trn.fail = false) (hs : ∀ i, (s.src (srcSlice i)).severe = false ∧ (s.slice i).ctl.sound = true) :
    ((((s.eachChan fun s n => if (s.chan n).trn.fail then s.fenceChan n else s).fenceAtEnable).eachPort State.fillBuckets).eachPort State.portUp).eachSlice
      (fun s i => s.modSlice i fun x => { x.slotsStart with sw := { x.slotsStart.sw with scrubAt := s.edge } }) = s.started := by
  have h1 : s.eachChan (fun s n => if (s.chan n).trn.fail then s.fenceChan n else s) = s :=
    foldl_fixed _ _ _ fun n _ => if_neg (by rw [hf n]; exact nofun)
  rw [h1, fenceAtEnable_of_sound hs, started_eq]

/-- What the ENABLE commit does where nothing has failed. -/
theorem enableNow_eq (hf : ∀ n, (s.chan n).trn.fail = false) (hs : ∀ i, (s.src (srcSlice i)).severe = false ∧ (s.slice i).ctl.sound = true) :
    ∃ v, (s.gcAccept seq).enableNow = { (s.enabling seq).started with chans := v } := by
  have h := phases_of_sound (s := s.enabling seq) hf hs
  unfold State.enableNow
  dsimp only
  unfold State.enabling at h ⊢
  rw [h]
  generalize State.started _ = u
  split
  · exact refreshPhases_chans _
  · exact ⟨_, rfl⟩

/-- The ports and the slices of the block as an ENABLE leaves it. -/
theorem started_frame (e : State) : ∃ w x, e.started = { e with ports := w, slices := x } ∧
    (∀ p : Fin 24, w[p.val] = e.opened p (e.bucketsFull (e.port p))) ∧ ∀ i : Fin 17, x[i.val] = e.slotted (e.slice i) := by
  obtain ⟨w, hw, h1⟩ : ∃ w, (e.mapPorts fun _ => e.bucketsFull) = { e with ports := w } ∧ ∀ p : Fin 24, w[p.val] = e.bucketsFull (e.port p) :=
    ⟨_, rfl, fun p => Vector.getElem_ofFn _⟩
  obtain ⟨y, hy, h2⟩ : ∃ y, ({ e with ports := w } : State).mapPorts e.opened = { e with ports := y } ∧
      ∀ p : Fin 24, y[p.val] = e.opened p w[p.val] := ⟨_, rfl, fun p => Vector.getElem_ofFn _⟩
  obtain ⟨x, hx, h3⟩ : ∃ x, (({ e with ports := y } : State).mapSlices fun _ => e.slotted) = { e with ports := y, slices := x } ∧
      ∀ i : Fin 17, x[i.val] = e.slotted (e.slice i) := ⟨_, rfl, fun i => Vector.getElem_ofFn _⟩
  refine ⟨y, x, ?_, fun p => by rw [h2, h1], h3⟩
  rw [State.started, hw, hy, hx]

/-- Whether every serving slice is initialised. -/
theorem servingReady_congr {t : State} (hv : t.glb.slice = s.glb.slice) (hi : ∀ i, (t.slice i).ar.init = (s.slice i).ar.init) :
    t.servingReady = s.servingReady := by
  unfold State.servingReady
  refine congrArg (List.all (List.finRange 16)) (funext fun h => ?_)
  have hs : t.serving h = s.serving h := by unfold State.serving; rw [hv]
  rw [hs]
  cases s.serving h with
  | none => rfl
  | some i => exact congrArg (· == 0x3FF) (hi i)

/-- The ports and the slices that an ENABLE leaves keep what runs by itself. -/
theorem Keeps.opened {e : State} {w : Vector Port 24} {x : Vector Slice 17} (v : Vector Chan 16)
    (hp : ∀ p, (e.port p).up = false ∧ (e.port p).resetting = false)
    (hw : ∀ p : Fin 24, w[p.val] = e.opened p (e.bucketsFull (e.port p))) (hx : ∀ i : Fin 17, x[i.val] = e.slotted (e.slice i)) :
    Keeps e { e with ports := w, slices := x, chans := v } :=
  { Keeps.refl e with
    ports := fun p => by
      obtain ⟨d, n, ho⟩ := opened_frame e p (x := e.bucketsFull (e.port p)) (hp p).1 (hp p).2
      rw [show ({ e with ports := w, slices := x, chans := v } : State).port p = _ from hw p, ho]
      exact ⟨rfl, rfl⟩
    slices := fun i => by
      rw [show ({ e with ports := w, slices := x, chans := v } : State).slice i = _ from hx i]
      exact ⟨rfl, rfl⟩ }

theorem modGc_complete {u : State} (h : u.glb.cmd.held = none) : u.modGc CmdSt.complete = u.modGc fun c => { c with res := .completed } := by
  unfold State.modGc State.modGlb
  dsimp only
  rw [complete_of_none h]

/-- An ENABLE whose conditions hold completes. -/
theorem enableCmd_completes (ha : s.glb.cmd.accepts seq = true) (hc : s.glb.stt = .committed) (hf : ∀ n, (s.chan n).trn.fail = false)
    (hs : ∀ i, (s.src (srcSlice i)).severe = false ∧ (s.slice i).ctl.sound = true) (hr : s.servingReady = true) (hh : s.glb.cmd.held = none) :
    ∃ w x v, s.enableCmd seq = (({ s.enabling seq with ports := w, slices := x, chans := v } : State).modGc fun c => { c with res := .completed }).done 0 ∧
      (∀ p : Fin 24, w[p.val] = s.opened p (s.bucketsFull (s.port p))) ∧ ∀ i : Fin 17, x[i.val] = s.slotted (s.slice i) := by
  obtain ⟨v, hv⟩ := enableNow_eq (seq := seq) hf hs
  obtain ⟨w, x, he, hw, hx⟩ := started_frame (s.enabling seq)
  refine ⟨w, x, v, ?_, hw, hx⟩
  unfold State.enableCmd
  rw [if_neg (by simp [ha]), if_neg (by simp [hc])]
  dsimp only
  rw [hv, he]
  have hsr := servingReady_congr (s := s) (t := { s.enabling seq with ports := w, slices := x, chans := v }) rfl
    fun i => by
      have h := congrArg (fun x : Slice => x.ar.init) (hx i)
      exact h
  rw [if_pos (hsr.trans hr)]
  exact congrArg (·.done 0) (modGc_complete (u := { s.enabling seq with ports := w, slices := x, chans := v }) hh)

/-- An ENABLE of a block with a serving slice that is not initialised is refused. -/
theorem enableCmd_unready (ha : s.glb.cmd.accepts seq = true) (hc : s.glb.stt = .committed) (hf : ∀ n, (s.chan n).trn.fail = false)
    (hs : ∀ i, (s.src (srcSlice i)).severe = false ∧ (s.slice i).ctl.sound = true) (hr : s.servingReady = false) :
    s.enableCmd seq = s.gcRefuse seq 0x11 := by
  obtain ⟨v, hv⟩ := enableNow_eq (seq := seq) hf hs
  obtain ⟨w, x, he, -, hx⟩ := started_frame (s.enabling seq)
  unfold State.enableCmd
  rw [if_neg (by simp [ha]), if_neg (by simp [hc])]
  dsimp only
  rw [hv, he]
  have hsr := servingReady_congr (s := s) (t := { s.enabling seq with ports := w, slices := x, chans := v }) rfl
    fun i => by
      have h := congrArg (fun x : Slice => x.ar.init) (hx i)
      exact h
  exact if_neg (by rw [hsr, hr]; exact nofun)

theorem enableCmd_refused (ha : s.glb.cmd.accepts seq = true) (hc : s.glb.stt ≠ .committed) : s.enableCmd seq = s.gcRefuse seq 0x10 := by
  unfold State.enableCmd
  rw [if_neg (by simp [ha]), if_pos hc]

/-- Settles O10: an ENABLE brings every port up and issues its credits, or is refused with its cause. -/
theorem enableBringsPortsUp : Obligations.EnableBringsPortsUp := by
  intro s seq h ha
  refine ⟨fun hc hf hs hp => ⟨fun hr hh => ?_, fun hr => h.endsRefused seq 0x11 (enableCmd_unready ha hc hf hs hr)⟩,
    fun hc => h.endsRefused seq 0x10 (enableCmd_refused ha hc)⟩
  obtain ⟨w, x, v, ht, hw, hx⟩ := enableCmd_completes ha hc hf hs hr hh
  have hd (p : Fin 24) : (s.bucketsFull (s.port p)).up = false ∧ (s.bucketsFull (s.port p)).resetting = false := ⟨hp p, (h.ports p).1⟩
  let c : CmdSt := { s.glb.cmd with res := .completed, rseq := seq, refused := false, cause := 0, cmdref := false }
  have hq := h.withStt .enabled c true (s.gcAccept seq).layoutRegs ⟨nofun, nofun, nofun⟩ nofun nofun
  have hk := Keeps.opened (e := s.modGlb fun g => { g with stt := .enabled, cmd := c, everEnabled := true, layout := (s.gcAccept seq).layoutRegs }) v hd hw hx
  have hf (p : Fin 24) (q : PartId) (he : s.partEn q = true) : Filled s p q w[p.val] := by
    rw [hw]
    exact opened_filled (hd p).1 (hd p).2 he
  have hn (p : Fin 24) (q : PartId) (he : s.partEn q = false) : w[p.val].rIss q = 0 := by
    rw [hw]
    exact opened_none (hd p).1 (hd p).2 he
  have hup (p : Fin 24) : w[p.val].up = true := by
    obtain ⟨d, n, ho⟩ := opened_frame s p (hd p).1 (hd p).2
    rw [hw, ho]
  refine ⟨_, (hk.quiet hq).endsDone 0 ht rfl rfl, ?_⟩
  generalize hu : ({ s.modGlb fun g => { g with stt := .enabled, cmd := c, everEnabled := true, layout := (s.gcAccept seq).layoutRegs } with
    ports := w, slices := x, chans := v } : State) = u
  have hg : (u.done 0).setPins.glb = u.glb := by rw [setPins_glb, done_glb]
  have hport (p : Fin 24) : (u.done 0).setPins.port p = w[p.val] := by
    rw [setPins_port, done_port, ← hu]
    rfl
  simp only [hg, hport, setPins_dram, setPins_flt, setPins_par, done_dram, done_flt, done_par]
  subst hu
  exact ⟨rfl, rfl, rfl, rfl, rfl, hup, fun p q he => ⟨(hf p q he).r, (hf p q he).d⟩, hn, rfl, rfl, rfl⟩

end Sys2Proof.Safety
end

section
/-! LOAD with its abort and SWITCH (R225, R227, R229, R230): what each does to the banks, and what follows by itself. -/

namespace Sys2Proof.Machine

/-- A slice whose inactive bank is not VALID, where a LOAD selects the slice. -/
def barred (sel : BitVec 17) (i : Fin 17) (x : Slice) : Slice :=
  if sel.getLsbD i.val then { x with uc := { x.uc with valid := x.uc.valid &&& ~~~bankBit (!x.uc.active) } } else x

/-- A slice whose inactive bank holds the clauses of an image, where a LOAD selects the slice. -/
def filled (l : Load) (i : Fin 17) (x : Slice) : Slice :=
  if l.sel.getLsbD i.val then { x with uc := x.uc.write (!x.uc.active) l.rd.clause } else x

/-- A slice whose inactive bank is to be checked, where a LOAD selects the slice. -/
def checkDue (l : Load) (i : Fin 17) (x : Slice) : Slice :=
  if l.sel.getLsbD i.val then { x with uc := { x.uc with due := x.uc.due ||| bankBit (!x.uc.active) } } else x

/-- A slice no check of which is due, where a LOAD selects the slice. -/
def uncheck (l : Load) (i : Fin 17) (x : Slice) : Slice :=
  if l.sel.getLsbD i.val then { x with uc := { x.uc with due := 0 } } else x

end Sys2Proof.Machine

namespace Sys2Proof.Safety

open Sys2Proof.Machine

variable {s : State} {seq : BitVec 8}

/-! ### What a LOAD keeps -/

theorem mapSlices_frame (s : State) (g : Fin 17 → Slice → Slice) : ∃ v, s.mapSlices g = { s with slices := v } ∧ ∀ i : Fin 17, v[i.val] = g i (s.slice i) :=
  ⟨_, rfl, fun _ => Vector.getElem_ofFn _⟩

theorem barred_frame (sel : BitVec 17) (i : Fin 17) (x : Slice) : ∃ v, barred sel i x = { x with uc := { x.uc with valid := v } } := by
  unfold barred
  split
  · exact ⟨_, rfl⟩
  · exact ⟨x.uc.valid, rfl⟩

theorem write_frame (u : Ucode) (b : Bool) (c : Nat → BitVec 128) : ∃ w, u.write b c = { u with words := w } := ⟨_, rfl⟩

theorem filled_frame (l : Load) (i : Fin 17) (x : Slice) : ∃ w, filled l i x = { x with uc := { x.uc with words := w } } := by
  unfold filled
  split
  · exact ⟨_, rfl⟩
  · exact ⟨x.uc.words, rfl⟩

theorem checkDue_frame (l : Load) (i : Fin 17) (x : Slice) : ∃ d, checkDue l i x = { x with uc := { x.uc with due := d } } := by
  unfold checkDue
  split
  · exact ⟨_, rfl⟩
  · exact ⟨x.uc.due, rfl⟩

theorem uncheck_frame (l : Load) (i : Fin 17) (x : Slice) : ∃ d, uncheck l i x = { x with uc := { x.uc with due := d } } := by
  unfold uncheck
  split
  · exact ⟨_, rfl⟩
  · exact ⟨x.uc.due, rfl⟩

/-- A change of the microcode of each slice. -/
theorem Quiet.withUcode (h : Quiet s) {v : Vector Slice 17} (hv : ∀ i : Fin 17, ∃ u, v[i.val] = { s.slice i with uc := u }) : Quiet { s with slices := v } :=
  (Keeps.withSlices s v fun i => by
    obtain ⟨u, hu⟩ := hv i
    rw [hu]
    exact ⟨rfl, rfl⟩).quiet h

/-- A change of the LOAD that leaves it waiting. -/
theorem Quiet.withLoad (h : Quiet s) {l : Load} (hl : loadWaits l) : Quiet (s.modLd fun _ => l) :=
  h.modGlb _ rfl hl h.gc rfl rfl rfl ⟨rfl, rfl⟩

/-- Where a LOAD takes no step by itself, nothing follows but power requests. -/
theorem Quiet.settleLoad (h : Quiet s) {l : Load} (hl : (s.modLd fun _ => l).loadStep = s.modLd fun _ => l) :
    (s.modLd fun _ => l).settle = (s.modLd fun _ => l).syncPower.setPins := by
  have he : (s.modLd fun _ => l).engineSteps = s.modLd fun _ => l := by
    unfold State.engineSteps
    rw [hl, parStep_of_waits (s := s.modLd fun _ => l) h.job, ite_self]
  refine settle_of_selfSteps h.due (selfSteps_eq (s₁ := s.modLd fun _ => l) (s₂ := s.modLd fun _ => l) (s₃ := s.modLd fun _ => l)
    (s₄ := s.modLd fun _ => l) ?_ ?_ ?_ ?_ ?_) h.net h.due fun i => (h.slices i).2
  · rw [movePrep_of_run (s := s.modLd fun _ => l) h.run, liftHold_of_adm (s := s.modLd fun _ => l) h.adm, he]
  · rw [commitStep_of_stt (s := s.modLd fun _ => l) h.gc, startStep_of_stt (s := s.modLd fun _ => l) h.stt, disableStep_of_msc (s := s.modLd fun _ => l) h.msc]
  · exact detWake_of_awake (s := s.modLd fun _ => l) h.det
  · rw [bcastStep_of_nil (s := s.modLd fun _ => l) h.sweep, ltBackStep_of_run (s := s.modLd fun _ => l) h.back, portResetStep_of_none (s := s.modLd fun _ => l) fun p => (h.ports p).1,
      slcResetStep_of_none (s := s.modLd fun _ => l) fun i => (h.slices i).1, csrReads_of_held (s := s.modLd fun _ => l) h.reads]
  · rw [recheck_of_none (s := s.modLd fun _ => l) fun p k hk => ((h.ports p).2 k hk).2, pump_of_none (s := s.modLd fun _ => l) fun p k hk => ((h.ports p).2 k hk).1]

/-! ### The banks -/

theorem puts_word (c : Nat → BitVec 128) (off a : Nat) {l : List Nat} (ha : a ∈ l) (t : Tab (BitVec 128)) :
    tabGet (baseWord a) (l.foldl (fun t k => tabSet (baseWord k) t (off + k) (c k)) t) (off + a) = c a := by
  refine foldl_reaches (f := fun t k => tabSet (baseWord k) t (off + k) (c k)) (P := fun _ => True)
    (Q := fun t : Tab (BitVec 128) => tabGet (baseWord a) t (off + a) = c a) ha
    (fun _ _ _ => trivial) (fun t _ => tabGet_tabSet_self _ _ _ _) (fun t k ht => ?_) trivial
  by_cases e : k = a
  · subst e
    exact tabGet_tabSet_self _ _ _ _
  · exact (tabGet_tabSet_ne _ _ _ _ _ _ (by omega)).trans ht

theorem puts_other (c : Nat → BitVec 128) (off : Nat) {m : Nat} (d : BitVec 128) {l : List Nat} (hm : ∀ k ∈ l, m ≠ off + k) (t : Tab (BitVec 128)) :
    tabGet d (l.foldl (fun t k => tabSet (baseWord k) t (off + k) (c k)) t) m = tabGet d t m :=
  List.foldlRecOn (motive := fun x : Tab (BitVec 128) => tabGet d x m = tabGet d t m) l _ rfl
    fun _ hx k hk => (tabGet_tabSet_ne _ _ _ _ _ _ (hm k hk)).trans hx

/-- A word of a bank after an image's clauses have been written into a bank. -/
theorem write_clause (u : Ucode) (b : Bool) (c : Nat → BitVec 128) {a : Nat} (ha : a < 1024) :
    (u.write b c).clause b a = c a ∧ (u.write b c).clause (!b) a = u.clause (!b) a := by
  unfold Ucode.clause Ucode.write
  dsimp only
  generalize hl : List.range 1024 = l
  refine ⟨puts_word c _ a (hl ▸ List.mem_range.2 ha) u.words, puts_other c _ _ (fun k hk => ?_) u.words⟩
  rw [← hl] at hk
  have := List.mem_range.1 hk
  cases b <;> simp <;> omega

/-! ### A LOAD begins -/

theorem oneSlice_bit (i k : Fin 17) : (BitVec.ofNat 17 (2 ^ i.val)).getLsbD k.val = (k == i) := by
  revert i k
  decide

/-- The slices of a LOAD, less those dropped. -/
theorem loadKeep_eq {sel : BitVec 17} (hd : ∀ i : Fin 17, sel.getLsbD i.val = true → s.loadDrops i = false) (l : List (Fin 17)) :
    l.foldl (fun (m : BitVec 17) i => if s.loadDrops i then m &&& ~~~(BitVec.ofNat 17 (2 ^ i.val)) else m) sel = sel := by
  refine foldl_fixed _ _ _ fun i _ => ?_
  split
  · next h =>
    have hi : sel.getLsbD i.val = false := by
      by_contra hc
      rw [hd i (by simpa using hc)] at h
      exact nomatch h
    refine BitVec.eq_of_getLsbD_eq fun j hj => ?_
    rw [BitVec.getLsbD_and, BitVec.getLsbD_not, oneSlice_bit i ⟨j, hj⟩]
    by_cases e : i = ⟨j, hj⟩
    · subst e
      simp only [hi, Bool.false_and]
    · simp [hj, Ne.symm e]
  · rfl

theorem wakeFor_awake {i : Fin 17} (h : (s.slice i).asleep = false) : s.wakeFor i false = s :=
  modSlice_same _ _ _ (if_neg (by simp [h]))

theorem sel_bit (s : State) (i : Fin 17) : (BitVec.ofNat 17 (s.fld 0 0x20C 16 0)).getLsbD i.val = (s.fld 0 0x20C 16 0).testBit i.val := by
  rw [BitVec.getLsbD_ofNat, decide_eq_true i.isLt, Bool.true_and]

/-- An operation for every selected slice that changes the slice alone. -/
theorem eachSelected_eq (s : State) (sel : BitVec 17) (f : Slice → Slice) :
    s.eachSlice (fun t i => if sel.getLsbD i.val then t.modSlice i f else t) = s.mapSlices fun i x => if sel.getLsbD i.val then f x else x := by
  refine eachSlice_eq _ _ _ fun v i => ?_
  split
  · rfl
  · exact (modSlice_same _ _ _ rfl).symm

/-- A LOAD that is accepted makes the banks not VALID, and begins. -/
theorem loadCmd_begins (ha : s.glb.ld.st.accepts seq = true) (hst : s.glb.stt = .committed ∨ s.glb.stt = .enabled)
    (hs : ∀ i, (s.fld 0 0x20C 16 0).testBit i.val = true → s.loadDrops i = false ∧ (s.slice i).asleep = false) :
    ∃ l v, s.loadCmd seq = ({ s with slices := v } : State).modLd (fun _ => l) ∧
      (∀ i : Fin 17, v[i.val] = barred (BitVec.ofNat 17 (s.fld 0 0x20C 16 0)) i (s.slice i)) ∧
      l.st = { s.glb.ld.st.accept seq with cmdref := false } ∧ l.sel = BitVec.ofNat 17 (s.fld 0 0x20C 16 0) ∧
      l.phase = (if s.glb.stt == .committed then .reading else .waiting) ∧ (s.glb.stt = .committed → l.rd.all = true) := by
  obtain ⟨sel, hsel⟩ : ∃ sel, sel = BitVec.ofNat 17 (s.fld 0 0x20C 16 0) := ⟨_, rfl⟩
  have hbit (i : Fin 17) (h : sel.getLsbD i.val = true) := hs i (by rw [← sel_bit, ← hsel]; exact h)
  obtain ⟨u, hu⟩ : ∃ u, u = s.modLd fun l => { l with st := { l.st.accept seq with cmdref := false } } := ⟨_, rfl⟩
  have h1 : u.eachSlice (fun s i => if sel.getLsbD i.val then
      (s.modSlice i fun x => { x with uc := { x.uc with valid := x.uc.valid &&& ~~~bankBit (!x.uc.active) } }) else s) = u.mapSlices (barred sel) := eachSelected_eq _ _ _
  have h2 : (u.mapSlices (barred sel)).eachSlice (fun s i => if sel.getLsbD i.val then s.wakeFor i false else s) = u.mapSlices (barred sel) := by
    refine foldl_fixed _ _ _ fun i _ => ?_
    split
    · next h =>
      refine wakeFor_awake ?_
      obtain ⟨v, hv⟩ := barred_frame sel i (u.slice i)
      rw [mapSlices_slice, hv, hu]
      exact (hbit i h).2
    · rfl
  have hk := loadKeep_eq (s := u) (sel := sel) (fun i h => by rw [hu]; exact (hbit i h).1) (List.finRange 17)
  have hc : (s.glb.stt != .committed && s.glb.stt != .enabled) = false := by
    obtain h | h := hst <;> rw [h] <;> rfl
  unfold State.loadCmd
  dsimp only
  rw [if_neg (by simp [ha]), if_neg (by rw [show (s.modLd fun l => { l with st := { l.st.accept seq with cmdref := false } }).glb.stt = s.glb.stt from rfl, hc]; exact nofun)]
  rw [← hu, show u.fld 0 0x20C 16 0 = s.fld 0 0x20C 16 0 from by rw [hu]; rfl, ← hsel, hk, h1, h2]
  obtain ⟨v, hv, hvi⟩ := mapSlices_frame u (barred sel)
  rw [hv, hu]
  refine ⟨_, v, rfl, fun i => by rw [hvi, hu]; rfl, rfl, rfl, rfl, fun h => ?_⟩
  have hcm : (({ s.modLd fun l => { l with st := { l.st.accept seq with cmdref := false } } with slices := v } : State).glb.stt == .committed) = true :=
    beq_iff_eq.2 h
  unfold Reads.all
  dsimp only
  rw [if_pos hcm, List.length_map, List.length_range]
  exact decide_eq_true (Nat.le_refl _)

/-- In any other state it is refused. -/
theorem loadCmd_refused (ha : s.glb.ld.st.accepts seq = true) (h1 : s.glb.stt ≠ .committed) (h2 : s.glb.stt ≠ .enabled) :
    s.loadCmd seq = (s.modLd fun l => { l with st := { l.st.accept seq with cmdref := false } }).loadEnds 0x08 := by
  unfold State.loadCmd
  dsimp only
  exact (if_neg (by simp [ha])).trans (if_pos (by simp [show (s.modLd fun l => { l with st := { l.st.accept seq with cmdref := false } }).glb.stt = s.glb.stt from rfl, h1, h2]))

/-! ### A LOAD goes on and ends -/

/-- The clauses of an image that has been read are in the banks. -/
theorem loadReadDone_eq (hr : s.glb.ld.st.res = .running) (hp : s.glb.ld.phase = .reading) (ha : s.glb.ld.rd.all = true) :
    s.loadReadDone = if imageCause s.glb.ld.rd s.glb.fuse ≠ 0 then (s.mapSlices (filled s.glb.ld)).loadEnds (imageCause s.glb.ld.rd s.glb.fuse)
      else ((s.mapSlices (filled s.glb.ld)).mapSlices (checkDue s.glb.ld)).modLd fun l =>
        { l with phase := .checking, left := s.glb.ld.sel, rollback := BitVec.ofNat 32 (s.glb.ld.rd.le 0x0C 4) } := by
  have h1 (u : State) : u.eachSlice (fun t i => if s.glb.ld.sel.getLsbD i.val then
      t.modSlice i fun x => { x with uc := x.uc.write (!x.uc.active) s.glb.ld.rd.clause } else t) = u.mapSlices (filled s.glb.ld) := eachSelected_eq _ _ _
  have h2 (u : State) : u.eachSlice (fun t i => if s.glb.ld.sel.getLsbD i.val then
      t.modSlice i fun x => { x with uc := { x.uc with due := x.uc.due ||| bankBit (!x.uc.active) } } else t) = u.mapSlices (checkDue s.glb.ld) := eachSelected_eq _ _ _
  unfold State.loadReadDone
  dsimp only
  rw [if_pos (by simp [hr, hp, ha]), h1, h2]
  rfl

/-- An image that is refused ends the LOAD. -/
theorem loadReadDone_refused (hr : s.glb.ld.st.res = .running) (hp : s.glb.ld.phase = .reading) (ha : s.glb.ld.rd.all = true)
    (hc : imageCause s.glb.ld.rd s.glb.fuse ≠ 0) : ∃ v : Vector Slice 17, (∀ i : Fin 17, v[i.val] = filled s.glb.ld i (s.slice i)) ∧
      s.loadReadDone = (({ s with slices := v } : State).modLd fun _ =>
        { s.glb.ld with st := { s.glb.ld.st.complete with cause := imageCause s.glb.ld.rd s.glb.fuse }, phase := .idle, left := 0 }).done 0 := by
  obtain ⟨v, hv, hvi⟩ := mapSlices_frame s (filled s.glb.ld)
  refine ⟨v, hvi, ?_⟩
  rw [loadReadDone_eq hr hp ha, if_pos hc, hv]
  rfl

/-- The checks of an image that is accepted begin. -/
theorem loadReadDone_accepted (hr : s.glb.ld.st.res = .running) (hp : s.glb.ld.phase = .reading) (ha : s.glb.ld.rd.all = true)
    (hc : imageCause s.glb.ld.rd s.glb.fuse = 0) : ∃ v : Vector Slice 17, (∀ i : Fin 17, v[i.val] = checkDue s.glb.ld i (filled s.glb.ld i (s.slice i))) ∧
      s.loadReadDone = ({ s with slices := v } : State).modLd fun _ =>
        { s.glb.ld with phase := .checking, left := s.glb.ld.sel, rollback := BitVec.ofNat 32 (s.glb.ld.rd.le 0x0C 4) } := by
  obtain ⟨v, hv, hvi⟩ := mapSlices_frame s (filled s.glb.ld)
  obtain ⟨w, hw, hwi⟩ := mapSlices_frame { s with slices := v } (checkDue s.glb.ld)
  refine ⟨w, fun i => (hwi i).trans (congrArg (checkDue s.glb.ld i) (hvi i)), ?_⟩
  rw [loadReadDone_eq hr hp ha, if_neg (not_not.2 hc), hv, hw]
  rfl

theorem loadAbort_ends (hr : s.glb.ld.st.res = .running) (hs : seq ≠ s.glb.ld.st.rseq) :
    ∃ v : Vector Slice 17, (∀ i : Fin 17, v[i.val] = uncheck s.glb.ld i (s.slice i)) ∧
      s.loadAbort seq = (({ s with slices := v } : State).modLd fun _ => { s.glb.ld with st := s.glb.ld.st.abort, phase := .idle, left := 0 }).done 0 := by
  have h1 (u : State) : u.eachSlice (fun t i => if s.glb.ld.sel.getLsbD i.val then
      t.modSlice i fun x => { x with uc := { x.uc with due := 0 } } else t) = u.mapSlices (uncheck s.glb.ld) := eachSelected_eq _ _ _
  obtain ⟨v, hv, hvi⟩ := mapSlices_frame (s.modLd fun l => { l with st := s.glb.ld.st.abort }) (uncheck s.glb.ld)
  refine ⟨v, hvi, ?_⟩
  unfold State.loadAbort
  rw [if_neg hs, tryAbort_running hs hr]
  exact congrArg (fun t : State => (t.modLd fun l => { l with phase := .idle, left := 0 }).done 0) ((h1 _).trans hv)

/-! ### SWITCH -/

theorem switchCmd_eq {i : Fin 17} (hd : (s.slice i).ctl.dom.a = .on) (ha : (s.slice i).uc.st.accepts seq = true) :
    s.sliceCmd i 0x280 1 seq (fun s => s.switchCmd i seq) =
      if (s.slice i).uc.valid &&& bankBit (!(s.slice i).uc.active) = 0 ∨ s.evacOrLt i = true then
        (s.modSlice i fun x => { x with uc := { x.uc with st := x.uc.st.refuse seq 0 } }).done (slcPage i)
      else (s.modSlice i fun x => { x with uc := { x.uc with
        active := !x.uc.active, st := (x.uc.st.accept seq).complete } }).done (slcPage i) := by
  unfold State.sliceCmd State.switchCmd
  rw [hd]
  dsimp only
  rw [ha]
  rfl

theorem sel_ne_zero (h : s.fld 0 0x20C 16 0 ≠ 0) : BitVec.ofNat 17 (s.fld 0 0x20C 16 0) ≠ 0 := fun e => h (by
  have hlt : s.fld 0 0x20C 16 0 < 2 ^ 17 := Nat.mod_lt _ (by decide)
  have := congrArg BitVec.toNat e
  rwa [BitVec.toNat_ofNat, Nat.mod_eq_of_lt hlt] at this)

/-- The banks of a slice when a LOAD has begun. -/
theorem barred_uc (sel : BitVec 17) (i : Fin 17) (x : Slice) : (barred sel i x).uc.active = x.uc.active ∧
    (barred sel i x).uc.valid = if sel.getLsbD i.val then x.uc.valid &&& ~~~bankBit (!x.uc.active) else x.uc.valid := by
  unfold barred
  split
  · exact ⟨rfl, rfl⟩
  · exact ⟨rfl, rfl⟩

theorem barred_oldUsers (sel : BitVec 17) (i : Fin 17) (x : Slice) : (barred sel i x).oldUsers = x.oldUsers := by
  unfold barred
  split
  · rfl
  · rfl

/-- A LOAD waits while a transaction of a slice that it loads is in the bank. -/
theorem loadStep_waits {i : Fin 17} (hp : s.glb.ld.phase = .waiting) (hs : s.glb.ld.sel.getLsbD i.val = true) (ho : (s.slice i).oldUsers ≠ 0) :
    s.loadStep = s := by
  have h0 : s.glb.ld.sel ≠ 0 := fun e => by rw [e] at hs; simp at hs
  have hn : ((List.finRange 17).all fun i => !s.glb.ld.sel.getLsbD i.val || ((s.slice i).oldUsers == 0 && !(s.slice i).asleep)) = false :=
    List.all_eq_false.2 ⟨i, List.mem_finRange i, by simp only [hs, beq_false_of_ne ho]; exact nofun⟩
  unfold State.loadStep
  dsimp only
  split
  · rfl
  · rw [hp]
    dsimp only
    rw [hn]
    rfl

/-- What a LOAD that has begun has done to the block. -/
theorem begun_of {l : Load} {p : Pins} {v : Vector Slice 17} {t : State} (hv : ∀ i : Fin 17, v[i.val] = barred (BitVec.ofNat 17 (s.fld 0 0x20C 16 0)) i (s.slice i))
    (ht : t = { ({ s with slices := v } : State).modLd (fun _ => l) with pins := p }) :
    (∀ i, (t.slice i).uc.active = (s.slice i).uc.active ∧ (t.slice i).uc.valid =
        if (s.fld 0 0x20C 16 0).testBit i.val then (s.slice i).uc.valid &&& ~~~bankBit (!(s.slice i).uc.active) else (s.slice i).uc.valid) ∧
      t.regs = s.regs ∧ t.ports = s.ports ∧ t.chans = s.chans ∧ t.dram = s.dram ∧ t.flt = s.flt := by
  subst ht
  refine ⟨fun i => ?_, rfl, rfl, rfl, rfl, rfl⟩
  have hb := barred_uc (BitVec.ofNat 17 (s.fld 0 0x20C 16 0)) i (s.slice i)
  rw [← hv, sel_bit] at hb
  exact hb

/-- What holds of a slice once the clauses of an image that has been read are in its bank. -/
structure HasImage (l : Load) (x y : Slice) (b : Bool) : Prop where
  uc : ∃ w d, y = { x with uc := { x.uc with words := w, due := d } }
  kept : ∀ a < 1024, y.uc.clause x.uc.active a = x.uc.clause x.uc.active a
  new : ∀ a < 1024, y.uc.clause (!x.uc.active) a = if b then l.rd.clause a else x.uc.clause (!x.uc.active) a

theorem filled_hasImage (l : Load) (i : Fin 17) (x : Slice) : HasImage l x (filled l i x) (l.sel.getLsbD i.val) := by
  unfold filled
  split
  · next h =>
    refine ⟨⟨_, x.uc.due, rfl⟩, fun a ha => ?_, fun a ha => ?_⟩
    · have := (write_clause x.uc (!x.uc.active) l.rd.clause ha).2
      rwa [Bool.not_not] at this
    · rw [if_pos h]
      exact (write_clause x.uc (!x.uc.active) l.rd.clause ha).1
  · next h => exact ⟨⟨x.uc.words, x.uc.due, rfl⟩, fun _ _ => rfl, fun _ _ => (if_neg h).symm⟩

theorem HasImage.due {l : Load} {x y : Slice} {b : Bool} (h : HasImage l x y b) (d : BitVec 2) :
    HasImage l x { y with uc := { y.uc with due := d } } b := by
  obtain ⟨⟨w, e, rfl⟩, hk, hn⟩ := h
  exact ⟨⟨w, d, rfl⟩, hk, hn⟩

/-- Settles O13: a LOAD begins, is refused, goes on, and is aborted; SWITCH makes the inactive bank active or is refused. -/
theorem loadAndSwitchOfMicrocode : Obligations.LoadAndSwitchOfMicrocode := by
  refine ⟨fun s seq h => ⟨fun ha hs h0 => ⟨fun hst => ?_, fun i hst hi ho => ?_⟩, fun ha hh h1 h2 => ?_, fun hr hh hp ha hc => ?_, fun hr hh hp ha => ?_,
    fun hr hs => ?_⟩, fun s i seq h hd ha => ?_⟩
  · obtain ⟨l, v, ht, hv, hcmd, hsel, hph, hall⟩ := loadCmd_begins ha (.inl hst) hs
    rw [hst] at hph
    have hw : loadWaits l := fun _ => ⟨by rw [hsel]; exact sel_ne_zero h0, by rw [hph]; exact nofun, by rw [hph]; exact nofun⟩
    have hq := h.withUcode fun i => by
      obtain ⟨u, hu⟩ := barred_frame (BitVec.ofNat 17 (s.fld 0 0x20C 16 0)) i (s.slice i)
      exact ⟨_, (hv i).trans hu⟩
    exact ⟨_, (hq.withLoad hw).ends ht rfl rfl, ⟨hcmd, hsel, begun_of hv rfl⟩, hph, hall hst⟩
  · obtain ⟨l, v, ht, hv, hcmd, hsel, hph, -⟩ := loadCmd_begins ha (.inr hst) hs
    rw [hst] at hph
    have hq := h.withUcode fun i => by
      obtain ⟨u, hu⟩ := barred_frame (BitVec.ofNat 17 (s.fld 0 0x20C 16 0)) i (s.slice i)
      exact ⟨_, (hv i).trans hu⟩
    have hwait : (({ s with slices := v } : State).modLd fun _ => l).loadStep = ({ s with slices := v } : State).modLd fun _ => l :=
      loadStep_waits (i := i) hph (by
        have hb := sel_bit s i
        rw [← hsel] at hb
        exact hb.trans hi) (by
        have : (v[i.val]).oldUsers = (s.slice i).oldUsers := by rw [hv]; exact barred_oldUsers _ _ _
        exact this ▸ ho)
    obtain ⟨p, hp⟩ := syncPower_frame (({ s with slices := v } : State).modLd fun _ => l)
    refine ⟨_, (congrArg (Machine.commandEnd s) ht).trans (commandEnd_settle (hq.settleLoad hwait) (syncPower_pending _) (syncPower_now _)), ?_⟩
    rw [hp]
    exact ⟨⟨hcmd, hsel, begun_of hv rfl⟩, hph⟩
  · refine ⟨_, (h.withLoad (l := { s.glb.ld with
      st := { ({ s.glb.ld.st.accept seq with cmdref := false } : CmdSt).complete with cause := 0x08 }, phase := .idle, left := 0 })
        fun e => absurd e (complete_res _)).endsDone 0 (loadCmd_refused ha h1 h2) rfl rfl, ?_⟩
    rw [setPins_glb, done_glb, setPins_slices, done_slices, complete_of_none (c := { s.glb.ld.st.accept seq with cmdref := false }) hh]
    exact ⟨rfl, rfl, rfl, rfl⟩
  · obtain ⟨v, hv, ht⟩ := loadReadDone_refused hr hp ha hc
    have hf (i : Fin 17) : ∃ w, v[i.val] = { s.slice i with uc := { (s.slice i).uc with words := w } } := by
      rw [hv]
      exact filled_frame _ _ _
    have hq := h.withUcode fun i => ⟨_, (hf i).choose_spec⟩
    refine ⟨_, (hq.withLoad fun e => absurd e (complete_res _)).endsDone 0 ht rfl rfl, ?_⟩
    rw [setPins_glb, done_glb, complete_of_none hh]
    refine ⟨rfl, rfl, rfl, rfl, fun i => ?_⟩
    obtain ⟨w, hw⟩ := hf i
    rw [setPins_slice, done_slice, show ((({ s with slices := v } : State).modLd _).slice i) = v[i.val] from rfl, hw]
    exact ⟨rfl, rfl⟩
  · have hkeep {v : Vector Slice 17} (hv : ∀ i : Fin 17, HasImage s.glb.ld (s.slice i) v[i.val] (s.glb.ld.sel.getLsbD i.val)) (i : Fin 17) :
        v[i.val].uc.valid = (s.slice i).uc.valid ∧ v[i.val].uc.active = (s.slice i).uc.active ∧ v[i.val].trk = (s.slice i).trk ∧
          v[i.val].ar = (s.slice i).ar ∧ v[i.val].mem = (s.slice i).mem := by
      obtain ⟨w, d, h⟩ := (hv i).uc
      rw [h]
      exact ⟨rfl, rfl, rfl, rfl, rfl⟩
    by_cases hc : imageCause s.glb.ld.rd s.glb.fuse = 0
    · obtain ⟨v, hv, ht⟩ := loadReadDone_accepted hr hp ha hc
      have hi (i : Fin 17) : HasImage s.glb.ld (s.slice i) v[i.val] (s.glb.ld.sel.getLsbD i.val) := by
        obtain ⟨d, hd⟩ := checkDue_frame s.glb.ld i (filled s.glb.ld i (s.slice i))
        rw [hv, hd]
        exact (filled_hasImage _ _ _).due d
      have hq := h.withUcode fun i => by
        obtain ⟨w, d, h⟩ := (hi i).uc
        exact ⟨_, h⟩
      have h0 := (h.load hr).1
      refine ⟨_, (hq.withLoad (l := { s.glb.ld with phase := .checking, left := s.glb.ld.sel, rollback := BitVec.ofNat 32 (s.glb.ld.rd.le 0x0C 4) })
        fun _ => ⟨h0, nofun, fun _ => h0⟩).ends ht rfl rfl,
        fun i a hlt => ⟨(hi i).kept a hlt, (hi i).new a hlt⟩, fun _ => ⟨rfl, rfl, rfl, rfl, fun i => ?_⟩, hkeep hi, rfl, rfl, rfl, rfl⟩
      refine (congrArg (fun x : Slice => x.uc.due) (hv i)).trans ?_
      obtain ⟨w, hw⟩ := filled_frame s.glb.ld i (s.slice i)
      rw [hw]
      unfold checkDue
      split
      · rfl
      · rfl
    · obtain ⟨v, hv, ht⟩ := loadReadDone_refused hr hp ha hc
      have hi (i : Fin 17) : HasImage s.glb.ld (s.slice i) v[i.val] (s.glb.ld.sel.getLsbD i.val) := by
        rw [hv]
        exact filled_hasImage _ _ _
      have hq := h.withUcode fun i => by
        obtain ⟨w, d, h⟩ := (hi i).uc
        exact ⟨_, h⟩
      refine ⟨_, (hq.withLoad fun e => absurd e (complete_res _)).endsDone 0 ht rfl rfl, ?_⟩
      simp only [setPins_slice, done_slice, setPins_ports, done_ports, setPins_chans, done_chans, setPins_dram, done_dram, setPins_flt, done_flt]
      exact ⟨fun i a hlt => ⟨(hi i).kept a hlt, (hi i).new a hlt⟩, fun e => absurd e hc, hkeep hi, rfl, rfl, rfl, rfl⟩
  · obtain ⟨v, hv, ht⟩ := loadAbort_ends hr hs
    have hf (i : Fin 17) : ∃ d, v[i.val] = { s.slice i with uc := { (s.slice i).uc with due := d } } := by
      rw [hv]
      exact uncheck_frame _ _ _
    have hq := h.withUcode fun i => ⟨_, (hf i).choose_spec⟩
    refine ⟨_, (hq.withLoad (l := { s.glb.ld with st := s.glb.ld.st.abort, phase := .idle, left := 0 }) fun (e : Res.aborted = .running) => nomatch e).endsDone 0 ht rfl rfl, ?_⟩
    rw [setPins_glb, done_glb]
    refine ⟨rfl, rfl, rfl, fun i => ?_⟩
    obtain ⟨d, hd⟩ := hf i
    rw [setPins_slice, done_slice, show ((({ s with slices := v } : State).modLd _).slice i) = v[i.val] from rfl, hd]
  · refine (congrArg (Machine.commandEnd s) (switchCmd_eq hd ha)).trans ?_
    split
    · exact (h.modSlice i _ rfl rfl).endsDone (slcPage i) rfl rfl rfl
    · exact (h.modSlice i _ rfl rfl).endsDone (slcPage i) rfl rfl rfl

end Sys2Proof.Safety
end

section
/-! SAVE and RESTORE (R343 to R345): where each begins, why it is refused, and what an abort of it does. -/

namespace Sys2Proof.Safety

open Sys2Proof.Machine

variable {s : State} {seq : BitVec 8} {q : PartId} {h : Fin 16} {i : Fin 17}

/-- A request sent to a slice that is awake and has room for it joins the queue of its requester there. -/
theorem sendReq_direct {src : EndPt} {rq : Nat} {r : Req} (hn : s.netClear = true) (ha : (s.slice i).asleep = false) (hf : r.fwd = false)
    (hr : ((s.slice i).ing rq).direct.length < 8) : s.sendReq src i rq r = s.modSlice i (Slice.pushDirect rq r) := by
  have hroom : (s.slice i).laneRoom rq r = true := by
    unfold Slice.laneRoom
    rw [ha, hf]
    exact decide_eq_true hr
  unfold State.sendReq State.carry
  rw [hroom, hn]
  exact ingressPush_direct ha hf

theorem pushDirect_ing (rq : Nat) (r : Req) (x : Slice) : ((Slice.pushDirect rq r x).ing rq).direct = (x.ing rq).direct ++ [(r, x.arb.sc)] := by
  unfold Slice.pushDirect Slice.ing Slice.setIng
  rw [tabGet_tabSet_self]

/-- An engine's request for a line. -/
def engineReq (s : State) (op : ReqOp) (tag : ATag) (pa : LineAddr) (cd : Option PLine) : Req :=
  ⟨.req op, ⟨63, 0, 0, tag, pa, 0⟩, none, s.homeOf pa, (s.detRgn pa).isSome, s.edge, cd, 0, false⟩

/-- An engine's request for a homed line goes to the slice that serves it. -/
theorem send63_direct {op : ReqOp} {tag : ATag} {pa : LineAddr} {cd : Option PLine} (hn : s.netClear = true) (hh : s.homed pa = true)
    (hap : s.inAperture pa = false) (hi : s.servingSlice (s.homeOf pa) pa = some i) (ha : (s.slice i).asleep = false)
    (hr : ((s.slice i).ing 25).direct.length < 8) : s.send63 op tag pa cd = s.modSlice i (Slice.pushDirect 25 (engineReq s op tag pa cd)) := by
  unfold State.send63
  dsimp only
  rw [if_neg (by simp [hh, hap]), hi]
  exact sendReq_direct hn ha rfl hr

/-- A change of the partition table that leaves the job that runs waiting. -/
theorem Quiet.withJob (hq : Quiet s) (f : Par → Par) (hj : jobWaits (f s.par).job) (hp : (f s.par).parts = s.par.parts) : Quiet (s.modPar f) :=
  hq.mono rfl rfl rfl hq.load hj hq.gc rfl rfl rfl hp rfl (fun _ => ⟨rfl, fun _ => .inl⟩) (fun _ => ⟨rfl, rfl⟩) ⟨rfl, rfl⟩ rfl ⟨rfl, rfl⟩ rfl hq.reads

theorem readEveryService_of_nil (hi : ∀ j, (s.slice j).ar.inj = []) : s.readEveryService = s :=
  foldl_fixed _ _ _ fun j _ => if_pos (by rw [hi j]; rfl)

theorem saveCmd_small (hi : ∀ j, (s.slice j).ar.inj = []) (ha : s.par.cmd.accepts seq = true) (hf : (s.part q).st = .frozen)
    (hl : s.saveLen < (s.imageBody q).length + 1) : s.saveCmd seq q = s.parRefuse seq 0x02 := by
  unfold State.saveCmd
  rw [if_neg (by simp [ha]), if_neg (by simp [hf]), readEveryService_of_nil hi]
  exact if_pos hl

theorem saveCmd_moving (hi : ∀ j, (s.slice j).ar.inj = []) (ha : s.par.cmd.accepts seq = true) (hf : (s.part q).st = .frozen)
    (hl : (s.imageBody q).length + 1 ≤ s.saveLen) (hm : s.flt.run ≠ none) : s.saveCmd seq q = s.parRefuse seq 0x08 := by
  unfold State.saveCmd
  rw [if_neg (by simp [ha]), if_neg (by simp [hf]), readEveryService_of_nil hi]
  exact (if_neg (by omega)).trans (if_pos (Option.isSome_iff_ne_none.2 hm))

theorem saveCmd_begins (hi : ∀ j, (s.slice j).ar.inj = []) (ha : s.par.cmd.accepts seq = true) (hf : (s.part q).st = .frozen)
    (hb : s.imageBody q = []) (hl : 1 ≤ s.saveLen) (hm : s.flt.run = none) :
    s.saveCmd seq q = (s.modPar fun x => { x with
      cmd := { x.cmd.accept seq with cmdref := false }, running := some q,
      job := .save s.saveBase 0 [] (s.imageHeader q [] saveMagic) false false }).send63 .wrFull (tagOf true seq) s.saveBase
        (some ⟨s.imageHeader q [] 0, false⟩) := by
  unfold State.saveCmd
  rw [if_neg (by simp [ha]), if_neg (by simp [hf]), readEveryService_of_nil hi]
  dsimp only
  rw [hb, hm]
  refine (if_neg (Nat.not_lt.2 hl)).trans ((if_neg nofun).trans ?_)
  unfold State.saveLine
  rw [BitVec.add_zero]
  rfl

theorem restoreCmd_moving (ha : s.par.cmd.accepts seq = true) (hf : (s.part q).st = .frozen) (hm : s.flt.run ≠ none) :
    s.restoreCmd seq q = s.parRefuse seq 0x08 := by
  unfold State.restoreCmd
  rw [if_neg (by simp [ha]), if_neg (by simp [hf])]
  exact if_pos (Option.isSome_iff_ne_none.2 hm)

theorem restoreCmd_begins (ha : s.par.cmd.accepts seq = true) (hf : (s.part q).st = .frozen) (hm : s.flt.run = none) :
    s.restoreCmd seq q = (s.modPar fun x => { x with
      cmd := { x.cmd.accept seq with cmdref := false }, running := some q, job := .checkHeader ⟨s.saveBase, 1, []⟩ }).send63 .rdCur (tagOf true seq)
        s.saveBase none := by
  unfold State.restoreCmd
  rw [if_neg (by simp [ha]), if_neg (by simp [hf]), hm]
  refine (if_neg nofun).trans ?_
  refine (congrArg (fun pa => (State.send63 _ .rdCur (tagOf true seq) pa none)) (BitVec.add_zero s.saveBase) : _)

theorem Quiet.parRefuse (hq : Quiet s) (cause : BitVec 8) : Quiet (s.parRefuse seq cause) := (hq.withJob _ hq.job rfl).done 60

/-- An engine's request that begins a command of a partition. -/
theorem Quiet.begins (hq : Quiet s) {f : Par → Par} (hj : jobWaits (f s.par).job) (hp : (f s.par).parts = s.par.parts) {op : ReqOp} {tag : ATag}
    {pa : LineAddr} {cd : Option PLine} {t : State} (ht : t = (s.modPar f).send63 op tag pa cd) (hh : s.homed pa = true)
    (hap : s.inAperture pa = false) (hi : s.servingSlice (s.homeOf pa) pa = some i) (ha : (s.slice i).asleep = false)
    (hr : ((s.slice i).ing 25).direct.length < 8) :
    Machine.commandEnd s t = .next ((s.modPar f).modSlice i (Slice.pushDirect 25 (engineReq s op tag pa cd))).setPins := by
  have hm := hq.withJob f hj hp
  have hs := send63_direct (op := op) (tag := tag) (cd := cd) hm.netClear hh hap hi ha hr
  exact (hm.modSlice i _ rfl rfl).ends (ht.trans hs) rfl rfl

theorem parAbort_save {b : LineAddr} {n : Nat} {rest : List PLine} {hd : Line} (hr : s.par.cmd.res = .running) (hs : seq ≠ s.par.cmd.rseq)
    (hj : s.par.job = .save b n rest hd false false) : s.parAbort seq = s.modPar fun x => { x with job := .save b n rest hd false true } := by
  have hab : s.parAbortable = true := by unfold State.parAbortable; rw [hj]; rfl
  have hig : s.par.cmd.ignores seq true = false := by unfold CmdSt.ignores; simp [hs]
  unfold State.parAbort
  rw [hab, tryAbort_running hs hr, hig, hj]
  rfl

theorem parAbort_check {rd : Reads} (hr : s.par.cmd.res = .running) (hs : seq ≠ s.par.cmd.rseq) (hq : s.par.running = some q)
    (hf : (s.part q).st = .frozen) (hj : s.par.job = .checkHeader rd ∨ s.par.job = .checkBody rd) : s.parAbort seq = s.parStops := by
  have hab : s.parAbortable = true := by
    unfold State.parAbortable
    obtain hj | hj := hj <;> rw [hj]
  have hig : s.par.cmd.ignores seq true = false := by unfold CmdSt.ignores; simp [hs]
  unfold State.parAbort
  rw [hab, tryAbort_running hs hr, hig, hq]
  obtain hj | hj := hj <;> rw [hj] <;> simp [hf]

/-- Settles O15: a SAVE and a RESTORE begin with a request of agent 63, are refused, and are aborted. -/
theorem saveAndRestoreBegin : Obligations.SaveAndRestoreBegin := by
  intro s seq q h i hq hinj hf hh hap hhome hi ha hr
  subst hhome
  refine ⟨fun hacc hb hm hl => ?_, fun hacc hl => (hq.parRefuse 0x02).ends (saveCmd_small hinj hacc hf hl) ?_ ?_, fun hacc hm => ?_,
    fun hacc hm => ⟨(hq.parRefuse 0x08).ends (restoreCmd_moving hacc hf hm) ?_ ?_, fun hl => (hq.parRefuse 0x08).ends (saveCmd_moving hinj hacc hf hl hm) ?_ ?_⟩,
    fun hrun hs hpr => ⟨fun b n rest hd hj => (hq.withJob (fun x => { x with job := .save b n rest hd false true }) rfl rfl).ends (parAbort_save hrun hs hj) rfl rfl, fun rd hj => ?_⟩⟩
  · refine ⟨_, engineReq s .wrFull (tagOf true seq) s.saveBase (some ⟨s.imageHeader q [] 0, false⟩), hq.begins (by exact rfl) rfl (saveCmd_begins hinj hacc hf hb hl hm) hh hap hi ha hr, rfl, rfl, rfl, rfl, ?_, rfl, rfl, rfl, rfl, rfl, rfl, rfl, rfl⟩
    rw [setPins_slice, modSlice_slice_self]
    exact pushDirect_ing _ _ _
  · exact done_pending _ _
  · exact done_now _ _
  · refine ⟨_, engineReq s .rdCur (tagOf true seq) s.saveBase none, hq.begins (by exact rfl) rfl (restoreCmd_begins hacc hf hm) hh hap hi ha hr, rfl, rfl, rfl, ?_, rfl, rfl, rfl, rfl, rfl, rfl, rfl⟩
    rw [setPins_slice, modSlice_slice_self]
    exact pushDirect_ing _ _ _
  · exact done_pending _ _
  · exact done_now _ _
  · exact done_pending _ _
  · exact done_now _ _
  · refine ⟨_, (hq.withJob (fun x => { x with cmd := x.cmd.abort, running := none, job := .none }) trivial rfl).endsDone 60
      (parAbort_check hrun hs hpr hf hj) rfl rfl, ?_⟩
    simp only [setPins_par, done_par, setPins_part, done_part, setPins_slices, done_slices, setPins_ports, done_ports, setPins_chans, done_chans,
      setPins_dram, done_dram, setPins_flt, done_flt]
    exact ⟨rfl, rfl, rfl, rfl, rfl, rfl, rfl, rfl, rfl, rfl⟩

end Sys2Proof.Safety
end

section
/-! The networks: what leaves a router in a cycle, and what a replay and a lane test of a link do (R294, R297, R298). A link that does not
carry flits holds up nothing where no flit is on its way. -/

namespace Sys2Proof.Safety

open Sys2Proof.Machine

variable {s t u : State} {l : LinkId}

/-! ### The cycle -/

theorem meets_comm (a b : NetHead) : a.meets b = b.meets a := by
  unfold NetHead.meets
  rw [Bool.beq_comm (a := a.f.net), Bool.beq_comm (a := a.at'), Bool.beq_comm (a := a.f.out)]

/-- Of two heads for one output one goes before the other, not both. -/
theorem goesBefore_asymm {a b : NetHead} (h : s.goesBefore a b = true) : s.goesBefore b a = false := by
  unfold State.goesBefore at h ⊢
  by_cases hv : a.vc / 2 = b.vc / 2
  · rw [if_neg (not_not.2 hv)] at h
    rw [if_neg (not_not.2 hv.symm)]
    by_cases ht : s.turnOf a = s.turnOf b
    · rw [if_neg (not_not.2 ht)] at h
      rw [if_neg (not_not.2 ht.symm)]
      have := of_decide_eq_true h
      exact decide_eq_false (by omega)
    · rw [if_pos ht] at h
      rw [if_pos (Ne.symm ht)]
      have := of_decide_eq_true h
      exact decide_eq_false (by omega)
  · rw [if_pos hv] at h
    rw [if_pos (Ne.symm hv)]
    have := of_decide_eq_true h
    exact decide_eq_false (by omega)

/-- What goes before another is of no lower class. -/
theorem goesBefore_class {a b : NetHead} (h : s.goesBefore a b = true) : b.vc / 2 ≤ a.vc / 2 := by
  by_contra hc
  unfold State.goesBefore at h
  rw [if_pos (by omega)] at h
  have := of_decide_eq_true h
  omega

theorem mem_netWinners {room : NetMsg → Bool} {b : NetHead} (h : b ∈ s.netWinners room) :
    s.mayLeave room b = true ∧ ∀ a ∈ s.netHeads, s.mayLeave room a = true → a.meets b = true → a = b ∨ s.goesBefore b a = true := by
  obtain ⟨hb, hall⟩ := List.mem_filter.1 h
  refine ⟨(List.mem_filter.1 hb).2, fun a ha hl hm => ?_⟩
  have := List.all_eq_true.1 hall a (List.mem_filter.2 ⟨ha, hl⟩)
  simpa [meets_comm b a, hm] using this

theorem netWinners_mem {room : NetMsg → Bool} {b : NetHead} (h : b ∈ s.netWinners room) : b ∈ s.netHeads :=
  (List.mem_filter.1 (List.mem_filter.1 h).1).1

/-! ### What a link event changes -/

/-- State t is s but for registers, the fault collector's records, and the links. -/
def Linked (s t : State) : Prop :=
  ∃ u n, EventOnly s u ∧ t = { u with noc := n } ∧ n.bufs = s.noc.bufs ∧ n.wait = s.noc.wait

theorem Linked.of (h : EventOnly s t) : Linked s t := ⟨t, t.noc, h, rfl, by rw [h.noc], by rw [h.noc]⟩

theorem Linked.trans (h : Linked s t) (k : Linked t u) : Linked s u := by
  obtain ⟨v, n, hv, rfl, hb, hw⟩ := h
  obtain ⟨v', n', hv', rfl, hb', hw'⟩ := k
  obtain ⟨r, l, x, d, rfl⟩ := hv'
  exact ⟨_, n', hv.trans ⟨r, l, x, d, rfl⟩, rfl, hb'.trans hb, hw'.trans hw⟩

theorem Linked.modLink (s : State) (l : LinkId) (f : LinkSt → LinkSt) : Linked s (s.modLink l f) := ⟨s, _, .refl s, rfl, rfl, rfl⟩

theorem Linked.kept (h : Linked s t) : t.slices = s.slices ∧ t.ports = s.ports ∧ t.chans = s.chans ∧ t.glb = s.glb := by
  obtain ⟨u, n, ⟨r, l, x, d, rfl⟩, rfl, -⟩ := h
  exact ⟨rfl, rfl, rfl, rfl⟩

theorem Linked.pending (h : Linked s t) : t.pending = s.pending := by obtain ⟨u, n, ⟨r, l, x, d, rfl⟩, rfl, -⟩ := h; rfl
theorem Linked.now (h : Linked s t) : t.now = s.now := by obtain ⟨u, n, ⟨r, l, x, d, rfl⟩, rfl, -⟩ := h; rfl

theorem syncPower_of_supply (h : ∀ k < 50, s.pdStat k = s.pdMode k → s.pdMode k = s.pdWant k) : s.syncPower = s := by
  unfold State.syncPower
  split
  · refine foldl_fixed _ _ _ fun k hk => ?_
    have := h k (by simpa using hk)
    simp only [Bool.and_eq_true, beq_iff_eq, bne_iff_ne]
    rw [if_neg (by tauto)]
  · rfl

/-- Where no flit is on its way, the links hold up nothing: what is quiet with every link in order settles at once. -/
theorem Quiet.settleLinks (h : Quiet (linksInOrder t)) : t.settle = t.setPins := by
  have hs : Still t := ⟨h.due, h.adm, h.load, h.job, h.gc, h.stt, h.msc, h.sweep, h.back, h.ports, h.net, h.det, h.reads, h.slices⟩
  rw [hs.settle (movePrep_of_run h.run), syncPower_of_supply (s := t) h.supply]

/-- A link event leaves such a state such, where no source is due. -/
theorem Linked.quiet (k : Linked s t) (h : Quiet (linksInOrder s)) (hr : t.reg 0 0x5C = s.reg 0 0x5C) (hd : t.flt.due = s.flt.due) :
    Quiet (linksInOrder t) := by
  obtain ⟨u, n, ⟨r, l, x, d, rfl⟩, rfl, hb, hw⟩ := k
  have he : Quiet (linksInOrder { s with regs := r, flt := { s.flt with log := l, src := x, due := d } }) :=
    (Keeps.event (s := linksInOrder s) ⟨r, l, x, d, rfl⟩ hr hd).quiet h
  exact ⟨⟨he.due, he.adm, he.load, he.job, he.gc, he.stt, he.msc, he.sweep, he.back, he.ports,
    ⟨hb.trans h.net.1, hw.trans h.net.2⟩, he.det, he.reads, he.slices⟩, he.run, he.supply, rfl⟩

/-- A command that is a link event. -/
theorem Linked.ends (k : Linked s t) (h : Quiet (linksInOrder s)) (hr : t.reg 0 0x5C = s.reg 0 0x5C) (hd : t.flt.due = s.flt.due) :
    Machine.commandEnd s t = .next t.setPins :=
  commandEnd_settle (k.quiet h hr hd).settleLinks k.pending k.now

theorem modLink_link (s : State) (l : LinkId) (f : LinkSt → LinkSt) : (s.modLink l f).link l = f (s.link l) := tabGet_tabSet_self _ _ _ _

theorem link_congr (h : t.noc = s.noc) (l : LinkId) : t.link l = s.link l := by
  unfold State.link
  rw [h]

/-- Counting a link event, and its CORR event. -/
def linkNoted (s : State) (l : LinkId) (hi lo : Nat) : State := (s.bump 58 0x010 hi lo).corrEv (linkSrc l)

theorem linkNoted_event (s : State) (l : LinkId) (hi lo : Nat) : EventOnly s (linkNoted s l hi lo) := (EventOnly.bump _ _ _ _ _).trans (.corrEv _ _ _ _)

theorem bump_mild {n hi lo : Nat} (h : mild s n) : mild (s.bump 58 0x010 hi lo) n := by
  obtain ⟨r, hb⟩ := bump_frame s 58 0x010 hi lo
  exact mild_congr (by rw [hb]; rfl) (by rw [hb]) (bump_reg_ne _ _ _ _ _ _ _ (by decide)) h

theorem bump_src (s : State) (n o hi lo k : Nat) : (s.bump n o hi lo).src k = s.src k := by
  obtain ⟨r, hb⟩ := bump_frame s n o hi lo
  rw [hb]
  rfl

theorem linkNoted_reg (s : State) (l : LinkId) (hi lo m v : Nat) (h : 256 * m + v ≠ 256 * 59 + 0x58) (h' : 256 * m + v ≠ 256 * 58 + 4) :
    (linkNoted s l hi lo).reg m v = s.reg m v := (corrEv_reg_ne _ _ _ _ _ _ h).trans (bump_reg_ne _ _ _ _ _ _ _ h')

theorem linkNoted_corr {hi lo : Nat} (h : mild s (linkSrc l)) : ((linkNoted s l hi lo).src (linkSrc l)).corr = ((s.src (linkSrc l)).count1 false).corr := by
  rw [linkNoted, corrEv_mild_src _ _ (bump_mild h), bump_src]

theorem linkNoted_due {hi lo : Nat} (h : mild s (linkSrc l)) : (linkNoted s l hi lo).flt.due = s.flt.due := by
  obtain ⟨r, x, y, he, -⟩ := corrEv_mild_frame 0 0 (bump_mild (hi := hi) (lo := lo) h)
  rw [linkNoted, he]
  exact (congrArg Flt.due (bump_flt s 58 0x010 hi lo) : (s.bump 58 0x010 hi lo).flt.due = _)

theorem linkNoted_severe {hi lo : Nat} (h : mild s (linkSrc l)) : ((linkNoted s l hi lo).src (linkSrc l)).severe = (s.src (linkSrc l)).severe := by
  obtain ⟨r, x, y, he, -, hs, -⟩ := corrEv_mild_frame 0 0 (bump_mild (hi := hi) (lo := lo) h)
  rw [linkNoted, he, ← bump_src s 58 0x010 hi lo]
  exact hs

/-! ### A replay and a lane test -/

/-- A replay is counted, is a CORR event, and counts in the link's run of failures. -/
theorem nocReplay_eq {again : Bool} (hf : (s.link l).failed = false) (h2 : (s.link l).fails ≠ 2) :
    s.nocReplay l again = if !again then (linkNoted s l 23 16).modLink l fun k => { k with fails := 0 }
      else if (s.link l).fails = 3 then (linkNoted s l 23 16).linkFails l
      else (linkNoted s l 23 16).modLink l fun k => { k with fails := k.fails + 1 } := by
  unfold State.nocReplay
  exact if_neg (by simp [hf, h2])

theorem laneTest_eq {bad : Nat} (hf : (s.link l).failed = false) (h2 : (s.link l).fails = 2) :
    s.laneTest l bad = if 2 < (s.link l).spares + bad then s.linkFails l
      else (if bad = 0 then s else linkNoted s l 15 8).modLink l fun k => { k with fails := 3, spares := k.spares + bad } := by
  unfold State.laneTest
  exact if_neg (by simp [hf, h2])

/-- A link that has failed is recorded; its source has an UNCOR event. -/
def failing (s : State) (l : LinkId) : State :=
  let u := (s.modLink l fun k => { k with failed := true }).bump 58 0x010 7 0
  { u with noc := { u.noc with logged := u.noc.logged.or (linkLogs l) } }

theorem linkFails_eq (s : State) (l : LinkId) : s.linkFails l = (failing s l).uncorEv (linkSrc l) := rfl

theorem failing_linked (s : State) (l : LinkId) : Linked s (failing s l) :=
  ((Linked.modLink s l _).trans (.of (.bump _ _ _ _ _))).trans ⟨_, _, .refl _, rfl, rfl, rfl⟩

theorem failing_noc (s : State) (l : LinkId) : (failing s l).link l = { s.link l with failed := true } ∧
    (failing s l).noc.logged = s.noc.logged.or (linkLogs l) := by
  obtain ⟨r, hb⟩ := bump_frame (s.modLink l fun k => { k with failed := true }) 58 0x010 7 0
  unfold failing
  rw [hb]
  exact ⟨modLink_link s l fun k => { k with failed := true }, rfl⟩

theorem failing_flt (s : State) (l : LinkId) : (failing s l).flt = s.flt := bump_flt (s.modLink l fun k => { k with failed := true }) 58 0x010 7 0

theorem failing_reg (s : State) (l : LinkId) (m v : Nat) (h : 256 * m + v ≠ 256 * 58 + 4) : (failing s l).reg m v = s.reg m v :=
  bump_reg_ne (s.modLink l fun k => { k with failed := true }) 58 0x010 7 0 m v h

/-- What a link that fails calls for, where FLT_ACTCFG sets no action for ports. -/
theorem dueAct_link (h : s.fld 59 0x104 5 4 = 0) (l : LinkId) : s.dueAct (linkSrc l) = s := by
  unfold linkSrc
  split
  · rfl
  · split
    · exact dueAct_port (by rw [h]; decide)
    · rfl

/-- The state after an UNCOR event whose severity starts nothing. -/
def settledUncor (s : State) (n : Nat) : State := (s.uncorEv n).modFlt fun f => { f with due := [] }

theorem settledUncor_event (s : State) (n : Nat) : EventOnly s (settledUncor s n) := by
  obtain ⟨r, l, x, d, h⟩ := EventOnly.uncorEv s n 0 0
  exact ⟨r, l, x, [], by rw [settledUncor, h]; rfl⟩

theorem settledUncor_reg (s : State) (n m v : Nat) (h : 256 * m + v ≠ 256 * 59 + 0x58) : (settledUncor s n).reg m v = s.reg m v :=
  uncorEv_reg_ne s n m v 0 0 h

theorem settledUncor_severe {n : Nat} (h : (s.src n).severe = false) : ((settledUncor s n).src n).severe = true := by
  have := uncorEv_src 0 0 (uncorLeaves_of_mild h) n
  rw [if_pos rfl] at this
  exact congrArg Src.severe this

/-- A command by which the source of a link becomes severe. -/
theorem uncor_ends {w : State} (k : Linked s w) (h : Quiet (linksInOrder s)) (hr : ∀ m v, 256 * m + v ≠ 256 * 59 + 0x58 → 256 * m + v ≠ 256 * 58 + 4 → w.reg m v = s.reg m v)
    (hd : w.flt.due = s.flt.due) (hs : (w.src (linkSrc l)).severe = false) (ha : s.fld 59 0x104 5 4 = 0) :
    Machine.commandEnd s (w.uncorEv (linkSrc l)) = .next (settledUncor w (linkSrc l)).setPins := by
  have hxd : (w.uncorEv (linkSrc l)).flt.due = [linkSrc l] := by
    rw [uncorEv_due _ _ (uncorLeaves_of_mild hs), hs, hd, show s.flt.due = [] from h.due]
    rfl
  have hreg (m v : Nat) (h1 : 256 * m + v ≠ 256 * 59 + 0x58) (h2 : 256 * m + v ≠ 256 * 58 + 4) : (settledUncor w (linkSrc l)).reg m v = s.reg m v :=
    (settledUncor_reg _ _ _ _ h1).trans (hr m v h1 h2)
  have hsy : Linked s (settledUncor w (linkSrc l)) := k.trans (.of (settledUncor_event _ _))
  have hq := hsy.quiet h (hreg _ _ (by decide) (by decide)) h.due.symm
  have hact : (settledUncor w (linkSrc l)).dueAct (linkSrc l) = settledUncor w (linkSrc l) := dueAct_link (by
    unfold State.fld at ha ⊢
    rw [hreg _ _ (by decide) (by decide)]
    exact ha) l
  exact commandEnd_settle ((settle_of_due hxd hact hq.due).trans hq.settleLinks) hsy.pending hsy.now

/-- A command by which a link fails. -/
theorem linkFails_ends {t : State} (k : Linked s t) (h : Quiet (linksInOrder s)) (hr : ∀ m v, 256 * m + v ≠ 256 * 59 + 0x58 → 256 * m + v ≠ 256 * 58 + 4 → t.reg m v = s.reg m v)
    (hd : t.flt.due = s.flt.due) (hs : (t.src (linkSrc l)).severe = false) (ha : s.fld 59 0x104 5 4 = 0) :
    ∃ v, Machine.commandEnd s (t.linkFails l) = .next v ∧ (v.link l).failed = true ∧ (v.src (linkSrc l)).severe = true ∧
      ((linkLogs l).isSome = true → v.noc.logged.isSome = true) ∧ v.slices = s.slices ∧ v.ports = s.ports ∧ v.chans = s.chans ∧ v.glb = s.glb := by
  have hf := failing_flt t l
  obtain ⟨hlink, hlog⟩ := failing_noc t l
  have hk : Linked s (failing t l) := k.trans (failing_linked t l)
  have hsev : ((failing t l).src (linkSrc l)).severe = false := by
    unfold State.src at hs ⊢
    rw [hf]
    exact hs
  have hend := uncor_ends hk h (fun m v h1 h2 => (failing_reg t l m v h2).trans (hr m v h1 h2)) (by rw [hf, hd]) hsev ha
  have hev := settledUncor_event (failing t l) (linkSrc l)
  have hsv := settledUncor_severe hsev
  rw [linkFails_eq]
  generalize failing t l = w at *
  generalize settledUncor w (linkSrc l) = y at *
  refine ⟨_, hend, ?_, hsv, fun hl => ?_, (hk.trans (.of hev)).kept⟩
  · rw [show y.setPins.link l = y.link l from rfl, link_congr hev.noc, hlink]
  · rw [setPins_noc, hev.noc, hlog]
    cases t.noc.logged with
    | none => exact hl
    | some _ => rfl

/-- Settles O52: what leaves a router in a cycle, and what a replay and a lane test do to a link. -/
theorem networkLinks : Obligations.NetworkLinks := by
  refine ⟨fun s room a b hb => ?_, fun s l bad h hm hf => ?_⟩
  · obtain ⟨hlb, hall⟩ := mem_netWinners hb
    refine ⟨fun ha hab => ?_, fun ha hl hab => ?_, fun ho => ?_, fun ho => ?_⟩
    · obtain ⟨hla, hall'⟩ := mem_netWinners ha
      obtain e | e := hall a (netWinners_mem ha) hla hab
      · exact e
      obtain e' | e' := hall' b (netWinners_mem hb) hlb (meets_comm a b ▸ hab)
      · exact e'.symm
      · rw [goesBefore_asymm e] at e'
        nomatch e'
    · obtain rfl | e := hall a ha hl hab
      · exact Nat.le_refl _
      · exact goesBefore_class e
    · unfold State.mayLeave at hlb
      dsimp only at hlb
      rw [if_pos ho] at hlb
      exact (Bool.and_eq_true_iff.1 hlb).2
    · unfold State.mayLeave at hlb
      dsimp only at hlb
      rw [if_neg (by omega)] at hlb
      exact (Bool.and_eq_true_iff.1 hlb).2
  · have hn := linkNoted_event s l 23 16
    have hk {f : LinkSt → LinkSt} : Linked s ((linkNoted s l 23 16).modLink l f) := (Linked.of hn).trans (.modLink _ _ _)
    have hr : (linkNoted s l 23 16).reg 0 0x5C = s.reg 0 0x5C := linkNoted_reg _ _ _ _ _ _ (by decide) (by decide)
    have hd := linkNoted_due (s := s) (l := l) (hi := 23) (lo := 16) hm
    have hl := link_congr hn.noc l
    have hreplay {again : Bool} {f : LinkSt → LinkSt} (ht : s.nocReplay l again = (linkNoted s l 23 16).modLink l f) :
        ∃ t, exec (.nocLinkReplay l again) s = .next t ∧ t.link l = f (s.link l) ∧ (t.src (linkSrc l)).corr = ((s.src (linkSrc l)).count1 false).corr ∧
          t.slices = s.slices ∧ t.ports = s.ports ∧ t.chans = s.chans ∧ t.glb = s.glb := by
      refine ⟨_, (congrArg (Machine.commandEnd s) ht).trans (hk.ends h hr hd), ?_, linkNoted_corr hm, (hk (f := f)).kept⟩
      exact (modLink_link _ _ _).trans (congrArg f hl)
    refine ⟨fun h2 => ?_, fun h2 => ?_, fun h3 hst => ?_, fun h2 hsp => ?_, fun h2 hsp hst => ?_⟩
    · obtain ⟨t, ht, hlk, hrest⟩ := hreplay ((nocReplay_eq (again := false) hf h2).trans (if_pos rfl))
      refine ⟨t, ht, ?_⟩
      rw [hlk]
      exact ⟨rfl, rfl, hf, hrest⟩
    · obtain ⟨t, ht, hlk, hrest⟩ := hreplay ((nocReplay_eq (again := true) hf (by omega)).trans ((if_neg nofun).trans (if_neg (by omega))))
      refine ⟨t, ht, ?_⟩
      rw [hlk]
      exact ⟨rfl, rfl, hf, hrest⟩
    · obtain ⟨v, hv, hrest⟩ := linkFails_ends (l := l) (Linked.of hn) h (fun m v h1 h2 => linkNoted_reg _ _ _ _ _ _ h1 h2) hd
        ((linkNoted_severe hm).trans hst.1) hst.2.1
      exact ⟨v, (congrArg (Machine.commandEnd s) ((nocReplay_eq (again := true) hf (by omega)).trans ((if_neg nofun).trans (if_pos h3)))).trans hv, hrest⟩
    · have hlt := (laneTest_eq (bad := bad) hf h2).trans (if_neg (by omega))
      by_cases hb : bad = 0
      · rw [if_pos hb] at hlt
        have hk' : Linked s (s.modLink l fun k => { k with fails := 3, spares := k.spares + bad }) := .modLink _ _ _
        refine ⟨_, (congrArg (Machine.commandEnd s) hlt).trans (hk'.ends h rfl rfl), ?_⟩
        rw [show (s.modLink l fun k => { k with fails := 3, spares := k.spares + bad }).setPins.link l = _ from modLink_link s l fun k => { k with fails := 3, spares := k.spares + bad }]
        exact ⟨rfl, rfl, hf, fun _ => rfl, fun e => absurd hb e, hk'.kept⟩
      · rw [if_neg hb] at hlt
        have hk' : Linked s ((linkNoted s l 15 8).modLink l fun k => { k with fails := 3, spares := k.spares + bad }) :=
          (Linked.of (linkNoted_event s l 15 8)).trans (.modLink _ _ _)
        refine ⟨_, (congrArg (Machine.commandEnd s) hlt).trans
          (hk'.ends h (linkNoted_reg _ _ _ _ _ _ (by decide) (by decide) : (linkNoted s l 15 8).reg 0 0x5C = _) (linkNoted_due hm)), ?_⟩
        rw [show ((linkNoted s l 15 8).modLink l fun k => { k with fails := 3, spares := k.spares + bad }).setPins.link l = _ from
          modLink_link (linkNoted s l 15 8) l fun k => { k with fails := 3, spares := k.spares + bad },
          link_congr (linkNoted_event s l 15 8).noc]
        exact ⟨rfl, rfl, hf, fun e => absurd e hb, fun _ => linkNoted_corr hm, hk'.kept⟩
    · obtain ⟨v, hv, hrest⟩ := linkFails_ends (l := l) (Linked.of (.refl s)) h (fun _ _ _ _ => rfl) rfl hst.1 hst.2.1
      exact ⟨v, (congrArg (Machine.commandEnd s) ((laneTest_eq hf h2).trans (if_pos hsp))).trans hv, hrest⟩

end Sys2Proof.Safety
end

section
/-! O32: a transaction that ends gives its home credit back (R60), which the partition table counts: the table does not stand, as the clause of
DONE says at once with the credit's return. -/

namespace Sys2Proof.Safety

open Sys2Proof.Machine

/-- A clause that completes with `Comp` and is DONE. -/
def doneClause : Clause :=
  ⟨.done 0, some ⟨2, RspOp.comp.code, 0, 0, false, true, 0, false, 0, 0, false, false, false, false⟩, ⟨0, false, 0⟩, ⟨0, 0, 0, false, 0, 0⟩⟩

theorem doneClause_dec : Clause.dec doneClause.enc = doneClause := by decide

/-- A transaction of agent 0 that is ready, with an `Upgr`. -/
def doneTrk : Trk := .init ⟨.req .upgr, ⟨0, 0, 0, 0, 5, 0⟩, some 0, 5, false, 0, none, 0, false⟩ (.ready false) 0 0 []

/-- Slice 5 runs that transaction, whose clause is DONE. -/
def doneSlice (x : Slice) : Slice :=
  { x with trk := [(0, some doneTrk)], ar := { x.ar with init := 0x3FF }, uc := { x.uc with words := [(0, doneClause.enc)] } }

/-- An enabled block with that transaction, which holds one home credit. -/
def doneState : State :=
  (((State.reset.modGlb fun g => { g with stt := .enabled, cmd := .zero, everEnabled := true, layout := [] }).modSlice 5 doneSlice).modPort 0
    fun x => { x with up := true }).modPar fun x => { x with used := [(credKey 5 0 false, 1)] }

theorem doneState_quiet : Quiet doneState :=
  (((quiet_reset.withStt .enabled .zero true [] ⟨nofun, nofun, nofun⟩ nofun fun e => nomatch e).modSlice 5 doneSlice rfl rfl).modPort 0 _ rfl
    fun _ => .inl).withJob _ trivial rfl

theorem doneState_ents : (doneState.slice 5).ents = [(0, doneTrk)] := rfl

theorem doneState_ready (again : Bool) : doneState.readyOf 5 again = if again then none else some 0 := by
  unfold State.readyOf
  dsimp only
  rw [doneState_ents]
  cases again <;> simp [doneTrk, Trk.init, State.detTxn]

theorem doneState_passes : FlitPasses doneState 0 0 := ⟨rfl, by decide, rfl, rfl⟩

theorem reset_port (q : Fin 24) : State.reset.port q = .zero := by
  revert q
  decide

theorem doneState_egress (q : Fin 24) : (doneState.port q).egress = [] := by
  by_cases h : q = 0
  · subst h
    rfl
  · exact congrArg Port.egress ((modPort_port_ne _ (fun x => { x with up := true }) h).trans (reset_port q))

/-- Refutes O32: the credit that a transaction gives back changes the partition table, which the clause of DONE says stands. -/
theorem not_activationRunsClause : ¬ Obligations.ActivationRunsClause := by
  intro h
  obtain ⟨-, -, -, -, hdone, -⟩ := h doneState 5 0 0 doneTrk doneClause false doneState_quiet rfl rfl rfl (doneState_ready true) (fun _ => doneState_ready false)
    rfl doneClause_dec
  obtain ⟨t, -, -, -, -, hused, -, -, -, -, hpar⟩ := hdone _ 0 .upgr .un .i rfl rfl rfl rfl rfl rfl (.inl ⟨rfl, rfl, rfl, rfl⟩) rfl rfl doneState_egress rfl rfl rfl rfl rfl
    rfl rfl rfl rfl rfl rfl rfl doneState_passes rfl (Nat.zero_le _)
  have h1 : t.homeUsed 5 0 false = 1 := by
    unfold State.homeUsed
    rw [hpar]
    rfl
  have h0 : t.homeUsed 5 0 false = 0 := hused
  rw [h1] at h0
  nomatch h0

end Sys2Proof.Safety
end

section
/-! Admission (R299, R302, R119, R120): what an admitted request takes and notes at its port, and where it waits. A request that nothing
holds up is admitted as it comes. -/

namespace Sys2Proof.Machine

/-- Port x once a request has taken a token of a bucket, where it regulates. -/
def Port.paid (x : Port) (q : PartId) (c tok : Bool) : Port :=
  { x with buckets := if tok then (x.setBucket q c (x.bucket q c - 100)).buckets else x.buckets }

/-- Port x once it has noted an admitted request: a counted write, or a drain and the writes it counts. -/
def Port.noted (x : Port) (h : Held) (wid : Nat) : Port :=
  if reqCounted h.op then { x with nextWid := x.nextWid + 1, writes := x.writes ++ [⟨wid, h.a.src, false, false, false⟩] }
  else if h.isDrain then
    { x with drains := x.drains ++ [⟨h.a.src, h.a.atag, none, h.op == .drainE,
      ((x.drainWaits h.a.src (h.op == .drainE)).filter fun w => if h.op == .drainE then !w.drained else true).map WriteRec.wid,
      (x.drainWaits h.a.src (h.op == .drainE)).any fun w => w.drained && w.fenced⟩] }
  else x

theorem noted_frame (x : Port) (h : Held) (wid : Nat) :
    ∃ n w d, x.noted h wid = { x with nextWid := n, writes := w, drains := d } ∧
      w = x.writes ++ (if reqCounted h.op then [⟨wid, h.a.src, false, false, false⟩] else []) ∧ (h.isDrain = false → d = x.drains) := by
  unfold Port.noted
  split
  · exact ⟨_, _, _, rfl, rfl, fun _ => rfl⟩
  · split
    · next hd => exact ⟨_, _, _, rfl, (List.append_nil _).symm, fun h => absurd hd (by simp [h])⟩
    · exact ⟨_, _, _, rfl, (List.append_nil _).symm, fun _ => rfl⟩

/-- The number of a request that is a counted write. -/
def State.widOf (s : State) (p : Fin 24) (h : Held) : Nat := if reqCounted h.op then (s.port p).nextWid else 0

/-- The request that leaves a port for a slice. -/
def State.admission (s : State) (p : Fin 24) (h : Held) (home : Fin 16) : Req :=
  ⟨.req h.op, h.a, some p, home, s.detReq h.op h.a.pa, s.edge, h.cd, s.widOf p h, false⟩

theorem takeToken_eq (s : State) (p : Fin 24) (q : PartId) (c : Bool) :
    s.takeToken p q c = s.modPort p (·.paid q c (s.regulates q c)) := by
  unfold State.takeToken Port.paid
  split
  · rfl
  · exact (modPort_same s p _ rfl).symm

/-- State s once port p has admitted request h for its home, and slice i has it. -/
def State.admits (s : State) (p : Fin 24) (h : Held) (home : Fin 16) (i : Fin 17) : State :=
  ((s.setHomeUsed home h.a.part (s.detReq h.op h.a.pa) (s.homeUsed home h.a.part (s.detReq h.op h.a.pa) + 1)).modPort p fun x =>
    (x.paid h.a.part (s.detReq h.op h.a.pa) (s.regulates h.a.part (s.detReq h.op h.a.pa))).noted h (s.widOf p h)).modSlice i
      (Slice.pushDirect p.val (s.admission p h home))

end Sys2Proof.Machine

namespace Sys2Proof.Safety

open Sys2Proof.Machine

variable {s : State} {p : Fin 24} {h : Held} {home : Fin 16} {i : Fin 17}

/-- The slice a request goes to is that of its port's route. -/
theorem routedSlice_modPort {f : Port → Port} {pa : LineAddr} (hf : (f (s.port p)).route = (s.port p).route) :
    (s.modPort p f).routedSlice p home pa = s.routedSlice p home pa := by
  have hs : (s.modPort p f).serving home = s.serving home := rfl
  unfold State.routedSlice
  rw [modPort_port_self, hf, hs]

/-- Home credits are no part of a port. -/
theorem setHomeUsed_modPort (s : State) (p : Fin 24) (f g : Port → Port) (home : Fin 16) (q : PartId) (c : Bool) (v : Nat) :
    ((s.modPort p f).setHomeUsed home q c v).modPort p g = (s.setHomeUsed home q c v).modPort p fun x => g (f x) :=
  modPort_modPort (s.setHomeUsed home q c v) p f g

theorem noted_route (x : Port) (h : Held) (wid : Nat) : (x.noted h wid).route = x.route := by
  obtain ⟨n, w, d, hx, -, -⟩ := noted_frame x h wid
  rw [hx]

theorem admitReq_direct (hn : s.netClear = true) (hd : (if h.isDrain then s.serving home else s.routedSlice p home h.a.pa) = some i)
    (ha : (s.slice i).asleep = false) (hr : ((s.slice i).ing p.val).direct.length < 8) : s.admitReq p h home = s.admits p h home i := by
  have hw : ((s.takeToken p h.a.part (s.detReq h.op h.a.pa)).port p).nextWid = (s.port p).nextWid := by
    rw [takeToken_eq, modPort_port_self]
    rfl
  have hroute := routedSlice_modPort (s := s.setHomeUsed home h.a.part (s.detReq h.op h.a.pa) (s.homeUsed home h.a.part (s.detReq h.op h.a.pa) + 1))
    (p := p) (home := home) (pa := h.a.pa)
    (f := fun x => (x.paid h.a.part (s.detReq h.op h.a.pa) (s.regulates h.a.part (s.detReq h.op h.a.pa))).noted h (s.widOf p h))
    (noted_route _ _ _)
  unfold State.admitReq
  dsimp only
  rw [show (State.port (State.setHomeUsed (s.takeToken p h.a.part (s.detReq h.op h.a.pa)) _ _ _ _) p).nextWid = (s.port p).nextWid from hw]
  refine (congrArg (fun t : State => (match (if h.isDrain then t.serving home else t.routedSlice p home h.a.pa) with
    | some i => t.sendReq (.port p) i p.val ⟨.req h.op, h.a, some p, home, s.detReq h.op h.a.pa, t.edge, h.cd, s.widOf p h, false⟩
    | none => t)) ((congrArg (fun t : State => (t.setHomeUsed home h.a.part (s.detReq h.op h.a.pa)
      (s.homeUsed home h.a.part (s.detReq h.op h.a.pa) + 1)).modPort p (·.noted h (s.widOf p h))) (takeToken_eq s p h.a.part (s.detReq h.op h.a.pa))).trans
      (setHomeUsed_modPort s p _ _ _ _ _ _))).trans ?_
  rw [hroute]
  generalize hu : State.modPort _ p (fun x => Port.noted _ h _) = u
  have hs : u.serving home = s.serving home := by rw [← hu]; rfl
  have hr : (s.setHomeUsed home h.a.part (s.detReq h.op h.a.pa) (s.homeUsed home h.a.part (s.detReq h.op h.a.pa) + 1)).routedSlice p home h.a.pa =
    s.routedSlice p home h.a.pa := rfl
  rw [hs, hr, hd]
  dsimp only
  rw [sendReq_direct (by rw [← hu]; exact hn) (by rw [← hu]; exact ha) rfl (by rw [← hu]; assumption)]
  subst hu
  rfl

/-- Requests that do not wait at admission stay as they are. -/
theorem pumpList_waiting (kept l m : List Held) (hl : ∀ k ∈ l, k.why ≠ .admission) :
    s.pumpList p kept (l ++ m) = s.pumpList p (kept ++ l) m := by
  induction l generalizing kept with
  | nil => rw [List.append_nil, List.nil_append]
  | cons k l ih =>
    rw [List.cons_append, State.pumpList, if_neg (hl k List.mem_cons_self), ih _ fun k hk => hl k (List.mem_cons_of_mem _ hk), List.append_assoc,
      List.singleton_append]

/-- What a request needs to leave its port for slice i at once. -/
structure Leaves (s : State) (p : Fin 24) (h : Held) (home : Fin 16) (i : Fin 17) : Prop where
  served : s.reqHome h.op h.a = some home
  slice : (if h.isDrain then s.serving home else s.routedSlice p home h.a.pa) = some i
  awake : (s.slice i).asleep = false
  room : ((s.slice i).ing p.val).direct.length < 8
  token : s.tokenOk p h.a.part (s.detReq h.op h.a.pa) = true
  credit : s.creditOk home h.a.part (s.detReq h.op h.a.pa) = true

theorem tryAdmit_leaves (hn : s.netClear = true) (hl : Leaves s p h home i) {earlier : List Held} (hb : h.blockedBy earlier = false) :
    s.tryAdmit p h earlier = (s.admits p h home i, none) := by
  unfold State.tryAdmit
  rw [hb, hl.served]
  dsimp only
  rw [hl.token, hl.credit, admitReq_direct hn hl.slice hl.awake hl.room]
  rfl

/-- The last request that a port holds is the only one that waits at admission, and leaves. -/
theorem pumpPort_leaves {l : List Held} (hn : s.netClear = true) (hw : h.why = .admission) (hh : (s.port p).held = l ++ [h])
    (hk : ∀ k ∈ l, k.why ≠ .admission) (hb : h.blockedBy l = false) (hl : Leaves s p h home i) :
    s.pumpPort p = (s.admits p h home i).modPort p fun x => { x with held := l } := by
  have hp : s.pumpList p [] (s.port p).held = (s.admits p h home i, l) := by
    rw [hh, pumpList_waiting _ _ _ hk, List.nil_append, State.pumpList, if_pos hw, tryAdmit_leaves hn hl hb]
    rfl
  unfold State.pumpPort
  rw [hp]
  exact if_pos (by simp [hh, hw])

/-- A request that nothing keeps from its line passes the checks of its address. -/
theorem check8to10_passes (hh : (s.reqHome h.op h.a).isSome = true) (ha : h.isDrain = false → s.homed h.a.pa = true ∧
    ∀ r, s.detRgn h.a.pa = some r → (s.rgnAgents r).contains h.a.src = true ∧ s.flag 60 (4 * h.a.part.toNat) 30 = true) :
    s.check8to10 p h = (s, true) := by
  unfold State.check8to10
  cases hd : h.isDrain with
  | true =>
    have hd' : (s.drainHome h.a.src).isSome = true := by
      unfold Held.isDrain at hd
      unfold State.reqHome at hh
      rwa [if_pos hd] at hh
    rw [hd']
    rfl
  | false =>
    obtain ⟨hm, hr⟩ := ha hd
    rw [hm]
    have hn : (s.reqHome h.op h.a).isNone = false := by rw [Option.isNone_eq_false_iff]; exact hh
    cases he : s.detRgn h.a.pa with
    | none => simp [hn]
    | some r =>
      obtain ⟨h1, h2⟩ := hr r he
      simp [hn, List.contains_iff_mem.1 h1, h2]

/-- Port x with its held requests replaced, once it has noted that a request of class c has left. -/
def left (x : Port) (h : Held) (c tok : Bool) (wid : Nat) (l : List Held) : Port :=
  { (x.paid h.a.part c tok).noted h wid with held := l }

/-- A change of a port that admission does not look at. -/
structure Beside (x y : Port) : Prop where
  route : y.route = x.route
  nextWid : y.nextWid = x.nextWid
  buckets : y.buckets = x.buckets
  writes : y.writes = x.writes
  drains : y.drains = x.drains
  cred : y.cred = x.cred
  egress : y.egress = x.egress
  resetting : y.resetting = x.resetting

theorem left_eq (x : Port) (h : Held) (c tok : Bool) (wid : Nat) (l : List Held) : ∃ n d,
    left x h c tok wid l = { x.paid h.a.part c tok with
      nextWid := n, writes := x.writes ++ (if reqCounted h.op then [⟨wid, h.a.src, false, false, false⟩] else []), drains := d, held := l } ∧
    (h.isDrain = false → d = x.drains) := by
  obtain ⟨n, w, d, hx, rfl, hd⟩ := noted_frame (x.paid h.a.part c tok) h wid
  refine ⟨n, d, ?_, hd⟩
  unfold left
  rw [hx]
  rfl

theorem paid_bucket (x : Port) (q : PartId) (c tok : Bool) :
    (x.paid q c tok).bucket q c = if tok then x.bucket q c - 100 else x.bucket q c := by
  cases tok with
  | false => rfl
  | true => exact tabGet_tabSet_self _ _ _ _

/-- State s once request h has left port p, with its other requests l, for slice i as request r. -/
def departed (s : State) (p : Fin 24) (h : Held) (home : Fin 16) (i : Fin 17) (x : Port) (r : Req) : State :=
  ((s.setHomeUsed home h.a.part (s.detReq h.op h.a.pa) (s.homeUsed home h.a.part (s.detReq h.op h.a.pa) + 1)).modPort p fun _ => x).modSlice i
    (Slice.pushDirect p.val r)

theorem admits_eq (F : Port → Port) (l : List Held) :
    ((s.modPort p F).admits p h home i).modPort p (fun x => { x with held := l }) = departed s p h home i
      (left (F (s.port p)) h (s.detReq h.op h.a.pa) (s.regulates h.a.part (s.detReq h.op h.a.pa)) ((s.modPort p F).widOf p h) l)
      ((s.modPort p F).admission p h home) := by
  have h2 := modPort_modPort (s.setHomeUsed home h.a.part (s.detReq h.op h.a.pa) (s.homeUsed home h.a.part (s.detReq h.op h.a.pa) + 1)) p F
    (fun x => (x.paid h.a.part (s.detReq h.op h.a.pa) (s.regulates h.a.part (s.detReq h.op h.a.pa))).noted h ((s.modPort p F).widOf p h))
  have h3 := modPort_modPort (s.setHomeUsed home h.a.part (s.detReq h.op h.a.pa) (s.homeUsed home h.a.part (s.detReq h.op h.a.pa) + 1)) p
    (fun x => ((F x).paid h.a.part (s.detReq h.op h.a.pa) (s.regulates h.a.part (s.detReq h.op h.a.pa))).noted h ((s.modPort p F).widOf p h))
    (fun x => { x with held := l })
  exact congrArg (fun t : State => t.modSlice i (Slice.pushDirect p.val ((s.modPort p F).admission p h home)))
    ((congrArg (fun t : State => t.modPort p fun x => { x with held := l }) h2).trans h3)

/-- A request that leaves its port is admitted. -/
theorem departed_admitted {y x : Port} {r : Req} {l : List Held} {wid : Nat} (hF : Beside (s.port p) y)
    (hx : x = left y h (s.detReq h.op h.a.pa) (s.regulates h.a.part (s.detReq h.op h.a.pa)) wid l)
    (hwid : reqCounted h.op = true → wid = (s.port p).nextWid)
    (hr : r = ⟨.req h.op, h.a, some p, home, s.detReq h.op h.a.pa, s.edge, h.cd, wid, false⟩) :
    admitted s (departed s p h home i x r).setPins p h.op h.a h.cd home i := by
  obtain ⟨n, d, hl, hd⟩ := left_eq y h (s.detReq h.op h.a.pa) (s.regulates h.a.part (s.detReq h.op h.a.pa)) wid l
  have hl := hx.trans hl
  have hp : (departed s p h home i x r).setPins.port p = x := by
    rw [setPins_port, departed, modSlice_port, modPort_port_self]
  have hsl : (departed s p h home i x r).setPins.slice i = Slice.pushDirect p.val r (s.slice i) := modSlice_slice_self _ _ _
  unfold admitted
  dsimp only
  rw [hp, hsl]
  refine ⟨⟨r, pushDirect_ing _ _ _, ?_⟩, ?_, rfl, ?_, ?_, ?_,
    fun hn => (congrArg Port.drains hl).trans ((hd hn).trans hF.drains), (congrArg Port.cred hl).trans hF.cred,
    (congrArg Port.egress hl).trans hF.egress, fun q hq => ?_, fun j hj => ?_, ?_⟩
  · subst hr
    exact ⟨rfl, rfl, rfl, rfl, rfl, rfl, rfl, rfl, hwid⟩
  · unfold Slice.pushDirect Slice.ing Slice.setIng
    rw [tabGet_tabSet_self]
  · exact tabGet_tabSet_self (α := Nat) 0 s.par.used (credKey home h.a.part (s.detReq h.op h.a.pa))
      (s.homeUsed home h.a.part (s.detReq h.op h.a.pa) + 1)
  · refine (congrArg (fun z : Port => z.bucket h.a.part (s.detReq h.op h.a.pa)) hl).trans ((paid_bucket y _ _ _).trans ?_)
    unfold Port.bucket
    rw [hF.buckets]
  · refine (congrArg Port.writes hl).trans ?_
    dsimp only
    rw [hF.writes]
    split
    · next hc => rw [hwid hc]
    · rfl
  · rw [setPins_port, departed, modSlice_port, modPort_port_ne _ _ hq]
    rfl
  · exact modSlice_slice_ne _ _ hj
  · exact ⟨rfl, rfl, rfl, rfl, rfl, rfl⟩

theorem Quiet.setHomeUsed (hq : Quiet s) (q : PartId) (c : Bool) (v : Nat) : Quiet (s.setHomeUsed home q c v) := hq.withJob _ hq.job rfl

/-- A request that leaves its port leaves a quiet state quiet. -/
theorem Quiet.departs {x : Port} {r : Req} (hq : Quiet s) (hr : x.resetting = (s.port p).resetting)
    (hl : ∀ k ∈ x.held, k ∈ (s.port p).held ∨ k.why = .companion) : Quiet (departed s p h home i x r) :=
  ((hq.setHomeUsed _ _ _).modPort p _ hr hl).modSlice i _ rfl rfl

/-- A port whose held requests take request h in, or on, in the place of `old`. -/
theorem Beside.putHeld {x y : Port} (hB : Beside x y) (old new : Option Held) : Beside x (y.putHeld old new) := by
  obtain ⟨h1, h2, h3, h4, h5, h6, h7, h8⟩ := hB
  cases old <;> cases new <;> exact ⟨h1, h2, h3, h4, h5, h6, h7, h8⟩

/-- A request that nothing holds up leaves its port as soon as it has passed check 4. -/
theorem fromCheck5_leaves {G : Port → Port} {old : Option Held} {l : List Held} (hA : Admissible s p h.op h.a home i) (hn : s.netClear = true)
    (hB : Beside (s.port p) (G (s.port p)))
    (hput : ((G (s.port p)).putHeld old (some { h with why := .admission })).held = l ++ [{ h with why := .admission }])
    (hk : ∀ k ∈ l, k.why ≠ .admission) (hb : h.blockedBy l = false) :
    ∃ x r, (s.modPort p G).fromCheck5 p old h = departed s p { h with why := .admission } home i x r ∧
      x = left ((G (s.port p)).putHeld old (some { h with why := .admission })) { h with why := .admission } (s.detReq h.op h.a.pa)
        (s.regulates h.a.part (s.detReq h.op h.a.pa)) r.wid l ∧
      (reqCounted h.op = true → r.wid = (s.port p).nextWid) ∧
      r = ⟨.req h.op, h.a, some p, home, s.detReq h.op h.a.pa, s.edge, h.cd, r.wid, false⟩ := by
  have hB' := hB.putHeld old (some { h with why := .admission })
  have hgen : (h.a.gen != ((s.modPort p G).part h.a.part).gen) = false := by
    rw [modPort_part, bne_eq_false_iff_eq]
    exact hA.gen
  have hrun : (((s.modPort p G).part h.a.part).st != .run) = false := by
    rw [modPort_part, bne_eq_false_iff_eq]
    exact hA.run
  have hap : (!h.isDrain && (s.modPort p G).inAperture h.a.pa) = false := by
    cases hd : h.isDrain with
    | true => rfl
    | false => exact (hA.addr hd).1
  have hc : (s.modPort p G).check8to10 p h = (s.modPort p G, true) :=
    check8to10_passes (s := s.modPort p G) (h := h) (by rw [show (s.modPort p G).reqHome h.op h.a = some home from hA.home]; rfl) fun hd =>
      (hA.addr hd).2
  have hl : Leaves (s.modPort p fun x => (G x).putHeld old (some { h with why := .admission })) p { h with why := .admission } home i :=
    { served := hA.home
      slice := by rw [routedSlice_modPort (by exact hB'.route)]; exact hA.slice
      awake := hA.awake
      room := hA.room
      token := by
        have ht := hA.token
        unfold State.tokenOk at ht ⊢
        unfold Port.bucket at ht ⊢
        rw [modPort_port_self, hB'.buckets]
        exact ht
      credit := hA.credit }
  have hpump := pumpPort_leaves (s := s.modPort p fun x => (G x).putHeld old (some { h with why := .admission }))
    (h := { h with why := .admission }) hn rfl (by rw [modPort_port_self]; exact hput) hk hb hl
  refine ⟨_, (s.modPort p fun x => (G x).putHeld old (some { h with why := .admission })).admission p { h with why := .admission } home, ?_, rfl,
    fun hc => ?_, rfl⟩
  · refine Eq.trans ?_ (hpump.trans (admits_eq (fun x => (G x).putHeld old (some { h with why := .admission })) l))
    unfold State.fromCheck5
    rw [hgen, hrun, hap]
    unfold State.enterAdmission
    rw [hc]
    dsimp only
    exact congrArg (State.pumpPort · p) (modPort_modPort s p G fun x => x.putHeld old (some { h with why := .admission }))
  · dsimp only [State.admission]
    unfold State.widOf
    rw [if_pos hc, modPort_port_self, hB'.nextWid]

theorem left_held (x : Port) (h : Held) (c tok : Bool) (wid : Nat) (l : List Held) : (left x h c tok wid l).held = l := rfl

theorem left_orphans (x : Port) (h : Held) (c tok : Bool) (wid : Nat) (l : List Held) : (left x h c tok wid l).orphans = x.orphans := by
  obtain ⟨n, d, hx, -⟩ := left_eq x h c tok wid l
  rw [hx]
  rfl

theorem left_resetting (x : Port) (h : Held) (c tok : Bool) (wid : Nat) (l : List Held) : (left x h c tok wid l).resetting = x.resetting := by
  obtain ⟨n, d, hx, -⟩ := left_eq x h c tok wid l
  rw [hx]
  rfl

/-- A command that lets a request leave its port ends with the request admitted. -/
theorem Quiet.leaves (hq : Quiet s) {G : Port → Port} {old : Option Held} {l : List Held} (hA : Admissible s p h.op h.a home i)
    (hB : Beside (s.port p) (G (s.port p)))
    (hput : ((G (s.port p)).putHeld old (some { h with why := .admission })).held = l ++ [{ h with why := .admission }])
    (hl : ∀ k ∈ l, k ∈ (s.port p).held) (hb : h.blockedBy l = false) {t : State} (ht : t = (s.modPort p G).fromCheck5 p old h) :
    ∃ u, Machine.commandEnd s t = .next u ∧ admitted s u p h.op h.a h.cd home i ∧ (u.port p).held = l ∧
      (u.port p).orphans = ((G (s.port p)).putHeld old (some { h with why := .admission })).orphans := by
  obtain ⟨x, r, hu, hx, hw, hr⟩ := fromCheck5_leaves hA hq.netClear hB hput (fun k hk => ((hq.ports p).2 k (hl k hk)).1) hb
  have hB' := hB.putHeld old (some { h with why := .admission })
  have hquiet := hq.departs (h := { h with why := .admission }) (home := home) (i := i) (x := x) (r := r)
    (by rw [hx, left_resetting]; exact hB'.resetting) (fun k hk => .inl (hl k (by rwa [hx, left_held] at hk)))
  have hp : (departed s p { h with why := .admission } home i x r).setPins.port p = x := by
    rw [setPins_port, departed, modSlice_port, modPort_port_self]
  exact ⟨_, hquiet.ends (ht.trans hu) rfl rfl, departed_admitted (h := { h with why := .admission }) hB' hx hw hr,
    by rw [hp, hx, left_held], by rw [hp, hx, left_orphans]⟩

/-- A request is not held up by requests of other agents for other lines. -/
theorem blockedBy_of_others {l : List Held} (hl : ∀ k ∈ l, k.a.src ≠ h.a.src ∧ k.a.pa ≠ h.a.pa) : h.blockedBy l = false := by
  unfold Held.blockedBy
  split
  · simpa using fun k hk => (hl k hk).1
  · simpa using fun k hk _ he => absurd he (hl k hk).2

/-- Settles O17: a request that passes the checks, alone in its port, leaves for its slice at once. -/
theorem requestIsAdmitted : Obligations.RequestIsAdmitted := by
  intro s p op f o h i hq hp hk hm hA ho
  have harr : s.reqArrive p op f = (s.modPort p (·.tookReq o)).fromCheck5 p none (s.arrival op f o) :=
    calc s.reqArrive p op f
      _ = (s.linkTake p .req).fromCheck4 p (s.arrival op f none) := reqArrive_passes s p op f hp hm
      _ = ((s.linkTake p .req).modPort p (·.without o)).fromCheck5 p none (s.arrival op f o) :=
        fromCheck4_companion _ p _ o rfl (by rw [State.linkTake, modPort_port_self]; exact ho)
      _ = (s.modPort p (·.tookReq o)).fromCheck5 p none (s.arrival op f o) := by rw [State.linkTake, modPort_modPort]; rfl
  have hB : Beside (s.port p) ((s.port p).tookReq o) := by cases o <;> exact ⟨rfl, rfl, rfl, rfl, rfl, rfl, rfl, rfl⟩
  obtain ⟨t, ht, had, hheld, horph⟩ := hq.leaves (h := s.arrival op f o) (G := (·.tookReq o)) (old := none) (l := (s.port p).held) hA hB
    (by cases o <;> rfl) (fun _ => id) (blockedBy_of_others hk) harr
  refine ⟨t, (exec_reqCommand s op p f).trans ht, had, hheld, horph.trans ?_⟩
  cases o <;> rfl

end Sys2Proof.Safety
end

section
/-! O18 (R43, R44, R54): a companion waits, is discarded, or lets its request go on; and the two of them end without each other. -/

namespace Sys2Proof.Machine

variable {s : State} {p : Fin 24}

/-- Port x once it has taken a DAT flit from its link. -/
def Port.tookDatFlit (x : Port) : Port := { x with link := x.link.rx .dati LinkRx.take }

/-- What a companion's arrival comes to at port x: its record there, if a request waits for it. -/
def Port.wants (x : Port) (a : Agent) (tag : ATag) : Option Held :=
  x.held.find? fun h => h.why == .companion && h.a.src == a && h.a.atag == tag

/-- The companion of a DAT flit. -/
def companionLine (f : DatArgs) : PLine := ⟨f.data, f.stat != 0⟩

/-- A companion of an agent that passes checks 1 and 2 meets what its port knows of its request. -/
theorem datWrArrive_passes {f : DatArgs} {q : PartId} {tag : ATag} (hp : Safety.FlitPasses s p f.agt) (hid : f.id = q ++ tag) :
    s.datWrArrive p f =
      if (s.port p).errDat.contains (f.agt, tag) then
        (s.modPort p fun x => { x.tookDatFlit with errDat := x.errDat.erase (f.agt, tag) }).retDat p q
      else match (s.port p).wants f.agt tag with
      | some h => (s.modPort p Port.tookDatFlit).fromCheck5 p (some h) { h with cd := some (companionLine f) }
      | none =>
        if (s.port p).errAny.contains (f.agt, tag) then
          (s.modPort p fun x => { x.tookDatFlit with errAny := x.errAny.erase (f.agt, tag) }).retDat p q
        else s.modPort p fun x => { x.tookDatFlit with orphans := x.orphans ++ [⟨f.agt, q, tag, (companionLine f), s.edge⟩] } := by
  have hq : f.id.extractLsb' 12 6 = q := by rw [hid]; exact BitVec.extractLsb'_append_eq_left
  have ht : f.id.extractLsb' 0 12 = tag := by rw [hid]; exact BitVec.extractLsb'_append_eq_right
  have hm (g : Port → Port) : (s.linkTake p .dati).modPort p g = s.modPort p fun x => g x.tookDatFlit := modPort_modPort _ _ _ _
  unfold State.datWrArrive State.creditCheck
  rw [hp.up, sourceCheck_passes hp, hq, ht]
  dsimp only
  rw [if_neg (by simp), hm, hm, hm, show (s.linkTake p .dati).port p = (s.port p).tookDatFlit from modPort_port_self _ _ _]
  rfl

theorem companionMissing_of_find {a : Agent} {tag : ATag} {h : Held} (hf : (s.port p).held.find? (fun h =>
      h.why == .companion && h.a.src == a && h.a.atag == tag && s.companionLate h.at') = some h) :
    s.companionMissing p a tag =
      ((s.modPort p fun x => { x with held := x.held.erase h }).niComplete p h .err .ok 0x07).protPort p h.a.part h.a.pa := by
  unfold State.companionMissing
  rw [hf]

theorem orphanLate_of_find {a : Agent} {tag : ATag} {o : Orphan} (hf : (s.port p).orphans.find? (fun o =>
      o.src == a && o.atag == tag && s.companionLate o.at') = some o) :
    s.orphanLate p a tag = ((s.modPort p fun x => { x with orphans := x.orphans.erase o }).retDat p o.part).protPort p o.part := by
  unfold State.orphanLate
  rw [hf]

end Sys2Proof.Machine

namespace Sys2Proof.Safety

open Sys2Proof.Machine

variable {s : State} {p : Fin 24}

/-- A request without a companion is completed at its port, whose REQ credit goes back (R54). -/
theorem niComplete_bare {h : Held} {F : Port → Port} {op : RspOp} {st : Status} {info : BitVec 16}
    (hst : st = .fenced → reqCounted h.op = false) (hc : h.cd = none) (ho : portOf h.a.src = some p)
    (hF : (F (s.port p)).up = true ∧ (F (s.port p)).cred = (s.port p).cred) (hf : s.agFenced h.a.src = false)
    (hg : h.a.gen = (s.part h.a.part).gen) (hr : ((s.port p).rIss h.a.part).toNat ≤ s.rLimit p h.a.part) :
    ∃ acks, (s.modPort p F).niComplete p h op st info = s.modPort p fun x => (F x).completed acks
      (.rsp op ⟨63, h.a.src, h.a.part, h.a.gen, h.a.atag, st.code, 0, h.a.pa, info⟩) h.a.part false := by
  obtain ⟨hup, hcr⟩ := hF
  have hl : (s.modPort p F).logFenced h st = s.modPort p F := if_neg fun hc => by simp [hst hc.1] at hc
  obtain ⟨acks, hs⟩ := sendRsp_up (s.modPort p F) p op h.a st .i info ho (by rw [modPort_port_self]; exact hup) hf
    (hg.trans (congrArg Part.gen (modPort_part s p F _)).symm)
  refine ⟨acks, ?_⟩
  unfold State.niComplete
  rw [hl, hs, retReq_modPort _ _ _ _ (by rw [modPort_port_self]; unfold Port.rIss; rw [hcr]; exact hr), hc, modPort_modPort]
  simp [Port.completed, Port.dueR]
  rfl

/-- A protocol fault of a port follows a change of the port. -/
theorem Quiet.portFault (hq : Quiet s) (hm : mild s (srcPort p)) {F : Port → Port} (hr : (F (s.port p)).resetting = (s.port p).resetting)
    (hh : ∀ k ∈ (F (s.port p)).held, k ∈ (s.port p).held) (q : PartId) (pa : LineAddr) {t : State} (ht : t = (s.modPort p F).protPort p q pa) :
    ∃ u, Machine.commandEnd s t = .next u ∧ u.port p = F (s.port p) ∧ (u.src (srcPort p)).corr = ((s.src (srcPort p)).count1 false).corr ∧
      (∀ k, k ≠ p → u.port k = s.port k) ∧ u.slices = s.slices ∧ u.chans = s.chans ∧ u.dram = s.dram ∧ u.par = s.par ∧ u.glb = s.glb := by
  have hm' : mild (s.modPort p F) (srcPort p) := mild_congr rfl rfl rfl hm
  have hev := EventOnly.corrEv (s.modPort p F) (srcPort p) q pa
  obtain ⟨r, l, x, he, hc, -⟩ := corrEv_mild_frame q pa hm'
  refine ⟨_, ((hq.modPort p F hr fun k hk => .inl (hh k hk)).corrEvOf q pa hm').ends ht hev.pending hev.now, ?_⟩
  rw [he]
  exact ⟨modPort_port_self _ _ _, hc, fun k hk => modPort_port_ne _ _ hk, rfl, rfl, rfl, rfl, rfl⟩

/-- Settles O18: the first three clauses are the ways of `datWrArrive_passes`; in the last two a protocol fault of the port follows a
change of the port. -/
theorem companionsAndTheirRequests : Obligations.CompanionsAndTheirRequests := by
  refine ⟨fun s p f q tag hq hp hid => ?_, fun s p a tag hq hm hup => ?_⟩
  · have harr := datWrArrive_passes hp hid
    refine ⟨fun he ha hh => ?_, fun he hd => ?_, fun k h i he hh hw hsrc htag hA => ?_⟩
    · have hw : (s.port p).wants f.agt tag = none := by
        refine List.find?_eq_none.2 fun k hk hc => hh k hk ?_
        simpa [and_assoc] using hc
      rw [if_neg (by rw [he]; exact Bool.false_ne_true), hw] at harr
      dsimp only at harr
      rw [if_neg (by rw [ha]; exact Bool.false_ne_true), modPort_const] at harr
      exact ⟨_, (hq.modPort p _ rfl fun _ => .inl).ends harr rfl rfl, rfl, rfl, rfl, rfl, rfl⟩
    · rw [if_pos he, retDat_modPort _ _ _ _ hd, modPort_const] at harr
      exact ⟨_, (hq.modPort p _ rfl fun _ => .inl).ends harr rfl rfl, rfl, rfl, rfl, rfl, rfl⟩
    · have hf : (s.port p).wants f.agt tag = some k := by
        unfold Port.wants
        rw [hh]
        exact List.find?_cons_of_pos (by simp [hw, hsrc, htag])
      rw [if_neg (by rw [he]; exact Bool.false_ne_true), hf] at harr
      obtain ⟨t, ht, had, hheld, horph⟩ := hq.leaves (h := { k with cd := some (companionLine f) }) (G := Port.tookDatFlit) (old := some k) (l := []) hA
        ⟨rfl, rfl, rfl, rfl, rfl, rfl, rfl, rfl⟩ (by simp [Port.putHeld, Port.tookDatFlit, hh]) (List.forall_mem_nil _) (blockedBy_of_others (List.forall_mem_nil _)) harr
      exact ⟨t, ht, had, hheld, horph⟩
  · refine ⟨fun h hh hw hsrc htag hlate hcd ho hf hg hr => ?_, fun o hh hsrc htag hlate hd => ?_⟩
    · have hfind : (s.port p).held.find? (fun h => h.why == .companion && h.a.src == a && h.a.atag == tag && s.companionLate h.at') = some h := by
        rw [hh]
        exact List.find?_cons_of_pos (by simpa [hw, hsrc, htag, State.companionLate] using hlate)
      obtain ⟨acks, hc⟩ := niComplete_bare (op := .err) (st := .ok) (F := fun x => { x with held := x.held.erase h }) (info := 7) nofun hcd (hsrc ▸ ho) ⟨hup, rfl⟩ (hsrc ▸ hf) hg hr
      have ht := (companionMissing_of_find hfind).trans (congrArg (State.protPort · p h.a.part h.a.pa) hc)
      obtain ⟨u, hu, hp, hrest⟩ := hq.portFault hm (by rfl) (by simp [Port.completed, hh]) _ _ ht
      refine ⟨u, hu, ?_, ?_, ?_, hrest⟩
      · rw [hp]; simp [Port.completed, hh]
      · rw [hp, hsrc, htag]; rfl
      · rw [hp]; rfl
    · have hfind : (s.port p).orphans.find? (fun o => o.src == a && o.atag == tag && s.companionLate o.at') = some o := by
        rw [hh]
        exact List.find?_cons_of_pos (by simpa [hsrc, htag, State.companionLate] using hlate)
      have hret := retDat_modPort s p o.part (fun x => { x with orphans := x.orphans.erase o }) hd
      have ht := (orphanLate_of_find hfind).trans (congrArg (State.protPort · p o.part) hret)
      obtain ⟨u, hu, hp, hc, hrest⟩ := hq.portFault hm (by rfl) (fun _ => id) _ _ ht
      refine ⟨u, hu, ?_, ?_, hc, ?_, hrest⟩
      · rw [hp]; simp [Port.dueD, hh]
      · rw [hp]; rfl
      · rw [hp]; rfl

end Sys2Proof.Safety
end

section
/-! O19 (R35, R53, R54, R68, R340): requests that do not pass the checks, one lemma for each check. -/

namespace Sys2Proof.Machine

variable {s : State} {p : Fin 24} {op : ReqOp} {f : ReqArgs}

/-- A REQ flit of an agent of another port is a protocol fault of the port (R35 check 2). -/
theorem reqArrive_foreign (hu : (s.port p).up = true) (hp : s.portFenced p = false) (hc : carries p f.src = false) :
    s.reqArrive p op f = (s.linkTake p .req).protPort p := by
  have hs : (s.linkTake p .req).sourceCheck p f.src = ((s.linkTake p .req).protPort p, false) := by
    have h1 : (s.linkTake p .req).portFenced p = false := hp
    unfold State.sourceCheck
    rw [h1, hc]
    rfl
  unfold State.reqArrive State.creditCheck
  rw [hu, hs, hc]
  rfl

/-- A malformed request of an agent that passes checks 1 and 2 is completed with `Err` (R54). -/
theorem reqArrive_malformed (h : Safety.FlitPasses s p f.src) {c : BitVec 8} (hm : s.malformed op f = some c) :
    s.reqArrive p op f = (s.linkTake p .req).errOut p (s.arrival op f none) c := by
  have hm' : (s.linkTake p .req).malformed op f = some c := hm
  unfold State.reqArrive State.creditCheck
  rw [h.up, sourceCheck_passes h]
  dsimp only
  rw [if_neg (by simp), hm']
  rfl

/-- What a malformed request leaves of companions: its own is discarded, or is to be when it comes. -/
def Port.noCompanion (x : Port) (op : ReqOp) (f : ReqArgs) : Port :=
  if needsCompanion op f.arg then
    match x.companionOf f.src f.atag with
    | some o => { x with orphans := x.orphans.erase o }
    | none => { x with errDat := x.errDat ++ [(f.src, f.atag)] }
  else x

/-- The companion of a request that is there. -/
def Port.companionFor (x : Port) (op : ReqOp) (f : ReqArgs) : Option Orphan :=
  if needsCompanion op f.arg then x.companionOf f.src f.atag else none

theorem errOut_eq (t : State) (h : Held) (hc : h.cd = none) (c : BitVec 8) : t.errOut p h c =
    ((if c = 0x05 then t.errPart h.a.part else t).modPort p (·.noCompanion h.op h.a)).niComplete p
      { h with cd := ((t.port p).companionFor h.op h.a).map Orphan.l } .err .ok (c.zeroExtend 16) := by
  have hport : ∀ u : State, (if c = 0x05 then t.errPart h.a.part else t) = u → u.port p = t.port p := by
    rintro _ rfl
    split <;> rfl
  unfold State.errOut
  generalize hu : (if c = 0x05 then t.errPart h.a.part else t) = u
  dsimp only
  rw [hport u hu]
  have hsame : { h with cd := none } = h := by rw [← hc]
  have hno (F : Port → Port) (hF : (t.port p).noCompanion h.op h.a = F (t.port p)) : u.modPort p (·.noCompanion h.op h.a) = u.modPort p F :=
    Safety.modPort_congr (by rw [hport u hu]; exact hF)
  unfold Port.companionFor
  by_cases hn : needsCompanion h.op h.a.arg = true
  · rw [if_pos hn, if_pos hn]
    cases ho : (t.port p).companionOf h.a.src h.a.atag with
    | some o => rw [hno (fun x => { x with orphans := x.orphans.erase o }) (by unfold Port.noCompanion; rw [if_pos hn, ho]), Option.map_some]
    | none =>
      rw [hno (fun x => { x with errDat := x.errDat ++ [(h.a.src, h.a.atag)] }) (by unfold Port.noCompanion; rw [if_pos hn, ho]), Option.map_none,
        hsame]
  · rw [if_neg hn, if_neg hn, Option.map_none, hsame, modPort_same]
    unfold Port.noCompanion
    rw [if_neg hn]

/-- Of a port, what a malformed request leaves of companions changes these alone. -/
theorem noCompanion_frame (x : Port) (op : ReqOp) (f : ReqArgs) : ∃ o e, x.noCompanion op f = { x with orphans := o, errDat := e } := by
  unfold Port.noCompanion
  split
  · split <;> exact ⟨_, _, rfl⟩
  · exact ⟨_, _, rfl⟩

/-- Port x once it has taken a malformed request. -/
def Port.tookMalformed (x : Port) (op : ReqOp) (f : ReqArgs) : Port := ({ x with link := x.link.rx .req LinkRx.take } : Port).noCompanion op f

theorem tookMalformed_frame (x : Port) (op : ReqOp) (f : ReqArgs) : ∃ o e l, x.tookMalformed op f = { x with orphans := o, errDat := e, link := l } ∧
    l.rspo = x.link.rspo := by
  obtain ⟨o, e, h⟩ := noCompanion_frame ({ x with link := x.link.rx .req LinkRx.take } : Port) op f
  exact ⟨o, e, _, h, rfl⟩

/-- An `Err` of a request that names a partition its agent is no member of is counted at the partition (R54). -/
theorem errPart_frame (c : BitVec 8) (q : PartId) : ∃ x, (if c = 0x05 then s.errPart q else s) = { s with par := x } ∧
    ∀ r, (({ s with par := x } : State).part r).gen = (s.part r).gen ∧ (({ s with par := x } : State).part r).st = (s.part r).st := by
  split
  · refine ⟨_, rfl, fun r => ?_⟩
    have he : (s.errPart q).part r = _ := modPart_part s q r _
    show ((s.errPart q).part r).gen = _ ∧ ((s.errPart q).part r).st = _
    rw [he]
    split
    · next h => subst h; split <;> exact ⟨rfl, rfl⟩
    · exact ⟨rfl, rfl⟩
  · exact ⟨s.par, rfl, fun r => ⟨rfl, rfl⟩⟩

/-- A request whose companion is still to come waits for it (R43). -/
theorem reqArrive_waits (h : Safety.FlitPasses s p f.src) (hm : s.malformed op f = none) (hn : needsCompanion op f.arg = true)
    (hc : (s.port p).companionOf f.src f.atag = none) :
    s.reqArrive p op f = (s.linkTake p .req).modPort p fun x => { x with held := x.held ++ [s.arrival op f none] } := by
  rw [reqArrive_passes s p op f h hm]
  have hc' : ((s.linkTake p .req).port p).companionOf f.src f.atag = none := by rw [State.linkTake, modPort_port_self]; exact hc
  unfold State.fromCheck4
  rw [if_pos (by exact hn), show ((s.linkTake p .req).port p).companionOf (s.arrival op f none).a.src (s.arrival op f none).a.atag = none from hc']
  rfl

/-- A well-formed request that needs no companion goes on to check 5. -/
theorem reqArrive_alone (h : Safety.FlitPasses s p f.src) (hm : s.malformed op f = none) (hn : needsCompanion op f.arg = false) :
    s.reqArrive p op f = (s.linkTake p .req).fromCheck5 p none (s.arrival op f none) := by
  rw [reqArrive_passes s p op f h hm]
  exact if_neg (by rw [show needsCompanion (s.arrival op f none).op (s.arrival op f none).a.arg = false from hn]; exact Bool.false_ne_true)

theorem fromCheck5_stale {h : Held} (hg : h.a.gen ≠ (s.part h.a.part).gen) : s.fromCheck5 p none h = s.staleMsg h.a.part := by
  unfold State.fromCheck5
  rw [if_pos (by simpa using hg), modPort_same _ _ _ (by rfl)]

theorem fromCheck5_held {h : Held} (hg : h.a.gen = (s.part h.a.part).gen) (hr : (s.part h.a.part).st ≠ .run) :
    s.fromCheck5 p none h = s.modPort p fun x => { x with held := x.held ++ [{ h with why := .partition }] } := by
  unfold State.fromCheck5
  rw [if_neg (by simp [hg]), if_pos (by simpa using hr)]
  rfl

/-- A REQ flit with a reserved opcode is completed with `Err` 0x01; a companion that comes for it is discarded (R54). -/
theorem reservedReq_passes (h : Safety.FlitPasses s p f.src) (hc : (s.port p).companionOf f.src f.atag = none) :
    s.reservedReq p f = (s.modPort p fun x => { x with link := x.link.rx .req LinkRx.take, errAny := x.errAny ++ [(f.src, f.atag)] }).niComplete p
      (s.arrival .hint f none) .err .ok 0x01 := by
  have hc' : ((s.linkTake p .req).port p).companionOf f.src f.atag = none := by rw [State.linkTake, modPort_port_self]; exact hc
  have hm := modPort_modPort s p (fun x => { x with link := x.link.rx .req LinkRx.take }) fun x => { x with errAny := x.errAny ++ [(f.src, f.atag)] }
  unfold State.reservedReq State.creditCheck
  rw [h.up, sourceCheck_passes h]
  dsimp only
  rw [if_neg (by simp), hc']
  exact congrArg (State.niComplete · p (s.arrival .hint f none) .err .ok 0x01) hm

/-- A flit that its agent may not send is a protocol fault of the port (R53). -/
theorem reservedFlit_passes {a : Agent} (h : Safety.FlitPasses s p a) (c : PortChan) : s.reservedFlit p c a = (s.linkTake p c).protPort p := by
  unfold State.reservedFlit
  rw [h.up, sourceCheck_passes h]
  rfl

/-- A flit of 128 bits on a link. -/
theorem extractLsb'_zeroExtend (w : BitVec 128) : (w.zeroExtend 576).extractLsb' 0 128 = w := by
  ext j hj
  simp only [BitVec.getElem_extractLsb', Nat.zero_add, BitVec.truncate_eq_setWidth, BitVec.getLsbD_setWidth, BitVec.getLsbD_eq_getElem hj]
  exact Bool.and_eq_right_iff_imp.2 fun _ => decide_eq_true (by omega)

theorem reqFlit_reserved (h : (s.port p).up = true) {opc : BitVec 5} (ho : 0x13 ≤ opc.toNat) :
    s.reqFlit p ((s.port p).link.req.last + 1) (flitOf (reqWord opc f)) = s.reservedReq p f := by
  unfold State.reqFlit
  rw [flitIn_flitOf, linkIn_expected _ _ rfl fun hd => absurd h (by simp [hd])]
  simp only [reqOfWord_reqWord, reqOpOf_reserved opc ho]

theorem rspFlit_reserved (h : (s.port p).up = true) {opc : BitVec 5} {a : RspArgs}
    (ho : opc = RspOp.comp.code ∨ opc = RspOp.retry.code ∨ opc = RspOp.err.code ∨ 9 ≤ opc.toNat) :
    s.rspFlit p ((s.port p).link.rspi.last + 1) (flitOf (rspWord opc a)) = s.reservedFlit p .rspi a.src := by
  unfold State.rspFlit
  rw [flitIn_flitOf, linkIn_expected _ _ rfl fun hd => absurd h (by simp [hd])]
  simp only [rspOfWord_rspWord]
  obtain rfl | rfl | rfl | ho := ho
  · rfl
  · rfl
  · rfl
  · rw [show rspOpOf opc = none from List.getElem?_eq_none ho]

theorem datFlit_reserved (h : (s.port p).up = true) {opc : BitVec 5} {a : DatArgs} (hd : opc ≠ DatOp.datDirty.code) (hw : opc ≠ DatOp.datWr.code) :
    s.datFlit p ((s.port p).link.dati.last + 1) (flitOf (datWord opc true a)) = s.reservedFlit p .dati a.agt := by
  have hop : datOpOf opc ≠ some .datDirty ∧ datOpOf opc ≠ some .datWr := by revert opc; decide
  unfold State.datFlit
  rw [flitIn_flitOf, linkIn_expected _ _ rfl fun hd => absurd h (by simp [hd])]
  simp only [datOfWord_datWord]
  split
  · next h => exact nomatch h
  · split
    · next h => exact absurd h hop.1
    · next h => exact absurd h hop.2
    · rfl

/-- A request of a running partition that the CSR block does not serve goes on to the checks of its address. -/
theorem fromCheck5_enters {h : Held} (hg : h.a.gen = (s.part h.a.part).gen) (hr : (s.part h.a.part).st = .run)
    (ha : h.isDrain = false → s.inAperture h.a.pa = false) : s.fromCheck5 p none h = s.enterAdmission p none h := by
  have ha' : (!h.isDrain && s.inAperture h.a.pa) = false := by
    cases hd : h.isDrain with
    | true => rfl
    | false => exact ha hd
  unfold State.fromCheck5
  rw [if_neg (by simp [hg]), if_neg (by simp [hr]), ha']
  rfl

/-- Whether the agent or the partition of a request may not reach the DET region of its line (R172). -/
def State.detRefuses (s : State) (f : ReqArgs) : Bool :=
  match s.detRgn f.pa with
  | none => false
  | some r => !(s.rgnAgents r).contains f.src || !s.flag 60 (4 * f.part.toNat) 30

/-- What a request that fails checks 8 to 10 comes to (R20, R35, R172). -/
def State.turnsAway (s : State) (p : Fin 24) (h : Held) : State :=
  if h.isDrain = false ∧ s.homed h.a.pa = false then (s.niComplete p h .comp .failed 0).addrFault p h
  else if h.isDrain = false ∧ s.detRefuses h.a = true then ((s.niComplete p h .comp .failed 0).addrFault p h).bump 0 0x178 15 8
  else s.niComplete p h .comp .fenced 0

theorem check8to10_eq (h : Held) : s.check8to10 p h =
    if h.isDrain then (if (s.drainHome h.a.src).isSome then (s, true) else (s.niComplete p h .comp .fenced 0, false))
    else if !s.homed h.a.pa then ((s.niComplete p h .comp .failed 0).addrFault p h, false)
    else if s.detRefuses h.a then (((s.niComplete p h .comp .failed 0).addrFault p h).bump 0 0x178 15 8, false)
    else if (s.reqHome h.op h.a).isNone then (s.niComplete p h .comp .fenced 0, false) else (s, true) := rfl

theorem enterAdmission_turnsAway {h : Held} (ht : (h.isDrain = false ∧ (s.homed h.a.pa = false ∨ s.detRefuses h.a = true)) ∨ s.reqHome h.op h.a = none) :
    s.enterAdmission p none h = s.turnsAway p h := by
  have hc : s.check8to10 p h = (s.turnsAway p h, false) := by
    rw [check8to10_eq]
    unfold State.turnsAway
    cases hd : h.isDrain with
    | true =>
      have hn : s.drainHome h.a.src = none := by
        have hr := ht.resolve_left fun hc => by simp [hd] at hc
        unfold State.reqHome at hr
        rwa [if_pos (by exact hd)] at hr
      simp [hn]
    | false =>
      cases hh : s.homed h.a.pa with
      | false => simp
      | true =>
        have hr : s.detRefuses h.a = true ∨ (s.reqHome h.op h.a).isNone = true := by
          obtain ⟨-, hc | hc⟩ | hc := ht
          · exact absurd hc (by simp [hh])
          · exact .inl hc
          · exact .inr (by rw [hc]; rfl)
        cases hdr : s.detRefuses h.a with
        | true => simp
        | false => simp [hr.resolve_left (by simp [hdr])]
  unfold State.enterAdmission
  rw [hc]
  exact modPort_same _ _ _ rfl

theorem counted_needsCompanion {op : ReqOp} {arg : BitVec 29} (h : needsCompanion op arg = false) : reqCounted op = false := by
  cases op <;> simp_all [needsCompanion, reqCounted]

end Sys2Proof.Machine

namespace Sys2Proof.Safety

open Sys2Proof.Machine

variable {s : State} {p : Fin 24} {op : ReqOp} {f : ReqArgs}

theorem Quiet.errPart (hq : Quiet s) (c : BitVec 8) (q : PartId) : Quiet (if c = 0x05 then s.errPart q else s) := by
  split
  · refine hq.modPart q _ ?_ ?_ <;> split <;> rfl
  · exact hq

/-- What a malformed request leaves (R54). -/
theorem malformed_ends (hq : Quiet s) (hp : FlitPasses s p f.src) {c : BitVec 8} (hm : s.malformed op f = some c)
    (hg : f.gen = (s.part f.part).gen) (hr : ((s.port p).rIss f.part).toNat ≤ s.rLimit p f.part)
    (hd : ((s.port p).dIss f.part).toNat ≤ s.dLimit p f.part) : ∃ acks e x, e = { s with par := x } ∧
      exec (reqCommand op p f) s = .next (e.modPort p fun y => (y.tookMalformed op f).completed acks
        (.rsp .err ⟨63, f.src, f.part, f.gen, f.atag, 0, 0, f.pa, c.zeroExtend 16⟩) f.part ((s.port p).companionFor op f).isSome).setPins := by
  obtain ⟨x, hx, hpart⟩ := errPart_frame (s := s) c f.part
  have hquiet := hq.errPart c f.part
  obtain ⟨e, he⟩ : ∃ e, e = (if c = 0x05 then s.errPart f.part else s) := ⟨_, rfl⟩
  rw [← he] at hx hquiet
  have hep : e.port p = s.port p := by rw [hx]; rfl
  obtain ⟨o, d, l, hy, hl⟩ := tookMalformed_frame (s.port p) op f
  have hport : (e.modPort p (·.tookMalformed op f)).port p = { s.port p with orphans := o, errDat := d, link := l } := by
    rw [modPort_port_self, hep, hy]
  obtain ⟨acks, hc⟩ := niComplete_up (e.modPort p (·.tookMalformed op f)) p (s.arrival op f ((s.port p).companionFor op f)) .err .ok (c.zeroExtend 16)
    (by decide) (portOf_of_carries hp.own) (by rw [hport]; exact hp.up) (by rw [hx]; exact hp.agent) (by rw [hx]; exact (hg.trans (hpart _).1.symm))
    (by rw [hport, hx]; exact hr) (by rw [hport, hx]; exact hd)
  refine ⟨acks, e, x, hx, (exec_reqCommand s op p f).trans ?_⟩
  refine (hquiet.modPort p _ ?_ ?_).ends ?_ (by rw [hx]; rfl) (by rw [hx]; rfl)
  · rw [hep, hy]; rfl
  · intro k hk
    rw [hep, hy] at hk
    rw [hep]
    exact .inl hk
  · have hl : (if c = 0x05 then (s.linkTake p .req).errPart f.part else s.linkTake p .req) = e.linkTake p .req := by rw [he]; split <;> rfl
    have hm' : (e.linkTake p .req).modPort p (·.noCompanion op f) = e.modPort p (·.tookMalformed op f) := modPort_modPort _ _ _ _
    have hcf : ((s.linkTake p .req).port p).companionFor op f = (s.port p).companionFor op f := by rw [State.linkTake, modPort_port_self]; rfl
    have hout := errOut_eq (p := p) (s.linkTake p .req) (s.arrival op f none) rfl c
    rw [show (if c = 0x05 then (s.linkTake p .req).errPart (s.arrival op f none).a.part else s.linkTake p .req) = e.linkTake p .req from hl,
      show (e.linkTake p .req).modPort p (·.noCompanion (s.arrival op f none).op (s.arrival op f none).a) = _ from hm',
      show ((s.linkTake p .req).port p).companionFor (s.arrival op f none).op (s.arrival op f none).a = _ from hcf] at hout
    refine (reqArrive_malformed hp hm).trans (hout.trans (hc.trans ((modPort_modPort _ _ _ _).trans ?_)))
    rw [State.arrival, Option.isSome_map]
    rfl

/-- The registers that a counter's event leaves follow from the registers alone. -/
theorem bump_regs_congr {t : State} (n o hi lo : Nat) (h : t.regs = s.regs) : (t.bump n o hi lo).regs = (s.bump n o hi lo).regs := by
  have hr : ∀ k, t.reg n k = s.reg n k := fun k => by unfold State.reg; rw [h]
  unfold State.bump State.fld State.setReg
  dsimp only
  rw [hr]
  split
  · exact h
  · dsimp only
    rw [h]

/-- State t is s with request f, which was alone, completed at its port with status st. -/
structure Answered (s t : State) (p : Fin 24) (f : ReqArgs) (st : Status) : Prop where
  rspo : (t.port p).link.rspo = (s.port p).link.rspo.push (.rsp .comp ⟨63, f.src, f.part, f.gen, f.atag, st.code, 0, f.pa, 0⟩)
  reqDue : (t.port p).cred.reqDue = (s.port p).cred.reqDue ++ [(f.part, 1)]
  held : (t.port p).held = (s.port p).held
  log : t.flt.log = s.flt.log
  regs : t.regs = s.regs
  others : ∀ q, q ≠ p → t.port q = s.port q
  slices : t.slices = s.slices
  chans : t.chans = s.chans
  dram : t.dram = s.dram
  pending : t.pending = s.pending
  now : t.now = s.now

/-- A request that comes alone is completed at its port. -/
theorem completes_alone (hq : Quiet s) (hp : FlitPasses s p f.src) (hn : needsCompanion op f.arg = false) (hg : f.gen = (s.part f.part).gen)
    (hr : ((s.port p).rIss f.part).toNat ≤ s.rLimit p f.part) (st : Status) :
    ∃ t, (s.linkTake p .req).niComplete p (s.arrival op f none) .comp st 0 = t ∧ Quiet t ∧ Answered s t p f st := by
  obtain ⟨acks, hc⟩ := niComplete_bare (h := s.arrival op f none) (F := fun x => { x with link := x.link.rx .req LinkRx.take }) (op := .comp) (st := st)
    (info := 0) (fun _ => counted_needsCompanion hn) rfl (portOf_of_carries hp.own) ⟨hp.up, rfl⟩ hp.agent hg hr
  refine ⟨_, hc, hq.modPort p _ rfl fun _ => .inl, ?_, ?_, ?_, rfl, rfl, fun q hq => modPort_port_ne s _ hq, rfl, rfl, rfl, rfl, rfl⟩
  all_goals rw [modPort_port_self]; rfl

/-- What a request that fails checks 8 to 10 leaves. -/
theorem turned_ends (hq : Quiet s) (hp : FlitPasses s p f.src) (hn : needsCompanion op f.arg = false) (hm : s.malformed op f = none)
    (hg : f.gen = (s.part f.part).gen) (hrun : (s.part f.part).st = .run) (hap : reqIsDrain op = false → s.inAperture f.pa = false)
    (hr : ((s.port p).rIss f.part).toNat ≤ s.rLimit p f.part) {failed : Bool}
    (hf : failed = (!reqIsDrain op && (!s.homed f.pa || s.detRefuses f))) (ht : failed = true ∨ s.reqHome op f = none)
    (hroom : s.flt.log.length < 256) : ∃ t, exec (reqCommand op p f) s = .next t ∧
      (t.port p).link.rspo = (s.port p).link.rspo.push (.rsp .comp ⟨63, f.src, f.part, f.gen, f.atag,
        if failed then Status.failed.code else Status.fenced.code, 0, f.pa, 0⟩) ∧
      (t.port p).cred.reqDue = (s.port p).cred.reqDue ++ [(f.part, 1)] ∧ (t.port p).held = (s.port p).held ∧
      t.flt.log = s.flt.log ++ (if failed then [⟨0x0B, BitVec.ofNat 7 (srcPort p), f.src, f.part, f.pa, s.now⟩] else []) ∧
      t.regs = (if failed && s.homed f.pa then (s.bump 0 0x178 15 8).regs else s.regs) ∧
      (∀ q, q ≠ p → t.port q = s.port q) ∧ t.slices = s.slices ∧ t.chans = s.chans ∧ t.dram = s.dram := by
  have hor : (reqIsDrain op = false ∧ (s.homed f.pa = false ∨ s.detRefuses f = true)) ∨ s.reqHome op f = none := by
    refine ht.imp_left fun hft => ?_
    rw [hf] at hft
    simpa using hft
  have harr : s.reqArrive p op f = (
      if reqIsDrain op = false ∧ s.homed f.pa = false then
        ((s.linkTake p .req).niComplete p (s.arrival op f none) .comp .failed 0).addrFault p (s.arrival op f none)
      else if reqIsDrain op = false ∧ s.detRefuses f = true then
        (((s.linkTake p .req).niComplete p (s.arrival op f none) .comp .failed 0).addrFault p (s.arrival op f none)).bump 0 0x178 15 8
      else (s.linkTake p .req).niComplete p (s.arrival op f none) .comp .fenced 0) :=
    (reqArrive_alone hp hm hn).trans ((fromCheck5_enters (s := s.linkTake p .req) (h := s.arrival op f none) hg hrun hap).trans
      (enterAdmission_turnsAway (s := s.linkTake p .req) (h := s.arrival op f none) hor))
  obtain ⟨v, hc, hv, ha⟩ := completes_alone hq hp hn hg hr .failed
  obtain ⟨w, hc', hw, ha'⟩ := completes_alone hq hp hn hg hr .fenced
  have hlogged : v.addrFault p (s.arrival op f none) =
      v.modFlt fun x => { x with log := x.log ++ [⟨0x0B, BitVec.ofNat 7 (srcPort p), f.src, f.part, f.pa, s.now⟩] } := by
    refine (logEnt_room (by rw [ha.log]; exact hroom) _).trans ?_
    rw [ha.now]
    rfl
  have hvq : Quiet (v.addrFault p (s.arrival op f none)) := hv.logEnt _
  rw [exec_reqCommand, harr, hc, hc']
  rw [hlogged] at hvq ⊢
  by_cases h1 : reqIsDrain op = false ∧ s.homed f.pa = false
  · have hfl : failed = true := by rw [hf, h1.1, h1.2]; rfl
    rw [if_pos h1, hfl, h1.2]
    exact ⟨_, hvq.ends rfl ha.pending ha.now, ha.rspo, ha.reqDue, ha.held, congrArg (· ++ _) ha.log, ha.regs, ha.others, ha.slices, ha.chans, ha.dram⟩
  · rw [if_neg h1]
    by_cases h2 : reqIsDrain op = false ∧ s.detRefuses f = true
    · have hh : s.homed f.pa = true := by simpa [h2.1] using h1
      have hfl : failed = true := by rw [hf, h2.1, h2.2, hh]; rfl
      obtain ⟨r, hb⟩ := bump_frame (v.modFlt fun x => { x with log := x.log ++ [⟨0x0B, BitVec.ofNat 7 (srcPort p), f.src, f.part, f.pa, s.now⟩] })
        0 0x178 15 8
      have hbq := hvq.bump 0 0x178 15 8 (by unfold watched; decide)
      have hregs := bump_regs_congr (s := s) (t := v.modFlt fun x => { x with log := x.log ++ [⟨0x0B, BitVec.ofNat 7 (srcPort p), f.src, f.part, f.pa, s.now⟩] })
        0 0x178 15 8 ha.regs
      rw [hb] at hbq hregs
      rw [if_pos h2, hfl, hh, hb]
      exact ⟨_, hbq.ends rfl ha.pending ha.now, ha.rspo, ha.reqDue, ha.held, congrArg (· ++ _) ha.log, hregs, ha.others, ha.slices, ha.chans, ha.dram⟩
    · have hfl : failed = false := by
        rw [hf]
        cases hd : reqIsDrain op with
        | true => rfl
        | false =>
          have hh : s.homed f.pa = true := by simpa [hd] using h1
          have hr : s.detRefuses f = false := by simpa [hd] using h2
          rw [hh, hr]
          rfl
      rw [if_neg h2, hfl]
      exact ⟨_, hw.ends rfl ha'.pending ha'.now, ha'.rspo, ha'.reqDue, ha'.held, ha'.log.trans (List.append_nil _).symm, ha'.regs, ha'.others,
        ha'.slices, ha'.chans, ha'.dram⟩

/-- A request that waits for its partition, which neither runs nor has gone on to another generation, waits on. -/
theorem Quiet.holdsFor (hq : Quiet s) (F : Port → Port) {k : Held} (hr : (F (s.port p)).resetting = (s.port p).resetting)
    (hh : ∀ j ∈ (F (s.port p)).held, j ∈ (s.port p).held ∨ j = k) (hw : k.why ≠ .admission) (hk : s.heldReady k = false) : Quiet (s.modPort p F) :=
  { hq with
    ports := fun q => by
      by_cases e : q = p
      · subst e
        rw [modPort_port_self, hr]
        refine ⟨(hq.ports q).1, fun j hj => ?_⟩
        obtain hj | rfl := hh j hj
        · exact (hq.ports q).2 j hj
        · exact ⟨hw, hk⟩
      · rw [modPort_port_ne _ _ e]
        exact hq.ports q }

/-- What a malformed request leaves of the companions at its port. -/
theorem noCompanion_cases (x : Port) (op : ReqOp) (f : ReqArgs) :
    (needsCompanion op f.arg = false → (x.noCompanion op f).errDat = x.errDat ∧ (x.noCompanion op f).orphans = x.orphans ∧ x.companionFor op f = none) ∧
    (needsCompanion op f.arg = true → x.companionOf f.src f.atag = none →
      (x.noCompanion op f).errDat = x.errDat ++ [(f.src, f.atag)] ∧ x.companionFor op f = none) ∧
    (∀ o, needsCompanion op f.arg = true → x.companionOf f.src f.atag = some o →
      (x.noCompanion op f).orphans = x.orphans.erase o ∧ x.companionFor op f = some o) := by
  unfold Port.noCompanion Port.companionFor
  refine ⟨fun hn => ?_, fun hn hc => ?_, fun o hn hc => ?_⟩
  · rw [if_neg (by simp [hn]), if_neg (by simp [hn])]
    exact ⟨rfl, rfl, rfl⟩
  · rw [if_pos hn, if_pos hn, hc]
    exact ⟨rfl, rfl⟩
  · rw [if_pos hn, if_pos hn, hc]
    exact ⟨rfl, rfl⟩

/-- Settles O19: each check's answer by the lemma of the check. -/
theorem requestIsTurnedAway : Obligations.RequestIsTurnedAway := by
  refine ⟨fun s p op f hq hu hpf => ⟨fun hc hm => ?_, fun hp => ⟨fun c hm hg hr hd => ?_, fun hm hn hc => ?_, fun hm hn => ⟨fun hg => ?_, fun hg hr => ?_, ?_⟩⟩⟩,
    fun s p opc => ⟨fun a hq hp ho hg hc hr => ?_, fun a hq hp hm ho => ?_, fun a hq hp hm hd hw => ?_⟩⟩
  · have hev := EventOnly.corrEv (s.linkTake p .req) (srcPort p) 0 0
    exact (exec_reqCommand s op p f).trans (((hq.linkTake p .req).corrEvOf 0 0 (mild_congr rfl rfl rfl hm)).ends (reqArrive_foreign hu hpf hc) hev.pending hev.now)
  · obtain ⟨acks, e, x, rfl, ht⟩ := malformed_ends hq hp hm hg hr hd
    obtain ⟨o, d, l, hy, hl⟩ := tookMalformed_frame (s.port p) op f
    obtain ⟨h1, h2, h3⟩ := noCompanion_cases ({ s.port p with link := (s.port p).link.rx .req LinkRx.take }) op f
    refine ⟨_, ht, ?_⟩
    rw [setPins_port, modPort_port_self, show ({ s with par := x } : State).port p = s.port p from rfl]
    have hd : ((s.port p).tookMalformed op f).cred.datDue = (s.port p).cred.datDue := by rw [hy]
    refine ⟨?_, ?_, ?_, fun hn => ?_, fun hn hc => ?_, fun o hn hc => ?_, fun q hq => (setPins_port _ _).trans (modPort_port_ne _ _ hq), rfl, rfl, rfl, rfl, rfl⟩
    · rw [hy]
      exact congrArg (LinkTx.push · _) hl
    · rw [hy]; rfl
    · rw [hy]; rfl
    · obtain ⟨he, ho, hc⟩ := h1 hn
      refine ⟨he, ho, ?_⟩
      rw [show (s.port p).companionFor op f = none from hc]
      exact (List.append_nil _).trans hd
    · obtain ⟨he, hc⟩ := h2 hn hc
      refine ⟨he, ?_⟩
      rw [show (s.port p).companionFor op f = none from hc]
      exact (List.append_nil _).trans hd
    · obtain ⟨ho, hc⟩ := h3 o hn hc
      refine ⟨ho, ?_⟩
      rw [show (s.port p).companionFor op f = some o from hc]
      exact congrArg (· ++ _) hd
  · refine ⟨s.arrival op f none, (exec_reqCommand s op p f).trans (((hq.linkTake p .req).modPort p _ rfl fun k hk => ?_).ends
      (reqArrive_waits hp hm hn hc) rfl rfl), rfl, rfl, rfl, rfl, rfl⟩
    obtain hk | hk := List.mem_append.1 hk
    · exact .inl hk
    · exact .inr (by rw [List.mem_singleton.1 hk]; rfl)
  · exact (exec_reqCommand s op p f).trans (((hq.linkTake p .req).staleMsg f.part).ends ((reqArrive_alone hp hm hn).trans (fromCheck5_stale hg)) rfl rfl)
  · refine ⟨{ s.arrival op f none with why := .partition }, (exec_reqCommand s op p f).trans (Quiet.ends ((hq.linkTake p .req).holdsFor _
      (k := { s.arrival op f none with why := .partition }) rfl (fun j hj => ?_) nofun ?_) ((reqArrive_alone hp hm hn).trans (fromCheck5_held hg hr)) rfl rfl),
      rfl, rfl, rfl⟩
    · exact (List.mem_append.1 hj).imp_right List.mem_singleton.1
    · unfold State.heldReady State.arrival
      rw [linkTake_part]
      simp [hg, hr]
  · intro det failed hg hr ha hri ht hroom
    exact turned_ends hq hp hn hm hg hr ha hri (failed := failed) (by unfold State.detRefuses; rfl) ht hroom
  · obtain ⟨acks, hc'⟩ := niComplete_bare (h := s.arrival .hint a none) (F := fun x => { x with link := x.link.rx .req LinkRx.take, errAny := x.errAny ++ [(a.src, a.atag)] })
      (op := .err) (st := .ok) (info := 1) nofun rfl (portOf_of_carries hp.own) ⟨hp.up, rfl⟩ hp.agent hg hr
    have hlink := congrArg (s.reqFlit p ((s.port p).link.req.last + 1)) (extractLsb'_zeroExtend (flitOf (reqWord opc a)))
    rw [modPort_const] at hc'
    exact ⟨_, (hq.modPort p _ (by rfl) fun _ => .inl).ends (hlink.trans ((reqFlit_reserved hp.up ho).trans ((reservedReq_passes hp hc).trans hc'))) rfl rfl,
      rfl, rfl, rfl, rfl, rfl⟩
  · have hlink := congrArg (s.rspFlit p ((s.port p).link.rspi.last + 1)) (extractLsb'_zeroExtend (flitOf (rspWord opc a)))
    have hev := EventOnly.corrEv (s.linkTake p .rspi) (srcPort p) 0 0
    exact ((hq.linkTake p .rspi).corrEvOf 0 0 (mild_congr rfl rfl rfl hm)).ends
      (hlink.trans ((rspFlit_reserved hp.up ho).trans (reservedFlit_passes hp .rspi))) hev.pending hev.now
  · have hev := EventOnly.corrEv (s.linkTake p .dati) (srcPort p) 0 0
    exact ((hq.linkTake p .dati).corrEvOf 0 0 (mild_congr rfl rfl rfl hm)).ends
      ((datFlit_reserved hp.up hd hw).trans (reservedFlit_passes hp .dati)) hev.pending hev.now

end Sys2Proof.Safety
end

section
/-! What the end of a transaction changes (R31, R58, R88, R116): its entry, its resources, its port's credits and the entries that it lets
go on. What runs by itself, the fault log and the DRAM stand. -/

namespace Sys2Proof.Machine

variable {s : State} {i : Fin 17} {n : Nat}

/-- Entry n is nowhere in a slice's tracker. -/
def Slice.lacks (x : Slice) (n : Nat) : Prop := ∀ e ∈ x.trk, e.1 ≠ n

theorem tabGet_of_lacks {α : Type} (d : α) (t : Tab α) (k : Nat) (h : ∀ e ∈ t, e.1 ≠ k) : tabGet d t k = d := by
  induction t with
  | nil => rfl
  | cons e t ih =>
    obtain ⟨j, v⟩ := e
    rw [tabGet, if_neg (h _ List.mem_cons_self), ih fun e he => h e (List.mem_cons_of_mem _ he)]

theorem Slice.lacks.ent {x : Slice} (h : x.lacks n) : x.ent n = none := tabGet_of_lacks _ _ _ h

theorem tabErase_lacks {α : Type} (t : Tab α) (k : Nat) : ∀ e ∈ tabErase t k, e.1 ≠ k := by
  induction t with
  | nil => exact fun _ h => nomatch h
  | cons e t ih =>
    unfold tabErase
    split
    · exact ih
    · next h =>
      intro f hf
      obtain rfl | hf := List.mem_cons.1 hf
      · exact h
      · exact ih f hf

/-- A freed entry is nowhere in the tracker. -/
theorem lacks_setEnt_none (x : Slice) (n : Nat) : (x.setEnt n none).lacks n := by
  unfold Slice.lacks Slice.setEnt tabSet
  rw [if_pos rfl]
  exact tabErase_lacks _ _

/-- A change of another entry brings none of this number. -/
theorem Slice.lacks.setEnt {x : Slice} (h : x.lacks n) {k : Nat} (hk : k ≠ n) (e : Option Trk) : (x.setEnt k e).lacks n := by
  intro f hf
  unfold Slice.setEnt tabSet at hf
  dsimp only at hf
  split at hf
  · exact h f (mem_tabErase _ _ _ hf)
  · obtain rfl | hf := mem_tabPut _ _ _ _ hf
    · exact hk
    · exact h f hf

theorem mem_ents {x : Slice} {e : Nat × Trk} (h : e ∈ x.ents) : (e.1, some e.2) ∈ x.trk := by
  obtain ⟨f, hf, he⟩ := List.mem_filterMap.1 h
  obtain ⟨k, o⟩ := f
  obtain ⟨t, rfl, rfl⟩ := Option.map_eq_some_iff.1 he
  exact hf

theorem Slice.lacks.ents {x : Slice} (h : x.lacks n) {e : Nat × Trk} (he : e ∈ x.ents) : e.1 ≠ n := h _ (mem_ents he)

/-- Entries that are let go are bound ones. -/
theorem Slice.lacks.makeEligible {x : Slice} (h : x.lacks n) {l : List (Nat × Trk)} (hl : ∀ e ∈ l, e ∈ x.ents) : (x.makeEligible l).lacks n := by
  unfold Slice.makeEligible
  split
  · exact h
  · next t e _ => exact h.setEnt (h.ents (hl (t, e) List.mem_cons_self)) _

theorem queueOf_ents (x : Slice) (pa : LineAddr) : ∀ e ∈ x.queueOf pa, e ∈ x.ents := fun _ he => List.mem_of_mem_filter (List.mem_mergeSort.1 he)

theorem setWaiters_ents (x : Slice) (p : Nat → Bool → Bool) : ∀ e ∈ x.setWaiters p, e ∈ x.ents := fun _ he => List.mem_of_mem_filter (List.mem_mergeSort.1 he)

theorem lineOf_ents (x : Slice) (pa : LineAddr) : ∀ e ∈ x.lineOf pa, e ∈ x.ents := fun _ he => List.mem_of_mem_filter (List.mem_mergeSort.1 he)

/-- Slices x and y differ in their trackers alone. -/
def TrkOnly (x y : Slice) : Prop := ∃ t, y = { x with trk := t }

theorem TrkOnly.refl (x : Slice) : TrkOnly x x := ⟨x.trk, rfl⟩
theorem TrkOnly.setEnt (x : Slice) (t : Nat) (e : Option Trk) : TrkOnly x (x.setEnt t e) := ⟨_, rfl⟩
theorem TrkOnly.trans {x y z : Slice} (h : TrkOnly x y) (k : TrkOnly y z) : TrkOnly x z := by
  obtain ⟨_, rfl⟩ := h
  obtain ⟨t, rfl⟩ := k
  exact ⟨t, rfl⟩

theorem TrkOnly.makeEligible (x : Slice) (l : List (Nat × Trk)) : TrkOnly x (x.makeEligible l) := by
  unfold Slice.makeEligible
  split
  · exact .refl x
  · exact .setEnt _ _ _

/-- Requests that a retirement lets go on are bound entries. -/
theorem letGo_lacks {x : Slice} (h : x.lacks n) (e : Trk) : TrkOnly x (x.letGo e) ∧ (x.letGo e).lacks n := by
  have hnext : TrkOnly x (if e.opens then x.nextOfLine e.r.a.pa else x) ∧ (if e.opens then x.nextOfLine e.r.a.pa else x).lacks n := by
    split
    · unfold Slice.nextOfLine
      split
      · exact ⟨.refl x, h⟩
      · exact ⟨.makeEligible _ _, h.makeEligible (queueOf_ents _ _)⟩
    · exact ⟨.refl x, h⟩
  have hwait {y : Slice} (hy : TrkOnly x y ∧ y.lacks n) (c : Prop) [Decidable c] (p : Nat → Bool → Bool) :
      TrkOnly x (if c then y.makeEligible (y.setWaiters p) else y) ∧ (if c then y.makeEligible (y.setWaiters p) else y).lacks n := by
    split
    · exact ⟨hy.1.trans (.makeEligible _ _), hy.2.makeEligible (setWaiters_ents _ _)⟩
    · exact hy
  unfold Slice.letGo
  exact hwait (hwait hnext _ _) _ _

end Sys2Proof.Machine

namespace Sys2Proof.Machine

variable {s : State} {i : Fin 17} {n : Nat}

/-- What slice j holds for entry n of slice i is dropped. -/
def Slice.dropFor (i : Fin 17) (n : Nat) (dead keep : Bool) (j : Fin 17) (x : Slice) : Slice :=
  { x with svcq := x.svcq.filter fun o => !(o.tid == n && o.src == i), mem := x.mem.drop i n (decide (j = i)) dead keep }

/-- What a channel holds for entry n of slice i goes on without it. -/
def Chan.dropFor (i : Fin 17) (n : Nat) (dead : Bool) (c : Chan) : Chan :=
  { c with
    rq := c.rq.map fun r => { r with f := r.f.kill i n dead }
    inflight := c.inflight.map fun r => { r with f := r.f.kill i n dead } }

theorem detach_eq (s : State) (i : Fin 17) (n : Nat) : ∃ dead keep, s.detach i n =
    (let t := s.modSlice i (Slice.dropFor i n dead keep i)
     let u := if t.svcSlice i = i then t else t.modSlice (t.svcSlice i) (Slice.dropFor i n dead keep (t.svcSlice i))
     (u.netMap (NetMsg.kill i n dead)).eachChan fun s k => s.modChan k (Chan.dropFor i n dead)) := ⟨_, _, rfl⟩

/-- What slices hold for an entry changes where its transaction is detached; channels hold fetches for it. -/
theorem detach_frame (h : s.noc.bufs = [] ∧ s.noc.wait = []) (i : Fin 17) (n : Nat) : ∃ v c, s.detach i n = { s with slices := v, chans := c } ∧
    ∀ j : Fin 17, ∃ q m, v[j.val] = { s.slice j with svcq := q, mem := m } ∧ m.ctl = (s.slice j).mem.ctl := by
  have hslice (t : State) (j : Fin 17) (f : Slice → Slice) (hf : ∃ q m, f (t.slice j) = { t.slice j with svcq := q, mem := m } ∧ m.ctl = (t.slice j).mem.ctl) :
      ∃ v, t.modSlice j f = { t with slices := v } ∧ ∀ k : Fin 17, ∃ q m, v[k.val] = { t.slice k with svcq := q, mem := m } ∧ m.ctl = (t.slice k).mem.ctl := by
    refine ⟨_, rfl, fun k => ?_⟩
    show ∃ q m, (t.modSlice j f).slice k = _ ∧ _
    rw [modSlice_slice]
    split
    · next h => rw [h]; exact hf
    · exact ⟨_, _, rfl, rfl⟩
  have hchan (t : State) (f : Fin 16 → Chan → Chan) : ∃ c, (t.eachChan fun s n => s.modChan n (f n)) = { t with chans := c } := by
    refine List.foldlRecOn (motive := fun u : State => ∃ c, u = { t with chans := c }) _ _ ⟨t.chans, rfl⟩ fun u hu j _ => ?_
    obtain ⟨c, rfl⟩ := hu
    exact ⟨_, rfl⟩
  have hnet (t : State) (ht : t.noc = s.noc) (f : NetMsg → NetMsg) : t.netMap f = t := by
    unfold State.netMap
    dsimp only
    rw [ht, h.1, h.2, List.map_nil, List.map_nil, ← h.1, ← h.2, ← ht]
  obtain ⟨dead, keep, hd⟩ := detach_eq s i n
  obtain ⟨v, hv, hvs⟩ := hslice s i (Slice.dropFor i n dead keep i) ⟨_, _, rfl, rfl⟩
  rw [hv] at hd
  dsimp only at hd
  obtain ⟨w, hw, hws⟩ := hslice { s with slices := v } (({ s with slices := v } : State).svcSlice i)
    (Slice.dropFor i n dead keep (({ s with slices := v } : State).svcSlice i)) ⟨_, _, rfl, rfl⟩
  rw [hw, hnet _ (by split <;> rfl)] at hd
  split at hd
  · obtain ⟨c, hc⟩ := hchan { s with slices := v } fun _ => Chan.dropFor i n dead
    exact ⟨v, c, hd.trans hc, hvs⟩
  · obtain ⟨c, hc⟩ := hchan { s with slices := w } fun _ => Chan.dropFor i n dead
    refine ⟨w, c, hd.trans hc, fun j => ?_⟩
    obtain ⟨q, m, h1, h2⟩ := hws j
    obtain ⟨q', m', h1', h2'⟩ := hvs j
    rw [show ({ s with slices := v } : State).slice j = v[j.val] from rfl, h1'] at h1 h2
    exact ⟨q, m, h1, h2.trans h2'⟩

end Sys2Proof.Machine

namespace Sys2Proof.Safety

open Sys2Proof.Machine

/-- Nothing on the networks is for slice i, it owes no agent an answer, its arrays hold no injected error, it keeps no record, and the trace
is off. -/
structure Clear (i : Fin 17) (s : State) : Prop where
  net : s.noc.bufs = [] ∧ s.noc.wait = []
  egress : ∀ q, (s.port q).egress = []
  inj : (s.slice i).ar.inj = []
  recs : (s.slice i).recs = []
  trace : s.flag 63 0x140 31 = false

/-- What the end of a transaction of slice i, whose subject is at port p, leaves as it was. -/
structure Frees (p : Option (Fin 24)) (i : Fin 17) (s t : State) : Prop where
  keeps : Keeps s t
  flt : t.flt = s.flt
  dram : t.dram = s.dram
  others : ∀ q, p ≠ some q → t.port q = s.port q
  rspo : ∀ q, (t.port q).link.rspo = (s.port q).link.rspo
  egress : ∀ q, (t.port q).egress = (s.port q).egress
  inj : (t.slice i).ar.inj = (s.slice i).ar.inj
  recs : (t.slice i).recs = (s.slice i).recs
  high : ∀ k w, 18 ≤ k → t.reg k w = s.reg k w

variable {s t u : State} {p : Option (Fin 24)} {i : Fin 17} {n : Nat}

theorem Frees.refl (p : Option (Fin 24)) (i : Fin 17) (s : State) : Frees p i s s :=
  ⟨.refl s, rfl, rfl, fun _ _ => rfl, fun _ => rfl, fun _ => rfl, rfl, rfl, fun _ _ _ => rfl⟩

theorem Frees.trans (h : Frees p i s t) (k : Frees p i t u) : Frees p i s u where
  keeps := h.keeps.trans k.keeps
  flt := k.flt.trans h.flt
  dram := k.dram.trans h.dram
  others q hq := (k.others q hq).trans (h.others q hq)
  rspo q := (k.rspo q).trans (h.rspo q)
  egress q := (k.egress q).trans (h.egress q)
  inj := k.inj.trans h.inj
  recs := k.recs.trans h.recs
  high a w ha := (k.high a w ha).trans (h.high a w ha)

/-- Which port the subject has does not matter where no port changes. -/
theorem Frees.at_port (h : Frees none i s t) : Frees p i s t := { h with others := fun q _ => h.others q nofun }

theorem Frees.clear (h : Frees p i s t) (hc : Clear i s) : Clear i t where
  net := by rw [h.keeps.noc]; exact hc.net
  egress q := (h.egress q).trans (hc.egress q)
  inj := h.inj.trans hc.inj
  recs := h.recs.trans hc.recs
  trace := by
    have ht := hc.trace
    unfold State.flag State.fld at ht ⊢
    rw [h.high _ _ (by decide)]
    exact ht

/-- A change of a slice that leaves its controls, its arrays' errors and its records. -/
theorem Frees.modSlice (p : Option (Fin 24)) (s : State) (i j : Fin 17) (f : Slice → Slice) (hc : (f (s.slice j)).ctl = (s.slice j).ctl)
    (hm : (f (s.slice j)).mem.ctl = (s.slice j).mem.ctl) (hi : (f (s.slice j)).ar.inj = (s.slice j).ar.inj)
    (hr : (f (s.slice j)).recs = (s.slice j).recs) : Frees p i s (s.modSlice j f) :=
  { Frees.refl p i s with
    keeps := .modSlice s j f hc hm
    inj := by
      rw [modSlice_slice]
      split
      · next h => rw [h]; exact hi
      · rfl
    recs := by
      rw [modSlice_slice]
      split
      · next h => rw [h]; exact hr
      · rfl }

theorem Frees.ofTrk (p : Option (Fin 24)) (s : State) (i : Fin 17) (f : Slice → Slice) (h : TrkOnly (s.slice i) (f (s.slice i))) :
    Frees p i s (s.modSlice i f) := by
  obtain ⟨t, h⟩ := h
  exact .modSlice p s i i f (by rw [h]) (by rw [h]) (by rw [h]) (by rw [h])

theorem Frees.setEnt (p : Option (Fin 24)) (s : State) (i : Fin 17) (k : Nat) (e : Option Trk) : Frees p i s (s.setEnt i k e) :=
  .ofTrk p s i _ (.setEnt _ _ _)

theorem Frees.modEnt (p : Option (Fin 24)) (s : State) (i : Fin 17) (k : Nat) (f : Trk → Trk) : Frees p i s (s.modEnt i k f) := by
  unfold State.modEnt
  split
  · exact .setEnt p s i k _
  · exact .refl p i s

theorem Frees.bump (p : Option (Fin 24)) (s : State) (i : Fin 17) (o hi lo : Nat) (ho : o < 0x400) : Frees p i s (s.bump (slcPage i) o hi lo) := by
  obtain ⟨r, hr⟩ := bump_frame s (slcPage i) o hi lo
  have hk := Keeps.bump s (slcPage i) o hi lo (by unfold watched slcPage; omega)
  have hh : ∀ k w, 18 ≤ k → (s.bump (slcPage i) o hi lo).reg k w = s.reg k w := fun k w hk => bump_reg_ne _ _ _ _ _ _ _ (by
    have := i.isLt
    unfold slcPage
    omega)
  rw [hr] at hk hh ⊢
  exact { Frees.refl p i s with keeps := hk, high := hh }

theorem Frees.perf (p : Option (Fin 24)) (s : State) (i j : Fin 17) (ev m : Nat) : Frees p i s (s.perf j ev m) := by
  obtain ⟨k, hk⟩ := perf_frame s j ev m
  rw [hk]
  exact { Frees.refl p i s with keeps := { Keeps.refl s with phase := rfl } }

/-- A change of the credits of the subject's port. -/
theorem Frees.modPort (s : State) (i : Fin 17) (q : Fin 24) (f : Port → Port) (hf : ∃ c, f (s.port q) = { s.port q with cred := c }) :
    Frees (some q) i s (s.modPort q f) := by
  obtain ⟨c, hc⟩ := hf
  have hp : ∀ r, ((s.modPort q f).port r).link = (s.port r).link ∧ ((s.modPort q f).port r).egress = (s.port r).egress := fun r => by
    by_cases h : r = q
    · rw [h, modPort_port_self, hc]
      exact ⟨rfl, rfl⟩
    · rw [modPort_port_ne _ _ h]
      exact ⟨rfl, rfl⟩
  refine { Frees.refl (some q) i s with keeps := .modPort s q f (by rw [hc]) (by rw [hc]), others := ?_, rspo := ?_, egress := ?_ }
  · intro r hr
    exact modPort_port_ne _ _ fun h => hr (by rw [h])
  · exact fun r => congrArg (·.rspo) (hp r).1
  · exact fun r => (hp r).2

theorem Frees.retReq (s : State) (i : Fin 17) (q : Fin 24) (k : PartId) : Frees (some q) i s (s.retReq q k) := by
  unfold State.retReq
  split <;> exact .modPort s i q _ ⟨_, rfl⟩

theorem Frees.retDat (s : State) (i : Fin 17) (q : Fin 24) (k : PartId) : Frees (some q) i s (s.retDat q k) := by
  unfold State.retDat
  split <;> exact .modPort s i q _ ⟨_, rfl⟩

theorem Frees.setHomeUsed (p : Option (Fin 24)) (s : State) (i : Fin 17) (h : Fin 16) (q : PartId) (c : Bool) (v : Nat) :
    Frees p i s (s.setHomeUsed h q c v) :=
  { Frees.refl p i s with keeps := .modPar s _ rfl rfl }

theorem Frees.reqReturn (s : State) (i : Fin 17) (r : Req) : Frees r.port i s (s.reqReturn r) := by
  unfold State.reqReturn State.freeCredit
  cases hp : r.port with
  | none => exact .refl none i s
  | some q => exact (Frees.retReq s i q _).trans (.setHomeUsed _ _ i _ _ _ _)

/-! ### The operations of a retirement -/

theorem Frees.detach (p : Option (Fin 24)) (hn : s.noc.bufs = [] ∧ s.noc.wait = []) (i : Fin 17) (n : Nat) :
    Frees p i s (s.detach i n) ∧ ∀ j, ((s.detach i n).slice j).trk = (s.slice j).trk := by
  obtain ⟨v, c, hd, hv⟩ := detach_frame hn i n
  have hs : ∀ j, ∃ q m, (s.detach i n).slice j = { s.slice j with svcq := q, mem := m } ∧ m.ctl = (s.slice j).mem.ctl := fun j => by
    rw [hd]; exact hv j
  refine ⟨?_, fun j => ?_⟩
  · obtain ⟨q, m, hi, -⟩ := hs i
    have hinj := congrArg (fun x : Slice => x.ar.inj) hi
    have hrecs := congrArg (fun x : Slice => x.recs) hi
    have hctl : ∀ j, ((s.detach i n).slice j).ctl = (s.slice j).ctl ∧ ((s.detach i n).slice j).mem.ctl = (s.slice j).mem.ctl := fun j => by
      obtain ⟨q, m, hj, hm⟩ := hs j
      rw [hj]
      exact ⟨rfl, hm⟩
    rw [hd] at hinj hrecs hctl ⊢
    exact { Frees.refl p i s with keeps := { Keeps.refl s with slices := hctl }, inj := hinj, recs := hrecs }
  · obtain ⟨q, m, hj, -⟩ := hs j
    rw [hj]

theorem freeAreasOf_of_nil (h : ∀ q, (s.port q).egress = []) (i : Fin 17) (n : Nat) : s.freeAreasOf i n = s :=
  foldl_fixed _ _ _ fun q _ => if_neg (by rw [h q]; exact Bool.false_ne_true)

/-- Tracker y is tracker x without entry n. -/
structure Drops (n : Nat) (x y : Slice) : Prop where
  lacks : y.lacks n
  ent : ∀ k, k ≠ n → y.ent k = x.ent k
  sub : ∀ f ∈ y.trk, f ∈ x.trk

/-- The data credit of a companion goes back once. -/
theorem cdReturn_frees {e : Trk} (he : s.ent i n = some e) : Frees e.r.port i s (s.cdReturn i n) ∧
    ((s.cdReturn i n).slice i = s.slice i ∨ ∃ e', (s.cdReturn i n).slice i = (s.slice i).setEnt n (some e')) := by
  unfold State.cdReturn
  rw [he]
  dsimp only
  split
  · next p hc hp =>
    split
    · exact ⟨.refl _ i s, .inl rfl⟩
    · rw [hp]
      refine ⟨(Frees.setEnt _ s i n _).trans (.retDat _ i p _), .inr ⟨{ e with h := { e.h with cdDone := true } }, ?_⟩⟩
      have hr : ∀ t : State, (t.retDat p e.r.a.part).slice i = t.slice i := fun t => by unfold State.retDat; split <;> rfl
      rw [hr, setEnt_slice_self]
  · exact ⟨.refl _ i s, .inl rfl⟩

theorem reqReturn_slice (s : State) (r : Req) (j : Fin 17) : (s.reqReturn r).slice j = s.slice j := by
  unfold State.reqReturn State.freeCredit State.retReq
  cases r.port with
  | none => rfl
  | some p => dsimp only; split <;> rfl

/-- A transaction's entry is freed. -/
theorem freeEnt_frees {e : Trk} (hc : Clear i s) (he : s.ent i n = some e) :
    Frees e.r.port i s (s.freeEnt i n) ∧ Drops n (s.slice i) ((s.freeEnt i n).slice i) := by
  obtain ⟨hd, htrk⟩ := Frees.detach e.r.port hc.net i n
  have hdc := hd.clear hc
  have hde : (s.detach i n).ent i n = some e := (ent_congr (htrk i) n).trans he
  obtain ⟨hcd, hcs⟩ := cdReturn_frees hde
  have hrecs := (hcd.clear hdc).recs
  have hf : s.freeEnt i n = (((s.detach i n).cdReturn i n).setEnt i n none).reqReturn e.r := by
    unfold State.freeEnt
    rw [he]
    dsimp only
    rw [traceEnt_off hc.trace, freeAreasOf_of_nil hc.egress, hrecs]
    rfl
  rw [hf]
  refine ⟨((hd.trans hcd).trans (.setEnt _ _ i n none)).trans (.reqReturn _ i e.r), ?_⟩
  rw [reqReturn_slice, setEnt_slice_self]
  obtain hcs | ⟨e', hcs⟩ := hcs
  · rw [hcs]
    refine ⟨lacks_setEnt_none _ n, fun k hk => ?_, fun f hf => ?_⟩
    · rw [setEnt_ent_ne _ _ hk]
      exact ent_congr (htrk i) k
    · rw [← htrk i]
      exact mem_tabErase _ _ _ hf
  · rw [hcs]
    refine ⟨lacks_setEnt_none _ n, fun k hk => ?_, fun f hf => ?_⟩
    · rw [setEnt_ent_ne _ _ hk, setEnt_ent_ne _ _ hk]
      exact ent_congr (htrk i) k
    · have hne := lacks_setEnt_none (((s.detach i n).slice i).setEnt n (some e')) n f hf
      have hm : f ∈ tabPut ((s.detach i n).slice i).trk n (some e') := mem_tabErase _ _ _ hf
      rw [← htrk i]
      exact (mem_tabPut _ _ _ _ hm).resolve_left fun h => hne (by rw [h])

theorem Frees.touch (p : Option (Fin 24)) (hi : (s.slice i).ar.inj = []) (set way : Nat) : Frees p i s (s.touch i set way) ∧
    ∀ k, (s.touch i set way).ent i k = s.ent i k := by
  unfold State.touch
  rw [readRepl_of_nil hi]
  refine ⟨.modSlice p s i i _ rfl rfl ?_ rfl, fun k => ent_modSlice _ _ _ _ _ rfl⟩
  simp [Slice.replSet, Arrays.wrote, hi]

theorem Frees.putSuk (p : Option (Fin 24)) (hi : (s.slice i).ar.inj = []) (set : Nat) (b : Bool) : Frees p i s (s.putSuk i set b) ∧
    ∀ k, (s.putSuk i set b).ent i k = s.ent i k := by
  unfold State.putSuk
  rw [readRepl_of_nil hi]
  refine ⟨.modSlice p s i i _ rfl rfl ?_ rfl, fun k => ent_modSlice _ _ _ _ _ rfl⟩
  simp [Slice.setSuk, Slice.replSet, Arrays.wrote, hi]

/-- A directory write leaves the request of its entry. -/
theorem writeDir_frees (p : Option (Fin 24)) {e : Trk} (hi : (s.slice i).ar.inj = []) (he : s.ent i n = some e) :
    Frees p i s (s.writeDir i n) ∧ ∃ e', (s.writeDir i n).ent i n = some e' ∧ e'.r = e.r := by
  unfold State.writeDir
  rw [he]
  dsimp only
  split
  · obtain ⟨u, hu⟩ : ∃ u, u = s.modSlice i (·.sfSet (sfSet e.r.a.pa) e.way.toNat ⟨sfTag e.r.a.pa, s.cleanDir e.we⟩) := ⟨_, rfl⟩
    have hui : (u.slice i).ar.inj = [] := by
      rw [hu, modSlice_slice_self]
      simp [Slice.sfSet, Arrays.wrote, hi]
    have hfu : Frees p i s u := by
      rw [hu]
      refine .modSlice p s i i _ rfl rfl ?_ rfl
      simp [Slice.sfSet, Arrays.wrote, hi]
    have hue : ∀ k, u.ent i k = s.ent i k := fun k => by rw [hu]; exact ent_modSlice _ _ _ _ _ rfl
    obtain ⟨ht, hte⟩ := Frees.touch p hui (sfSet e.r.a.pa) e.way.toNat
    rw [← hu, modEnt_of_ent ((hte n).trans ((hue n).trans he))]
    exact ⟨(hfu.trans ht).trans (.setEnt p _ i n _), _, ent_setEnt_self _ _ _ _, rfl⟩
  · exact ⟨.refl p i s, e, he, rfl⟩

/-- So does the last one of a transaction. -/
theorem retireDir_frees (p : Option (Fin 24)) {e : Trk} (hi : (s.slice i).ar.inj = []) (he : s.ent i n = some e) :
    Frees p i s (s.retireDir i n) ∧ ∃ e', (s.retireDir i n).ent i n = some e' ∧ e'.r = e.r := by
  unfold State.retireDir
  rw [he]
  dsimp only
  split
  · exact ⟨.refl p i s, e, he, rfl⟩
  · split
    · split
      · rw [modEnt_of_ent he]
        have hs := Frees.setEnt p s i n (some { e with we := .uk })
        obtain ⟨hw, e', he', hr⟩ := writeDir_frees p (hs.inj.trans hi) (ent_setEnt_self s i n (some { e with we := .uk }))
        exact ⟨hs.trans hw, e', he', hr⟩
      · obtain ⟨hf, hk⟩ := Frees.putSuk p hi (sfSet e.r.a.pa) true
        exact ⟨hf, e, (hk n).trans he, rfl⟩
    · exact writeDir_frees p hi he

/-- A transaction without a group retires. -/
theorem retire_frees {e : Trk} (hc : Clear i s) (he : s.ent i n = some e) (hg : e.h.grp = none) :
    Frees e.r.port i s (s.retire i n) ∧ ((s.retire i n).slice i).lacks n := by
  obtain ⟨hd, e', he', hr⟩ : Frees e.r.port i s (if e.opens then s.retireDir i n else s) ∧
      ∃ e', (if e.opens then s.retireDir i n else s).ent i n = some e' ∧ e'.r = e.r := by
    split
    · exact retireDir_frees _ hc.inj he
    · exact ⟨.refl _ i s, e, he, rfl⟩
  obtain ⟨hf, hdr⟩ := freeEnt_frees (hd.clear hc) he'
  rw [hr] at hf
  have ht : s.retire i n = ((if e.opens then s.retireDir i n else s).freeEnt i n).modSlice i (·.letGo e) := by
    unfold State.retire
    rw [he]
    dsimp only
    rw [hg]
  obtain ⟨hto, hl⟩ := letGo_lacks hdr.lacks e
  rw [ht, modSlice_slice_self]
  exact ⟨(hd.trans hf).trans (.ofTrk _ _ i _ hto), hl⟩

/-- A transaction that held no line and no way lets nothing go on. -/
theorem retire_drops {e : Trk} (hc : Clear i s) (he : s.ent i n = some e) (hg : e.h.grp = none) (ho : e.opens = false) (hw : e.wv = false)
    (hk : e.r.kind ≠ .backInv) : s.retire i n = s.freeEnt i n ∧ Drops n (s.slice i) ((s.retire i n).slice i) := by
  have ht : s.retire i n = s.freeEnt i n := by
    unfold State.retire
    rw [he]
    dsimp only
    rw [hg, ho]
    refine modSlice_same _ _ _ ?_
    unfold Slice.letGo
    have hb : (e.r.kind == Kind.backInv) = false := by simpa using hk
    rw [ho, hw, hb]
    rfl
  rw [ht]
  exact ⟨rfl, (freeEnt_frees hc he).2⟩

/-- A change of a bound entry brings no other. -/
theorem lacks_modEnt (h : (s.slice i).lacks n) (k : Nat) (f : Trk → Trk) : ((s.modEnt i k f).slice i).lacks n := by
  unfold State.modEnt
  split
  · next e he =>
    rw [setEnt_slice_self]
    refine h.setEnt (fun hk => ?_) _
    subst hk
    exact nomatch he.symm.trans h.ent
  · exact h

/-- A window that takes what it may takes bound entries. -/
theorem joinLoop_frees (p : Option (Fin 24)) (t m : Nat) : Frees p i s (s.joinLoop i t m) ∧ ((s.slice i).lacks n → ((s.joinLoop i t m).slice i).lacks n) := by
  induction m generalizing s with
  | zero => exact ⟨.refl p i s, id⟩
  | succ m ih =>
    unfold State.joinLoop
    split
    · exact ⟨.refl p i s, id⟩
    · split
      · exact ⟨.refl p i s, id⟩
      · split
        · split
          · exact ⟨.refl p i s, id⟩
          · next j k _ =>
            split
            · next g _ _ _ _ _ =>
              have hm : ∀ f f' : Trk → Trk, Frees p i s (((s.modEnt i j f).modEnt i t f').bump (slcPage i) 0x210 15 8 |>.perf i 0x09) ∧
                  ((s.slice i).lacks n → ((((s.modEnt i j f).modEnt i t f').bump (slcPage i) 0x210 15 8 |>.perf i 0x09).slice i).lacks n) := fun f f' => by
                refine ⟨(((Frees.modEnt p s i j f).trans (.modEnt p _ i t f')).trans (.bump p _ i _ _ _ (by decide))).trans (.perf p _ i i _ _), fun hl => ?_⟩
                obtain ⟨c, hc⟩ := perf_frame (((s.modEnt i j f).modEnt i t f').bump (slcPage i) 0x210 15 8) i 0x09 1
                obtain ⟨r, hr⟩ := bump_frame ((s.modEnt i j f).modEnt i t f') (slcPage i) 0x210 15 8
                rw [hc, hr]
                exact lacks_modEnt (lacks_modEnt hl j f) t f'
              obtain ⟨h1, h2⟩ := hm (fun k => { k with stat := .joined t }) fun e => { e with h := { e.h with grp := some { g with members := g.members ++ [j] } } }
              obtain ⟨h3, h4⟩ := ih (s := (((s.modEnt i j fun k => { k with stat := .joined t }).modEnt i t fun e => { e with h := { e.h with
                grp := some { g with members := g.members ++ [j] } } }).bump (slcPage i) 0x210 15 8).perf i 0x09)
              exact ⟨h1.trans h3, fun hl => h4 (h2 hl)⟩
            · exact ⟨.refl p i s, id⟩
        · exact ⟨.refl p i s, id⟩

theorem joinLine_frees (p : Option (Fin 24)) (pa : LineAddr) : Frees p i s (s.joinLine i pa) ∧ ((s.slice i).lacks n → ((s.joinLine i pa).slice i).lacks n) := by
  unfold State.joinLine
  split
  · exact joinLoop_frees p _ _
  · exact ⟨.refl p i s, id⟩

/-- Where no bound entry is of the line, no window takes anything. -/
theorem joinLine_of_none {pa : LineAddr} (h : ∀ k ∈ (s.slice i).ents, k.2.r.a.pa ≠ pa) : s.joinLine i pa = s := by
  have ho : (s.slice i).opener pa = none := List.find?_eq_none.2 fun k hk => by simp [h k hk]
  unfold State.joinLine
  rw [ho]

end Sys2Proof.Safety
end

section
/-! O34 (R116, R124, R156, R169, R201): the deadline of a WAIT, the tracker watchdog, and the ends of records and reservations. -/

namespace Sys2Proof.Machine

variable {s : State}

theorem log_log (ty : BitVec 8) (n : Nat) (q : PartId) (pa : LineAddr) (h : s.flt.log.length < 256) :
    (s.log ty n q pa).flt.log = s.flt.log ++ [⟨ty, BitVec.ofNat 7 n, srcAg n, q, pa, s.now⟩] :=
  congrArg (fun t : State => t.flt.log) (Safety.logEnt_room h _)

theorem log_now (ty : BitVec 8) (n : Nat) (q : PartId) (pa : LineAddr) : (s.log ty n q pa).now = s.now := by
  obtain ⟨r, l, h⟩ := logEnt_frame s ⟨ty, BitVec.ofNat 7 n, srcAg n, q, pa, s.now⟩
  rw [State.log, h]

/-- An UNCOR event that makes its source severe, in a log with room for it. -/
theorem uncorEv_log {n : Nat} (q : PartId) (pa : LineAddr) (hm : (s.src n).severe = false) (hr : s.flt.log.length < 255) :
    (s.uncorEv n q pa).flt.log = s.flt.log ++ [⟨0x02, BitVec.ofNat 7 n, srcAg n, q, pa, s.now⟩, ⟨0x03, BitVec.ofNat 7 n, srcAg n, 0, 0, s.now⟩] := by
  obtain ⟨u, hu⟩ : ∃ u, u = s.modSrc n fun x => { (x.count1 true) with corrOnly := false } := ⟨_, rfl⟩
  have hul : u.flt.log = s.flt.log := by rw [hu]; rfl
  have hun : u.now = s.now := by rw [hu]; rfl
  have h1 : (u.log 0x02 n q pa).flt.log = s.flt.log ++ [⟨0x02, BitVec.ofNat 7 n, srcAg n, q, pa, s.now⟩] := by
    rw [log_log _ _ _ _ (by rw [hul]; omega), hul, hun]
  have hs : ((u.log 0x02 n q pa).src n).severe = false := by
    rw [State.log, logEnt_src, hu, modSrc_src_self]
    exact (count1_severe _ _).trans hm
  have h2 := log_log (s := (u.log 0x02 n q pa).modSrc n fun x => { x with severe := true }) 0x03 n 0 0
    (by rw [show (State.modSrc _ _ _).flt.log = _ from h1, List.length_append]; exact Nat.succ_lt_succ hr)
  rw [uncorEv_eq q pa (uncorLeaves_of_mild hm), ← hu, makeSevere_of_mild hs]
  refine h2.trans ?_
  rw [show (State.modSrc (u.log 0x02 n q pa) n _).flt.log = _ from h1, show (State.modSrc (u.log 0x02 n q pa) n _).now = s.now from (log_now ..).trans hun,
    List.append_assoc]
  rfl

/-- A transaction that waits for TMO, for which nothing else is there, takes it. -/
theorem wake_tmo {e : Trk} {m me sv q : Bool} {pc : BitVec 10} (hs : e.stat = .parked m me true sv q pc)
    (hm : m = true → if q then e.x.ack ≠ 0 else e.m.latch = false) (hme : me = true → e.m.memEv = []) (hsv : sv = true → e.m.svc = false) :
    e.wake true = { e with stat := .ready false, pc := e.pc.extractLsb' 10 1 ++ pc, m := { e.m with ev := 3, tmo := true } } := by
  have h1 : (m && (if q then e.x.ack == 0 else e.m.latch)) = false := by
    cases m with
    | false => rfl
    | true =>
      have := hm rfl
      cases q <;> simpa using this
  have h2 : (me && !e.m.memEv.isEmpty) = false := by
    cases me with
    | false => rfl
    | true => rw [hme rfl]; rfl
  have h3 : (sv && e.m.svc) = false := by
    cases sv with
    | false => rfl
    | true => rw [hsv rfl]; rfl
  unfold Trk.wake
  rw [hs]
  dsimp only
  rw [h1, h2, h3]
  rfl

/-- The events of a stuck transaction (R169, R374). -/
def State.stuckEvents (s : State) (i : Fin 17) (e : Trk) : State :=
  (s.logEnt ⟨0x08, BitVec.ofNat 7 (srcSlice i), 63, e.r.a.part, e.r.a.pa, s.now⟩).uncorEv (srcSlice i) e.r.a.part e.r.a.pa

/-- A `Comp` of an uncounted request of a port leaves at the port (R51, R182, R195). -/
theorem complete_comp {r : Req} {p : Fin 24} {op : ReqOp} (hk : r.kind = .req op) (hp : r.port = some p) (hd : reqIsDrain op = false)
    (hw : r.wid = 0) (hrk : r.rk = false) (hn : s.netClear = true) (hf : Safety.FlitPasses s p r.a.src) (hg : r.a.gen = (s.part r.a.part).gen)
    (st : Status) (gr : Grant) (info : BitVec 16) (nothing : Bool) : ∃ acks, s.complete r (.comp st gr info) nothing = s.modPort p fun x => { x with
      acks := acks, link := x.link.send (.rsp .comp ⟨63, r.a.src, r.a.part, r.a.gen, r.a.atag, st.code, gr.code, r.a.pa, info⟩) } := by
  obtain ⟨acks, hs⟩ := sendRsp_up s p .comp r.a st gr info (Safety.portOf_of_carries hf.own) hf.up hf.agent hg
  refine ⟨acks, ?_⟩
  have hwid : r.wId = none := by unfold Req.wId; rw [hp, hw]; rfl
  have hover : s.detOver r = s := by unfold State.detOver; rw [hrk]; rfl
  have hsend : s.sendComp r (.comp st gr info) = s.sendRsp .comp r.a st gr info false := by
    unfold State.sendComp State.slcRsp State.toPort
    rw [hp, hrk]
    exact carry_of_clear _ _ _ _ _ hn
  unfold State.complete
  rw [hk, hp, hwid]
  dsimp only
  rw [if_neg (by rw [hd]; exact Bool.false_ne_true), hover, hsend, hs]

/-- A transaction that has its completion gets no other (R166). -/
theorem completeEnt_sent {i : Fin 17} {n : Nat} {e : Trk} (he : s.ent i n = some e) (hc : e.h.cs = true) (m : CompMsg) (nothing : Bool) :
    s.completeEnt i n m nothing = s := by
  unfold State.completeEnt
  rw [he]
  exact if_pos hc

/-- One without gets it, while the trace is off. -/
theorem completeEnt_first {i : Fin 17} {n : Nat} {e : Trk} (he : s.ent i n = some e) (hc : e.h.cs = false) (ht : s.flag 63 0x140 31 = false)
    (m : CompMsg) (nothing : Bool) :
    s.completeEnt i n m nothing = (s.setEnt i n (some { e with h := { e.h with cs := true } })).complete e.r m nothing := by
  unfold State.completeEnt
  rw [he]
  dsimp only
  rw [if_neg (by simp [hc]), traceEnt_off ht, ite_self]

end Sys2Proof.Machine

namespace Sys2Proof.Safety

open Sys2Proof.Machine

variable {s : State} {i : Fin 17} {n : Nat} {e : Trk}

theorem Keeps.dueless {t : State} (h : Keeps s t) : Keeps (s.modFlt fun f => { f with due := [] }) (t.modFlt fun f => { f with due := [] }) :=
  ⟨rfl, h.run, h.glb, h.phase, h.job, h.parts, h.pins, h.noc, h.csr, h.reg, h.ports, h.slices, h.pending, h.now⟩

/-- An entry that the watchdog has ended (R169): what the events of it have left, the completion aside. -/
theorem stuckEnd_of_completed {v : State} (hv : s.completeEnt i n (lateMsg (e.lateForm e.opens)) true = v)
    (hg : e.h.grp = none) (hj : ∀ o, e.stat ≠ .joined o) {e' : Trk} (he : v.ent i n = some e') (hw' : e'.h.await = []) :
    s.stuckEnd i n e = (v.retire i n).joinLine i e.r.a.pa := by
  have hp : v.poisonUnanswered i n = v := by
    unfold State.poisonUnanswered
    rw [he]
    dsimp only
    rw [hw']
    rfl
  unfold State.stuckEnd
  rw [hv]
  split
  · next o ho => exact absurd ho (hj o)
  · unfold State.completeMembers
    rw [hg]
    dsimp only
    rw [hp]

theorem ents_of_mem {x : Slice} {k : Nat} {e : Trk} (h : (k, some e) ∈ x.trk) : (k, e) ∈ x.ents := List.mem_filterMap.2 ⟨(k, some e), h, rfl⟩

/-- State v has the completion of entry n of slice i on its way, and differs from u in nothing that the entry's end looks at. -/
structure Completing (i : Fin 17) (n : Nat) (e : Trk) (u v : State) : Prop where
  keeps : Keeps u v
  flt : v.flt = u.flt
  dram : v.dram = u.dram
  others : ∀ q, e.r.port ≠ some q → v.port q = u.port q
  clear : Clear i v
  high : ∀ k w, 18 ≤ k → v.reg k w = u.reg k w
  entry : v.ent i n = some { e with h := { e.h with cs := true } }
  ents : ∀ k, k ≠ n → v.ent i k = u.ent i k
  sub : ∀ f ∈ (v.slice i).trk, f.1 ≠ n → f ∈ (u.slice i).trk

/-- The watchdog ends a transaction (R169). -/
theorem watchdog_ends {tid : BitVec 13} (hq : Quiet s) (he : s.ent i tid.toNat = some e) (hrun : s.sliceRuns i = true) (hinj : (s.slice i).ar.inj = [])
    (hlate : s.reached (e.h.expiry + 100) = true) (hrec : e.stat ≠ .record) (hj : ∀ o, e.stat ≠ .joined o) (haw : e.h.await = []) (hg : e.h.grp = none)
    (hlog : s.flt.log.length < 253) (hsev : (s.src (srcSlice i)).severe = false) (hact : s.fld 59 0x104 7 6 ≠ 1) (hhome : s.homesOf i ≠ []) {v : State}
    (hc : (s.stuckEvents i e).completeEnt i tid.toNat (lateMsg (e.lateForm e.opens)) true = v) (hv : Completing i tid.toNat e (s.stuckEvents i e) v) :
    ∃ t, exec (.trackerWatchdog i tid) s = .next t ∧ t.ent i tid.toNat = none ∧ (t.src (srcSlice i)).severe = true ∧
      (∀ q, e.r.port ≠ some q → t.port q = s.port q) ∧ t.dram = s.dram ∧
      t.flt.log = s.flt.log ++ [⟨0x08, BitVec.ofNat 7 i.val, 63, e.r.a.part, e.r.a.pa, s.now⟩,
        ⟨0x02, BitVec.ofNat 7 i.val, 63, e.r.a.part, e.r.a.pa, s.now⟩, ⟨0x03, BitVec.ofNat 7 i.val, 63, 0, 0, s.now⟩] ∧
      (e.opens = false → e.wv = false → e.r.kind ≠ .backInv → (∀ k ∈ (s.slice i).ents, k.1 ≠ tid.toNat → k.2.r.a.pa ≠ e.r.a.pa) →
        ∀ k, k ≠ tid.toNat → t.ent i k = s.ent i k) ∧ ∀ q, (t.port q).link.rspo = (v.port q).link.rspo := by
  obtain ⟨u, hu⟩ : ∃ u, u = s.stuckEvents i e := ⟨_, rfl⟩
  rw [← hu] at hc hv
  have hsev' : ((s.logEnt ⟨0x08, BitVec.ofNat 7 (srcSlice i), 63, e.r.a.part, e.r.a.pa, s.now⟩).src (srcSlice i)).severe = false := by
    rw [logEnt_src]
    exact hsev
  have hroom := logEnt_room (s := s) (by omega) ⟨0x08, BitVec.ofNat 7 (srcSlice i), 63, e.r.a.part, e.r.a.pa, s.now⟩
  have hul : u.flt.log = s.flt.log ++ [⟨0x08, BitVec.ofNat 7 i.val, 63, e.r.a.part, e.r.a.pa, s.now⟩,
        ⟨0x02, BitVec.ofNat 7 i.val, 63, e.r.a.part, e.r.a.pa, s.now⟩, ⟨0x03, BitVec.ofNat 7 i.val, 63, 0, 0, s.now⟩] := by
    have hag : srcAg (srcSlice i) = 63 := if_neg (by unfold srcSlice; omega)
    rw [hu, State.stuckEvents, uncorEv_log _ _ hsev' (by rw [hroom]; simp; omega), hroom, hag]
    simp [srcSlice]
  have hud : u.flt.due = [srcSlice i] := by
    rw [hu, State.stuckEvents, uncorEv_due _ _ (uncorLeaves_of_mild hsev'), hsev', logEnt_due, hq.due]
    rfl
  have hus : (u.src (srcSlice i)).severe = true := by
    rw [hu, State.stuckEvents, uncorEv_src _ _ (uncorLeaves_of_mild hsev'), if_pos rfl]
    rfl
  have hur : ∀ k w, 256 * k + w ≠ 256 * 59 + 0x58 → u.reg k w = s.reg k w := fun k w h => by
    rw [hu, State.stuckEvents, uncorEv_reg_ne _ _ _ _ _ _ h]
    exact logEnt_reg_ne _ _ _ _ h
  have huq : Quiet (u.modFlt fun f => { f with due := [] }) := hu ▸ (hq.logEnt _).uncorEvent _ _ _
  obtain ⟨r, l, x, d, hue⟩ : EventOnly s u := hu ▸ (EventOnly.logEnt s _).trans (.uncorEv _ _ _ _)
  have hve := hv.entry
  obtain ⟨hfr, hla⟩ := retire_frees hv.clear hve hg
  obtain ⟨hfj, hlj⟩ := joinLine_frees (s := v.retire i tid.toNat) (i := i) (n := tid.toNat) e.r.port e.r.a.pa
  have hf := hfr.trans hfj
  have ht : s.watchdogStep i tid.toNat = (v.retire i tid.toNat).joinLine i e.r.a.pa := by
    unfold State.watchdogStep
    rw [he]
    dsimp only
    rw [hlate, hrun, bne_iff_ne.2 hrec, if_pos (show (true && true && true) = true from rfl), withTrk_of_nil hinj]
    exact (congrArg (State.stuckEnd · i tid.toNat e) hu.symm).trans (stuckEnd_of_completed hc hg hj hve haw)
  obtain ⟨w, hw⟩ : ∃ w, w = (v.retire i tid.toNat).joinLine i e.r.a.pa := ⟨_, rfl⟩
  rw [← hw] at hf ht hlj
  have hk := hv.keeps.trans hf.keeps
  have hwq : Quiet (w.modFlt fun f => { f with due := [] }) := hk.dueless.quiet huq
  have hfl : w.flt = u.flt := hf.flt.trans hv.flt
  have hend := hwq.endsDue (s := s) (t := w) (n := srcSlice i) (by rw [hfl, hud]) rfl (dueAct_slice ?_ ?_) (by rw [modFlt_pending, hk.pending, hue])
    (by rw [modFlt_now, hk.now, hue])
  · refine ⟨_, (congrArg (commandEnd s) ht).trans hend, ?_, ?_, fun q hq => ?_, ?_, ?_, fun ho hwv hkd hpa k hkn => ?_, fun q => ?_⟩
    · exact (hlj hla).ent
    · exact (congrArg (fun f : Flt => (tabGet Src.zero f.src (srcSlice i)).severe) hfl).trans hus
    · exact (hf.others q hq).trans ((hv.others q hq).trans (by rw [hue]; rfl))
    · exact hf.dram.trans (hv.dram.trans (by rw [hue]))
    · exact (congrArg Flt.log hfl).trans hul
    · obtain ⟨hrt, hdr⟩ := retire_drops hv.clear hve hg ho hwv hkd
      have hut : (u.slice i).trk = (s.slice i).trk := by rw [hue]; rfl
      have hno := joinLine_of_none (s := v.retire i tid.toNat) (i := i) (pa := e.r.a.pa) fun f hf => by
        have hm := mem_ents hf
        have hne := hdr.lacks _ hm
        have hs := hv.sub _ (hdr.sub _ hm) hne
        rw [hut] at hs
        exact hpa (f.1, f.2) (ents_of_mem hs) hne
      have hwk : w.ent i k = v.ent i k := by rw [hw, hno]; exact hdr.ent k hkn
      exact hwk.trans ((hv.ents k hkn).trans (ent_congr hut k))
    · exact hf.rspo q
  · unfold State.fld at hact ⊢
    rw [modFlt_reg, hf.high _ _ (by decide), hv.high _ _ (by decide), hur _ _ (by decide)]
    exact hact
  · have hhw : (w.modFlt fun f => { f with due := [] }).homesOf i = s.homesOf i := by
      have hgl : w.glb = s.glb := hk.glb.trans (by rw [hue])
      unfold State.homesOf State.serving
      rw [modFlt_glb, hgl]
    rw [hhw]
    exact hhome

theorem sent_of_cs (h : e.h.cs = true) : e = { e with h := { e.h with cs := true } } :=
  congrArg (fun c => { e with h := { e.h with cs := c } }) h

/-- An entry that has its completion needs no other. -/
theorem Completing.sent {u : State} (hc : Clear i u) (he : u.ent i n = some e) (hcs : e.h.cs = true) : Completing i n e u u :=
  ⟨.refl u, rfl, rfl, fun _ _ => rfl, hc, fun _ _ _ => rfl, he.trans (congrArg some (sent_of_cs hcs)), fun _ _ => rfl, fun _ hf _ => hf⟩

/-- A completion on its way at the subject's port. -/
theorem Completing.ofPort {u : State} {p : Fin 24} {F : Port → Port} (hp : e.r.port = some p) (hc : Clear i u)
    (hF : ∃ a l, F (u.port p) = { u.port p with acks := a, link := l }) :
    Completing i n e u ((u.setEnt i n (some { e with h := { e.h with cs := true } })).modPort p F) := by
  obtain ⟨a, l, hF⟩ := hF
  obtain ⟨w, hw⟩ : ∃ w, w = u.setEnt i n (some { e with h := { e.h with cs := true } }) := ⟨_, rfl⟩
  have hwp : ∀ q, w.port q = u.port q := fun q => by rw [hw]; rfl
  have hws : w.slice i = (u.slice i).setEnt n (some { e with h := { e.h with cs := true } }) := by rw [hw, setEnt_slice_self]
  have hF' : F (w.port p) = { w.port p with acks := a, link := l } := by rw [hwp]; exact hF
  have hkw : Keeps u w := hw ▸ .modSlice u i _ rfl rfl
  have hwr : w.regs = u.regs ∧ w.noc = u.noc ∧ w.flt = u.flt ∧ w.dram = u.dram := by rw [hw]; exact ⟨rfl, rfl, rfl, rfl⟩
  obtain ⟨hr, hn, hf, hd⟩ := hwr
  have hreg : ∀ k j, (w.modPort p F).reg k j = u.reg k j := fun k j => congrArg (fun r => tabGet (regReset (256 * k + j)) r (256 * k + j)) hr
  have hport : ∀ q, ((w.modPort p F).port q).egress = (u.port q).egress := fun q => by
    by_cases hq : q = p
    · rw [hq, modPort_port_self, hF', hwp]
    · rw [modPort_port_ne _ _ hq, hwp]
  rw [← hw]
  refine ⟨hkw.trans (.modPort w p F (by rw [hF']) (by rw [hF'])), hf, hd, fun q hq => ?_,
    ⟨hn ▸ hc.net, fun q => (hport q).trans (hc.egress q), ?_, ?_, ?_⟩, fun k j _ => hreg k j, ?_, fun k hk => ?_, fun f hf hne => ?_⟩
  · rw [modPort_port_ne _ _ fun h => hq (by rw [hp, h]), hwp]
  · rw [modPort_slice, hws]
    exact hc.inj
  · rw [modPort_slice, hws]
    exact hc.recs
  · have ht := hc.trace
    unfold State.flag State.fld at ht ⊢
    rw [hreg]
    exact ht
  · exact (congrArg (Slice.ent · n) hws).trans (setEnt_ent_self _ _ _)
  · exact (congrArg (Slice.ent · k) hws).trans (setEnt_ent_ne _ _ hk)
  · rw [modPort_slice, hws] at hf
    exact (mem_tabPut _ _ _ _ hf).resolve_left fun h => hne (by rw [h])

/-- The events of a stuck transaction fence nothing. -/
theorem stuckEvents_fenced (hsev : (s.src (srcSlice i)).severe = false) (k : Nat) : ((s.stuckEvents i e).src k).fenced = (s.src k).fenced := by
  have hs : ((s.logEnt ⟨0x08, BitVec.ofNat 7 (srcSlice i), 63, e.r.a.part, e.r.a.pa, s.now⟩).src (srcSlice i)).severe = false := by
    rw [logEnt_src]
    exact hsev
  rw [State.stuckEvents, uncorEv_src _ _ (uncorLeaves_of_mild hs), logEnt_src, logEnt_src]
  split
  · next h => rw [h]; exact count1_fenced _ _
  · rfl

theorem clear_of_events {u : State} (h : EventOnly s u) (hc : Clear i s) (hr : u.reg 63 0x50 = s.reg 63 0x50) : Clear i u := by
  obtain ⟨r, l, x, d, hu⟩ := h
  refine ⟨by rw [hu]; exact hc.net, fun q => by rw [hu]; exact hc.egress q, by rw [hu]; exact hc.inj, by rw [hu]; exact hc.recs, ?_⟩
  have ht := hc.trace
  unfold State.flag State.fld at ht ⊢
  rw [hr]
  exact ht

theorem stuckEvents_only (s : State) (i : Fin 17) (e : Trk) : EventOnly s (s.stuckEvents i e) := (EventOnly.logEnt s _).trans (.uncorEv _ _ _ _)

theorem stuckEvents_reg (s : State) (i : Fin 17) (e : Trk) (k w : Nat) (h : 256 * k + w ≠ 256 * 59 + 0x58) : (s.stuckEvents i e).reg k w = s.reg k w :=
  (uncorEv_reg_ne _ _ _ _ _ _ h).trans (logEnt_reg_ne _ _ _ _ h)

/-- The one record of a slice that its agent has not answered is cleared. -/
theorem clearRecs_reserve {q : StaleRec → Bool} {r : StaleRec} (hr : (s.slice i).recs = [r]) (hq : q r = true) (hp : r.place = none)
    (hb : ∀ k ∈ (s.slice i).ents, ∀ b, k.2.stat ≠ .setRetry b) : s.clearRecs i q = s.modSlice i fun x => { x with recs := [] } := by
  have hw : (s.slice i).setWaiters (fun _ b => b) = [] := by
    unfold Slice.setWaiters
    rw [List.filter_eq_nil_iff.2, List.mergeSort_nil]
    intro k hk
    have := hb k hk
    cases hs : k.2.stat <;> simp
    exact absurd hs (this _)
  have hm : s.modSlice i (fun x => { x with recs := x.recs.filter fun r => !q r }) = s.modSlice i fun x => { x with recs := [] } :=
    modSlice_congr (by rw [hr]; simp [hq])
  unfold State.clearRecs
  dsimp only
  rw [hr, List.filter_cons_of_pos hq, List.filter_nil, List.foldl_cons, List.foldl_nil, hp, hm]
  dsimp only
  refine modSlice_same _ _ _ ?_
  rw [modSlice_slice_self]
  have he : Slice.setWaiters { s.slice i with recs := [] } (fun _ b => b) = (s.slice i).setWaiters fun _ b => b := rfl
  rw [he, hw]
  rfl

/-- Settles O34: the watchdog by `watchdog_ends`, with the completion there or sent; the others are single changes. -/
theorem sliceDeadlines : Obligations.SliceDeadlines := by
  refine fun s i tid e a tag hq => ⟨fun he hrun hexp hinj => ⟨fun m me sv q tpc hst hm hme hsv hmq => ?_,
    fun hlate hrec hj haw hg hrecs heg htr hlog hsev hact hhome => ?_⟩, fun r hr hag htag hdl hpl h63 hm hb => ?_, fun k hk hag hlive => ?_⟩
  · have ht : s.tmoStep i tid.toNat = s.setEnt i tid.toNat (some (e.wake true)) := by
      have hmem : s.memFirst i tid.toNat = s := by
        unfold State.memFirst
        rw [List.find?_eq_none.2 fun k hk => by simpa using hmq k hk]
      unfold State.tmoStep
      rw [he]
      dsimp only
      rw [hexp, hrun, withTrk_of_nil hinj, hmem, hst, modEnt_of_ent he]
      rfl
    rw [wake_tmo hst hm hme hsv] at ht
    exact (hq.setEnt i tid.toNat _).ends ht rfl rfl
  · have hc : Clear i s := ⟨hq.net, heg, hinj, hrecs, htr⟩
    have hcu := clear_of_events (stuckEvents_only s i e) hc (stuckEvents_reg s i e _ _ (by decide))
    have heu : (s.stuckEvents i e).ent i tid.toNat = some e := by
      obtain ⟨r, l, x, d, hu⟩ := stuckEvents_only s i e
      rw [hu]
      exact he
    refine ⟨fun hcs => ?_, fun p op hcs hk hd hup hdr hp hw hrk hf hgen => ?_⟩
    · obtain ⟨t, ht, h1, h2, h3, h4, h5, h6, -⟩ := watchdog_ends hq he hrun hinj hlate hrec hj haw hg hlog hsev hact hhome
        (completeEnt_sent heu hcs _ _) (.sent hcu heu hcs)
      exact ⟨t, ht, h1, h2, h3, h4, h5, h6⟩
    · obtain ⟨w, hww⟩ : ∃ w, w = (s.stuckEvents i e).setEnt i tid.toNat (some { e with h := { e.h with cs := true } }) := ⟨_, rfl⟩
      obtain ⟨r, l, x, d, hu⟩ := stuckEvents_only s i e
      have hwp : ∀ q, w.port q = s.port q := fun q => by rw [hww, hu]; rfl
      have hfen : ∀ k, (w.src k).fenced = (s.src k).fenced := fun k => by rw [hww]; exact stuckEvents_fenced hsev k
      have hfw : FlitPasses w p e.r.a.src := by
        obtain ⟨h1, h2, h3, h4⟩ := hf
        refine ⟨by rw [hwp]; exact h1, h2, (hfen _).trans h3, ?_⟩
        unfold State.agFenced State.portFenced at h4 ⊢
        rw [hfen]
        simpa [hfen] using h4
      have hm : lateMsg (e.lateForm e.opens) = .comp .timeout .i 0 := by
        unfold Trk.lateForm
        rw [hk]
        cases op <;> simp_all [reqDat, lateMsg]
      obtain ⟨acks, hcomp⟩ := complete_comp (s := w) hk hp hdr hw hrk (by rw [hww, hu]; exact hq.netClear) hfw (by rw [hww, hu]; exact hgen) .timeout .i 0 true
      have hfirst := (completeEnt_first heu hcs hcu.trace (.comp .timeout .i 0) true).trans ((congrArg (State.complete · e.r (.comp .timeout .i 0) true) hww.symm).trans hcomp)
      rw [← hm, hww] at hfirst
      obtain ⟨t, ht, h1, h2, h3, h4, h5, h6, h7⟩ := watchdog_ends hq he hrun hinj hlate hrec hj haw hg hlog hsev hact hhome hfirst (.ofPort hp hcu ⟨_, _, rfl⟩)
      refine ⟨t, ⟨ht, h1, h2, h3, h4, h5, h6⟩, (h7 p).trans ?_⟩
      rw [modPort_port_self]
      exact congrArg (fun x : Port => x.link.rspo.push _) ((congrArg (State.port · p) hww.symm).trans (hwp p))
  · have hrecl : s.recordLate i a tag = (s.modSlice i fun x => { x with recs := [] }).corrEv (srcAgent a) 0 r.pa := by
      have hpick : (r.ag == a && r.atag == tag && s.reached r.dl) = true := by rw [hag, htag, hdl]; simp
      unfold State.recordLate
      dsimp only
      rw [hr, List.find?_cons_of_pos (p := fun r : StaleRec => r.ag == a && r.atag == tag && s.reached r.dl) hpick]
      dsimp only
      rw [clearRecs_reserve hr hpick hpl hb]
      exact if_neg h63
    have hev := EventOnly.corrEv (s.modSlice i fun x => { x with recs := [] }) (srcAgent a) 0 r.pa
    exact ((hq.modSlice i _ rfl rfl).corrEvOf 0 r.pa (mild_congr rfl rfl rfl hm)).ends hrecl hev.pending hev.now
  · have hgone : (k.ag == a && !s.resvLive k) = true := by rw [hag, hlive]; simp
    have ht : s.resvLate i a = (s.modSlice i fun x => { x with resv := [] }).bump (slcPage i) 0x224 7 0 := by
      have hm : s.modSlice i (fun x => { x with resv := x.resv.filter fun k => !(k.ag == a && !s.resvLive k) }) = s.modSlice i fun x => { x with resv := [] } :=
        modSlice_congr (by rw [hk]; simp only [List.filter, hgone, Bool.not_true])
      unfold State.resvLate
      dsimp only
      rw [hm, hk, List.filter_cons_of_pos (p := fun k : Resv => k.ag == a && !s.resvLive k) hgone]
      rfl
    obtain ⟨r, hb⟩ := bump_frame (s.modSlice i fun x => { x with resv := [] }) (slcPage i) 0x224 7 0
    exact ((hq.modSlice i _ rfl rfl).bump _ _ _ _ (by unfold watched slcPage; omega)).ends ht (by rw [hb]; rfl) (by rw [hb]; rfl)

end Sys2Proof.Safety
end

section
/-! The selection of a verb and the claim of a way, where nothing stands against them (R30, R87, R203). -/

namespace Sys2Proof.Machine

variable {s : State} {i : Fin 17} {n : Nat} {e : Trk}

/-- Entry e with its verb selected (R203). -/
def Trk.selected (e : Trk) (u : Ucode) : Trk :=
  { e with
    stat := .ready false
    pc := bit1 u.active ++ (u.vt e.r.kind.opc e.we.code e.r.rk).entry
    dlr := (u.vt e.r.kind.opc e.we.code e.r.rk).dlr
    h := { e.h with expiry := e.h.exps.getD (u.vt e.r.kind.opc e.we.code e.r.rk).dlr.toNat e.h.expiry } }

theorem select_valid (he : s.ent i n = some e) (hi : (s.slice i).ar.inj = []) (hv : ((s.slice i).uc.vt e.r.kind.opc e.we.code e.r.rk).v = true) :
    s.select i n = s.setEnt i n (some (e.selected (s.slice i).uc)) := by
  unfold State.select
  rw [he]
  dsimp only
  rw [readWord_of_nil hi]
  exact if_pos hv

/-- The first free way of a set that a line may use. -/
theorem chooseWay_free {x : Slice} {set : Nat} {ok : Nat → Bool} {w : Nat}
    (hw : ((List.range 16).filter ok).find? (fun w => (x.sfGet set w).dir == .un && (x.wayHolder set w).isNone) = some w) : x.chooseWay set ok = some w := by
  unfold Slice.chooseWay
  dsimp only
  rw [hw]

/-- A request takes a way that is free, and its verb is selected (R87). -/
theorem claim_free (he : s.ent i n = some e) (hi : (s.slice i).ar.inj = []) (hu : s.unkept e.r.home = false) {w : Nat}
    (hw : ((List.range 16).filter (s.wayOk e.r.home e.r.rk)).find?
      (fun w => ((s.slice i).sfGet (sfSet e.r.a.pa) w).dir == .un && ((s.slice i).wayHolder (sfSet e.r.a.pa) w).isNone) = some w)
    (hv : ((s.slice i).uc.vt e.r.kind.opc e.we.code e.r.rk).v = true) (again : Bool) :
    s.claim i n again = s.modSlice i fun x => (x.setEnt n (some { e with way := BitVec.ofNat 4 w, wv := true })).setEnt n
      (some (({ e with way := BitVec.ofNat 4 w, wv := true } : Trk).selected (s.slice i).uc)) := by
  have hun : ((s.slice i).sfGet (sfSet e.r.a.pa) w).dir = .un := by
    have := List.find?_some hw
    simp only [Bool.and_eq_true, beq_iff_eq] at this
    exact this.1
  obtain ⟨v, hv'⟩ : ∃ v, v = s.setEnt i n (some { e with way := BitVec.ofNat 4 w, wv := true }) := ⟨_, rfl⟩
  have hsel : v.select i n = v.setEnt i n (some (({ e with way := BitVec.ofNat 4 w, wv := true } : Trk).selected (s.slice i).uc)) := by
    have hvs : v.slice i = (s.slice i).setEnt n (some { e with way := BitVec.ofNat 4 w, wv := true }) := by rw [hv', setEnt_slice_self]
    have := select_valid (s := v) (i := i) (n := n) (e := { e with way := BitVec.ofNat 4 w, wv := true }) (by rw [hv', ent_setEnt_self])
      (by rw [hvs]; exact hi) (by rw [hvs]; exact hv)
    rw [hvs] at this
    exact this
  unfold State.claim
  rw [he]
  dsimp only
  rw [if_neg (by rw [hu]; exact Bool.false_ne_true), hw]
  rw [if_neg (show ¬ (e.r.rk && s.detHome e.r.home && (some w).isNone) = true by simp), chooseWay_free hw]
  dsimp only
  rw [if_pos (by rw [hun]; rfl), modEnt_of_ent he, ← hv', hsel, hv', setEnt_setEnt]

end Sys2Proof.Machine
end

section
/-! O31 (R32, R124, R126, R127, R306): an eligible request re-enters and takes a way; one whose deadline passes in a queue is completed
and gone. -/

namespace Sys2Proof.Safety

open Sys2Proof.Machine

variable {s : State} {i : Fin 17} {n : Nat} {e : Trk} {p : Fin 24} {op : ReqOp}

theorem ents_single {x : Slice} (h : x.trk = [(n, some e)]) : x.ents = [(n, e)] := by
  unfold Slice.ents
  rw [h]
  rfl

theorem ent_single (h : (s.slice i).trk = [(n, some e)]) : s.ent i n = some e := by
  unfold State.ent Slice.ent
  rw [h]
  exact if_pos rfl

/-- Where every word of a line's sets can be read, the sets are as they are read. -/
theorem readSets_good {pa : LineAddr} (hi : (s.slice i).ar.inj = []) (h : ∀ w < 16, ((s.slice i).sfGet (sfSet pa) w).dir.ok = true) :
    s.readSets i pa = s := by
  unfold State.readSets
  refine if_pos ?_
  rw [hi]
  simpa using h

/-- The first way of a set in which every way is free. -/
theorem free_way {x : Slice} {set : Nat} (hf : ∀ w < 16, (x.sfGet set w).dir = .un) (hh : x.wayHolder set 0 = none) :
    ((List.range 16).filter fun _ => true).find? (fun w => (x.sfGet set w).dir == .un && (x.wayHolder set w).isNone) = some 0 := by
  rw [List.filter_true]
  exact List.find?_cons_of_pos (by rw [hf 0 (by decide), hh]; rfl)

/-- A re-entry of the one request that waits for a way takes the first (R32, R127). -/
theorem reentry_takes (hrun : s.sliceRuns i = true) (hi : (s.slice i).ar.inj = []) (ht : (s.slice i).trk = [(n, some e)])
    (hst : e.stat = .eligible) (hexp : s.expired e = false) (ho : e.opens = true) (hrk : e.r.rk = false) (hwv : e.wv = false)
    (hdet : s.detHome e.r.home = false) (hu : s.unkept e.r.home = false) (hnd : e.h.noDir = false)
    (hf : ∀ w < 16, ((s.slice i).sfGet (sfSet e.r.a.pa) w).dir = .un) {we : Dir} (hwe : we = if (s.slice i).suk (sfSet e.r.a.pa) then .uk else .un)
    (hv : ((s.slice i).uc.vt e.r.kind.opc we.code false).v = true) :
    ∃ f : Slice → Slice, s.reentryStep i = s.modSlice i (fun x => (f x).setEnt n (some
      (({ e with we := we, way := 0, wv := true } : Trk).selected (s.slice i).uc))) ∧ TrkOnly (s.slice i) (f (s.slice i)) := by
  have he := ent_single ht
  have hents := ents_single ht
  have hnext : s.nextEntry i = some (n, e) := by
    have hes : ((s.slice i).ents.filter fun e => e.2.stat == .eligible) = [(n, e)] := by
      rw [hents]
      exact List.filter_cons_of_pos (by simp [hst])
    unfold State.nextEntry
    dsimp only
    rw [hes, List.mergeSort_singleton]
    cases hd : s.detTxn e.r <;> simp [hd]
  obtain ⟨v, hvv⟩ : ∃ v, v = s.setEnt i n (some { e with we := we }) := ⟨_, rfl⟩
  have href : s.refreshWe i n = v := by
    unfold State.refreshWe
    rw [he]
    dsimp only
    rw [hst, ho, hwv, hnd, if_pos (by rfl), modEnt_of_ent he, ← hwe, hvv]
  have hvs : v.slice i = (s.slice i).setEnt n (some { e with we := we }) := by rw [hvv, setEnt_slice_self]
  have hve : v.ent i n = some { e with we := we } := by rw [hvv, ent_setEnt_self]
  have hhold : (v.slice i).wayHolder (sfSet e.r.a.pa) 0 = none := by
    have : (v.slice i).ents = [(n, { e with we := we })] := by
      rw [hvs]
      unfold Slice.ents Slice.setEnt tabSet
      rw [ht, if_neg nofun]
      simp [tabPut]
    unfold Slice.wayHolder
    rw [this]
    simp [hwv]
  have hok : v.wayOk e.r.home e.r.rk = fun _ => true := by
    funext w
    unfold State.wayOk
    rw [show v.detHome e.r.home = s.detHome e.r.home by rw [hvv]; rfl, hdet]
    rfl
  have hcl := claim_free (s := v) (i := i) (n := n) (e := { e with we := we }) (w := 0) hve (by rw [hvs]; exact hi) (by rw [hvv]; exact hu)
    (by rw [hok]; exact free_way (by rw [hvs]; exact hf) hhold) (by rw [hvs]; exact hrk ▸ hv) true
  refine ⟨fun x => (x.setEnt n (some { e with we := we })).setEnt n (some { e with we := we, way := 0, wv := true }), ?_,
    (TrkOnly.setEnt _ _ _).trans (.setEnt _ _ _)⟩
  have hre : s.reenter i n = (v.claim i n true) := by
    unfold State.reenter
    rw [he]
    dsimp only
    rw [if_pos ho, readSets_good hi fun w hw => by rw [hf w hw]; rfl, href]
  unfold State.reentryStep
  rw [if_neg (by simp [hrun]), hnext]
  dsimp only
  rw [withTrk_of_nil hi, if_neg (by simp [hexp]), hre, hcl, hvv, State.setEnt, modSlice_modSlice, modSlice_slice_self]
  rfl

/-- The end of a request without a companion at its port: a REQ credit and a home credit go back. -/
theorem reqReturn_port {r : Req} {v : State} (hp : r.port = some p) (hri : ((v.port p).rIss r.a.part).toNat ≤ v.rLimit p r.a.part) :
    v.reqReturn r = (v.modPort p (·.dueR r.a.part 1)).setHomeUsed r.home r.a.part r.rk (v.homeUsed r.home r.a.part r.rk - 1) := by
  have hr : v.retReq p r.a.part = v.modPort p (·.dueR r.a.part 1) := if_pos hri
  unfold State.reqReturn State.freeCredit
  rw [hp]
  dsimp only
  rw [hr]
  rfl

/-- The completion that a queued request without data gets. -/
theorem queueForm_comp {r : Req} (hk : r.kind = .req op) (hd : reqDat op = none) : lateMsg r.queueForm = .comp .timeout .i 0 := by
  unfold Req.queueForm
  rw [hk]
  cases op <;> simp_all [reqDat, lateMsg]

/-- State t is s after a request r without data has ended by its deadline, but for its slices, channels and what its caller counts. -/
structure EndedLate (s t : State) (p : Fin 24) (i : Fin 17) (r : Req) : Prop where
  rspo : (t.port p).link.rspo = (s.port p).link.rspo.push (.rsp .comp ⟨63, r.a.src, r.a.part, r.a.gen, r.a.atag, 5, 0, r.a.pa, 0⟩)
  reqDue : (t.port p).cred.reqDue = (s.port p).cred.reqDue ++ [(r.a.part, 1)]
  used : t.homeUsed r.home r.a.part false = s.homeUsed r.home r.a.part false - 1
  log : t.flt.log = s.flt.log ++ [⟨0x09, BitVec.ofNat 7 i.val, 63, r.a.part, r.a.pa, s.now⟩]
  others : ∀ q, q ≠ p → t.port q = s.port q
  dram : t.dram = s.dram
  glb : t.glb = s.glb

/-- Port x once a completion of request r has left it, and its REQ credit has come back. -/
def timedOut (x : Port) (acks : List AckTimer) (r : Req) : Port :=
  ({ x with acks := acks, link := x.link.send (.rsp .comp ⟨63, r.a.src, r.a.part, r.a.gen, r.a.atag, 5, 0, r.a.pa, 0⟩) } : Port).dueR r.a.part 1

theorem EndedLate.of {t : State} {r : Req} {acks : List AckTimer} (hp : t.port p = timedOut (s.port p) acks r)
    (hu : t.par = (s.setHomeUsed r.home r.a.part false (s.homeUsed r.home r.a.part false - 1)).par)
    (hl : t.flt.log = s.flt.log ++ [⟨0x09, BitVec.ofNat 7 i.val, 63, r.a.part, r.a.pa, s.now⟩]) (ho : ∀ q, q ≠ p → t.port q = s.port q)
    (hd : t.dram = s.dram) (hg : t.glb = s.glb) : EndedLate s t p i r := by
  refine ⟨by rw [hp]; rfl, by rw [hp]; rfl, ?_, hl, ho, hd, hg⟩
  unfold State.homeUsed
  rw [hu]
  exact tabGet_tabSet_self (α := Nat) 0 s.par.used (credKey r.home r.a.part false) _

/-- What a request without data needs to be completed at its port. -/
structure Completes (s : State) (p : Fin 24) (op : ReqOp) (r : Req) : Prop where
  kind : r.kind = .req op
  dat : reqDat op = none
  drain : reqIsDrain op = false
  port : r.port = some p
  wid : r.wid = 0
  rk : r.rk = false
  cd : r.cd = none
  passes : FlitPasses s p r.a.src
  gen : r.a.gen = (s.part r.a.part).gen
  credit : ((s.port p).rIss r.a.part).toNat ≤ s.rLimit p r.a.part

/-- A report of a deadline in a log with room. -/
theorem reportLate_room (r : Req) (h : s.flt.log.length < 256) : s.reportLate i r [] =
    s.modFlt fun f => { f with log := f.log ++ [⟨0x09, BitVec.ofNat 7 i.val, 63, r.a.part, r.a.pa, s.now⟩] } := by
  unfold State.reportLate
  rw [if_pos rfl]
  exact logEnt_room h _

theorem complete_late {v : State} {r : Req} (h : Completes s p op r) (hn : v.netClear = true) (hp : ∀ q, v.port q = s.port q)
    (hf : ∀ k, v.src k = s.src k) (hg : v.par.parts = s.par.parts) : ∃ acks, v.complete r (lateMsg r.queueForm) true = v.modPort p fun x =>
      { x with acks := acks, link := x.link.send (.rsp .comp ⟨63, r.a.src, r.a.part, r.a.gen, r.a.atag, 5, 0, r.a.pa, 0⟩) } := by
  rw [queueForm_comp h.kind h.dat]
  refine complete_comp h.kind h.port h.drain h.wid h.rk hn ⟨by rw [hp]; exact h.passes.up, h.passes.own, ?_, ?_⟩ ?_ .timeout .i 0 true
  · unfold State.portFenced
    rw [hf]
    exact h.passes.port
  · have ha := h.passes.agent
    unfold State.agFenced State.portFenced at ha ⊢
    rw [hf]
    simpa [hf] using ha
  · unfold State.part
    rw [hg]
    exact h.gen

/-- An entry without a companion is freed. -/
theorem freeEnt_bare (hc : Clear i s) (he : s.ent i n = some e) (hcd : e.r.cd = none) :
    s.freeEnt i n = ((s.detach i n).setEnt i n none).reqReturn e.r := by
  obtain ⟨hd, htrk⟩ := Frees.detach none hc.net i n
  have hcr : (s.detach i n).cdReturn i n = s.detach i n := by
    unfold State.cdReturn
    rw [show (s.detach i n).ent i n = some e from (ent_congr (htrk i) n).trans he]
    dsimp only
    rw [hcd]
  unfold State.freeEnt
  rw [he]
  dsimp only
  rw [traceEnt_off hc.trace, freeAreasOf_of_nil hc.egress, hcr, hd.recs, hc.recs]
  rfl

/-- The deadline of the one request that waits in a queue of its line (R126). -/
theorem queued_ends {tid : BitVec 13} (hq : Quiet s) (hrun : s.sliceRuns i = true) (htr : s.flag 63 0x140 31 = false) (hi : (s.slice i).ar.inj = [])
    (hroom : s.flt.log.length < 256) (hc : Completes s p op e.r) (ht : (s.slice i).trk = [(tid.toNat, some e)]) (hst : e.stat = .queued)
    (ho : e.opens = false) (hexp : s.expired e = true) (hcs : e.h.cs = false) (hg : e.h.grp = none) (hwv : e.wv = false)
    (hrecs : (s.slice i).recs = []) (heg : ∀ q, (s.port q).egress = []) :
    ∃ t, exec (.queuedDeadline i tid) s = .next t ∧ t.ent i tid.toNat = none ∧ EndedLate s t p i e.r := by
  have he := ent_single ht
  obtain ⟨u, hu⟩ : ∃ u, u = s.modFlt fun f => { f with log := f.log ++ [⟨0x09, BitVec.ofNat 7 i.val, 63, e.r.a.part, e.r.a.pa, s.now⟩] } := ⟨_, rfl⟩
  have huq : Quiet u := by rw [hu, ← logEnt_room hroom]; exact hq.logEnt _
  have hcu : Clear i u := by rw [hu]; exact ⟨hq.net, heg, hi, hrecs, htr⟩
  have heu : u.ent i tid.toNat = some e := by rw [hu]; exact he
  obtain ⟨acks, hcomp⟩ := complete_late (v := u.setEnt i tid.toNat (some { e with h := { e.h with cs := true } })) hc (by rw [hu]; exact hq.netClear)
    (fun q => by rw [hu]; rfl) (fun k => by rw [hu]; rfl) (by rw [hu]; rfl)
  have hfirst := (completeEnt_first heu hcs hcu.trace (lateMsg e.r.queueForm) true).trans hcomp
  obtain ⟨v, hv⟩ : ∃ v, u.completeEnt i tid.toNat (lateMsg e.r.queueForm) true = v := ⟨_, rfl⟩
  rw [hv] at hfirst
  have hcv : Completing i tid.toNat e u v := hfirst ▸ .ofPort hc.port hcu ⟨_, _, rfl⟩
  obtain ⟨hret, hdr⟩ := retire_drops hcv.clear hcv.entry hg ho hwv (by rw [hc.kind]; nofun)
  obtain ⟨y, c, hdet, -⟩ := detach_frame hcv.clear.net i tid.toNat
  obtain ⟨w, hw⟩ : ∃ w, w = (v.detach i tid.toNat).setEnt i tid.toNat none := ⟨_, rfl⟩
  have hwv : (∀ q, w.port q = v.port q) ∧ w.par = v.par ∧ w.flt = v.flt ∧ w.dram = v.dram ∧ w.glb = v.glb ∧ w.regs = v.regs := by
    rw [hw, hdet]
    exact ⟨fun _ => rfl, rfl, rfl, rfl, rfl, rfl⟩
  have hvs : (∀ q, q ≠ p → v.port q = s.port q) ∧ v.par = s.par ∧ v.flt = u.flt ∧ v.dram = s.dram ∧ v.glb = s.glb ∧ v.regs = s.regs := by
    rw [hfirst, hu]
    exact ⟨fun q hq => modPort_port_ne _ _ hq, rfl, rfl, rfl, rfl, rfl⟩
  have hvp : v.port p = { s.port p with acks := acks, link := (s.port p).link.send (.rsp .comp ⟨63, e.r.a.src, e.r.a.part, e.r.a.gen, e.r.a.atag, 5, 0, e.r.a.pa, 0⟩) } := by
    rw [hfirst, modPort_port_self, hu]
    rfl
  obtain ⟨w1, w2, w3, w4, w5, w6⟩ := hwv
  obtain ⟨v1, v2, v3, v4, v5, v6⟩ := hvs
  have hcredit : ((w.port p).rIss e.r.a.part).toNat ≤ w.rLimit p e.r.a.part := by
    have := hc.credit
    unfold State.rLimit State.fld State.reg at this ⊢
    rw [w6, v6, w1, hvp]
    exact this
  have hend : v.retire i tid.toNat = (w.modPort p (·.dueR e.r.a.part 1)).setHomeUsed e.r.home e.r.a.part e.r.rk (w.homeUsed e.r.home e.r.a.part e.r.rk - 1) := by
    rw [hret, freeEnt_bare hcv.clear hcv.entry hc.cd, ← hw]
    exact reqReturn_port hc.port hcredit
  obtain ⟨t, htt⟩ : ∃ t, t = v.retire i tid.toNat := ⟨_, rfl⟩
  have hjoin : t.joinLine i e.r.a.pa = t := joinLine_of_none fun f hf => by
    have hm := mem_ents (htt ▸ hf)
    have hs := hcv.sub _ (hdr.sub _ hm) (hdr.lacks _ hm)
    rw [hu, show ((s.modFlt _).slice i).trk = (s.slice i).trk from rfl, ht] at hs
    exact absurd (congrArg Prod.fst (List.mem_singleton.1 hs)) (hdr.lacks _ hm)
  have hstep : s.queuedDeadline i tid.toNat = t := by
    have hqe : s.queuedEnd i tid.toNat = t := by
      unfold State.queuedEnd
      rw [he]
      dsimp only
      rw [reportLate_room e.r hroom, ← hu, hv, if_pos (by rw [hst]; nofun), ← htt, hjoin]
    unfold State.queuedDeadline
    rw [he]
    dsimp only
    rw [hst, hexp, hrun, withTrk_of_nil hi, hqe]
    rfl
  obtain ⟨hfr, hlk⟩ := retire_frees hcv.clear hcv.entry hg
  rw [← htt] at hfr hlk
  have hk := hcv.keeps.trans hfr.keeps
  refine ⟨_, (hk.quiet huq).ends hstep (by rw [hk.pending, hu]; rfl) (by rw [hk.now, hu]; rfl), hlk.ent, .of (acks := acks) ?_ ?_ ?_ ?_ ?_ ?_⟩
  · rw [setPins_port, htt, hend]
    refine (modPort_port_self w p (·.dueR e.r.a.part 1)).trans ?_
    rw [w1, hvp]
    rfl
  · rw [setPins_par, htt, hend, hc.rk]
    have hpar : w.par = s.par := w2.trans v2
    unfold State.homeUsed State.setHomeUsed
    rw [modPar_par, modPar_par, modPort_par, hpar]
  · rw [setPins_flt, htt, hend]
    exact (congrArg Flt.log (w3.trans v3)).trans (by rw [hu]; rfl)
  · intro q hq
    rw [setPins_port, htt, hend]
    exact (modPort_port_ne w (·.dueR e.r.a.part 1) hq).trans ((w1 q).trans (v1 q hq))
  · rw [setPins_dram, htt, hend]
    exact w4.trans v4
  · rw [setPins_glb, htt, hend]
    exact w5.trans v5

/-- The deadline of the one request that waits in an ingress queue (R306). -/
theorem ingress_ends {k : Fin 26} {r : Req} (hq : Quiet s) (htr : s.flag 63 0x140 31 = false) (hroom : s.flt.log.length < 256) (hc : Completes s p op r)
    (hing : (s.slice i).ing k.val = ⟨[(r, 0)], []⟩) (hexp : s.ingressExpired i r = true) :
    ∃ t, exec (.ingressDeadline i k) s = .next t ∧ (t.slice i).ing k.val = ⟨[], []⟩ ∧ (t.slice i).trk = (s.slice i).trk ∧ t.chans = s.chans ∧
      EndedLate s t p i r := by
  obtain ⟨f, hf⟩ : ∃ f : Slice → Slice, s.ingExpire i k.val = (s.modSlice i f).withdraw i r true ∧ (f (s.slice i)).ing k.val = ⟨[], []⟩ ∧
      (f (s.slice i)).trk = (s.slice i).trk ∧ (f (s.slice i)).ctl = (s.slice i).ctl ∧ (f (s.slice i)).mem.ctl = (s.slice i).mem.ctl := by
    unfold State.ingExpire State.leaveIngress
    dsimp only
    rw [hing]
    dsimp only
    rw [if_pos (by simp [hexp]), List.nil_append, List.filter_cons_of_pos (p := fun e : Req × Nat => s.ingressExpired i e.1) (by exact hexp), List.filter_nil]
    refine ⟨_, rfl, ?_, rfl, rfl, rfl⟩
    simp [Slice.ing, Slice.setIng, hexp]
  obtain ⟨hstep, hfi, hft, hfc, hfm⟩ := hf
  obtain ⟨u, hu⟩ : ∃ u, u = (s.modSlice i f).modFlt fun g => { g with log := g.log ++ [⟨0x09, BitVec.ofNat 7 i.val, 63, r.a.part, r.a.pa, s.now⟩] } := ⟨_, rfl⟩
  have hlate : (s.modSlice i f).reportLate i r [] = u := (reportLate_room (s := s.modSlice i f) r hroom).trans hu.symm
  have huq : Quiet u := by rw [hu, ← logEnt_room (s := s.modSlice i f) hroom]; exact (hq.modSlice i f hfc (congrArg MscCtl.mode hfm)).logEnt _
  obtain ⟨acks, hcomp⟩ := complete_late (v := u) hc huq.netClear (fun q => by rw [hu]; rfl) (fun k => by rw [hu]; rfl) (by rw [hu]; rfl)
  obtain ⟨v, hv⟩ : ∃ v, v = u.complete r (lateMsg r.queueForm) true := ⟨_, rfl⟩
  rw [← hv] at hcomp
  have hup : ∀ q, u.port q = s.port q := fun q => by rw [hu]; rfl
  have hcredit : ((v.port p).rIss r.a.part).toNat ≤ v.rLimit p r.a.part := by
    rw [hcomp, modPort_port_self, hup, hu]
    exact hc.credit
  have hret := reqReturn_port (r := r) (v := v) hc.port hcredit
  have hend : u.endUnbound r = v.reqReturn r := by
    unfold State.endUnbound
    rw [← hv, hc.cd]
  obtain ⟨w, hw⟩ : ∃ w, w = u.modPort p (timedOut · acks r) := ⟨_, rfl⟩
  have hwv : v.modPort p (·.dueR r.a.part 1) = w := by rw [hcomp, hw]; exact modPort_modPort _ _ _ _
  have hwq : Quiet (w.setHomeUsed r.home r.a.part r.rk (v.homeUsed r.home r.a.part r.rk - 1)) :=
    Quiet.setHomeUsed (hw ▸ huq.modPort p _ rfl fun _ => .inl) _ _ _
  rw [hwv] at hret
  obtain ⟨g, hg⟩ := bump_frame (w.setHomeUsed r.home r.a.part r.rk (v.homeUsed r.home r.a.part r.rk - 1)) (slcPage i) 0x354 23 16
  have hb := hwq.bump (slcPage i) 0x354 23 16 (by unfold watched slcPage; omega)
  have ht : s.ingExpire i k.val = (w.setHomeUsed r.home r.a.part r.rk (v.homeUsed r.home r.a.part r.rk - 1)).bump (slcPage i) 0x354 23 16 := by
    rw [hstep]
    unfold State.withdraw
    dsimp only
    rw [if_pos rfl, hlate, show u.traceSend i r.a.src r.a.pa (lateMsg r.queueForm).opc = u from trace_off (by rw [hu]; exact htr) i _, hend, hret]
  obtain ⟨w1, w2, w3⟩ : w.flt.log = s.flt.log ++ [⟨0x09, BitVec.ofNat 7 i.val, 63, r.a.part, r.a.pa, s.now⟩] ∧ w.dram = s.dram ∧ w.glb = s.glb := by
    rw [hw, hu]
    exact ⟨rfl, rfl, rfl⟩
  rw [hg] at ht hb
  refine ⟨_, hb.ends ht (by rw [hw, hu]; rfl) (by rw [hw, hu]; rfl), ?_, ?_, by rw [hw, hu]; rfl, .of (acks := acks) ?_ ?_ ?_ ?_ ?_ ?_⟩
  · rw [hw, hu]
    exact (congrArg (fun x : Slice => x.ing k.val) (modSlice_slice_self s i f)).trans hfi
  · rw [hw, hu]
    exact (congrArg Slice.trk (modSlice_slice_self s i f)).trans hft
  · rw [hw]
    exact (modPort_port_self u p (timedOut · acks r)).trans (by rw [hup])
  · have hwp : w.par = s.par := by rw [hw, hu]; rfl
    have hvp : v.par = s.par := by rw [hcomp, hu]; rfl
    show (w.setHomeUsed _ _ _ _).par = _
    unfold State.setHomeUsed State.homeUsed
    rw [modPar_par, modPar_par, hwp, hvp, hc.rk]
  · exact w1
  · intro q hq
    rw [hw]
    exact (modPort_port_ne u (timedOut · acks r) hq).trans (hup q)
  · exact w2
  · exact w3

/-- Settles O31. -/
theorem queuedRequestsGoOnOrEnd : Obligations.QueuedRequestsGoOnOrEnd := by
  refine fun s i n e p hq hrun htr hi hroom => ⟨?_,
    fun r op hk hd _ hp hcd hw hrk hpass hg hri hdr => ⟨fun ht her hst ho hexp hcs hgr hwv hrecs heg => ?_, fun k hing hexp => ?_⟩⟩
  · intro ht hst hexp ho hrk hwv hdet hu hnd hf we hv
    obtain ⟨f, hs, hto⟩ := reentry_takes hrun hi ht hst hexp ho hrk hwv hdet hu hnd hf (we := we) rfl hv
    have hctl : (f (s.slice i)).ctl = (s.slice i).ctl ∧ (f (s.slice i)).mem.ctl = (s.slice i).mem.ctl := by
      obtain ⟨t, h⟩ := hto
      rw [h]
      exact ⟨rfl, rfl⟩
    refine ⟨_, ({ e with we := we, way := 0, wv := true } : Trk).selected (s.slice i).uc,
      (hq.modSlice i (fun x => (f x).setEnt n.toNat (some (({ e with we := we, way := 0, wv := true } : Trk).selected (s.slice i).uc)))
        hctl.1 (congrArg MscCtl.mode hctl.2)).ends hs rfl rfl, ?_, rfl, rfl, rfl, rfl, rfl, ho, rfl, rfl, rfl, rfl, rfl, rfl, rfl⟩
    exact (congrArg (Slice.ent · n.toNat) (modSlice_slice_self s i
      fun x => (f x).setEnt n.toNat (some (({ e with we := we, way := 0, wv := true } : Trk).selected (s.slice i).uc)))).trans
      (setEnt_ent_self (f (s.slice i)) _ _)
  · subst her
    obtain ⟨t, hx, hn, h⟩ := queued_ends hq hrun htr hi hroom ⟨hk, hd, hdr, hp, hw, hrk, hcd, hpass, hg, hri⟩ ht hst ho hexp hcs hgr hwv hrecs heg
    exact ⟨t, hx, hn, h.rspo, h.reqDue, h.used, h.log, h.others, h.dram, h.glb⟩
  · obtain ⟨t, hx, h1, h2, h3, h⟩ := ingress_ends hq htr hroom ⟨hk, hd, hdr, hp, hw, hrk, hcd, hpass, hg, hri⟩ hing hexp
    exact ⟨t, hx, h1, h.rspo, h.reqDue, h.used, h.log, h.others, h2, h3, h.dram, h.glb⟩

end Sys2Proof.Safety
end

section
/-! A fresh tracker entry, and what a pass of a slice leaves as it was (R203). -/

namespace Sys2Proof.Machine

variable {s t u : State} {i : Fin 17} {n : Nat} {e : Trk}

/-! ### The lowest free entry -/

theorem freeTid_used {l : List Nat} {m t : Nat} (h : freeTid l m t ∈ l) : ∀ k ≤ m, t + k ∈ l := by
  induction m generalizing t with
  | zero =>
    intro k hk
    obtain rfl : k = 0 := by omega
    exact h
  | succ m ih =>
    unfold freeTid at h
    split at h
    · next hc =>
      intro k hk
      cases k with
      | zero => exact List.contains_iff_mem.1 hc
      | succ k => exact (show t + 1 + k = t + (k + 1) by omega) ▸ ih h k (by omega)
    · next hc => exact absurd (List.contains_iff_mem.2 h) hc

/-- The entry that is bound next is not bound: of as many numbers and one more, one is free. -/
theorem lacks_nextTid (x : Slice) : x.lacks x.nextTid := by
  intro e he hn
  have hin : freeTid (x.trk.map Prod.fst) x.trk.length 0 ∈ x.trk.map Prod.fst := by
    unfold Slice.nextTid at hn
    exact hn ▸ List.mem_map_of_mem he
  have hsub : List.range (x.trk.length + 1) ⊆ x.trk.map Prod.fst := fun k hk =>
    Nat.zero_add k ▸ freeTid_used hin k (by have := List.mem_range.1 hk; omega)
  have := (List.subperm_of_subset List.nodup_range hsub).length_le
  rw [List.length_range, List.length_map] at this
  omega

theorem tabPut_tabPut {α : Type} (t : Tab α) (k : Nat) (v w : α) : tabPut (tabPut t k v) k w = tabPut t k w := by
  induction t with
  | nil => simp [tabPut]
  | cons a t ih =>
    obtain ⟨j, z⟩ := a
    by_cases hj : j = k
    · simp [tabPut, hj]
    · by_cases hk : k < j
      · simp [tabPut, hj, hk]
      · simp [tabPut, hj, hk, ih]

/-- The entry that is written last stands. -/
theorem slice_setEnt_setEnt (x : Slice) (n : Nat) (e k : Trk) : (x.setEnt n (some e)).setEnt n (some k) = x.setEnt n (some k) := by
  unfold Slice.setEnt tabSet
  rw [if_neg nofun, if_neg nofun, if_neg nofun]
  exact congrArg (fun t => { x with trk := t }) (tabPut_tabPut _ _ _ _)

/-- A search that passes a fresh entry over finds what it found before. -/
theorem find_fresh {x : Slice} (hx : x.lacks n) {p : Nat × Trk → Bool} (hp : p (n, e) = false) :
    (x.setEnt n (some e)).ents.find? p = x.ents.find? p := by
  unfold Slice.lacks at hx
  unfold Slice.ents Slice.setEnt tabSet
  rw [if_neg nofun]
  dsimp only
  generalize x.trk = t at hx ⊢
  induction t with
  | nil => simp [tabPut, hp]
  | cons a t ih =>
    obtain ⟨j, z⟩ := a
    have hj : j ≠ n := hx _ List.mem_cons_self
    have ih := ih fun k hk => hx k (List.mem_cons_of_mem _ hk)
    unfold tabPut
    rw [if_neg hj]
    split
    · simp [hp]
    · cases z with
      | none => simpa using ih
      | some z =>
        simp only [List.filterMap_cons, Option.map_some, List.find?_cons]
        rw [ih]

/-! ### What a pass leaves -/

/-- A pass of slices changes the slices, but for their controls, the counters of the counter unit and the number of passes. -/
structure Runs (s t : State) : Prop where
  frame : ∃ v k m, t = { s with slices := v, tst := { s.tst with pc := k }, passNo := m }
  ctl : ∀ j, (t.slice j).ctl = (s.slice j).ctl ∧ (t.slice j).mem.ctl = (s.slice j).mem.ctl

theorem Runs.refl (s : State) : Runs s s := ⟨⟨_, _, _, rfl⟩, fun _ => ⟨rfl, rfl⟩⟩

theorem Runs.trans (h : Runs s t) (k : Runs t u) : Runs s u where
  frame := by
    obtain ⟨v, a, m, rfl⟩ := h.frame
    obtain ⟨w, b, l, rfl⟩ := k.frame
    exact ⟨w, b, l, rfl⟩
  ctl j := ⟨(k.ctl j).1.trans (h.ctl j).1, (k.ctl j).2.trans (h.ctl j).2⟩

theorem Runs.modSlice (s : State) (j : Fin 17) (f : Slice → Slice) (hc : (f (s.slice j)).ctl = (s.slice j).ctl)
    (hm : (f (s.slice j)).mem.ctl = (s.slice j).mem.ctl) : Runs s (s.modSlice j f) where
  frame := ⟨_, _, _, rfl⟩
  ctl k := by
    rw [modSlice_slice]
    split
    · next h => rw [h]; exact ⟨hc, hm⟩
    · exact ⟨rfl, rfl⟩

theorem Runs.setEnt (s : State) (j : Fin 17) (k : Nat) (e : Option Trk) : Runs s (s.setEnt j k e) := .modSlice s j _ rfl rfl

theorem Runs.modEnt (s : State) (j : Fin 17) (k : Nat) (f : Trk → Trk) : Runs s (s.modEnt j k f) := by
  unfold State.modEnt
  split
  · exact .setEnt s j k _
  · exact .refl s

theorem Runs.perf (s : State) (j : Fin 17) (ev m : Nat) : Runs s (s.perf j ev m) := by
  obtain ⟨k, hk⟩ := perf_frame s j ev m
  rw [hk]
  exact ⟨⟨_, _, _, rfl⟩, fun _ => ⟨rfl, rfl⟩⟩

theorem perf_slice (s : State) (i j : Fin 17) (ev m : Nat) : (s.perf i ev m).slice j = s.slice j := by
  obtain ⟨k, hk⟩ := perf_frame s i ev m
  rw [hk]
  rfl

/-- What no pass changes is read as before. -/
theorem Runs.same (h : Runs s t) : t.regs = s.regs ∧ t.flt = s.flt ∧ t.par = s.par ∧ t.glb = s.glb ∧ t.ports = s.ports ∧ t.chans = s.chans ∧
    t.dram = s.dram := by
  obtain ⟨v, k, m, rfl⟩ := h.frame
  exact ⟨rfl, rfl, rfl, rfl, rfl, rfl, rfl⟩

theorem Runs.flag (h : Runs s t) (k o b : Nat) : t.flag k o b = s.flag k o b := by
  obtain ⟨v, a, m, rfl⟩ := h.frame
  rfl

end Sys2Proof.Machine

namespace Sys2Proof.Safety

open Sys2Proof.Machine

theorem Quiet.runs {s t : State} (hq : Quiet s) (h : Runs s t) : Quiet t := by
  obtain ⟨v, k, m, rfl⟩ := h.frame
  exact hq.mono rfl rfl rfl hq.load hq.job hq.gc rfl rfl rfl rfl rfl (fun _ => ⟨rfl, fun _ => .inl⟩)
    (fun j => ⟨(h.ctl j).1, congrArg MscCtl.mode (h.ctl j).2⟩) ⟨rfl, rfl⟩ rfl ⟨rfl, rfl⟩ rfl hq.reads

/-- A command that is a pass of slices ends with it. -/
theorem Quiet.endsRun {s t : State} (hq : Quiet s) (h : Runs s t) : Machine.commandEnd s t = .next t.setPins :=
  (hq.runs h).ends rfl (by obtain ⟨v, k, m, rfl⟩ := h.frame; rfl) (by obtain ⟨v, k, m, rfl⟩ := h.frame; rfl)

end Sys2Proof.Safety
end

section
/-! One sc of the arbiter with one waiter, and the first pass of its request (R28, R203, R303). -/

namespace Sys2Proof.Machine

variable {s u v : State} {i : Fin 17} {p : Fin 24} {r : Req} {k n : Nat} {op : ReqOp} {e : Trk} {x : Slice}

/-! ### Who waits -/

theorem filterMap_eq_nil_of {α β : Type} {f : α → Option β} {l : List α} (h : ∀ a ∈ l, f a = none) : l.filterMap f = [] :=
  List.filterMap_eq_nil_iff.2 h

theorem filterMap_single {α β : Type} {f : α → Option β} {a : α} {b : β} (hf : f a = some b) :
    ∀ {l : List α}, l.Nodup → a ∈ l → (∀ c ∈ l, c ≠ a → f c = none) → l.filterMap f = [b]
  | c :: l, hn, ha, hl => by
    obtain ⟨hc, hn⟩ := List.nodup_cons.1 hn
    by_cases hca : c = a
    · subst hca
      rw [List.filterMap_cons_some hf, filterMap_eq_nil_of fun d hd => hl d (List.mem_cons_of_mem _ hd) fun h => hc (h ▸ hd)]
    · rw [List.filterMap_cons_none (hl c List.mem_cons_self hca)]
      exact filterMap_single hf hn ((List.mem_cons.1 ha).resolve_left fun h => hca h.symm) fun d hd => hl d (List.mem_cons_of_mem _ hd)

theorem ingHead_empty {rq : Nat} (h : (s.slice i).ing rq = ⟨[], []⟩) : s.ingHead i rq = none := by
  unfold State.ingHead
  rw [h]

theorem ingHead_single {rq : Nat} (h : (s.slice i).ing rq = ⟨[(r, k)], []⟩) (hr : s.flt.run = none) : s.ingHead i rq = some (r, k) := by
  unfold State.ingHead State.directHeld
  rw [h, hr]
  rfl

/-- Requester 24 has nothing of its own to do. -/
def State.noWork (s : State) (i : Fin 17) : Prop := (s.slice i).sw.busy = false ∧ s.glb.bc.sweep = []

theorem waiter_of_empty (hw : s.noWork i) {rq : Nat} (h : (s.slice i).ing rq = ⟨[], []⟩) (own : Fin 16) :
    (match if 24 ≤ rq ∧ s.ownStopped then none else s.ingHead i rq with
    | some (r, t) => some (⟨rq, r.home, t⟩ : Waiter)
    | none =>
      if rq = 24 && (if s.ownStopped then (s.slice i).sw.presLeft != 0 else (s.slice i).sw.busy || (s.bcVisit i).isSome)
      then some ⟨24, own, (s.slice i).sw.bgAt⟩ else none) = none := by
  obtain ⟨hb, hsw⟩ := hw
  have hp : ((s.slice i).sw.presLeft != 0) = false := by
    unfold Sweeps.busy at hb
    simp only [Bool.or_eq_false_iff] at hb
    exact hb.1.1
  rw [ingHead_empty h, ite_self, hp, hb]
  unfold State.bcVisit
  rw [hsw]
  cases s.ownStopped <;> simp

theorem waiters_none (hw : s.noWork i) (h : ∀ rq, (s.slice i).ing rq = ⟨[], []⟩) : s.waiters i = [] := by
  unfold State.waiters
  exact filterMap_eq_nil_of fun rq _ => waiter_of_empty hw (h rq) _

theorem waiters_single (hw : s.noWork i) (hr : s.flt.run = none) (ho : ∀ rq, rq ≠ p.val → (s.slice i).ing rq = ⟨[], []⟩)
    (h : (s.slice i).ing p.val = ⟨[(r, k)], []⟩) : s.waiters i = [⟨p.val, r.home, k⟩] := by
  unfold State.waiters
  refine filterMap_single (a := p.val) ?_ List.nodup_range (List.mem_range.2 (by omega)) fun rq _ hrq => waiter_of_empty hw (ho rq hrq) _
  rw [if_neg (by omega), ingHead_single h hr]

/-! ### The arbiter -/

theorem arbitrate_none (h : s.waiters i = []) : s.arbitrate i = (none, none, false) := by
  unfold State.arbitrate
  rw [h]
  generalize s.scTable i = tab
  obtain ⟨h', slot, other⟩ := tab
  cases other <;> rfl

theorem oldestOf_mem {a : Waiter} : ∀ {l : List Waiter}, oldestOf l = some a → a ∈ l
  | w :: l, h => by
    unfold oldestOf at h
    cases ho : oldestOf l with
    | none =>
      rw [ho] at h
      exact (Option.some.inj h) ▸ List.mem_cons_self
    | some b =>
      rw [ho] at h
      dsimp only at h
      split at h
      · exact (Option.some.inj h) ▸ List.mem_cons_of_mem _ (oldestOf_mem ho)
      · exact (Option.some.inj h) ▸ List.mem_cons_self

/-- What a home's table grants waits. -/
theorem byTable_mem (h : Fin 16) (slot : Nat) (l : List Waiter) :
    (∀ a, (s.byTable i h slot l).1 = some a → a ∈ l) ∧ ∀ a, (s.byTable i h slot l).2 = some a → a ∈ l := by
  refine ⟨fun a ha => ?_, fun a ha => List.mem_of_mem_filter (List.mem_of_mem_filter (oldestOf_mem ha))⟩
  obtain ⟨o, -, ho⟩ := Option.bind_eq_some_iff.1 ha
  exact List.mem_of_mem_filter (List.mem_of_find?_eq_some ho)

theorem filter_single {o : Option Waiter} {w : Waiter} (h : ∀ a, o = some a → a = w) : (o.filter fun a => a.rq != w.rq) = none := by
  cases o with
  | none => rfl
  | some a =>
    rw [h a rfl]
    exact if_neg (by simp)

/-- The grant among some waiters by the table of home h (R303, R304). -/
def State.grantAmong (s : State) (i : Fin 17) (h : Fin 16) (slot : Nat) (l : List Waiter) : Option Waiter × Option Nat × Bool :=
  let a := (s.slice i).arb
  let carried := a.carried.bind fun q => l.find? fun w => w.rq == q
  match oldestOf l with
  | none => (none, none, false)
  | some old =>
    if s.fld (slcPage i) 0x350 6 0 ≤ a.sinceLw + 1 then
      (some old, ((match carried with
        | some w => if w.rq == old.rq then (s.byTable i h slot l).1 else some w
        | none => (s.byTable i h slot l).1).filter fun w : Waiter => w.rq != old.rq).map Waiter.rq, true)
    else match carried with
      | some w => (some w, ((s.byTable i h slot l).1.filter fun o => o.rq != w.rq).map Waiter.rq, false)
      | none => (((s.byTable i h slot l).1.or (s.byTable i h slot l).2).or (some old), none, false)

/-- The one that waits is granted: by the table, as the longest waiter, or as the one whose grant is carried. -/
theorem grantAmong_single (hh : Fin 16) (slot : Nat) (w' : Waiter) : ∃ lw, s.grantAmong i hh slot [w'] = (some w', none, lw) := by
  unfold State.grantAmong
  dsimp only
  obtain ⟨hown, hback⟩ := byTable_mem (s := s) (i := i) hh slot [w']
  have hcar : ∀ a, ((s.slice i).arb.carried.bind fun q => [w'].find? fun w => w.rq == q) = some a → a = w' := fun a ha => by
    obtain ⟨o, -, ho⟩ := Option.bind_eq_some_iff.1 ha
    exact List.mem_singleton.1 (List.mem_of_find?_eq_some ho)
  have hown : ∀ a, (s.byTable i hh slot [w']).1 = some a → a = w' := fun a ha => List.mem_singleton.1 (hown a ha)
  have hback : ∀ a, (s.byTable i hh slot [w']).2 = some a → a = w' := fun a ha => List.mem_singleton.1 (hback a ha)
  generalize s.byTable i hh slot [w'] = tb at hown hback ⊢
  generalize ((s.slice i).arb.carried.bind fun q => [w'].find? fun w => w.rq == q) = car at hcar ⊢
  obtain ⟨owner, back⟩ := tb
  simp only [oldestOf]
  split
  · refine ⟨true, ?_⟩
    cases car with
    | none => rw [filter_single hown]; rfl
    | some c =>
      obtain rfl := hcar c rfl
      dsimp only
      rw [if_pos (by simp), filter_single hown]
      rfl
  · cases car with
    | some c =>
      obtain rfl := hcar c rfl
      refine ⟨false, ?_⟩
      dsimp only
      rw [filter_single hown]
      rfl
    | none =>
      refine ⟨false, ?_⟩
      cases owner with
      | some a => rw [hown a rfl]; rfl
      | none => cases back with
        | some a => rw [hback a rfl]; rfl
        | none => rfl

theorem arbitrate_single {w : Waiter} (h : s.waiters i = [w]) : ∃ a lw, s.arbitrate i = (some a, none, lw) ∧ a.rq = w.rq := by
  unfold State.arbitrate
  rw [h]
  generalize s.scTable i = tab
  obtain ⟨h', slot, other⟩ := tab
  cases other with
  | none =>
    obtain ⟨lw, hg⟩ := grantAmong_single (s := s) (i := i) h' slot { w with home := h' }
    exact ⟨_, lw, hg, rfl⟩
  | some o =>
    obtain ⟨lw, hg⟩ := grantAmong_single (s := s) (i := i) (if [w].any (·.home == h') then h' else o) slot w
    exact ⟨_, lw, hg, rfl⟩

/-! ### One sc -/

/-- A requester whose queue is empty has nothing to withdraw or to forward. -/
theorem ing_empty_stays {rq : Nat} (h : (s.slice i).ing rq = ⟨[], []⟩) : (s.ingExpire i rq).ingForward i rq = s := by
  unfold State.ingExpire State.ingForward
  rw [Safety.leaveIngress_of_empty h, Safety.leaveIngress_of_empty h]

/-- A request that its own slice serves, before its deadline, stays in its queue. -/
theorem ing_single_stays {rq : Nat} (h : (s.slice i).ing rq = ⟨[(r, k)], []⟩) (he : s.ingressExpired i r = false)
    (hs : s.servingSlice r.home r.a.pa = some i) : (s.ingExpire i rq).ingForward i rq = s := by
  have hx : s.ingExpire i rq = s := by
    unfold State.ingExpire State.leaveIngress
    dsimp only
    rw [h]
    exact if_neg (by simp [he])
  rw [hx]
  unfold State.ingForward State.leaveIngress
  dsimp only
  rw [h]
  exact if_neg (by simp [hs])

/-- The slice as one sc leaves its arbiter's part. -/
def Slice.ticked (x : Slice) (lw : Nat) : Slice :=
  { x with trace := { x.trace with inSc := 0 }, arb := { sc := x.arb.sc + 1, carried := none, sinceLw := lw } }

/-- The state as the counters of an sc leave it (0x0E, 0x0D). -/
theorem sc_counters (s : State) (i : Fin 17) (a : Nat) : ∃ pc, (s.perf i 0x0E).perf i 0x0D a = { s with tst := { s.tst with pc := pc } } := by
  obtain ⟨b, hb⟩ := perf_frame s i 0x0E 1
  obtain ⟨c, hc⟩ := perf_frame (s.perf i 0x0E) i 0x0D a
  exact ⟨c, by rw [hc, hb]⟩

/-- With nothing waiting an sc passes. -/
theorem arbiterStep_none (hrun : s.sliceRuns i = true) (hw : s.noWork i) (h : ∀ rq, (s.slice i).ing rq = ⟨[], []⟩) :
    ∃ pc, s.arbiterStep i = ({ s with tst := { s.tst with pc := pc } } : State).modSlice i (·.ticked (s.slice i).arb.sinceLw) := by
  obtain ⟨pc, hpc⟩ := sc_counters s i (s.slice i).ents.length
  refine ⟨pc, ?_⟩
  unfold State.arbiterStep
  rw [hpc]
  obtain ⟨v, hv⟩ : ∃ v : State, v = { s with tst := { s.tst with pc := pc } } := ⟨_, rfl⟩
  have hvs : v.slice i = s.slice i := by rw [hv]; rfl
  have hvr : v.sliceRuns i = true := by rw [hv]; exact hrun
  have hvb : v.glb = s.glb := by rw [hv]
  rw [← hv]
  dsimp only
  rw [if_neg (by simp [hvr])]
  obtain ⟨u, hu⟩ : ∃ u, u = v.modSlice i fun x => { x with trace := { x.trace with inSc := 0 } } := ⟨_, rfl⟩
  have hus : u.slice i = { s.slice i with trace := { (s.slice i).trace with inSc := 0 } } := by rw [hu, modSlice_slice_self, hvs]
  have hui : ∀ rq, (u.slice i).ing rq = ⟨[], []⟩ := fun rq => by rw [hus]; exact h rq
  have huw : u.noWork i := ⟨by rw [hus]; exact hw.1, by rw [hu]; exact hvb ▸ hw.2⟩
  rw [← hu, Safety.foldl_fixed _ _ _ fun rq _ => ing_empty_stays (hui rq), arbitrate_none (waiters_none huw hui)]
  dsimp only
  rw [if_neg nofun, hu, modSlice_modSlice]
  refine Safety.modSlice_congr ?_
  rw [hvs]
  rfl

/-- The one request that waits makes its first pass, taken from its queue. -/
theorem arbiterStep_single (hrun : s.sliceRuns i = true) (hw : s.noWork i) (hr : s.flt.run = none)
    (ho : ∀ rq, rq ≠ p.val → (s.slice i).ing rq = ⟨[], []⟩) (h : (s.slice i).ing p.val = ⟨[(r, k)], []⟩) (he : s.ingressExpired i r = false)
    (hs : s.servingSlice r.home r.a.pa = some i) :
    ∃ u lw, s.arbiterStep i = u.firstPass i p.val r ∧ Runs s u ∧ u.slice i = ((s.slice i).ticked lw).setIng p.val ⟨[], []⟩ := by
  obtain ⟨pc, hpc⟩ := sc_counters s i (s.slice i).ents.length
  unfold State.arbiterStep
  rw [hpc]
  obtain ⟨v, hv⟩ : ∃ v : State, v = { s with tst := { s.tst with pc := pc } } := ⟨_, rfl⟩
  have hvs : v.slice i = s.slice i := by rw [hv]; rfl
  have hvr : v.sliceRuns i = true := by rw [hv]; exact hrun
  rw [← hv]
  dsimp only
  rw [if_neg (by simp [hvr])]
  obtain ⟨u, hu⟩ : ∃ u, u = v.modSlice i fun x => { x with trace := { x.trace with inSc := 0 } } := ⟨_, rfl⟩
  have hus : u.slice i = { s.slice i with trace := { (s.slice i).trace with inSc := 0 } } := by rw [hu, modSlice_slice_self, hvs]
  have huo : ∀ rq, rq ≠ p.val → (u.slice i).ing rq = ⟨[], []⟩ := fun rq hrq => by rw [hus]; exact ho rq hrq
  have hup : (u.slice i).ing p.val = ⟨[(r, k)], []⟩ := by rw [hus]; exact h
  have hug : u.glb = s.glb ∧ u.flt = s.flt := by rw [hu, hv]; exact ⟨rfl, rfl⟩
  have huw : u.noWork i := ⟨by rw [hus]; exact hw.1, by rw [hug.1]; exact hw.2⟩
  have hur : u.flt.run = none := by rw [hug.2]; exact hr
  have hue : u.ingressExpired i r = false := by
    have : u.ingressExpired i r = s.ingressExpired i r := by
      unfold State.ingressExpired State.queueDlr
      rw [hus, hu, hv]
      rfl
    rw [this, he]
  have husv : u.servingSlice r.home r.a.pa = some i := by rw [hu, hv]; exact hs
  obtain ⟨a, lw, harb, haq⟩ := arbitrate_single (waiters_single huw hur huo hup)
  rw [← hu, Safety.foldl_fixed _ _ _ fun rq _ => by
    by_cases hrq : rq = p.val
    · rw [hrq]; exact ing_single_stays hup hue husv
    · exact ing_empty_stays (huo rq hrq), harb]
  dsimp only
  rw [if_neg nofun]
  obtain ⟨n, hn⟩ : ∃ n, n = if lw then 0 else (s.slice i).arb.sinceLw + 1 := ⟨_, rfl⟩
  obtain ⟨w, hw'⟩ : ∃ w, w = (u.modSlice i fun x => { x with arb :=
      { sc := x.arb.sc + 1, carried := none
        sinceLw := if (some a).isNone then x.arb.sinceLw else if lw then 0 else x.arb.sinceLw + 1 } }) := ⟨_, rfl⟩
  have hws : w.slice i = (s.slice i).ticked n := by rw [hw', modSlice_slice_self, hus, hn]; rfl
  have hwf : Runs s w := by
    rw [hw', hu, modSlice_modSlice]
    exact (show Runs s v from ⟨⟨_, _, _, hv⟩, fun j => by rw [hv]; exact ⟨rfl, rfl⟩⟩).trans (.modSlice v i _ rfl rfl)
  have hwp : ((w.perf i 0x01).slice i).ing p.val = ⟨[(r, k)], []⟩ := by rw [perf_slice, hws]; exact h
  have hwr : (w.perf i 0x01).flt.run = none := by rw [(Runs.perf w i 0x01 1).same.2.1, hwf.same.2.1]; exact hr
  refine ⟨(w.perf i 0x01).modSlice i (·.ingPop p.val), n, ?_, (hwf.trans (.perf _ _ _ _)).trans (.modSlice _ i _ ?_ ?_), ?_⟩
  · rw [← hw']
    unfold State.grantPass
    rw [haq, if_neg (show ¬ (24 ≤ p.val ∧ _) by omega), ingHead_single hwp hwr]
    dsimp only
    rw [show ((w.perf i 0x01).modSlice i (·.ingPop p.val)).flt.run = none from hwr]
  · unfold Slice.ingPop
    rw [hwp]
    rfl
  · unfold Slice.ingPop
    rw [hwp]
    rfl
  · rw [modSlice_slice_self]
    unfold Slice.ingPop
    rw [hwp, perf_slice, hws]
    rfl

end Sys2Proof.Machine
end

section
/-! The first pass of a request: it is bound, and opens its line or joins the line's queue (R203). -/

namespace Sys2Proof.Machine

variable {s u v : State} {i : Fin 17} {rq : Nat} {r : Req} {k n : Nat} {op : ReqOp} {e : Trk} {x : Slice} {pa : LineAddr}

theorem wroteRun_of_nil {a : Arrays} (h : a.inj = []) (arr : Fin 10) (w m : Nat) : a.wroteRun arr w m = a := by
  unfold Arrays.wroteRun
  rw [h]
  exact congrArg (fun l => { a with inj := l }) h.symm

theorem wrote_of_nil {a : Arrays} (h : a.inj = []) (arr : Fin 10) (w : Nat) : a.wrote arr w = a := by
  unfold Arrays.wrote
  rw [h]
  exact congrArg (fun l => { a with inj := l }) h.symm

/-- Taking a request's reservation away leaves the rest of the slice (R157). -/
theorem resvPass_runs (hr : s.flt.run = none) (r : Req) : Runs s (s.resvPass i r) ∧ ∃ rs, (s.resvPass i r).slice i = { s.slice i with resv := rs } := by
  have hsv : s.svcSlice i = i := by
    unfold State.svcSlice
    rw [hr]
  unfold State.resvPass
  split
  · rw [hsv]
    exact ⟨.modSlice s i _ rfl rfl, _, modSlice_slice_self _ _ _⟩
  · exact ⟨.refl s, _, rfl⟩

/-- A request is bound to the entry that is free (R203). -/
theorem bind_runs (hi : (s.slice i).ar.inj = []) (r : Req) (st : TStat) : ∃ a d l, Runs s (s.bind i r st).1 ∧ (s.bind i r st).2 = (s.slice i).nextTid ∧
    (s.bind i r st).1.slice i = (s.slice i).setEnt (s.slice i).nextTid (some (.init r st a d l)) := by
  obtain ⟨d, hd⟩ : ∃ d, d = s.queueDlr i r := ⟨_, rfl⟩
  obtain ⟨l, hl⟩ : ∃ l, l = s.deadlines i r := ⟨_, rfl⟩
  obtain ⟨f, hf⟩ : ∃ f : Slice → Slice, f = fun x => { x.setEnt (s.slice i).nextTid (some (.init r st s.passNo d l)) with
    ar := x.ar.wroteRun 2 (trkWord (s.slice i).nextTid) 4 } := ⟨_, rfl⟩
  have hb : s.bind i r st = ({ s.modSlice i f with passNo := s.passNo + 1 }, (s.slice i).nextTid) := by
    rw [hf, hd, hl]
    rfl
  have hfs : f (s.slice i) = (s.slice i).setEnt (s.slice i).nextTid (some (.init r st s.passNo d l)) := by
    rw [hf]
    dsimp only
    rw [wroteRun_of_nil hi]
    rfl
  refine ⟨s.passNo, d, l, ?_, ?_, ?_⟩
  · rw [hb]
    exact (Runs.modSlice s i f (by rw [hfs]; rfl) (by rw [hfs]; rfl)).trans ⟨⟨_, _, _, rfl⟩, fun _ => ⟨rfl, rfl⟩⟩
  · rw [hb]
  · rw [hb, ← hfs]
    exact modSlice_slice_self s i f

theorem traceFirst_off (h : s.flag 63 0x140 31 = false) (t : Nat) : s.traceFirst i t = s := by
  unfold State.traceFirst
  cases s.ent i t with
  | none => rfl
  | some e => exact traceEnt_off h _ _ _ _ _ _

/-- The first pass of a request that is no eviction and no drain, of a slice that serves its line. -/
theorem firstPass_binds (hr : s.flt.run = none) (hs : s.servingSlice r.home r.a.pa = some i) (hi : (s.slice i).ar.inj = [])
    (htr : s.flag 63 0x140 31 = false) (hk : r.kind = .req op) (he : reqIsEvict op = false) (hd : reqIsDrain op = false) :
    ∃ v rs a d l, Runs s v ∧ v.slice i = ({ s.slice i with resv := rs } : Slice).setEnt (s.slice i).nextTid (some (.init r .eligible a d l)) ∧
      s.firstPass i rq r = if (s.slice i).lineBusy r.a.pa then v.enqueue i (s.slice i).nextTid else v.openLine i (s.slice i).nextTid true := by
  obtain ⟨u, hu⟩ : ∃ u, u = s.perf i 0x02 := ⟨_, rfl⟩
  have hsu : Runs s u := hu ▸ .perf s i 2 1
  have hus : u.slice i = s.slice i := by rw [hu, perf_slice]
  have hur : u.flt.run = none := by rw [hsu.same.2.1]; exact hr
  have huv : u.servingSlice r.home r.a.pa = some i := by
    obtain ⟨v, a, m, h⟩ := hsu.frame
    rw [h]
    exact hs
  have hheld : u.setHeld i r = false := by
    unfold State.setHeld State.evacHolds
    rw [hur]
    exact Bool.and_false _
  obtain ⟨hrp, rs, hrs⟩ := resvPass_runs (i := i) hur r
  obtain ⟨w, hw⟩ : ∃ w, w = u.resvPass i r := ⟨_, rfl⟩
  rw [← hw] at hrp hrs
  obtain ⟨a, d, l, hb, hbt, hbs⟩ := bind_runs (s := w) (i := i) (by rw [hrs, hus]; exact hi) r .eligible
  have hnt : (w.slice i).nextTid = (s.slice i).nextTid := by rw [hrs, hus]; rfl
  refine ⟨(w.bind i r .eligible).1, rs, a, d, l, (hsu.trans hrp).trans hb, by rw [hbs, hnt, hrs, hus], ?_⟩
  unfold State.firstPass
  rw [← hu]
  dsimp only
  rw [if_neg (by rw [huv]; simp), hheld]
  rw [← hw, if_neg nofun, hus]
  obtain ⟨b, hb'⟩ : ∃ b, b = w.bind i r .eligible := ⟨_, rfl⟩
  rw [if_neg nofun, ← hb']
  rw [← hb'] at hbt hb
  rw [hbt, hnt]
  split
  · next h => rw [hk] at h; cases h; cases he
  · next h => rw [hk] at h; cases h; cases he
  · next o _ _ h =>
    obtain rfl : o = op := by rw [hk] at h; exact (Kind.req.inj h).symm
    rw [if_neg (by simp [hd]), traceFirst_off (by rw [((hsu.trans hrp).trans hb).flag]; exact htr)]
  · next h => exact absurd hk (h op)

/-! ### A line that is open -/

theorem lacks_ne {t : Nat} (hx : x.lacks n) (h : x.ent t = some e) : t ≠ n := fun hn => by
  subst hn
  rw [hx.ent] at h
  cases h

/-- A line whose transaction has no group of readers takes no reader. -/
theorem joinLine_stays {t : Nat} {o : Trk} (h : (s.slice i).opener pa = some (t, o)) (he : s.ent i t = some o) (hg : o.h.grp = none) :
    s.joinLine i pa = s := by
  unfold State.joinLine
  rw [h]
  dsimp only
  unfold State.joinLoop
  rw [he]
  dsimp only
  rw [hg]

/-- A request whose line is open waits in the line's queue (R30, R125). -/
theorem enqueue_waits (htr : s.flag 63 0x140 31 = false) (hx : x.lacks n) (hs : s.slice i = x.setEnt n (some e)) (ho : e.opens = false) {t : Nat} {o : Trk}
    (hop : x.opener e.r.a.pa = some (t, o)) (ht : x.ent t = some o) (hg : o.h.grp = none) :
    Runs s (s.enqueue i n) ∧ (s.enqueue i n).slice i = x.setEnt n (some { e with stat := .queued }) := by
  have he : s.ent i n = some e := by
    unfold State.ent
    rw [hs, setEnt_ent_self]
  obtain ⟨u, hu⟩ : ∃ u, u = (s.setEnt i n (some { e with stat := .queued })).perf i 0x08 := ⟨_, rfl⟩
  have hru : Runs s u := by
    rw [hu]
    exact (Runs.setEnt _ _ _ _).trans (.perf _ _ _ _)
  have hus : u.slice i = x.setEnt n (some { e with stat := .queued }) := by
    rw [hu, perf_slice, setEnt_slice_self, hs, slice_setEnt_setEnt]
  have hq : s.enqueue i n = u := by
    unfold State.enqueue
    rw [he]
    dsimp only
    rw [← hu, traceEnt_off (by rw [hru.flag]; exact htr)]
    refine joinLine_stays (t := t) (o := o) ?_ ?_ hg
    · rw [hus]
      exact (find_fresh hx (by simp [ho])).trans hop
    · unfold State.ent
      rw [hus, setEnt_ent_ne _ _ (lacks_ne hx ht)]
      exact ht
  rw [hq]
  exact ⟨hru, hus⟩

/-! ### A line that is not open -/

/-- A free way is one of those that a line may use. -/
theorem free_way_exists {y : Slice} {set w : Nat} {ok : Nat → Bool} (hw : w < 16) (hok : ok w = true) (hun : (y.sfGet set w).dir = .un)
    (hh : y.wayHolder set w = none) : ∃ w', ((List.range 16).filter ok).find? (fun w => (y.sfGet set w).dir == .un && (y.wayHolder set w).isNone) = some w' :=
  Option.isSome_iff_exists.1 (List.find?_isSome.2 ⟨w, List.mem_filter.2 ⟨List.mem_range.2 hw, hok⟩, by rw [hun, hh]; rfl⟩)

/-- Touching a way changes the replacement words alone. -/
theorem touch_runs (hi : (s.slice i).ar.inj = []) (set way : Nat) : Runs s (s.touch i set way) ∧
    ∃ rp, (s.touch i set way).slice i = { s.slice i with ar := { (s.slice i).ar with repl := rp } } := by
  unfold State.touch
  rw [readRepl_of_nil hi]
  refine ⟨.modSlice s i _ rfl rfl, tabSet 0 (s.slice i).ar.repl set (plruTouch way ((s.slice i).replGet set)), ?_⟩
  rw [modSlice_slice_self]
  unfold Slice.replSet
  rw [wrote_of_nil hi]

theorem Runs.unkept (h : Runs s u) (home : Fin 16) : u.unkept home = s.unkept home ∧ u.degraded home = s.degraded home ∧ u.wayOk home = s.wayOk home := by
  obtain ⟨v, k, m, rfl⟩ := h.frame
  exact ⟨rfl, rfl, rfl⟩

/-- What the entry of a transaction that opens its line, bound as e, says: the entry d that the directory holds, and its clause (R30). -/
structure Opened (e : Trk) (d : Dir) (u : Ucode) (k : Trk) : Prop where
  r : k.r = e.r
  opens : k.opens = true
  stat : k.stat = .ready false
  we : k.we = d
  x : k.x = e.x
  pc : k.pc = bit1 u.active ++ (u.vt e.r.kind.opc d.code e.r.rk).entry
  cs : k.h.cs = e.h.cs

/-- A request of a line that is not open opens it with the directory's entry, and its verb is selected (R30, R203). -/
theorem openLine_opens (htr : s.flag 63 0x140 31 = false) (hi : x.ar.inj = []) (hx : x.lacks n) (hs : s.slice i = x.setEnt n (some e))
    (hk : e.r.kind = .req op) (hgood : ∀ w < 16, (x.sfGet (sfSet e.r.a.pa) w).dir.ok = true)
    (hdeg : s.degraded e.r.home = false ∨ degradedRefuses op = false) {d : Dir} {way : Option Nat} (hdir : s.readDir i e.r.home e.r.a.pa = (d, way))
    (hcl : reqClaims op = false ∨ way ≠ none ∨ s.unkept e.r.home = true ∨ ∃ w < 16, s.wayOk e.r.home e.r.rk w = true ∧
      (x.sfGet (sfSet e.r.a.pa) w).dir = .un ∧ x.wayHolder (sfSet e.r.a.pa) w = none) (hv : (x.uc.vt e.r.kind.opc d.code e.r.rk).v = true) :
    ∃ rp k, Runs s (s.openLine i n true) ∧ (s.openLine i n true).slice i = ({ x with ar := { x.ar with repl := rp } } : Slice).setEnt n (some k) ∧
      Opened e d x.uc k := by
  have he : s.ent i n = some e := by
    unfold State.ent
    rw [hs, setEnt_ent_self]
  have hsi : (s.slice i).ar.inj = [] := by rw [hs]; exact hi
  obtain ⟨hit, hhit⟩ : ∃ hit, hit = s.lineHit i e.r.home e.r.a.pa := ⟨_, rfl⟩
  obtain ⟨dh, hdh⟩ : ∃ dh : Option Handle, dh = hit.map fun k =>
    ⟨.mscWay (mscSet e.r.a.pa) k, ⟨((s.slice i).mscGet (mscSet e.r.a.pa) k).data, ((s.slice i).mscGet (mscSet e.r.a.pa) k).st == .poisoned⟩⟩ := ⟨_, rfl⟩
  obtain ⟨v, hv1⟩ : ∃ v, v = if hit.isSome then s.perf i 0x04 else s := ⟨_, rfl⟩
  have hsv : Runs s v ∧ v.slice i = s.slice i := by
    rw [hv1]
    split
    · exact ⟨.perf s i 4 1, perf_slice s i i 4 1⟩
    · exact ⟨.refl s, rfl⟩
  obtain ⟨u, hu⟩ : ∃ u : State, u = (match way with | some k => v.touch i (sfSet e.r.a.pa) k | none => v) := ⟨_, rfl⟩
  obtain ⟨rp, hvu, hus⟩ : ∃ rp, Runs v u ∧ u.slice i = { v.slice i with ar := { (v.slice i).ar with repl := rp } } := by
    rw [hu]
    cases way with
    | none => exact ⟨_, .refl v, rfl⟩
    | some k =>
      obtain ⟨h1, rp, h2⟩ := touch_runs (s := v) (i := i) (by rw [hsv.2]; exact hsi) (sfSet e.r.a.pa) k
      exact ⟨rp, h1, h2⟩
  have hsu : Runs s u := hsv.1.trans hvu
  obtain ⟨hun, hud, huw⟩ := hsu.unkept e.r.home
  obtain ⟨e', he'⟩ : ∃ e' : Trk, e' = { e with
    opens := true, we := d, way := BitVec.ofNat 4 (way.getD 0), wv := way.isSome
    h := { e.h with dh := dh, mscHit := hit.isSome, noDir := u.unkept e.r.home } } := ⟨_, rfl⟩
  obtain ⟨w, hw⟩ : ∃ w, w = u.setEnt i n (some e') := ⟨_, rfl⟩
  have hwe : w.ent i n = some e' := by rw [hw, ent_setEnt_self]
  obtain ⟨y, hy⟩ : ∃ y : Slice, y = { x with ar := { x.ar with repl := rp } } := ⟨_, rfl⟩
  have hws : w.slice i = y.setEnt n (some e') := by
    rw [hw, setEnt_slice_self, hus, hsv.2, hs, hy]
    exact slice_setEnt_setEnt { x with ar := { x.ar with repl := rp } } n e e'
  have hsw : Runs s w := by rw [hw]; exact hsu.trans (.setEnt u i n _)
  have hwi : (w.slice i).ar.inj = [] := by rw [hws, hy]; exact hi
  have her : e'.r = e.r := by rw [he']
  have hwv : ((w.slice i).uc.vt e'.r.kind.opc e'.we.code e'.r.rk).v = true := by
    rw [her, he', hws, hy]
    exact hv
  have hol : s.openLine i n true = if reqClaims op && way.isNone && !w.unkept e.r.home then w.claim i n false else w.select i n := by
    unfold State.openLine
    rw [he]
    dsimp only
    rw [Safety.readSets_good hsi (by rw [hs]; exact hgood), hdir]
    dsimp only
    rw [← hhit, ← hdh, ← hv1]
    have hde : ¬ (w.degraded e.r.home && degradedRefuses op) = true := by
      rw [(hsw.unkept _).2.1]
      cases hdeg with
      | inl h => simp [h]
      | inr h => simp [h]
    cases way <;>
    · dsimp only at hu
      subst hu
      dsimp only
      rw [← he', ← hw, if_pos rfl, traceFirst_off (by rw [hsw.flag]; exact htr), hk]
      exact if_neg hde
  have hopened : ∀ m : BitVec 4, ∀ b : Bool, Opened e d x.uc (({ e' with way := m, wv := b } : Trk).selected (w.slice i).uc) := fun m b => by
    rw [he', hws, hy]
    exact ⟨rfl, rfl, rfl, rfl, rfl, rfl, rfl⟩
  rw [hol]
  split
  · next hc =>
    simp only [Bool.and_eq_true, Bool.not_eq_true', Option.isNone_iff_eq_none] at hc
    obtain ⟨⟨hc, hnone⟩, hwu⟩ := hc
    have hsu' : s.unkept e.r.home = false := by rw [← (hsw.unkept e.r.home).1]; exact hwu
    obtain ⟨a, ha, hok, hdir', hhold⟩ : ∃ w < 16, s.wayOk e.r.home e.r.rk w = true ∧ (x.sfGet (sfSet e.r.a.pa) w).dir = .un ∧
        x.wayHolder (sfSet e.r.a.pa) w = none := by
      rcases hcl with h | h | h | h
      · rw [h] at hc; cases hc
      · exact absurd hnone h
      · rw [h] at hsu'; cases hsu'
      · exact h
    have hyh : (w.slice i).wayHolder (sfSet e.r.a.pa) a = none := by
      rw [hws]
      refine (find_fresh (x := y) (by rw [hy]; exact hx) ?_).trans (by rw [hy]; exact hhold)
      rw [he', hnone]
      rfl
    obtain ⟨b, hb⟩ := free_way_exists (y := w.slice i) (ok := w.wayOk e.r.home e.r.rk) ha (by rw [(hsw.unkept e.r.home).2.2]; exact hok)
      (by rw [hws, hy]; exact hdir') hyh
    have hcl := claim_free hwe hwi (by rw [her]; exact hwu) (w := b) (by rw [her]; exact hb) hwv false
    rw [hcl]
    refine ⟨rp, _, hsw.trans (.modSlice w i _ rfl rfl), ?_, hopened (BitVec.ofNat 4 b) true⟩
    rw [modSlice_slice_self, slice_setEnt_setEnt, hws, slice_setEnt_setEnt, hy]
  · refine ⟨rp, e'.selected (w.slice i).uc, ?_, ?_, hopened e'.way e'.wv⟩
    · rw [select_valid hwe hwi hwv]
      exact hsw.trans (.setEnt w i n _)
    · rw [select_valid hwe hwi hwv, setEnt_slice_self, hws, slice_setEnt_setEnt, hy]

end Sys2Proof.Machine
end

section
/-! O30: what an sc of the arbiter grants. -/

namespace Sys2Proof.Safety

open Sys2Proof.Machine

variable {s t u : State} {i : Fin 17} {p : Fin 24} {r : Req} {n : Nat} {e : Trk} {x : Slice}

/-- A line that is open is busy (R125). -/
theorem lineBusy_of_opener {pa : LineAddr} (h : x.opener pa = some (n, e)) : x.lineBusy pa = true := by
  have hm := List.mem_of_find?_eq_some h
  have hp := List.find?_some h
  simp only [Bool.and_eq_true] at hp
  exact List.any_eq_true.2 ⟨_, hm, by simp [hp.1, eq_of_beq hp.2]⟩

/-- The entries but one, and the queue, after a pass that binds it. -/
theorem beside_fresh {y : Slice} {k : Trk} (hu : u.slice i = y.setEnt n (some k)) (hy : y.trk = (s.slice i).trk) :
    u.ent i n = some k ∧ ∀ m, m ≠ n → u.ent i m = s.ent i m := by
  unfold State.ent
  rw [hu]
  refine ⟨setEnt_ent_self _ _ _, fun m hm => (setEnt_ent_ne _ _ hm).trans ?_⟩
  unfold Slice.ent
  rw [hy]

/-- The slice as the grant of requester p's one request leaves it, before the request is bound. -/
def grantedSlice (x : Slice) (p lw : Nat) (rs : List Resv) : Slice := { (x.ticked lw).setIng p ⟨[], []⟩ with resv := rs }

theorem grantedSlice_ing (x : Slice) (p lw : Nat) (rs : List Resv) : (grantedSlice x p lw rs).ing p = ⟨[], []⟩ :=
  tabGet_tabSet_self (⟨[], []⟩ : Ingress) x.ingress p ⟨[], []⟩

/-- Requester p's one request waits in slice i, which grants it; v is the state in which it is bound, and y the slice but for its entry e. -/
structure Granted (s : State) (i : Fin 17) (p : Nat) (r : Req) (v : State) (y : Slice) (e : Trk) : Prop where
  runs : Runs s v
  slice : v.slice i = y.setEnt (s.slice i).nextTid (some e)
  granted : ∃ lw rs, y = grantedSlice (s.slice i) p lw rs
  entry : ∃ a d l, e = .init r .eligible a d l
  step : s.arbiterStep i = if (s.slice i).lineBusy r.a.pa then v.enqueue i (s.slice i).nextTid else v.openLine i (s.slice i).nextTid true

theorem arbiterStep_grants {k : Nat} {op : ReqOp} (hrun : s.sliceRuns i = true) (hw : s.noWork i) (hr : s.flt.run = none) (hi : (s.slice i).ar.inj = [])
    (htr : s.flag 63 0x140 31 = false) (ho : ∀ rq, rq ≠ p.val → (s.slice i).ing rq = ⟨[], []⟩) (hp : (s.slice i).ing p.val = ⟨[(r, k)], []⟩)
    (he : s.ingressExpired i r = false) (hk : r.kind = .req op) (hev : reqIsEvict op = false) (hdr : reqIsDrain op = false)
    (hs : s.servingSlice r.home r.a.pa = some i) : ∃ v y e, Granted s i p.val r v y e := by
  obtain ⟨u, lw, hx, hsu, hus⟩ := arbiterStep_single hrun hw hr ho hp he hs
  have hust : u.servingSlice r.home r.a.pa = some i := by
    obtain ⟨v, a, m, h⟩ := hsu.frame
    rw [h]
    exact hs
  obtain ⟨v, rs, a, d, l, huv, hvs, hf⟩ := firstPass_binds (rq := p.val) (by rw [hsu.same.2.1]; exact hr) hust (by rw [hus]; exact hi)
    (by rw [hsu.flag]; exact htr) hk hev hdr
  have hnt : (u.slice i).nextTid = (s.slice i).nextTid := by rw [hus]; rfl
  have hub : (u.slice i).lineBusy r.a.pa = (s.slice i).lineBusy r.a.pa := by rw [hus]; rfl
  rw [hnt, hub] at hf
  rw [hnt, hus] at hvs
  exact ⟨v, grantedSlice (s.slice i) p.val lw rs, _, hsu.trans huv, hvs, ⟨lw, rs, rfl⟩, ⟨a, d, l, rfl⟩, hx.trans hf⟩

/-- A slice that is the granted one but for the replacement words and one entry. -/
theorem granted_slice {y : Slice} {q : Nat} {k : Trk} (hy : ∃ lw rs, y = grantedSlice (s.slice i) q lw rs) (rp : Tab (BitVec 16))
    (hu : u.slice i = ({ y with ar := { y.ar with repl := rp } } : Slice).setEnt n (some k)) :
    u.ent i n = some k ∧ (∀ m, m ≠ n → u.ent i m = s.ent i m) ∧ (u.slice i).ing q = ⟨[], []⟩ ∧ (u.slice i).arb.sc = (s.slice i).arb.sc + 1 := by
  obtain ⟨lw, rs, rfl⟩ := hy
  obtain ⟨h1, h2⟩ := beside_fresh (s := s) hu rfl
  refine ⟨h1, h2, ?_, ?_⟩
  · rw [hu]
    exact grantedSlice_ing (s.slice i) q lw rs
  · rw [hu]
    rfl

theorem Granted.lacks {v : State} {y : Slice} {q : Nat} (h : Granted s i q r v y e) : y.lacks (s.slice i).nextTid := by
  obtain ⟨lw, rs, hy⟩ := h.granted
  have := lacks_nextTid (s.slice i)
  unfold Slice.lacks at this ⊢
  rw [hy]
  exact this

/-- The line of the granted request is not open: the request opens it. -/
theorem granted_opens {v : State} {y : Slice} {q : Nat} {op : ReqOp} (h : Granted s i q r v y e) (htr : v.flag 63 0x140 31 = false)
    (hi : (s.slice i).ar.inj = []) (hk : r.kind = .req op) (hbusy : (s.slice i).lineBusy r.a.pa = false)
    (hgood : ∀ w < 16, ((s.slice i).sfGet (sfSet r.a.pa) w).dir.ok = true) (hdeg : s.degraded r.home = false ∨ degradedRefuses op = false)
    (hcl : reqClaims op = false ∨ (s.readDir i r.home r.a.pa).2 ≠ none ∨ s.unkept r.home = true ∨
      ∃ w < 16, s.wayOk r.home r.rk w = true ∧ ((s.slice i).sfGet (sfSet r.a.pa) w).dir = .un ∧ (s.slice i).wayHolder (sfSet r.a.pa) w = none)
    (hv : ((s.slice i).uc.vt r.kind.opc (s.readDir i r.home r.a.pa).1.code r.rk).v = true) :
    ∃ rp k, Runs s (s.arbiterStep i) ∧
      (s.arbiterStep i).slice i = ({ y with ar := { y.ar with repl := rp } } : Slice).setEnt (s.slice i).nextTid (some k) ∧
      Opened (.init r .eligible 0 0 []) (s.readDir i r.home r.a.pa).1 (s.slice i).uc k ∧ k.x.f0 = r.a.arg.extractLsb' 13 16 := by
  obtain ⟨lw, rs, hy⟩ := h.granted
  obtain ⟨a, d, l, he⟩ := h.entry
  have hr : e.r = r := by rw [he]; rfl
  obtain ⟨hu, hd, hw⟩ := h.runs.unkept r.home
  have hdir : v.readDir i r.home r.a.pa = s.readDir i r.home r.a.pa := by
    unfold State.readDir
    rw [hu, h.slice, hy]
    rfl
  obtain ⟨rp, k, hR, hws, hk'⟩ := openLine_opens (x := y) (e := e) (op := op) htr (by rw [hy]; exact hi) h.lacks h.slice (by rw [hr]; exact hk)
    (by rw [hr, hy]; exact hgood) (by rw [hr, hd]; exact hdeg) (d := (s.readDir i r.home r.a.pa).1) (way := (s.readDir i r.home r.a.pa).2)
    (by rw [hr]; exact hdir) (by rw [hr, hu, hw, hy]; exact hcl) (by rw [hr, hy]; exact hv)
  have hstep := h.step
  rw [hbusy, if_neg nofun] at hstep
  rw [hstep]
  have hyu : y.uc = (s.slice i).uc := by rw [hy]; rfl
  have hkx : k.x = (Trk.init r .eligible a d l).x := by rw [hk'.x, he]
  exact ⟨rp, k, h.runs.trans hR, hws, ⟨by rw [hk'.r, he]; rfl, hk'.opens, hk'.stat, hk'.we, by rw [hkx]; rfl, by rw [hk'.pc, hr, hyu]; rfl,
    by rw [hk'.cs, he]; rfl⟩, by rw [hkx]; rfl⟩

/-- The line of the granted request is open: the request waits. -/
theorem granted_waits {v : State} {y : Slice} {q : Nat} {o : Trk} (h : Granted s i q r v y e) (htr : v.flag 63 0x140 31 = false)
    (hop : (s.slice i).opener r.a.pa = some (n, o)) (hen : s.ent i n = some o) (hgrp : o.h.grp = none) :
    ∃ k, Runs s (s.arbiterStep i) ∧ (s.arbiterStep i).slice i = y.setEnt (s.slice i).nextTid (some k) ∧ k.r = r ∧ k.opens = false ∧ k.stat = .queued := by
  obtain ⟨lw, rs, hy⟩ := h.granted
  obtain ⟨a, d, l, he⟩ := h.entry
  have hr : e.r = r := by rw [he]; rfl
  have ho : e.opens = false := by rw [he]; rfl
  obtain ⟨hR, hws⟩ := enqueue_waits (x := y) htr h.lacks h.slice ho (t := n) (o := o) (by rw [hy, hr]; exact hop) (by rw [hy]; exact hen) hgrp
  have hstep := h.step
  rw [lineBusy_of_opener hop, if_pos rfl] at hstep
  rw [hstep]
  exact ⟨_, h.runs.trans hR, hws, hr, ho, rfl⟩

/-- Settles O30: with nothing waiting an sc passes; the one request that waits opens its line or joins the line's queue. -/
theorem arbiterGrantsFirstPass : Obligations.ArbiterGrantsFirstPass := by
  intro s i hq hrun htr hb hi hr
  have hw : s.noWork i := ⟨hb, hq.sweep⟩
  refine ⟨fun hing => ?_, fun p r k op ho hp he hk hev hdr hh hs => ?_⟩
  · obtain ⟨pc, hx⟩ := arbiterStep_none hrun hw hing
    obtain ⟨v, hv⟩ : ∃ v : State, v = { s with tst := { s.tst with pc := pc } } := ⟨_, rfl⟩
    rw [← hv] at hx
    have hsv : Runs s v := hv ▸ ⟨⟨_, _, _, rfl⟩, fun _ => ⟨rfl, rfl⟩⟩
    have hvs : ∀ j, v.slice j = s.slice j := fun j => by rw [hv]; rfl
    have hR : Runs s (s.arbiterStep i) := by
      rw [hx]
      exact hsv.trans (.modSlice v i _ rfl rfl)
    have hsl : (s.arbiterStep i).slice i = (s.slice i).ticked (s.slice i).arb.sinceLw := by rw [hx, modSlice_slice_self, hvs]
    have hso : ∀ j, j ≠ i → (s.arbiterStep i).slice j = s.slice j := fun j hj => by rw [hx, modSlice_slice_ne _ _ hj, hvs]
    have hex : exec (.arbiterGrant i) s = .next (s.arbiterStep i).setPins := hq.endsRun hR
    generalize s.arbiterStep i = t at hR hsl hso hex
    obtain ⟨h1, h2, h3, h4, h5, h6, h7⟩ := hR.same
    exact ⟨_, hex, congrArg (fun z : Slice => z.arb.sc) hsl, (congrArg (fun z : Slice => z.trk) hsl).trans rfl,
      hso, h5, h6, h7, h4, h2, h3, h1⟩
  · obtain ⟨v, y, e, hg⟩ := arbiterStep_grants hrun hw hr hi htr ho hp he hk hev hdr hs
    have hvtr : v.flag 63 0x140 31 = false := by rw [hg.runs.flag]; exact htr
    refine ⟨fun hbusy hgood hdeg hcl hv => ?_, fun n o hop hen hgrp => ?_⟩
    · obtain ⟨rp, k, hR, hws, hk', hf0⟩ := granted_opens hg hvtr hi hk hbusy hgood hdeg hcl hv
      have hex : exec (.arbiterGrant i) s = .next (s.arbiterStep i).setPins := hq.endsRun hR
      generalize s.arbiterStep i = t at hR hws hex
      obtain ⟨h1, h2, h3, h4, h5, h6, h7⟩ := hR.same
      obtain ⟨hk1, hk2, hk3, hk4⟩ := granted_slice hg.granted rp hws
      exact ⟨_, k, hex, hk1, hk'.r, hk'.opens, hk'.stat, hk'.we, hf0, hk'.pc, hk'.cs, hk2, hk3, hk4, h5, h6, h7, h4, h2, h3, h1⟩
    · obtain ⟨k, hR, hws, hkr, hko, hks⟩ := granted_waits hg hvtr hop hen hgrp
      have hex : exec (.arbiterGrant i) s = .next (s.arbiterStep i).setPins := hq.endsRun hR
      generalize s.arbiterStep i = t at hR hws hex
      obtain ⟨h1, h2, h3, h4, h5, h6, h7⟩ := hR.same
      obtain ⟨hk1, hk2, hk3, hk4⟩ := granted_slice (u := t) hg.granted y.ar.repl hws
      exact ⟨_, k, hex, hk1, hkr, hko, hks, hk2, hk3, h5, h6, h7, h4, h2, h3, h1⟩

end Sys2Proof.Safety
end

section
/-! One commit of the service unit, and the result of its operation at the transaction (R201, R308, R309). -/

namespace Sys2Proof.Machine

variable {s t u : State} {i : Fin 17} {n : Nat} {e k : Trk} {o : SvcOp} {op : ReqOp}

/-! ### Reads of arrays without an injected error (R84, R457) -/

theorem readDesc_of_nil (h : (s.slice i).ar.inj = []) (m : Nat) : s.readDesc i m = s := by
  rw [State.readDesc, readWord_of_nil h]

theorem readHandleDesc_of_nil (h : (s.slice i).ar.inj = []) (pa : LineAddr) : s.readHandleDesc i pa = s := by
  unfold State.readHandleDesc
  split
  · exact readDesc_of_nil h _
  · rfl

theorem readLedgerSet_of_nil (h : (s.slice i).ar.inj = []) (set : Nat) : s.readLedgerSet i set = s := by
  unfold State.readLedgerSet
  rw [h]
  rfl

theorem readHandle_of_nil (h : (s.slice i).ar.inj = []) (t : Nat) (st : Trk → TStat) : s.readHandle i t st = (s, false) := by
  unfold State.readHandle
  split
  · rfl
  · split
    · rw [readRun_of_nil h]
    · rfl

/-- The words that a request's operation uses are read without effect. -/
theorem svcRead_of_nil (h : (s.slice i).ar.inj = []) (hk : e.r.kind = .req op) (o : SvcOp) : s.svcRead i o e = s := by
  unfold State.svcRead
  rw [hk]
  dsimp only
  split
  · exact readLedgerSet_of_nil h _
  · exact readLedgerSet_of_nil h _
  · exact readHandleDesc_of_nil h _
  · exact readHandleDesc_of_nil h _
  · exact readHandleDesc_of_nil h _
  · rfl

/-! ### The operation that commits -/

/-- An `Atom` whose line is there is not held; no other operation is (R256). -/
theorem svcNext_single (hq : (s.slice i).svcq = [o]) (he : s.ent o.src o.tid = some e)
    (hh : (o.opc == reqCode .atom && e.h.fetching && e.h.dh.isNone) = false) : s.svcNext i = some (o, e) := by
  unfold State.svcNext
  dsimp only
  rw [hq]
  have hf : ([o].filterMap fun o => (s.ent o.src o.tid).bind fun e =>
      if (o.opc == reqCode .atom && e.h.fetching && e.h.dh.isNone) = true then none else some (o, e)) = [(o, e)] := by
    simp only [List.filterMap_cons, List.filterMap_nil, he, Option.bind_some]
    rw [hh]
    rfl
  rw [hf, List.mergeSort_singleton]
  cases hr : e.r.rk <;> simp [hr]

/-- What an operation leaves outside its slice and the ports, and of its slice's queue of operations. -/
structure SvcLeaves (i : Fin 17) (s t : State) : Prop where
  keeps : Safety.Keeps s t
  others : ∀ j, j ≠ i → t.slice j = s.slice j
  chans : t.chans = s.chans
  dram : t.dram = s.dram
  flt : t.flt = s.flt
  par : t.par = s.par
  svcq : (t.slice i).svcq = (s.slice i).svcq

theorem SvcLeaves.refl (i : Fin 17) (s : State) : SvcLeaves i s s := ⟨.refl s, fun _ _ => rfl, rfl, rfl, rfl, rfl, rfl⟩

theorem SvcLeaves.trans (h : SvcLeaves i s t) (k : SvcLeaves i t u) : SvcLeaves i s u where
  keeps := h.keeps.trans k.keeps
  others j hj := (k.others j hj).trans (h.others j hj)
  chans := k.chans.trans h.chans
  dram := k.dram.trans h.dram
  flt := k.flt.trans h.flt
  par := k.par.trans h.par
  svcq := k.svcq.trans h.svcq

theorem SvcLeaves.modSlice (s : State) (i : Fin 17) (f : Slice → Slice) (hc : (f (s.slice i)).ctl = (s.slice i).ctl)
    (hm : (f (s.slice i)).mem.ctl = (s.slice i).mem.ctl) (hq : (f (s.slice i)).svcq = (s.slice i).svcq) : SvcLeaves i s (s.modSlice i f) :=
  ⟨.modSlice s i f hc hm, fun _ hj => modSlice_slice_ne _ _ hj, rfl, rfl, rfl, rfl, by rw [modSlice_slice_self]; exact hq⟩

theorem SvcLeaves.setEnt (s : State) (i : Fin 17) (n : Nat) (e : Option Trk) : SvcLeaves i s (s.setEnt i n e) := .modSlice s i _ rfl rfl rfl

theorem SvcLeaves.modPort (s : State) (i : Fin 17) (p : Fin 24) (f : Port → Port) (hh : (f (s.port p)).held = (s.port p).held)
    (hr : (f (s.port p)).resetting = (s.port p).resetting) : SvcLeaves i s (s.modPort p f) :=
  ⟨.modPort s p f hh hr, fun _ _ => rfl, rfl, rfl, rfl, rfl, rfl⟩

/-- A counter of the service unit's page. -/
theorem SvcLeaves.bump (s : State) (i : Fin 17) (o hi lo : Nat) : SvcLeaves i s (s.bump 61 o hi lo) ∧ (s.bump 61 o hi lo).ports = s.ports ∧
    ∀ j, (s.bump 61 o hi lo).slice j = s.slice j := by
  have hk := Safety.Keeps.bump s 61 o hi lo (by unfold Safety.watched; omega)
  obtain ⟨r, hr⟩ := bump_frame s 61 o hi lo
  rw [hr] at hk ⊢
  exact ⟨⟨hk, fun _ _ => rfl, rfl, rfl, rfl, rfl, rfl⟩, rfl, fun _ => rfl⟩

/-- The transaction as the result of its operation lets it go on at its WAIT for SVC (R201). -/
def Trk.served (e : Trk) (r : SvcRes) : Trk :=
  { e with stat := .ready false, pc := e.pc + 1, x := { e.x with f1 := r.f1 },
           m := { e.m with svc := false, svcStat := r.stat, svcLine := r.line, ev := 2 } }

theorem takeSvc_wake {me tm q : Bool} {pc : BitVec 10} (hs : e.stat = .parked false me tm true q pc) (hm : e.m.memEv = []) (r : SvcRes) :
    (e.takeSvc r).wake false = e.served r := wake_svc (e := e.takeSvc r) hs hm rfl false

/-- A state whose service unit has handed its result over. -/
structure Answers (i : Fin 17) (n : Nat) (s u : State) (k : Trk) (r : SvcRes) (t : State) : Prop where
  slice : t.slice i = { (u.slice i).setEnt n (some (k.served r)) with svcq := [] }
  others : ∀ j, j ≠ i → t.slice j = s.slice j
  ports : t.ports = u.ports
  chans : t.chans = s.chans
  dram : t.dram = s.dram
  glb : t.glb = s.glb
  flt : t.flt = s.flt
  par : t.par = s.par

end Sys2Proof.Machine

namespace Sys2Proof.Safety

open Sys2Proof.Machine

variable {s t u : State} {i : Fin 17} {n : Nat} {e k : Trk} {o : SvcOp} {op : ReqOp}

/-- The service unit of slice i has the one operation o, of transaction n, which is ready to commit. -/
structure Commits (i : Fin 17) (n : Nat) (e : Trk) (o : SvcOp) (s : State) : Prop where
  runs : s.blockRuns = true
  awake : (s.slice i).asleep = false
  fence : s.slFenced i = false
  inj : (s.slice i).ar.inj = []
  ent : s.ent i n = some e
  queue : (s.slice i).svcq = [o]
  src : o.src = i
  tid : o.tid = n
  held : (o.opc == reqCode .atom && e.h.fetching && e.h.dh.isNone) = false

/-- The step of the service unit, once its one operation has left the unit's queue: the counter of the operations. -/
theorem serviceStep_commits (h : Commits i n e o s) (hk : e.r.kind = .req op) (ht : s.svcCommit i o e = t) (hq : (t.slice i).svcq = []) :
    ∃ pc, s.serviceStep i = { t with tst := { t.tst with pc := pc } } := by
  unfold State.serviceStep
  rw [if_neg (by rw [h.runs, h.awake, h.fence]; exact Bool.false_ne_true), svcNext_single h.queue (by rw [h.src, h.tid]; exact h.ent) h.held]
  dsimp only
  rw [h.src, h.tid, withTrk_of_nil h.inj, readHandle_of_nil h.inj, ite_self]
  dsimp only
  rw [if_neg nofun, ht, hq, if_neg nofun, hk]
  dsimp only
  split
  · exact perf_frame t i _ 1
  · exact ⟨_, rfl⟩

theorem Keeps.counters (s : State) (pc : Tab (BitVec 48)) : Keeps s { s with tst := { s.tst with pc := pc } } :=
  { Keeps.refl s with phase := rfl }

/-- An operation that ends with a result hands it to its transaction, which goes on. -/
theorem Commits.answers (h : Commits i n e o s) (hQ : Quiet s) (hk : e.r.kind = .req op) {r : SvcRes}
    (hc : s.svcCommit i o e = u.svcEnd i o (some r)) (hu : SvcLeaves i s u) (hue : u.ent i n = some k) {me tm q : Bool} {pc : BitVec 10}
    (hst : k.stat = .parked false me tm true q pc) (hm : k.m.memEv = []) :
    ∃ t, exec (.serviceCommit i) s = .next t ∧ Answers i n s u k r t := by
  obtain ⟨v, hv⟩ : ∃ v, v = u.modSlice i fun x => { x with svcq := x.svcq.filter fun k => k != o } := ⟨_, rfl⟩
  have hvs : v.slice i = { u.slice i with svcq := [] } := by
    rw [hv, modSlice_slice_self, hu.svcq, h.queue]
    simp
  have hve : v.ent i n = some k := by
    unfold State.ent at hue ⊢
    rw [hvs]
    exact hue
  have hend : u.svcEnd i o (some r) = v.setEnt i n (some (k.served r)) := by
    unfold State.svcEnd
    dsimp only
    rw [← hv, h.src, h.tid, stir_of_ent hve, takeSvc_wake hst hm]
  obtain ⟨w, hw⟩ : ∃ w, w = v.setEnt i n (some (k.served r)) := ⟨_, rfl⟩
  have hws : w.slice i = { (u.slice i).setEnt n (some (k.served r)) with svcq := [] } := by
    rw [hw, setEnt_slice_self, hvs]
    rfl
  have hkw : Keeps s w := by
    rw [hw, hv]
    exact hu.keeps.trans ((Keeps.modSlice u i _ rfl rfl).trans (.modSlice _ i _ rfl rfl))
  have hwo : ∀ j, j ≠ i → w.slice j = s.slice j := fun j hj => by rw [hw, setEnt_slice_ne _ _ _ hj, hv, modSlice_slice_ne _ _ hj, hu.others j hj]
  have hwr : w.ports = u.ports ∧ w.chans = u.chans ∧ w.dram = u.dram ∧ w.glb = u.glb ∧ w.flt = u.flt ∧ w.par = u.par := by
    rw [hw, hv]
    exact ⟨rfl, rfl, rfl, rfl, rfl, rfl⟩
  obtain ⟨h1, h2, h3, h4, h5, h6⟩ := hwr
  obtain ⟨c, hstep⟩ := serviceStep_commits h hk (hc.trans (hend.trans hw.symm)) (by rw [hws])
  have hkt := hkw.trans (Keeps.counters w c)
  refine ⟨_, (hkt.quiet hQ).ends (s := s) hstep hkt.pending hkt.now, hws, hwo, h1, h2.trans hu.chans, h3.trans hu.dram, h4.trans hu.keeps.glb, h5.trans hu.flt,
    h6.trans hu.par⟩

end Sys2Proof.Safety
end

section
/-! The operations of the service unit that answer at once: the lock ledger, `Resv`, `CondWr`, and the answers of a home queue that changes
nothing (R155, R157, R314, R315, R323 to R325). -/

namespace Sys2Proof.Machine

variable {s t u : State} {i : Fin 17} {n : Nat} {e k : Trk} {o : SvcOp} {op qop : ReqOp} {a : ReqArgs} {x : Slice}

/-- What an operation of the service unit that does not wait leaves, and its result; `e` carries ARG as it was sent. -/
def State.svcOp (s : State) (i src : Fin 17) (t : Nat) (e : Trk) : ReqOp → Option (State × SvcRes)
  | .lockAcq => some (s.lockAcq i e.r.a)
  | .lockRel => some (s.lockRel i e.r.a)
  | .qEnq => s.qEnq i src t e
  | .qDeq => match s.qDeq i src t e with
    | (s, some r) => some (s, r)
    | (_, none) => none
  | .qWatch => some (s.qWatch i e.r.a)
  | .atom => some (s.atomOp src t e)
  | .resv => some (s, s.resvTest e.r.a)
  | .condWr => some (s.condWrTest i e.r)
  | _ => none

/-- The commit of such an operation hands its result over (R195, R309). -/
theorem svcCommit_result (hi : (s.slice i).ar.inj = []) (hk : e.r.kind = .req op) (ho : reqOpOf o.opc = some qop) {p : State × SvcRes}
    (hp : s.svcOp i o.src o.tid (e.asSent o) qop = some p) : s.svcCommit i o e = p.1.svcEnd i o (some p.2) := by
  unfold State.svcCommit
  rw [svcRead_of_nil hi hk]
  dsimp only
  rw [hk]
  dsimp only
  rw [ho]
  unfold State.svcOp at hp
  cases qop with
  | qEnq => dsimp only at hp ⊢; rw [hp]
  | qDeq =>
    dsimp only at hp ⊢
    generalize s.qDeq i o.src o.tid (e.asSent o) = q at hp ⊢
    obtain ⟨q, r⟩ := q
    cases r with
    | some r => cases hp; rfl
    | none => cases hp
  | lockAcq => cases hp; rfl
  | lockRel => cases hp; rfl
  | qWatch => cases hp; rfl
  | atom => cases hp; rfl
  | resv => cases hp; rfl
  | condWr => cases hp; rfl
  | _ => cases hp

/-! ### The lock ledger -/

theorem setLock_lock (x : Slice) (set w : Nat) (l : Option Lock) (k : Nat) : (x.setLock set w l).lock set k = if k = w then l else x.lock set k := by
  unfold Slice.lock Slice.setLock
  split
  · next h => rw [h]; exact tabGet_tabSet_self _ _ _ _
  · exact tabGet_tabSet_ne _ _ _ _ _ _ (by omega)

theorem findLock_tag {c w : Nat} {l : Lock} (h : x.findLock c = some (w, l)) : l.tag = ledgerTag c := by
  obtain ⟨v, -, hv⟩ := List.exists_of_findSome?_eq_some h
  split at hv
  · split at hv
    · next ht => cases hv; exact ht
    · cases hv
  · cases hv

theorem lockAcq_free {w : Nat} (hf : (s.slice i).findLock (s.claOf a.pa) = none) (hq : (s.slice i).locksOf a.part < s.fld 60 (0x200 + 4 * a.part.toNat) 26 16)
    (hw : (s.slice i).freeLock (s.claOf a.pa) = some w) :
    s.lockAcq i a = (s.modSlice i (·.setLock (ledgerSet (s.claOf a.pa)) w (some (.heldBy (ledgerTag (s.claOf a.pa)) a))), .comp .ok 0) := by
  unfold State.lockAcq
  dsimp only
  rw [hf]
  dsimp only
  rw [if_neg (by omega), hw]

theorem lockAcq_held {w : Nat} {l : Lock} (hf : (s.slice i).findLock (s.claOf a.pa) = some (w, l)) (hl : (s.lockReads l).1 = .held) :
    s.lockAcq i a = (s, .comp .busy (l.owner.zeroExtend 16)) := by
  unfold State.lockAcq
  dsimp only
  rw [hf]
  dsimp only
  generalize s.lockReads l = r at hl
  obtain ⟨r, why⟩ := r
  cases hl
  rfl

theorem lockAcq_orphaned {w : Nat} {l : Lock} (hf : (s.slice i).findLock (s.claOf a.pa) = some (w, l)) (hl : (s.lockReads l).1 = .orphaned) :
    s.lockAcq i a = ((s.modSlice i (·.setLock (ledgerSet (s.claOf a.pa)) w (some (.heldBy (ledgerTag (s.claOf a.pa)) a)))).bump 61 0x140 23 16,
      .comp .orphaned ((0 : BitVec 8) ++ (s.lockReads l).2 ++ l.owner)) := by
  rw [← findLock_tag hf]
  unfold State.lockAcq
  dsimp only
  rw [hf]
  dsimp only
  generalize s.lockReads l = r at hl ⊢
  obtain ⟨r, why⟩ := r
  cases hl
  rfl

theorem lockRel_own {w : Nat} (hf : (s.slice i).findLock (s.claOf a.pa) = some (w, .heldBy (ledgerTag (s.claOf a.pa)) a))
    (hl : (s.lockReads (.heldBy (ledgerTag (s.claOf a.pa)) a)).1 = .held) :
    s.lockRel i a = (s.modSlice i (·.setLock (ledgerSet (s.claOf a.pa)) w none), .comp .ok 0) := by
  unfold State.lockRel
  dsimp only
  rw [hf]
  dsimp only
  generalize s.lockReads (.heldBy (ledgerTag (s.claOf a.pa)) a) = r at hl ⊢
  obtain ⟨r, why⟩ := r
  cases hl
  exact if_pos ⟨rfl, rfl, rfl⟩

theorem lockRel_none (hf : (s.slice i).findLock (s.claOf a.pa) = none) : s.lockRel i a = (s, .failed 0x05) := by
  unfold State.lockRel
  dsimp only
  rw [hf]

end Sys2Proof.Machine

namespace Sys2Proof.Safety

open Sys2Proof.Machine

variable {s t u : State} {i : Fin 17} {n : Nat} {e k : Trk} {o : SvcOp} {op qop : ReqOp}

/-- Only an `Atom` is held back at the unit. -/
theorem not_held (ho : reqOpOf o.opc = some qop) (hq : qop ≠ .atom) (b c : Bool) : (o.opc == reqCode .atom && b && c) = false := by
  have : (o.opc == reqCode .atom) = false := by
    rw [beq_eq_false_iff_ne]
    intro h
    rw [h, reqOpOf_code] at ho
    exact hq (Option.some.inj ho).symm
  rw [this]
  rfl

/-- The operation o of a transaction that waits for SVC hands its result over. -/
structure Waits (i : Fin 17) (n : Nat) (e : Trk) (o : SvcOp) (op : ReqOp) (s : State) : Prop extends Commits i n e o s where
  quiet : Quiet s
  kind : e.r.kind = .req op
  parked : ∃ me tm q pc, e.stat = .parked false me tm true q pc
  memEv : e.m.memEv = []

theorem Waits.serves (h : Waits i n e o op s) (ho : reqOpOf o.opc = some qop) {r : SvcRes} (hp : s.svcOp i i n (e.asSent o) qop = some (u, r))
    (hu : SvcLeaves i s u) (hk : ∃ h', k = { e with h := h' }) (hue : u.ent i n = some k) :
    ∃ t, exec (.serviceCommit i) s = .next t ∧ Answers i n s u k r t := by
  obtain ⟨me, tm, q, pc, hst⟩ := h.parked
  obtain ⟨h', rfl⟩ := hk
  exact h.answers h.quiet h.kind (svcCommit_result h.inj h.kind ho (p := (u, r)) (by rw [h.src, h.tid]; exact hp)) hu hue hst h.memEv

/-- What the slices and the rest of the state are once the result is with its transaction. -/
theorem answers_ends {r : SvcRes} (h : Answers i n s u k r t) (hu : ∀ m, m ≠ n → u.ent i m = s.ent i m) :
    t.ent i n = some (k.served r) ∧ (t.slice i).svcq = [] ∧ (∀ m, m ≠ n → t.ent i m = s.ent i m) ∧ (∀ j, j ≠ i → t.slice j = s.slice j) ∧
      t.chans = s.chans ∧ t.dram = s.dram ∧ t.glb = s.glb ∧ t.flt = s.flt ∧ t.par = s.par := by
  refine ⟨?_, congrArg (fun x : Slice => x.svcq) h.slice, fun m hm => ?_, h.others, h.chans, h.dram, h.glb, h.flt, h.par⟩
  · unfold State.ent
    rw [h.slice]
    exact setEnt_ent_self (u.slice i) n (some (k.served r))
  · rw [← hu m hm]
    unfold State.ent
    rw [h.slice]
    exact setEnt_ent_ne (u.slice i) (some (k.served r)) hm

/-- What stands in the slice once the result is with its transaction. -/
theorem answers_slice {r : SvcRes} (h : Answers i n s u k r t) : (t.slice i).ar = (u.slice i).ar ∧ (t.slice i).resv = (u.slice i).resv ∧
    (t.slice i).mem = (u.slice i).mem :=
  ⟨(congrArg (fun x : Slice => x.ar) h.slice).trans rfl, (congrArg (fun x : Slice => x.resv) h.slice).trans rfl,
    (congrArg (fun x : Slice => x.mem) h.slice).trans rfl⟩

/-- An operation that changes nothing but a counter of the unit answers. -/
theorem Waits.says (h : Waits i n e o op s) (ho : reqOpOf o.opc = some qop) {r : SvcRes} (hp : s.svcOp i i n (e.asSent o) qop = some (u, r))
    (hu : SvcLeaves i s u ∧ u.ports = s.ports ∧ ∀ j, u.slice j = s.slice j) :
    ∃ t, exec (.serviceCommit i) s = .next t ∧ Answers i n s s e r t := by
  obtain ⟨hu, hp', hs⟩ := hu
  obtain ⟨t, hx, ha⟩ := h.serves ho hp hu ⟨e.h, rfl⟩ (by unfold State.ent; rw [hs]; exact h.ent)
  exact ⟨t, hx, { ha with slice := by rw [ha.slice, hs], ports := ha.ports.trans hp' }⟩

end Sys2Proof.Safety
end

section
/-! The operations of the service unit on home queues that write, `Atom`, `Resv` and `CondWr` (R155, R157, R323 to R325, R329). -/

namespace Sys2Proof.Machine

variable {s t u : State} {i : Fin 17} {n k : Nat} {e : Trk} {op qop : ReqOp} {a : ReqArgs} {x : Slice} {q : QDesc} {p : Fin 24} {l : PLine}

/-! ### Descriptors -/

theorem ite_ofBool (b : Bool) : (if b = true then 1 else 0 : BitVec 1) = BitVec.ofBool b := by cases b <;> rfl

/-- The 128 bits of a descriptor read back. -/
@[simp] theorem dec_enc (q : QDesc) : QDesc.dec q.enc = q := by
  cases q
  simp (disch := decide) only [QDesc.dec, QDesc.enc, ite_ofBool, BitVec.extractLsb'_append_eq_of_le, BitVec.extractLsb'_append_eq_of_add_le,
    extractLsb'_all, getLsbD_append_ofBool, getLsbD_append_high]

@[simp] theorem setDesc_desc (x : Slice) (k : Nat) (q : QDesc) : (x.setDesc k q).desc k = q := by
  unfold Slice.desc Slice.setDesc
  rw [tabGet_tabSet_self, dec_enc]

/-- Writing a descriptor leaves the rest of a service unit's work. -/
theorem SvcLeaves.setDesc (s : State) (i : Fin 17) (k : Nat) (q : QDesc) : SvcLeaves i s (s.modSlice i (·.setDesc k q)) := .modSlice s i _ rfl rfl rfl

/-! ### A ring line enters the merging buffer (R245, R323) -/

theorem ringWrite_enters {h : Fin 16} {m : Nat} (ws : List WId) (hl : (s.slice i).mem.wmb.length < 128) (hw : (s.slice i).mem.wtWait = [])
    (hb : (s.slice i).wmbOf (.ring h m) h = []) : ∃ v b y, s.ringWrite i h m l ws = some v ∧ SvcLeaves i s v ∧ v.ports = s.ports ∧ v.regs = s.regs ∧
      v.slice i = { s.slice i with mem := y } ∧ y.wmb = (s.slice i).mem.wmb ++ [b] ∧ b.addr = .ring h m ∧ b.home = h ∧ b.l = l ∧ b.writes = ws ∧
      b.issued = false := by
  have hany : ((s.slice i).mem.wmb.any fun e => e.addr == MemAddr.ring h m && e.home == h && !e.issued) = false := by
    rw [List.any_eq_false]
    intro b hb' hc
    rw [Bool.and_eq_true] at hc
    have hmem : b ∈ (s.slice i).wmbOf (.ring h m) h := List.mem_filter.2 ⟨hb', hc.1⟩
    rw [hb] at hmem
    exact List.not_mem_nil hmem
  obtain ⟨y, hy⟩ : ∃ y : MemSide, y = { (s.slice i).mem with
    nextWmb := (s.slice i).mem.nextWmb + 1
    wmb := (s.slice i).mem.wmb ++ [⟨(s.slice i).mem.nextWmb, .ring h m, h, l, s.now, ws, false, false, false,
      (s.slice i).wantOf (.ring h m) h, 0, 0⟩] } := ⟨_, rfl⟩
  have hput : (s.slice i).wmbPut s.now ⟨.ring h m, h, l, ws, none, none, false, false⟩ = some { s.slice i with mem := y } := by
    unfold Slice.wmbPut
    dsimp only
    rw [hany, if_neg nofun, if_pos hl, hy]
  obtain ⟨v, hv⟩ : ∃ v, v = s.modSlice i fun _ => { s.slice i with mem := y } := ⟨_, rfl⟩
  have hsv : SvcLeaves i s v := hv ▸ .modSlice s i _ rfl (by rw [hy]) rfl
  have hvs : v.slice i = { s.slice i with mem := y } := by rw [hv, modSlice_slice_self]
  obtain ⟨c, hc⟩ := perf_frame v i 0x0A 1
  have hr : s.ringWrite i h m l ws = some { v with tst := { v.tst with pc := c } } := by
    unfold State.ringWrite State.wtEnter
    dsimp only
    rw [hw, hany, hput, if_pos (by rfl), Option.map_some, ← hv]
    unfold State.wmbEntered
    dsimp only
    rw [hc]
  refine ⟨_, ⟨(s.slice i).mem.nextWmb, .ring h m, h, l, s.now, ws, false, false, false, (s.slice i).wantOf (.ring h m) h, 0, 0⟩, y, hr,
    hsv.trans ⟨Safety.Keeps.counters v c, fun _ _ => rfl, rfl, rfl, rfl, rfl, rfl⟩, ?_, ?_, ?_, by rw [hy], rfl, rfl, rfl, rfl, rfl⟩
  · rw [hv]
    rfl
  · rw [hv]
    rfl
  · exact hvs

/-! ### The notification of a watcher (R326) -/

/-- A trace record changes the trace buffer, or a counter of the debug page (R461). -/
theorem trace_leaves (s : State) (i : Fin 17) (r : TraceRec) : SvcLeaves i s (s.trace i r) ∧ (s.trace i r).ports = s.ports ∧
    (∃ tr, (s.trace i r).slice i = { s.slice i with trace := tr }) ∧ ∀ k w, k < 63 → w < 256 → (s.trace i r).reg k w = s.reg k w := by
  unfold State.trace
  dsimp only
  split
  · split
    · have hk := Safety.Keeps.bump s 63 0x14C 23 0 (by unfold Safety.watched; omega)
      have hr : ∀ k w, k < 63 → w < 256 → (s.bump 63 0x14C 23 0).reg k w = s.reg k w := fun k w h h256 => bump_reg_ne _ _ _ _ _ _ _ (by omega)
      obtain ⟨g, hg⟩ := bump_frame s 63 0x14C 23 0
      rw [hg] at hk hr ⊢
      exact ⟨⟨hk, fun _ _ => rfl, rfl, rfl, rfl, rfl, rfl⟩, rfl, ⟨_, rfl⟩, hr⟩
    · exact ⟨.modSlice s i _ rfl rfl rfl, rfl, ⟨_, modSlice_slice_self s i _⟩, fun _ _ _ _ => rfl⟩
  · exact ⟨.refl i s, rfl, ⟨_, rfl⟩, fun _ _ _ _ => rfl⟩

/-- A port's snoops after one more that needs no line of the answer area. -/
theorem egressSnoop_notify (q : QDesc) (pa : LineAddr) (det : Bool) (hp : portOf q.wagt = some p) (hw : ∀ g ∈ (s.port p).egress, g.waitsArea = false) :
    ∃ g : EgSnp, g.f = q.notify pa ∧ s.egressSnoop (q.notify pa) det 0 = s.modPort p fun x => { x with egress := x.egress ++ [g] } := by
  refine ⟨{ f := q.notify pa, det := det, age := 0, gone := false, area := false, dl := none, sent := false, rspIn := false
            datIn := false, fwdNeed := false, fwdIn := false, evNeed := false, reported := false }, rfl, ?_⟩
  unfold State.egressSnoop
  rw [show portOf (q.notify pa).dst = some p from hp]
  dsimp only
  refine bindArea_of_none _ _ fun g hg => ?_
  rw [modPort_port_self] at hg
  rcases List.mem_append.1 hg with h | h
  · exact hw g h
  · rw [List.mem_singleton.1 h]
    rfl

/-- A notification goes to its watcher's port and changes nothing else. -/
theorem carrySnoop_notify (hn : s.netClear = true) (q : QDesc) (pa : LineAddr) (det : Bool)
    (hw : ∀ x, ∀ g ∈ (s.port x).egress, g.waitsArea = false) : SvcLeaves i s (s.carrySnoop i (q.notify pa) det 0) ∧
    (s.carrySnoop i (q.notify pa) det 0).slices = s.slices ∧ (s.carrySnoop i (q.notify pa) det 0).regs = s.regs ∧
    (∀ x, ((s.carrySnoop i (q.notify pa) det 0).port x).cred = (s.port x).cred) ∧
    ∀ x, ((s.carrySnoop i (q.notify pa) det 0).port x).egress.map EgSnp.f =
      (s.port x).egress.map EgSnp.f ++ if portOf q.wagt = some x then [q.notify pa] else [] := by
  unfold State.carrySnoop
  cases hp : portOf (q.notify pa).dst with
  | none =>
    have hp : portOf q.wagt = none := hp
    exact ⟨.refl i s, rfl, rfl, fun _ => rfl, fun x => by rw [hp, if_neg nofun, List.append_nil]⟩
  | some p =>
    have hp : portOf q.wagt = some p := hp
    obtain ⟨g, hg, he⟩ := egressSnoop_notify q pa det hp (hw p)
    dsimp only
    rw [carry_of_clear _ _ _ _ _ hn, he]
    refine ⟨.modPort s i p _ rfl rfl, rfl, rfl, fun x => ?_, fun x => ?_⟩
    · by_cases hx : x = p
      · rw [hx, modPort_port_self]
      · rw [modPort_port_ne _ _ hx]
    · by_cases hx : x = p
      · rw [hx, modPort_port_self, if_pos hp, List.map_append, List.map_singleton, hg]
      · rw [modPort_port_ne _ _ hx, if_neg (by rw [hp]; exact fun h => hx (Option.some.inj h).symm), List.append_nil]

/-! ### The data credit of an operation (R58) -/

/-- The credit of a transaction's companion goes back once (R58). -/
theorem cdReturn_due (he : s.ent i n = some e) (hc : e.r.cd = some l) (hp : e.r.port = some p) (hd : e.h.cdDone = false)
    (hl : ((s.port p).dIss e.r.a.part).toNat ≤ s.dLimit p e.r.a.part) :
    s.cdReturn i n = (s.setEnt i n (some { e with h := { e.h with cdDone := true } })).modPort p (·.dueD e.r.a.part 1) := by
  unfold State.cdReturn
  rw [he]
  dsimp only
  rw [hc, hp]
  dsimp only
  rw [hd, if_neg nofun]
  exact if_pos hl

theorem dueD_frame (x : Port) (q : PartId) : (x.dueD q 1).held = x.held ∧ (x.dueD q 1).resetting = x.resetting ∧ (x.dueD q 1).egress = x.egress ∧
    (x.dueD q 1).cred.datDue = x.cred.datDue ++ [(q, 1)] := ⟨rfl, rfl, rfl, rfl⟩

/-- What the state is after a credit of the transaction has gone back. -/
theorem cdReturn_leaves (he : s.ent i n = some e) (hc : e.r.cd = some l) (hp : e.r.port = some p) (hd : e.h.cdDone = false)
    (hl : ((s.port p).dIss e.r.a.part).toNat ≤ s.dLimit p e.r.a.part) : SvcLeaves i s (s.cdReturn i n) ∧
    (s.cdReturn i n).slice i = (s.slice i).setEnt n (some { e with h := { e.h with cdDone := true } }) ∧
    ((s.cdReturn i n).port p).cred.datDue = (s.port p).cred.datDue ++ [(e.r.a.part, 1)] ∧
    ∀ x, ((s.cdReturn i n).port x).egress = (s.port x).egress := by
  rw [cdReturn_due he hc hp hd hl]
  refine ⟨(SvcLeaves.setEnt s i n _).trans (.modPort _ i p _ (dueD_frame _ _).1 (dueD_frame _ _).2.1), setEnt_slice_self s i n _, ?_, fun x => ?_⟩
  · rw [modPort_port_self]
    exact (dueD_frame _ _).2.2.2
  · by_cases hx : x = p
    · rw [hx, modPort_port_self]
      exact (dueD_frame _ _).2.2.1
    · rw [modPort_port_ne _ _ hx]
      rfl

/-! ### QEnq -/

/-- What a `QEnq` that stores its line leaves (R323, R326): `fires` says that the watcher is notified. -/
structure Enqueued (i : Fin 17) (n : Nat) (e : Trk) (p : Fin 24) (l : PLine) (k : Nat) (q : QDesc) (fires : Bool) (s u : State) : Prop where
  leaves : SvcLeaves i s u
  trk : (u.slice i).trk = ((s.slice i).setEnt n (some { e with h := { e.h with cdDone := true } })).trk
  desc : (u.slice i).desc k = { q with tail := q.tail + 1, wv := q.wv && !fires }
  wmb : ∃ w : WmbEnt, (u.slice i).mem.wmb = (s.slice i).mem.wmb ++ [w] ∧ w.addr = .ring e.r.home (q.entry q.tail.toNat) ∧ w.home = e.r.home ∧
    w.l = l ∧ w.writes = e.r.wId.toList ∧ w.issued = false
  due : (u.port p).cred.datDue = (s.port p).cred.datDue ++ [(e.r.a.part, 1)]
  egress : ∀ x, (u.port x).egress.map EgSnp.f = (s.port x).egress.map EgSnp.f ++ if fires ∧ portOf q.wagt = some x then [q.notify e.r.a.pa] else []

/-- A queue's watcher is told, where it is to be. -/
theorem notify_leaves (hn : s.netClear = true) (n : Nat) (e : Trk) (q : QDesc) (fires : Bool) (hw : ∀ x, ∀ g ∈ (s.port x).egress, g.waitsArea = false) :
    ∃ u, (if fires then (s.traceEnt i n e 0x03 q.wagt SnpOp.qNotify.code).carrySnoop i (q.notify e.r.a.pa) e.r.rk 0 else s) = u ∧ SvcLeaves i s u ∧
    (∃ tr, u.slice i = { s.slice i with trace := tr }) ∧ (∀ k w, k < 63 → w < 256 → u.reg k w = s.reg k w) ∧ (∀ x, (u.port x).cred = (s.port x).cred) ∧
    ∀ x, (u.port x).egress.map EgSnp.f = (s.port x).egress.map EgSnp.f ++ if fires ∧ portOf q.wagt = some x then [q.notify e.r.a.pa] else [] := by
  cases fires with
  | false => exact ⟨s, rfl, .refl i s, ⟨_, rfl⟩, fun _ _ _ _ => rfl, fun _ => rfl, fun x => by rw [if_neg (by simp), List.append_nil]⟩
  | true =>
    refine ⟨_, if_pos rfl, ?_⟩
    obtain ⟨v, hv⟩ : ∃ v, v = s.traceEnt i n e 0x03 q.wagt SnpOp.qNotify.code := ⟨_, rfl⟩
    have htr := trace_leaves s i ⟨s.now.extractLsb' 0 32, 0x03, q.wagt, e.r.a.pa, BitVec.ofNat 13 n, SnpOp.qNotify.code, e.we.code, e.pc⟩
    rw [← hv]
    rw [show s.trace i ⟨s.now.extractLsb' 0 32, 0x03, q.wagt, e.r.a.pa, BitVec.ofNat 13 n, SnpOp.qNotify.code, e.we.code, e.pc⟩ = v from hv.symm] at htr
    obtain ⟨h1, h2, h3, h4⟩ := htr
    have hp : ∀ x, v.port x = s.port x := fun x => by
      unfold State.port
      rw [h2]
    have hvn : v.netClear = true := by
      unfold State.netClear
      rw [h1.keeps.noc]
      exact hn
    obtain ⟨k1, k2, k3, k4, k5⟩ := carrySnoop_notify (i := i) hvn q e.r.a.pa e.r.rk (fun x => by rw [hp]; exact hw x)
    generalize v.carrySnoop i (q.notify e.r.a.pa) e.r.rk 0 = u at k1 k2 k3 k4 k5
    refine ⟨h1.trans k1, ?_, fun k w hk h256 => ?_, fun x => (k4 x).trans (by rw [hp]), fun x => (k5 x).trans (by rw [hp]; simp)⟩
    · obtain ⟨tr, h3⟩ := h3
      refine ⟨tr, ?_⟩
      rw [← h3]
      unfold State.slice
      rw [k2]
    · rw [← h4 k w hk h256]
      unfold State.reg
      rw [k3]

theorem qEnq_stores {o : SvcOp} {c : BitVec 8} (hn : s.netClear = true) (he : s.ent i n = some e)
    (hq : s.queueFor i (e.asSent o).r.a = (c, some (k, q))) (hne : q.count ≠ q.ring) (hlost : s.chLost e.r.home = false)
    (hl : (s.slice i).mem.wmb.length < 128) (hw : (s.slice i).mem.wtWait = [])
    (hb : (s.slice i).wmbOf (.ring e.r.home (q.entry q.tail.toNat)) e.r.home = []) (hp : e.r.port = some p) (hc : e.r.cd = some l)
    (hd : e.h.cdDone = false) (hdl : ((s.port p).dIss e.r.a.part).toNat ≤ s.dLimit p e.r.a.part)
    (heg : ∀ x, ∀ g ∈ (s.port x).egress, g.waitsArea = false) :
    ∃ u, s.qEnq i i n (e.asSent o) = some (u, .comp .ok (satCount (q.count + 1))) ∧
      Enqueued i n e p l k q (q.wv && decide (q.count + 1 = q.threshold)) s u := by
  obtain ⟨fires, hf⟩ : ∃ fires, fires = (q.wv && decide (q.count + 1 = q.threshold)) := ⟨_, rfl⟩
  obtain ⟨v, b, y, hv, hsv, hvp, hvr, hvs, hy, hb1, hb2, hb3, hb4, hb5⟩ := ringWrite_enters (l := l) e.r.wId.toList hl hw hb
  obtain ⟨w, hwd⟩ : ∃ w, w = v.modSlice i (·.setDesc k { q with tail := q.tail + 1, wv := q.wv && !fires }) := ⟨_, rfl⟩
  have hsw : SvcLeaves i s w := hwd ▸ hsv.trans (.setDesc v i k _)
  have hws : w.slice i = ({ s.slice i with mem := y } : Slice).setDesc k { q with tail := q.tail + 1, wv := q.wv && !fires } := by
    rw [hwd, modSlice_slice_self, hvs]
  have hwp : ∀ x, w.port x = s.port x := fun x => by
    rw [hwd]
    exact congrArg (fun ps : Vector Port 24 => ps[x]) hvp
  have hwr : ∀ m j, w.reg m j = s.reg m j := fun m j => by
    rw [hwd]
    unfold State.reg
    rw [← hvr]
    rfl
  obtain ⟨z, hz, hwz, ⟨tr, hzs⟩, hzr, hzc, hzeg⟩ := notify_leaves (i := i) (s := w)
    (by unfold State.netClear; rw [hsw.keeps.noc]; exact hn) n (e.asSent o) q fires (fun x => by rw [hwp]; exact heg x)
  have hze : z.ent i n = some e := by
    unfold State.ent
    rw [hzs, hws]
    exact he
  have hzd : ((z.port p).dIss e.r.a.part).toNat ≤ z.dLimit p e.r.a.part := by
    have h1 : z.dLimit p e.r.a.part = s.dLimit p e.r.a.part := by
      have := p.isLt
      have := e.r.a.part.isLt
      unfold State.dLimit State.fld
      rw [hzr _ _ (by unfold prtPage; omega) (by omega), hwr]
    have h2 : (z.port p).dIss e.r.a.part = (s.port p).dIss e.r.a.part := by
      unfold Port.dIss
      rw [hzc, hwp]
    rw [h1, h2]
    exact hdl
  obtain ⟨hR, hRs, hRd, hRe⟩ := cdReturn_leaves hze hc hp hd hzd
  refine ⟨z.cdReturn i n, ?_, ?_⟩
  · unfold State.qEnq
    rw [hq]
    dsimp only
    rw [if_neg hne, if_neg (by rw [show (e.asSent o).r.home = e.r.home from rfl, hlost]; exact Bool.false_ne_true)]
    rw [show (e.asSent o).r.cd.getD ⟨0, true⟩ = l by rw [show (e.asSent o).r.cd = some l from hc]; rfl,
      show (e.asSent o).r.home = e.r.home from rfl, show (e.asSent o).r.wId = e.r.wId from rfl, hv]
    dsimp only
    rw [← hf, ← hwd, hz]
  · rw [← hf]
    refine ⟨(hsw.trans hwz).trans hR, ?_, ?_, ⟨b, ?_, hb1, hb2, hb3, hb4, hb5⟩, ?_, fun x => ?_⟩
    · rw [hRs, hzs, hws]
      rfl
    · rw [hRs, hzs, hws]
      exact setDesc_desc _ k _
    · rw [hRs, hzs, hws]
      exact hy
    · rw [hRd, hzc, hwp]
    · rw [hRe, hzeg, hwp]
      rfl

end Sys2Proof.Machine
end

section
/-! The answers of home queues, `QDeq`'s read, `Atom`, and memory events (R157, R201, R323 to R325, R329). -/

namespace Sys2Proof.Machine

variable {s t u : State} {i : Fin 17} {n k : Nat} {e : Trk} {op qop : ReqOp} {a : ReqArgs} {x : Slice} {q : QDesc} {p : Fin 24} {l : PLine} {c : BitVec 8}

/-! ### Answers of a home queue -/

/-- A queue request that names no queue of its partition fails with its cause (R322). -/
theorem svcOp_unnamed (hq : s.queueFor i e.r.a = (c, none)) (hop : qop = .qEnq ∨ qop = .qDeq ∨ qop = .qWatch) :
    s.svcOp i i n e qop = some (s, .failed c) := by
  rcases hop with rfl | rfl | rfl
  · unfold State.svcOp State.qEnq
    dsimp only
    rw [hq]
  · unfold State.svcOp State.qDeq
    dsimp only
    rw [hq]
  · unfold State.svcOp State.qWatch
    dsimp only
    rw [hq]

theorem qEnq_full (hq : s.queueFor i e.r.a = (c, some (k, q))) (h : q.count = q.ring) :
    s.qEnq i i n e = some (s.bump 61 0x140 7 0, .comp .busy (satCount q.count)) := by
  unfold State.qEnq
  rw [hq]
  exact if_pos h

theorem qDeq_empty (hq : s.queueFor i e.r.a = (c, some (k, q))) (h : q.count = 0) : s.qDeq i i n e = (s, some (.comp .busy 0)) := by
  unfold State.qDeq
  rw [hq]
  exact if_pos h

/-- The watcher of a queue that stands in the way of another (R325). -/
def State.watched (s : State) (q : QDesc) (a : ReqArgs) : Bool := q.wv && q.wagt != a.src && !s.agFenced q.wagt && q.wgen == (s.part q.part).gen

theorem qWatch_met (hq : s.queueFor i a = (c, some (k, q))) (ha : a.arg.getLsbD 28 = true) (h : q.threshold ≤ q.count) : s.qWatch i a = (s, .comp .ok 1) := by
  unfold State.qWatch
  rw [hq]
  dsimp only
  rw [if_pos ha, if_pos h]

theorem qWatch_busy (hq : s.queueFor i a = (c, some (k, q))) (ha : a.arg.getLsbD 28 = true) (h : q.count < q.threshold) (hw : s.watched q a = true) :
    s.qWatch i a = (s, .comp .busy 0) := by
  unfold State.qWatch
  rw [hq]
  dsimp only
  rw [if_pos ha, if_neg (by omega)]
  exact if_pos hw

theorem qWatch_arms (hq : s.queueFor i a = (c, some (k, q))) (ha : a.arg.getLsbD 28 = true) (h : q.count < q.threshold) (hw : s.watched q a = false) :
    s.qWatch i a = (s.modSlice i (·.setDesc k { q with wv := true, wagt := a.src, watag := a.atag, wgen := a.gen }), .comp .ok 0) := by
  unfold State.qWatch
  rw [hq]
  dsimp only
  rw [if_pos ha, if_neg (by omega)]
  exact if_neg (by rw [show (q.wv && q.wagt != a.src && !s.agFenced q.wagt && q.wgen == (s.part q.part).gen) = s.watched q a from rfl, hw]; exact Bool.false_ne_true)

theorem qWatch_other (hq : s.queueFor i a = (c, some (k, q))) (ha : a.arg.getLsbD 28 = false) (hw : (q.wv && q.wagt == a.src) = false) :
    s.qWatch i a = (s, .comp .ok 2) := by
  unfold State.qWatch
  rw [hq]
  dsimp only
  rw [if_neg (by rw [ha]; exact Bool.false_ne_true)]
  exact if_neg (by rw [hw]; exact Bool.false_ne_true)

theorem qWatch_disarms (hq : s.queueFor i a = (c, some (k, q))) (ha : a.arg.getLsbD 28 = false) (hw : (q.wv && q.wagt == a.src) = true) :
    s.qWatch i a = (s.modSlice i (·.setDesc k { q with wv := false }), .comp (if q.wgen == (s.part q.part).gen then .ok else .stalegen) 0) := by
  unfold State.qWatch
  rw [hq]
  dsimp only
  rw [if_neg (by rw [ha]; exact Bool.false_ne_true)]
  exact if_pos hw

/-! ### The read of a `QDeq` (R324) -/

/-- A fetch for the service unit, of a ring line that the merging buffer does not hold, joins its channel's read queue. -/
theorem fetchCheck_pushes {f : FetchReq} {ch : Fin 16} {cla : Nat} {mir : Bool} (hf : f.fetchFor.idle = false ∧ f.fetchFor.isPref = false)
    (hh : (s.slice f.slice).holdsFetch f = false) (hp : s.fetchPlace f = some (ch, cla, mir)) (hr : s.rqRoom ch f.det = true)
    (hc : f.slice.val = ch.val) : ∃ pc, s.fetchCheck f = ({ s with tst := { s.tst with pc := pc } } : State).modChan ch (·.rqPush f mir cla) := by
  obtain ⟨pc, hpc⟩ := perf_frame s f.slice 0x05 1
  refine ⟨pc, ?_⟩
  obtain ⟨v, hv⟩ : ∃ v : State, v = { s with tst := { s.tst with pc := pc } } := ⟨_, rfl⟩
  have hvs : v.slice f.slice = s.slice f.slice := by rw [hv]; rfl
  have hvp : v.fetchPlace f = some (ch, cla, mir) := by rw [hv]; exact hp
  have hvr : v.rqRoom ch f.det = true := by rw [hv]; exact hr
  have hvf : v.prefFull ch f = false := by
    unfold State.prefFull
    rw [hf.2]
    rfl
  have ha : v.rqArrive f = v.modChan ch (·.rqPush f mir cla) := by
    unfold State.rqArrive
    rw [hf.1, if_neg (by simp), hvp]
    dsimp only
    rw [hvf, if_neg nofun]
  unfold State.fetchCheck
  rw [hpc, ← hv]
  dsimp only
  rw [hvs, hh, if_pos (by rfl)]
  unfold State.rqEnter
  rw [hf.1, if_neg (by simp), hvp]
  dsimp only
  rw [hvf, if_neg nofun, if_pos hvr, ← ha]
  unfold State.carryMem
  exact if_pos hc

/-- The commit of a `QDeq` of a queue that holds something: the operation leaves the unit and its read is on its way. -/
theorem svcCommit_qDeq {o : SvcOp} {v : State} (hi : (s.slice i).ar.inj = []) (hk : e.r.kind = .req op) (ho : reqOpOf o.opc = some .qDeq)
    (hq : s.queueFor i (e.asSent o).r.a = (c, some (k, q))) (hne : q.count ≠ 0) (hlost : s.chLost e.r.home = false)
    (hv : s.fetchCheck ⟨i, .svc (svcKey o.src o.tid), .ring e.r.home (q.entry q.head.toNat), e.r.home, e.r.rk, false, false⟩ = v) :
    s.svcCommit i o e = v.modSlice i fun x => { x with svcq := x.svcq.filter fun k => k != o } := by
  have hd : s.qDeq i o.src o.tid (e.asSent o) = (v, none) := by
    unfold State.qDeq
    rw [hq]
    dsimp only
    rw [if_neg hne, if_neg (by rw [show (e.asSent o).r.home = e.r.home from rfl, hlost]; exact Bool.false_ne_true), ← hv]
    rfl
  unfold State.svcCommit
  rw [svcRead_of_nil hi hk]
  dsimp only
  rw [hk]
  dsimp only
  rw [ho]
  dsimp only
  rw [hd]
  rfl

/-! ### `Atom` and `CondWr` -/

theorem atomOp_leaves {o : SvcOp} {base cd : PLine} (he : s.ent i n = some e) (hb : e.line = some base) (hc : e.r.cd = some cd) (hp : e.r.port = some p)
    (hd : e.h.cdDone = false) (hl : ((s.port p).dIss e.r.a.part).toNat ≤ s.dLimit p e.r.a.part) :
    ∃ u, s.atomOp i n (e.asSent o) = (u, ⟨0, .ok, some base⟩) ∧ SvcLeaves i s u ∧
      u.slice i = (s.slice i).setEnt n (some { e with h := { e.h with cdDone := true, dh := some ⟨.slot, atomLine (e.asSent o).r.a.arg base cd⟩ } }) ∧
      (u.port p).cred.datDue = (s.port p).cred.datDue ++ [(e.r.a.part, 1)] := by
  obtain ⟨k, hk⟩ : ∃ k : Trk, k = { e with h := { e.h with dh := some ⟨.slot, atomLine (e.asSent o).r.a.arg base cd⟩ } } := ⟨_, rfl⟩
  obtain ⟨v, hv⟩ : ∃ v, v = s.setEnt i n (some k) := ⟨_, rfl⟩
  obtain ⟨hR, hRs, hRd, -⟩ := cdReturn_leaves (s := v) (i := i) (n := n) (e := k) (l := cd) (p := p) (by rw [hv, ent_setEnt_self]) (by rw [hk]; exact hc)
    (by rw [hk]; exact hp) (by rw [hk]; exact hd) (by rw [hk, hv]; exact hl)
  refine ⟨v.cdReturn i n, ?_, (hv ▸ SvcLeaves.setEnt s i n _).trans hR, ?_, ?_⟩
  · unfold State.atomOp
    rw [show (e.asSent o).line = some base from hb, show (e.asSent o).r.cd = some cd from hc]
    dsimp only
    rw [modEnt_of_ent he, ← hk, ← hv]
  · rw [hRs, hv, setEnt_slice_self, slice_setEnt_setEnt, hk]
  · rw [hRd, hv, hk]
    rfl

end Sys2Proof.Machine
end

section
/-! Memory events at their transactions (R201, R324). -/

namespace Sys2Proof.Machine

variable {s t u : State} {i : Fin 17} {n : Nat} {e : Trk} {l : PLine} {st : MemStat}

/-- The code of a memory action's status in MS (R197). -/
def MemStat.code : MemStat → BitVec 2
  | .ok => 0
  | .poison => 1
  | .fenced => 2

/-- A transaction that waits for MEM goes on with the one event that has come (R192, R201). -/
theorem wake_mem {tm sv q b : Bool} {pc : BitVec 10} (hs : e.stat = .parked false true tm sv q pc) (hm : e.m.memEv = [(st, b)]) (tmo : Bool) :
    e.wake tmo = { e with stat := .ready false, pc := e.pc + 1, m := { e.m with memEv := [], ms := st.code, ev := 1 } } := by
  cases st <;> simp [Trk.wake, hs, hm, MemStat.code]

/-- Without a group of readers the end of a fetch closes nothing (R117). -/
theorem closeWindow_of_none (h : e.h.grp = none) : e.closeWindow = { e with h := { e.h with fetching := false } } := by
  unfold Trk.closeWindow Trk.shutWindow Trk.trimGroup
  simp only [h, Option.map_none]

theorem takeMem_fetch {tid : Nat} (hd : e.h.fetchDead = false) (hf : e.m.fwdd = false) (hg : e.h.grp = none) :
    e.takeMem ⟨tid, .ok, some l, true⟩ =
      { e with m := { e.m with memEv := e.m.memEv ++ [(.ok, true)] }, h := { e.h with fetching := false, dh := some ⟨.slot, l⟩ } } := by
  unfold Trk.takeMem
  rw [if_pos rfl]
  unfold Trk.takeFetch
  rw [closeWindow_of_none hg]
  dsimp only
  rw [hd, if_neg nofun, hf, if_neg nofun]
  rfl

/-- The oldest memory action of a slice reaches its transaction (R201). -/
theorem memEventStep_takes {m : MemAct} {ms : List MemAct} (hi : (s.slice i).ar.inj = []) (he : s.ent i n = some e)
    (hm : (s.slice i).mem.memq = m :: ms) (hn : m.tid = n) (hl : n < 16384) :
    s.memEventStep i = s.modSlice i fun x => { x with mem := { x.mem with memq := ms } }.setEnt n (some ((e.takeMem m).wake false)) := by
  obtain ⟨v, hv⟩ : ∃ v, v = s.modSlice i fun x => { x with mem := { x.mem with memq := ms } } := ⟨_, rfl⟩
  have hve : v.ent i n = some e := by
    rw [hv, ent_modSlice _ _ _ _ _ rfl]
    exact he
  have hvi : (v.slice i).ar.inj = [] := by
    rw [hv, modSlice_slice_self]
    exact hi
  unfold State.memEventStep
  rw [hm]
  dsimp only
  rw [← hv]
  unfold State.memEvent
  rw [if_neg (by omega), if_neg (by omega), hn, withTrk_of_nil hvi, stir_of_ent hve, hv]
  exact modSlice_modSlice _ _ _ _

/-- The line that a `QDeq` reads reaches its transaction before its deadline (R324). -/
theorem memEventStep_serves {ms : List MemAct} {me tm q : Bool} {pc : BitVec 10} (hi : (s.slice i).ar.inj = []) (he : s.ent i n = some e)
    (hm : (s.slice i).mem.memq = ⟨svcKey i n, .ok, some l, true⟩ :: ms) (hl : n < 32768) (hx : s.expired e = false)
    (hs : e.stat = .parked false me tm true q pc) (hv' : e.m.memEv = []) :
    s.memEventStep i = s.modSlice i fun x =>
      { x with mem := { x.mem with memq := ms } }.setEnt n (some (e.served ⟨if l.pois then 3 else 1, .ok, some l⟩)) := by
  obtain ⟨v, hv⟩ : ∃ v, v = s.modSlice i fun x => { x with mem := { x.mem with memq := ms } } := ⟨_, rfl⟩
  have hve : v.ent i n = some e := by
    rw [hv, ent_modSlice _ _ _ _ _ rfl]
    exact he
  have hvi : (v.slice i).ar.inj = [] := by
    rw [hv, modSlice_slice_self]
    exact hi
  have hkey : svcKey i n / 32768 - 1 = i.val ∧ svcKey i n % 32768 = n ∧ 32768 ≤ svcKey i n := by
    unfold svcKey
    omega
  obtain ⟨h1, h2, h3⟩ := hkey
  have hj : (⟨svcKey i n / 32768 - 1, by rw [h1]; exact i.isLt⟩ : Fin 17) = i := Fin.ext h1
  unfold State.memEventStep
  rw [hm]
  dsimp only
  rw [← hv]
  unfold State.memEvent
  rw [if_pos h3, dif_pos (by rw [h1]; exact i.isLt)]
  dsimp only
  rw [hj, h2, withTrk_of_nil hvi, modEnt_of_ent hve, if_neg (by rw [show v.expired e = s.expired e by rw [hv]; rfl, hx]; exact Bool.false_ne_true),
    show (e.takeSvc (qDeqResult ⟨svcKey i n, .ok, some l, true⟩)).wake false = _ from takeSvc_wake hs hv' _, hv]
  exact modSlice_modSlice _ _ _ _

/-- A transaction without a memory event goes on with the one that comes. -/
theorem takeMem_wake {tm sv q b : Bool} {pc : BitVec 10} {k : Trk} (hs : k.stat = .parked false true tm sv q pc) (h0 : e.m.memEv = [])
    (hk : k.m = { e.m with memEv := e.m.memEv ++ [(st, b)] }) (tmo : Bool) :
    k.wake tmo = { k with stat := .ready false, pc := k.pc + 1, m := { e.m with ms := st.code, ev := 1 } } := by
  rw [wake_mem (st := st) (b := b) hs (by rw [hk, h0]; rfl), hk, ← h0]

/-- The state after a slice's memory event differs from it in the slice alone. -/
structure MemTook (i : Fin 17) (n : Nat) (ms : List MemAct) (e : Trk) (s t : State) : Prop where
  ent : t.ent i n = some e
  memq : (t.slice i).mem.memq = ms
  rest : ∀ k, k ≠ n → t.ent i k = s.ent i k
  others : ∀ j, j ≠ i → t.slice j = s.slice j
  ports : t.ports = s.ports
  chans : t.chans = s.chans
  dram : t.dram = s.dram
  glb : t.glb = s.glb
  flt : t.flt = s.flt
  par : t.par = s.par
  regs : t.regs = s.regs

end Sys2Proof.Machine

namespace Sys2Proof.Safety

open Sys2Proof.Machine

variable {s : State} {i : Fin 17} {n : Nat} {e : Trk}

/-- A memory event that ends as a change of the slice. -/
theorem Quiet.memTook (hq : Quiet s) {ms : List MemAct}
    (h : s.memEventStep i = s.modSlice i fun x => { x with mem := { x.mem with memq := ms } }.setEnt n (some e)) :
    ∃ t, exec (.memEvent i) s = .next t ∧ MemTook i n ms e s t := by
  obtain ⟨u, hu⟩ : ∃ u, u = s.modSlice i fun x => { x with mem := { x.mem with memq := ms } }.setEnt n (some e) := ⟨_, rfl⟩
  have hus : u.slice i = { s.slice i with mem := { (s.slice i).mem with memq := ms } }.setEnt n (some e) := by rw [hu, modSlice_slice_self]
  have hur : u.ports = s.ports ∧ u.chans = s.chans ∧ u.dram = s.dram ∧ u.glb = s.glb ∧ u.flt = s.flt ∧ u.par = s.par ∧ u.regs = s.regs := by
    rw [hu]
    exact ⟨rfl, rfl, rfl, rfl, rfl, rfl, rfl⟩
  have huo : ∀ j, j ≠ i → u.slice j = s.slice j := fun j hj => by rw [hu, modSlice_slice_ne _ _ hj]
  have hk : Keeps s u := hu ▸ .modSlice s i _ rfl rfl
  obtain ⟨h1, h2, h3, h4, h5, h6, h7⟩ := hur
  refine ⟨_, (hk.quiet hq).ends (s := s) (h.trans hu.symm) hk.pending hk.now, ?_, congrArg (fun x : Slice => x.mem.memq) hus, fun m hm => ?_, huo,
    h1, h2, h3, h4, h5, h6, h7⟩
  · unfold State.ent
    rw [setPins_slice, hus]
    exact setEnt_ent_self _ n _
  · unfold State.ent
    rw [setPins_slice, hus]
    exact setEnt_ent_ne _ _ hm

end Sys2Proof.Safety
end

section
/-! O33: the operations of the service unit at their commit, and memory events at their transactions. -/

namespace Sys2Proof.Safety

open Sys2Proof.Machine

variable {s t u : State} {i : Fin 17} {n : Nat} {e : Trk} {o : SvcOp} {op qop : ReqOp} {r : SvcRes} {c : BitVec 8} {k : Nat} {q : QDesc} {l : PLine}

/-- The result r is with the transaction, whose entry was e but for it, and nothing outside slice i and the ports has changed. -/
def ResultIn (s : State) (i : Fin 17) (n : Nat) (e : Trk) (r : SvcRes) (t : State) : Prop :=
  exec (.serviceCommit i) s = .next t ∧ t.ent i n = some (e.served r) ∧ (t.slice i).svcq = [] ∧ (∀ m, m ≠ n → t.ent i m = s.ent i m) ∧
    (∀ j, j ≠ i → t.slice j = s.slice j) ∧ t.chans = s.chans ∧ t.dram = s.dram ∧ t.glb = s.glb ∧ t.flt = s.flt ∧ t.par = s.par

/-- An operation that leaves the tracker and the ports ends with its result. -/
theorem Waits.does (h : Waits i n e o op s) (ho : reqOpOf o.opc = some qop) (hp : s.svcOp i i n (e.asSent o) qop = some (u, r))
    (hu : SvcLeaves i s u) (hup : u.ports = s.ports) (hut : (u.slice i).trk = (s.slice i).trk) :
    ∃ t, ResultIn s i n e r t ∧ t.ports = s.ports ∧ (t.slice i).ar = (u.slice i).ar ∧ (t.slice i).resv = (u.slice i).resv ∧
      (t.slice i).mem = (u.slice i).mem := by
  have hue : ∀ m, u.ent i m = s.ent i m := fun m => by
    unfold State.ent Slice.ent
    rw [hut]
  obtain ⟨t, hx, hA⟩ := h.serves ho hp hu ⟨e.h, rfl⟩ (by rw [hue]; exact h.ent)
  exact ⟨t, ⟨hx, answers_ends hA fun m _ => hue m⟩, hA.ports.trans hup, answers_slice hA⟩

/-- An operation that changes nothing but a counter of the unit ends with its result. -/
theorem Waits.tells (h : Waits i n e o op s) (ho : reqOpOf o.opc = some qop) (hp : s.svcOp i i n (e.asSent o) qop = some (u, r))
    (hu : SvcLeaves i s u ∧ u.ports = s.ports ∧ ∀ j, u.slice j = s.slice j) :
    ∃ t, ResultIn s i n e r t ∧ t.ports = s.ports ∧ (t.slice i).ar = (s.slice i).ar ∧ (t.slice i).resv = (s.slice i).resv ∧
      (t.slice i).mem = (s.slice i).mem := by
  obtain ⟨hu, hup, hus⟩ := hu
  have := h.does ho hp hu hup (by rw [hus])
  rwa [hus] at this

/-- Nothing changes. -/
theorem leaves_self (s : State) (i : Fin 17) : SvcLeaves i s s ∧ s.ports = s.ports ∧ ∀ j, s.slice j = s.slice j := ⟨.refl i s, rfl, fun _ => rfl⟩

/-! ### Locks -/

theorem Waits.tells_lock (h : Waits i n e o op s) (ho : reqOpOf o.opc = some qop) (hp : s.svcOp i i n (e.asSent o) qop = some (s, r)) (set : Nat) :
    ∃ t, ResultIn s i n e r t ∧ t.ports = s.ports ∧ ∀ k, (t.slice i).lock set k = (s.slice i).lock set k := by
  obtain ⟨t, hx, hp, ha, -, -⟩ := h.tells ho hp (leaves_self s i)
  exact ⟨t, hx, hp, fun k => by unfold Slice.lock; rw [ha]⟩

/-- An operation that writes one ledger way ends with its result. -/
theorem Waits.writes_lock (h : Waits i n e o op s) (ho : reqOpOf o.opc = some qop) {set w : Nat} {v : Option Lock}
    (hp : s.svcOp i i n (e.asSent o) qop = some (u, r)) (hu : SvcLeaves i (s.modSlice i (·.setLock set w v)) u ∧
      u.ports = s.ports ∧ ∀ j, u.slice j = (s.modSlice i (·.setLock set w v)).slice j) :
    ∃ t, ResultIn s i n e r t ∧ t.ports = s.ports ∧ ∀ k, (t.slice i).lock set k = if k = w then v else (s.slice i).lock set k := by
  obtain ⟨hu, hup, hus⟩ := hu
  have hsl : u.slice i = (s.slice i).setLock set w v := by rw [hus, modSlice_slice_self]
  obtain ⟨t, hx, hp, ha, -, -⟩ := h.does ho hp ((SvcLeaves.modSlice s i _ rfl rfl rfl).trans hu) hup (by rw [hsl]; rfl)
  refine ⟨t, hx, hp, fun k => ?_⟩
  rw [← setLock_lock, ← hsl]
  unfold Slice.lock
  rw [ha]

/-- `LockAcq` at its commit (R314). -/
theorem Waits.lockAcq (h : Waits i n e o op s) (ho : reqOpOf o.opc = some .lockAcq) :
    let c := s.claOf e.r.a.pa
    (∀ w, (s.slice i).findLock c = none → (s.slice i).locksOf e.r.a.part < s.fld 60 (0x200 + 4 * e.r.a.part.toNat) 26 16 →
      (s.slice i).freeLock c = some w → ∃ t, ResultIn s i n e (.comp .ok 0) t ∧ t.ports = s.ports ∧ ∀ k, (t.slice i).lock (ledgerSet c) k =
        if k = w then some (.heldBy (ledgerTag c) e.r.a) else (s.slice i).lock (ledgerSet c) k) ∧
    ∀ w l, (s.slice i).findLock c = some (w, l) →
      ((s.lockReads l).1 = .held → ∃ t, ResultIn s i n e (.comp .busy (l.owner.zeroExtend 16)) t ∧ t.ports = s.ports ∧
        ∀ k, (t.slice i).lock (ledgerSet c) k = (s.slice i).lock (ledgerSet c) k) ∧
      ((s.lockReads l).1 = .orphaned → ∃ t, ResultIn s i n e (.comp .orphaned ((0 : BitVec 8) ++ (s.lockReads l).2 ++ l.owner)) t ∧ t.ports = s.ports ∧
        ∀ k, (t.slice i).lock (ledgerSet c) k = if k = w then some (.heldBy (ledgerTag c) e.r.a) else (s.slice i).lock (ledgerSet c) k) := by
  intro c
  refine ⟨fun w hf hq hw => ?_, fun w l hf => ⟨fun hl => ?_, fun hl => ?_⟩⟩
  · exact h.writes_lock ho (congrArg some (lockAcq_free (a := (e.asSent o).r.a) hf hq hw)) ⟨.refl _ _, rfl, fun _ => rfl⟩
  · exact h.tells_lock ho (congrArg some (lockAcq_held (a := (e.asSent o).r.a) hf hl)) _
  · exact h.writes_lock ho (congrArg some (lockAcq_orphaned (a := (e.asSent o).r.a) hf hl)) (SvcLeaves.bump _ i _ _ _)

/-- `LockRel` at its commit (R315). -/
theorem Waits.lockRel (h : Waits i n e o op s) (ho : reqOpOf o.opc = some .lockRel) :
    let c := s.claOf e.r.a.pa
    (∀ w, (s.slice i).findLock c = some (w, .heldBy (ledgerTag c) e.r.a) → (s.lockReads (.heldBy (ledgerTag c) e.r.a)).1 = .held →
      ∃ t, ResultIn s i n e (.comp .ok 0) t ∧ t.ports = s.ports ∧
        ∀ k, (t.slice i).lock (ledgerSet c) k = if k = w then none else (s.slice i).lock (ledgerSet c) k) ∧
    ((s.slice i).findLock c = none → ∃ t, ResultIn s i n e (.comp .failed 0x0500) t ∧ t.ports = s.ports ∧
      ∀ k, (t.slice i).lock (ledgerSet c) k = (s.slice i).lock (ledgerSet c) k) := by
  intro c
  refine ⟨fun w hf hl => ?_, fun hf => ?_⟩
  · exact h.writes_lock ho (congrArg some (lockRel_own (a := (e.asSent o).r.a) hf hl)) ⟨.refl _ _, rfl, fun _ => rfl⟩
  · exact h.tells_lock ho (congrArg some (lockRel_none (a := (e.asSent o).r.a) hf)) _

end Sys2Proof.Safety
end

section
/-! O33: queues, reservations and atomics at their commit, and the settlement. -/

namespace Sys2Proof.Safety

open Sys2Proof.Machine

variable {s t u : State} {i : Fin 17} {n : Nat} {e : Trk} {o : SvcOp} {op qop : ReqOp} {r : SvcRes} {c : BitVec 8} {k : Nat} {q : QDesc} {l : PLine}
  {p : Fin 24}

theorem Keeps.modChan (s : State) (ch : Fin 16) (f : Chan → Chan) : Keeps s (s.modChan ch f) := { Keeps.refl s with }

/-! ### Home queues -/

/-- An operation that writes a descriptor ends with its result. -/
theorem Waits.writes_desc (h : Waits i n e o op s) (ho : reqOpOf o.opc = some qop) {d : QDesc}
    (hp : s.svcOp i i n (e.asSent o) qop = some (s.modSlice i (·.setDesc k d), r)) :
    ∃ t, ResultIn s i n e r t ∧ (t.slice i).desc k = d ∧ t.ports = s.ports := by
  obtain ⟨t, hx, hp, ha, -, -⟩ := h.does ho hp (.setDesc s i k d) rfl (by rw [modSlice_slice_self]; rfl)
  refine ⟨t, hx, ?_, hp⟩
  unfold Slice.desc
  rw [ha, modSlice_slice_self]
  exact setDesc_desc _ k d

/-- A `QEnq` that stores its line ends with the new count (R323). -/
theorem Waits.qEnq_stores (h : Waits i n e o op s) (ho : reqOpOf o.opc = some .qEnq) (hq : s.queueFor i (e.asSent o).r.a = (c, some (k, q)))
    (hne : q.count ≠ q.ring) (hlost : s.chLost e.r.home = false) (hl : (s.slice i).mem.wmb.length < 128) (hw : (s.slice i).mem.wtWait = [])
    (hb : (s.slice i).wmbOf (.ring e.r.home (q.entry q.tail.toNat)) e.r.home = []) (hp : e.r.port = some p) (hc : e.r.cd = some l)
    (hd : e.h.cdDone = false) (hdl : ((s.port p).dIss e.r.a.part).toNat ≤ s.dLimit p e.r.a.part)
    (heg : ∀ x, ∀ g ∈ (s.port x).egress, g.waitsArea = false) {fires : Bool} (hf : fires = (q.wv && decide (q.count + 1 = q.threshold))) :
    ∃ t, ResultIn s i n { e with h := { e.h with cdDone := true } } (.comp .ok (satCount (q.count + 1))) t ∧
      (t.slice i).desc k = { q with tail := q.tail + 1, wv := q.wv && !fires } ∧
      (∃ w : WmbEnt, (t.slice i).mem.wmb = (s.slice i).mem.wmb ++ [w] ∧ w.addr = .ring e.r.home (q.entry q.tail.toNat) ∧
        w.home = e.r.home ∧ w.l = l ∧ w.writes = e.r.wId.toList ∧ w.issued = false) ∧
      (t.port p).cred.datDue = (s.port p).cred.datDue ++ [(e.r.a.part, 1)] ∧
      ∀ x, (t.port x).egress.map EgSnp.f = (s.port x).egress.map EgSnp.f ++
        if fires ∧ portOf q.wagt = some x then [q.notify e.r.a.pa] else [] := by
  obtain ⟨u, hu, hE⟩ := Machine.qEnq_stores h.quiet.netClear h.ent hq hne hlost hl hw hb hp hc hd hdl heg
  rw [← hf] at hE
  have hue : ∀ m, u.ent i m = ((s.slice i).setEnt n (some { e with h := { e.h with cdDone := true } })).ent m := fun m => by
    unfold State.ent Slice.ent
    rw [hE.trk]
  obtain ⟨t, hx, hA⟩ := h.serves ho hu hE.leaves ⟨_, rfl⟩ ((hue n).trans (setEnt_ent_self _ _ _))
  have htp : ∀ x, t.port x = u.port x := fun x => by
    unfold State.port
    rw [hA.ports]
  obtain ⟨har, -, hme⟩ := answers_slice hA
  refine ⟨t, ⟨hx, answers_ends hA fun m hm => (hue m).trans (setEnt_ent_ne _ _ hm)⟩, ?_, ?_, ?_, fun x => ?_⟩
  · rw [← hE.desc]
    unfold Slice.desc
    rw [har]
  · rw [hme]
    exact hE.wmb
  · rw [htp]
    exact hE.due
  · rw [htp]
    exact hE.egress x

/-- A `QDeq` of a queue that holds something reads the line at HEAD (R324). -/
theorem Waits.qDeq_reads (h : Waits i n e o op s) (ho : reqOpOf o.opc = some .qDeq) (hq : s.queueFor i (e.asSent o).r.a = (c, some (k, q)))
    {f : FetchReq} (hf : f = ⟨i, .svc (svcKey i n), .ring e.r.home (q.entry q.head.toNat), e.r.home, e.r.rk, false, false⟩)
    {ch : Fin 16} {cla : Nat} {mir : Bool} (hne : q.count ≠ 0) (hlost : s.chLost e.r.home = false) (hh : (s.slice i).holdsFetch f = false)
    (hp : s.fetchPlace f = some (ch, cla, mir)) (hr : s.rqRoom ch e.r.rk = true) (hc : i.val = ch.val) :
    ∃ t, exec (.serviceCommit i) s = .next t ∧ t.ent i n = some e ∧ (t.slice i).svcq = [] ∧ (t.slice i).ar = (s.slice i).ar ∧
      t.chan ch = (s.chan ch).rqPush f mir cla ∧ (∀ k, k ≠ ch → t.chan k = s.chan k) ∧ (∀ j, j ≠ i → t.slice j = s.slice j) ∧ t.ports = s.ports := by
  obtain ⟨pc, hpc⟩ := fetchCheck_pushes (s := s) (f := f) (by rw [hf]; exact ⟨rfl, rfl⟩) (by rw [hf] at hh ⊢; exact hh) hp (by rw [hf]; exact hr)
    (by rw [hf]; exact hc)
  obtain ⟨v, hv⟩ : ∃ v : State, v = ({ s with tst := { s.tst with pc := pc } } : State).modChan ch (·.rqPush f mir cla) := ⟨_, rfl⟩
  obtain ⟨w, hw⟩ : ∃ w, w = v.modSlice i fun x => { x with svcq := x.svcq.filter fun k => k != o } := ⟨_, rfl⟩
  have hcommit : s.svcCommit i o e = w := by
    rw [hw]
    refine svcCommit_qDeq h.inj h.kind ho hq hne hlost ?_
    rw [hv, ← hpc, hf, h.src, h.tid]
  have hvs : ∀ j, v.slice j = s.slice j := fun j => by rw [hv]; rfl
  have hws : w.slice i = { s.slice i with svcq := [] } := by
    rw [hw, modSlice_slice_self, hvs, h.queue]
    simp
  have hk : Keeps s w := by
    rw [hw]
    exact (show Keeps s v from hv ▸ (Keeps.counters s pc).trans (.modChan _ _ _)).trans (.modSlice v i _ rfl rfl)
  have hwc : w.chan ch = (s.chan ch).rqPush f mir cla := by
    rw [hw]
    change v.chan ch = _
    rw [hv, modChan_chan_self]
    rfl
  have hwn : ∀ k, k ≠ ch → w.chan k = s.chan k := fun k hk => by
    rw [hw]
    change v.chan k = _
    rw [hv, modChan_chan_ne _ _ hk]
    rfl
  have hwo : ∀ j, j ≠ i → w.slice j = s.slice j := fun j hj => by rw [hw, modSlice_slice_ne _ _ hj, hvs]
  have hwp : w.ports = s.ports := by
    rw [hw, hv]
    rfl
  obtain ⟨d, hstep⟩ := serviceStep_commits h.toCommits h.kind hcommit (by rw [hws])
  have hkt := hk.trans (Keeps.counters w d)
  refine ⟨_, (hkt.quiet h.quiet).ends (s := s) hstep hkt.pending hkt.now, ?_, congrArg (fun x : Slice => x.svcq) hws,
    (congrArg (fun x : Slice => x.ar) hws).trans rfl, hwc, hwn, hwo, hwp⟩
  have := h.ent
  unfold State.ent at this ⊢
  exact (congrArg (Slice.ent · n) hws).trans this

/-! ### Reservations and atomics -/

theorem Waits.condWr (h : Waits i n e o op s) (ho : reqOpOf o.opc = some .condWr) :
    let ok := (s.slice i).resv.any fun k =>
      k.ag == e.r.a.src && k.home == e.r.home && s.resvLive k && k.holds e.r.a.pa && k.part == e.r.a.part && k.gen == e.r.a.gen
    ∃ t, ResultIn s i n e ⟨if ok then 1 else 0, if ok then .ok else .busy, none⟩ t ∧ t.ports = s.ports ∧
      (t.slice i).resv = (s.slice i).resv.filter (fun k => !(k.ag == e.r.a.src && k.home == e.r.home)) := by
  intro ok
  have hp : s.svcOp i i n (e.asSent o) .condWr = some (s.modSlice i fun x =>
      { x with resv := x.resv.filter fun k => !(k.ag == e.r.a.src && k.home == e.r.home) },
      ⟨if ok then 1 else 0, if ok then .ok else .busy, none⟩) := by
    refine congrArg some (Prod.ext rfl ?_)
    change (if ok then (⟨1, .ok, none⟩ : SvcRes) else .comp .busy 0) = _
    cases ok <;> rfl
  obtain ⟨t, hx, hp, -, hr, -⟩ := h.does ho hp (.modSlice s i _ rfl rfl rfl) rfl (by rw [modSlice_slice_self])
  exact ⟨t, hx, hp, hr.trans (by rw [modSlice_slice_self])⟩

theorem Waits.atom (h : Waits i n e o op s) (ho : reqOpOf o.opc = some .atom) {base cd : PLine} (hb : e.line = some base) (hc : e.r.cd = some cd)
    (hp : e.r.port = some p) (hd : e.h.cdDone = false) (hl : ((s.port p).dIss e.r.a.part).toNat ≤ s.dLimit p e.r.a.part) :
    ∃ t, ResultIn s i n { e with h := { e.h with cdDone := true, dh := some ⟨.slot, atomLine (e.asSent o).r.a.arg base cd⟩ } } ⟨0, .ok, some base⟩ t ∧
      (t.port p).cred.datDue = (s.port p).cred.datDue ++ [(e.r.a.part, 1)] := by
  obtain ⟨u, hu, hR, hus, hdue⟩ := atomOp_leaves (o := o) h.ent hb hc hp hd hl
  have hue : ∀ m, u.ent i m = ((s.slice i).setEnt n (some { e with h := { e.h with cdDone := true, dh := some ⟨.slot, atomLine (e.asSent o).r.a.arg base cd⟩ } })).ent m :=
    fun m => by
      unfold State.ent
      rw [hus]
  obtain ⟨t, hx, hA⟩ := h.serves ho (congrArg some hu) hR ⟨_, rfl⟩ ((hue n).trans (setEnt_ent_self _ _ _))
  refine ⟨t, ⟨hx, answers_ends hA fun m hm => (hue m).trans (setEnt_ent_ne _ _ hm)⟩, ?_⟩
  unfold State.port at hdue ⊢
  rw [hA.ports]
  exact hdue

end Sys2Proof.Safety
end

section
/-! The settlement of O33. -/

namespace Sys2Proof.Safety

open Sys2Proof.Machine

variable {s t u : State} {i : Fin 17} {n : Nat} {e : Trk} {o : SvcOp} {op qop : ReqOp} {c : BitVec 8} {k : Nat} {q : QDesc}

/-- The transaction's result, where its operation changes nothing of the slice. -/
def Told (s : State) (i : Fin 17) (n : Nat) (e : Trk) (info : BitVec 16) (st : Status) : Prop :=
  ∃ t, ResultIn s i n e ⟨info, st, none⟩ t ∧ t.ports = s.ports ∧ (t.slice i).ar = (s.slice i).ar ∧ (t.slice i).resv = (s.slice i).resv ∧
    (t.slice i).mem = (s.slice i).mem

/-- `QWatch` at its commit (R325). -/
theorem Waits.qWatch (h : Waits i n e o op s) (ho : reqOpOf o.opc = some .qWatch) {a : ReqArgs} (ha : a = (e.asSent o).r.a)
    (hq : s.queueFor i a = (c, some (k, q))) :
    (a.arg.getLsbD 28 = true → (q.threshold ≤ q.count → Told s i n e 1 .ok) ∧
      (q.count < q.threshold → s.watched q a = true → Told s i n e 0 .busy) ∧
      (q.count < q.threshold → s.watched q a = false → ∃ t, ResultIn s i n e ⟨0, .ok, none⟩ t ∧
        (t.slice i).desc k = { q with wv := true, wagt := a.src, watag := a.atag, wgen := a.gen } ∧ t.ports = s.ports)) ∧
    (a.arg.getLsbD 28 = false → ((q.wv && q.wagt == a.src) = false → Told s i n e 2 .ok) ∧
      ((q.wv && q.wagt == a.src) = true → ∃ t, ResultIn s i n e ⟨0, if q.wgen == (s.part q.part).gen then .ok else .stalegen, none⟩ t ∧
        (t.slice i).desc k = { q with wv := false } ∧ t.ports = s.ports)) := by
  subst ha
  refine ⟨fun harm => ⟨fun h1 => ?_, fun h1 h2 => ?_, fun h1 h2 => ?_⟩, fun harm => ⟨fun h1 => ?_, fun h1 => ?_⟩⟩
  · exact h.tells ho (congrArg some (qWatch_met hq harm h1)) (leaves_self s i)
  · exact h.tells ho (congrArg some (qWatch_busy hq harm h1 h2)) (leaves_self s i)
  · exact h.writes_desc ho (congrArg some (qWatch_arms hq harm h1 h2))
  · exact h.tells ho (congrArg some (qWatch_other hq harm h1)) (leaves_self s i)
  · exact h.writes_desc ho (congrArg some (qWatch_disarms hq harm h1))

/-- A `QDeq` of an empty queue (R324). -/
theorem Waits.qDeq_empty (h : Waits i n e o op s) (ho : reqOpOf o.opc = some .qDeq) (hq : s.queueFor i (e.asSent o).r.a = (c, some (k, q)))
    (h0 : q.count = 0) : Told s i n e 0 .busy :=
  h.tells ho (u := s) (r := .comp .busy 0) (by unfold State.svcOp; dsimp only; rw [Machine.qDeq_empty hq h0]) (leaves_self s i)

/-- `Resv` at its commit (R155). -/
theorem Waits.resv (h : Waits i n e o op s) (ho : reqOpOf o.opc = some .resv) {b : Bool} {info : BitVec 16} {st : Status}
    (hb : ((e.asSent o).r.a.arg.getLsbD 28 && !s.granuleOk e.r.a.pa) = b) (hr : (if b then .failed 0x06 else ⟨1, .ok, none⟩) = (⟨info, st, none⟩ : SvcRes)) :
    Told s i n e info st := by
  refine h.tells ho (u := s) (congrArg some (Prod.ext rfl ?_)) (leaves_self s i)
  rw [← hr, ← hb]
  rfl

/-- Settles O33: each operation of the service unit at its commit, and the memory events. -/
theorem servicesAndMemoryEvents : Obligations.ServicesAndMemoryEvents := by
  intro s i n e hq hb ha hf hi he hm
  refine ⟨fun me tm sv pc opc f0 op hst hsv hk => ?_, fun me tm pc l ms hst hmq hx => ?_, fun tm sv q pc l ms hst hmq hd hfw hg => ?_,
    fun tm sv q pc st ms hst hmq => ?_⟩
  · have hW : (opc == reqCode .atom && e.h.fetching && e.h.dh.isNone) = false → Waits i n.toNat e ⟨n.toNat, i, opc, f0⟩ op s := fun hh =>
      ⟨⟨hb, ha, hf, hi, he, hsv, rfl, rfl, hh⟩, hq, hk, ⟨_, _, _, _, hst⟩, hm⟩
    have W : ∀ {qop}, reqOpOf opc = some qop → qop ≠ .atom → Waits i n.toNat e ⟨n.toNat, i, opc, f0⟩ op s := fun ho hne =>
      hW (not_held (o := ⟨n.toNat, i, opc, f0⟩) ho hne _ _)
    intro ends done answers a own c old
    refine ⟨fun ho => (W ho nofun).lockAcq ho, fun ho => (W ho nofun).lockRel ho, fun qop ho hop => ⟨fun cause hqf => ?_, fun cause k q hqf => ⟨?_, ?_, ?_⟩⟩,
      fun ho h => (W ho nofun).resv ho h rfl, fun ho h => (W ho nofun).resv ho h rfl, fun ho => (W ho nofun).condWr ho,
      fun base cd p ho hl hc hp hd hdl => ?_⟩
    · exact (W ho (by rcases hop with rfl | rfl | rfl <;> nofun)).tells ho (svcOp_unnamed hqf hop) (leaves_self s i)
    · rintro rfl
      refine ⟨fun h => ?_, fun p l hne hlost hl hw hwb hp hc hd hdl heg => ?_⟩
      · exact (W ho nofun).tells ho (qEnq_full hqf h) (SvcLeaves.bump s i _ _ _)
      · exact (W ho nofun).qEnq_stores ho hqf hne hlost hl hw hwb hp hc hd hdl heg rfl
    · rintro rfl
      exact ⟨fun h => (W ho nofun).qDeq_empty ho hqf h, fun ch cla mir hne hlost hh hp hr hc => (W ho nofun).qDeq_reads ho hqf rfl hne hlost hh hp hr hc⟩
    · rintro rfl
      exact (W ho nofun).qWatch ho rfl hqf
    · exact (hW (by rw [show e.h.dh.isNone = false by unfold Trk.line at hl; cases hdh : e.h.dh with
        | none => rw [hdh] at hl; cases hl
        | some _ => rfl]; exact Bool.and_false _)).atom ho hl hc hp hd hdl
  · obtain ⟨t, hx, hT⟩ := hq.memTook (memEventStep_serves hi he hmq (by have := n.isLt; omega) hx hst hm)
    exact ⟨t, hx, hT.ent, hT.memq, hT.others, hT.ports, hT.chans, hT.dram, hT.glb⟩
  · obtain ⟨t, hx, hT⟩ := hq.memTook (memEventStep_takes hi he hmq rfl (by have := n.isLt; omega))
    refine ⟨t, hx, ?_, hT.memq, hT.rest, hT.others, hT.ports, hT.chans, hT.dram, hT.glb, hT.flt, hT.par, hT.regs⟩
    have hk := takeMem_fetch (l := l) (tid := n.toNat) hd hfw hg
    rw [hT.ent, takeMem_wake (k := e.takeMem ⟨n.toNat, .ok, some l, true⟩) (st := .ok) (b := true) (e := e) (by rw [hk]; exact hst) hm (by rw [hk]), hk]
    rfl
  · obtain ⟨t, hx, hT⟩ := hq.memTook (memEventStep_takes hi he hmq rfl (by have := n.isLt; omega))
    refine ⟨t, hx, ?_, hT.memq, hT.rest, hT.others, hT.ports, hT.chans, hT.dram, hT.glb, hT.flt, hT.par, hT.regs⟩
    have hk : e.takeMem ⟨n.toNat, st, none, false⟩ = { e with m := { e.m with memEv := e.m.memEv ++ [(st, false)] } } := rfl
    rw [hT.ent, takeMem_wake (k := e.takeMem ⟨n.toNat, st, none, false⟩) (st := st) (b := false) (e := e) (by rw [hk]; exact hst) hm (by rw [hk]), hk]
    cases st <;> rfl

end Sys2Proof.Safety
end

section
/-! CORR and UNCOR events at the fault collector (R351, R352, R374), and on what O44 turns: where the wrapper, under WS_EXTEST or WS_CLAMP
in a cold reset, hands `efk_fault_n` to its boundary cell, the output shows the free value `Config.boundaryCell 1` (log entry 83). O44
asks there for the level that a severe source asserts, and so follows neither way from the model. -/

namespace Sys2Proof.Machine

variable {s t : State} {n : Nat}

theorem mem_of_tabGet {α : Type} {d v : α} {x : Tab α} (h : tabGet d x n = v) (hd : v ≠ d) : ∃ e ∈ x, e.2 = v := by
  induction x with
  | nil => exact absurd h.symm hd
  | cons a x ih =>
    obtain ⟨j, w⟩ := a
    unfold tabGet at h
    split at h
    · exact ⟨_, List.mem_cons_self, h⟩
    · obtain ⟨e, he, hv⟩ := ih h
      exact ⟨e, List.mem_cons_of_mem _ he, hv⟩

/-- A severe source that is not acknowledged stands unacknowledged (R354). -/
theorem unacked_of_src (hs : (s.src n).severe = true) (ha : (s.src n).acked = false) : s.unacked = true := by
  obtain ⟨e, he, hv⟩ := mem_of_tabGet (v := s.src n) (rfl : tabGet .zero s.flt.src n = s.src n) fun h => by rw [h] at hs; cases hs
  exact List.any_eq_true.2 ⟨e, he, by rw [hv, hs, ha]; rfl⟩

@[simp] theorem count1_acked (x : Src) (u : Bool) : (x.count1 u).acked = x.acked := by
  unfold Src.count1
  repeat' split
  all_goals rfl

theorem log_room (h : s.flt.log.length < 256) (ty : BitVec 8) (n : Nat) (q : PartId) (pa : LineAddr) :
    s.log ty n q pa = s.modFlt fun f => { f with log := f.log ++ [⟨ty, BitVec.ofNat 7 n, srcAg n, q, pa, s.now⟩] } := Safety.logEnt_room h _

/-- In a log with room an UNCOR event counts no lost entry. -/
theorem uncorEv_regs (q : PartId) (pa : LineAddr) (hm : (s.src n).severe = false) (hr : s.flt.log.length < 255) : (s.uncorEv n q pa).regs = s.regs := by
  obtain ⟨u, hu⟩ : ∃ u, u = s.modSrc n fun x => { (x.count1 true) with corrOnly := false } := ⟨_, rfl⟩
  have hul : u.flt.log = s.flt.log := by rw [hu]; rfl
  obtain ⟨v, hv⟩ : ∃ v, v = u.log 0x02 n q pa := ⟨_, rfl⟩
  have hvl : v.flt.log.length = s.flt.log.length + 1 := by
    rw [hv, log_log _ _ _ _ (by rw [hul]; omega), hul, List.length_append]
    rfl
  have hvs : (v.src n).severe = false := by
    rw [hv, State.log, logEnt_src, hu, modSrc_src_self, count1_severe]
    exact hm
  have hvr : v.regs = s.regs := by
    rw [hv, log_room (by rw [hul]; omega), hu]
    rfl
  rw [uncorEv_eq q pa (uncorLeaves_of_mild hm), ← hu, ← hv, makeSevere_of_mild hvs,
    log_room (s := v.modSrc n fun x => { x with severe := true }) (show v.flt.log.length < 256 by omega)]
  exact hvr

end Sys2Proof.Machine

namespace Sys2Proof.Safety

open Sys2Proof.Machine

variable {s : State} {n : Nat}

/-- The sources that are slices are the first ones. -/
theorem eq_of_unitOf_slice {i : Fin 17} (h : unitOf n = .slice i) : n = srcSlice i := by
  unfold unitOf at h
  split at h
  · next hn =>
    rw [← FltUnit.slice.inj h]
    exact (Nat.mod_eq_of_lt hn).symm
  · split_ifs at h

/-- An action that FLT_ACTCFG does not set is none; a slice that serves a home has no other (R352). -/
theorem dueAct_none (hs : ∀ i : Fin 17, n = i.val → s.homesOf i ≠ [] ∧ s.fld 59 0x104 7 6 ≠ 1) (hp : s.fld 59 0x104 5 4 = 0)
    (hc : s.fld 59 0x104 3 2 = 0) (ha : s.fld 59 0x104 1 0 = 0) : s.dueAct n = s := by
  cases hu : unitOf n with
  | slice i =>
    obtain rfl := eq_of_unitOf_slice hu
    obtain ⟨h1, h2⟩ := hs i rfl
    exact dueAct_slice h2 h1
  | port p => simp [State.dueAct, hu, hp]
  | chan k => simp [State.dueAct, hu, hc]
  | agent a => simp [State.dueAct, hu, ha]
  | net => simp [State.dueAct, hu]
  | none => simp [State.dueAct, hu]

/-- A CORR event that stays mild changes its source's record, and is logged where it is the first of its window. -/
theorem corrEvent_mild {src : BitVec 7} (hq : Quiet s) (hm : mild s src.toNat) : exec (.corrEvent src) s = .next (
    let t := s.modSrc src.toNat fun x => { (x.count1 false) with
      count := corrCount s src.toNat, ws := if firstOfWindow s src.toNat then s.now else x.ws }
    if firstOfWindow s src.toNat then t.log 0x01 src.toNat else t).setPins := by
  have hk : EventOnly s (s.corrEv src.toNat) := by
    obtain ⟨r, l, x, h, -⟩ := corrEv_mild_frame 0 0 hm
    exact ⟨r, l, x, s.flt.due, h⟩
  obtain ⟨r, l, x, d, hf⟩ := hk
  have he : exec (.corrEvent src) s = .next (s.corrEv src.toNat).setPins :=
    (hq.corrEvOf 0 0 hm).ends rfl (by rw [hf]) (by rw [hf])
  rw [he, corrEv_mild _ hm]

/-- The boundary cell of `efk_fault_n` holds the level that a severe source asserts. -/
def faultCellLow : Prop := Config.boundaryCell 1 = false

/-- What an UNCOR event leaves of a source that was not severe, where FLT_ACTCFG sets no action. -/
theorem uncorEvent_severe {src : BitVec 7} (hq : Quiet s) (hs : ∀ i : Fin 17, src.toNat = i.val → s.homesOf i ≠ [] ∧ s.fld 59 0x104 7 6 ≠ 1)
    (hp : s.fld 59 0x104 5 4 = 0) (hc : s.fld 59 0x104 3 2 = 0) (ha : s.fld 59 0x104 1 0 = 0) (hm : (s.src src.toNat).severe = false)
    (hr : s.flt.log.length ≤ 254) :
    exec (.uncorEvent src) s = .next ((s.uncorEv src.toNat).modFlt fun f => { f with due := [] }).setPins := by
  have hl := uncorLeaves_of_mild hm
  have hregs := uncorEv_regs (s := s) 0 0 hm (by omega)
  obtain ⟨r, l, x, d, hf⟩ := EventOnly.uncorEv s src.toNat 0 0
  have hr' : r = s.regs := by
    rw [hf] at hregs
    exact hregs
  refine (hq.uncorEvent src.toNat 0 0).endsDue (s := s) (n := src.toNat) (t := s.uncorEv src.toNat) ?_ rfl ?_ (by rw [hf]; rfl) (by rw [hf]; rfl)
  · rw [uncorEv_due 0 0 hl, hm, hq.due]
    rfl
  · refine dueAct_none ?_ ?_ ?_ ?_
    · rw [hf, hr']
      exact hs
    · rw [hf, hr']
      exact hp
    · rw [hf, hr']
      exact hc
    · rw [hf, hr']
      exact ha

/-- A cold reset with WS_EXTEST in force, and FLT_ACTCFG written so that no action is set. -/
def resetInExtest : State := ({ State.reset with tst := { State.reset.tst with wir := 1 } } : State).setReg 59 0x41 0

theorem resetInExtest_quiet : Quiet resetInExtest :=
  (Keeps.setReg _ 59 0x41 0 (by unfold watched; omega)).quiet
    (quiet_reset.mono rfl rfl rfl quiet_reset.load quiet_reset.job quiet_reset.gc rfl rfl rfl rfl rfl (fun _ => ⟨rfl, fun _ => .inl⟩)
      (fun _ => ⟨rfl, rfl⟩) ⟨rfl, rfl⟩ rfl ⟨rfl, rfl⟩ rfl quiet_reset.reads)

theorem resetInExtest_actcfg (hi lo : Nat) : resetInExtest.fld 59 0x104 hi lo = 0 := by
  unfold State.fld resetInExtest
  rw [setReg_reg_self]
  simp

/-- O44 says of the free value what no rule says: it holds exactly where the boundary cell of `efk_fault_n` happens to hold it low. -/
theorem corrAndUncorEvents_iff_cell : Obligations.CorrAndUncorEvents ↔ faultCellLow := by
  constructor
  · intro h
    have hs : ∀ i : Fin 17, (57 : BitVec 7).toNat = i.val → resetInExtest.homesOf i ≠ [] ∧ resetInExtest.fld 59 0x104 7 6 ≠ 1 := fun i hi => by
      have := i.isLt
      change 57 = i.val at hi
      omega
    have ha := resetInExtest_actcfg
    obtain ⟨t, ht, -, -, -, -, -, -, hf, -⟩ := h.2 resetInExtest 57 resetInExtest_quiet hs (ha 5 4) (ha 3 2) (ha 1 0) rfl rfl (by decide)
    have he := uncorEvent_severe (src := 57) resetInExtest_quiet hs (ha 5 4) (ha 3 2) (ha 1 0) rfl (by decide)
    obtain rfl := Host.Outcome.next.inj (ht.symm.trans he)
    exact hf
  · intro hcell
    refine ⟨fun s src hq hm => corrEvent_mild hq hm, fun s src hq hs hp hc ha hm hk hr => ?_⟩
    obtain ⟨t, ht⟩ : ∃ t, t = (s.uncorEv src.toNat).modFlt fun f => { f with due := [] } := ⟨_, rfl⟩
    have hl := uncorLeaves_of_mild hm
    have hsrc : ∀ m, t.src m = if m = src.toNat then (s.src src.toNat).uncored else s.src m := fun m => by
      rw [ht]
      exact uncorEv_src 0 0 hl m
    have hself : t.src src.toNat = (s.src src.toNat).uncored := by rw [hsrc, if_pos rfl]
    have hregs : t.regs = s.regs := by
      rw [ht]
      exact uncorEv_regs 0 0 hm (by omega)
    have hlog : t.flt.log = s.flt.log ++ [⟨0x02, src, srcAg src.toNat, 0, 0, s.now⟩, ⟨0x03, src, srcAg src.toNat, 0, 0, s.now⟩] := by
      rw [ht]
      refine (uncorEv_log 0 0 hm (by omega)).trans ?_
      rw [BitVec.ofNat_toNat, BitVec.setWidth_eq]
    have hun : t.unacked = true := unacked_of_src (n := src.toNat) (by rw [hself]; rfl) (by rw [hself]; exact (count1_acked _ _).trans hk)
    have hpin : t.setPins.pins.faultN = false := by
      change (if t.cellsDrive then Config.boundaryCell 1 else !t.unacked) = false
      rw [hun, show Config.boundaryCell 1 = false from hcell]
      exact ite_self _
    obtain ⟨r, l, x, d, hf⟩ := EventOnly.uncorEv s src.toNat 0 0
    have hrest : t.flt.run = s.flt.run ∧ t.flt.due = [] ∧ t.glb = s.glb ∧ t.slices = s.slices ∧ t.ports = s.ports ∧ t.chans = s.chans ∧
        t.dram = s.dram ∧ t.par = s.par := by
      rw [ht, hf]
      exact ⟨rfl, rfl, rfl, rfl, rfl, rfl, rfl, rfl⟩
    obtain ⟨h1, h2, h3, h4, h5, h6, h7, h8⟩ := hrest
    have he := uncorEvent_severe hq hs hp hc ha hm hr
    rw [← ht] at he
    exact ⟨_, he, congrArg Src.severe hself, (congrArg Src.fenced hself).trans (count1_fenced _ _), (congrArg Src.uncor hself).trans rfl,
      fun m hm => (hsrc m).trans (if_neg hm), hlog, h2, hpin, h1, hregs, h3, h4, h5, h6, h7, h8⟩

end Sys2Proof.Safety
end
